-- ==== Sys2Proof/Word.lean ====
section
/-!
DEFINITION. Sys2Proof/Word.lean: the word types of the machine and nothing more.
-/

namespace Sys2Proof

/-- One byte of memory (R4). -/
abbrev Byte := BitVec 8
/-- An instruction word, a vector lane (R4, R216). -/
abbrev W32 := BitVec 32
/-- A scalar register (R155). -/
abbrev W64 := BitVec 64
/-- A vector register: 64 lanes of 32 bits (R216). -/
abbrev VReg := BitVec 2048

end Sys2Proof
end

