-- ==== Sys2Proof/Syntax.lean ====
section
/-!
DEFINITION. Sys2Proof/Syntax.lean: every row of the opcode table as a constructor of `Instr`. Rows 0-160 carry
the fields of their instruction format by the spec's names (R171, R172); rows 161-271 are the steps of the
device's other agents, which have no encoding and carry the identity of what they act on. Where the spec leaves
an outcome to the environment (a sensor's sample, a self-test's verdict), it is an argument of the event (log 19).
-/

namespace Sys2Proof

/-- R3 (R171): rd, rs1, rs2, w1, w2; fn is the constructor's. -/
structure R3F where
  rd : BitVec 6
  rs1 : BitVec 6
  rs2 : BitVec 6
  w1 : Bool
  w2 : Bool
  deriving DecidableEq, Repr

/-- I12 (R171): rd, rs1, w1, imm12. -/
structure I12F where
  rd : BitVec 6
  rs1 : BitVec 6
  w1 : Bool
  imm12 : BitVec 12
  deriving DecidableEq, Repr

/-- The atomics (R180): the major's low bits are the ordering qualifier, `z` is fn[4] (32 bits). -/
structure AmoF where
  ord : BitVec 2
  z : Bool
  r : R3F
  deriving DecidableEq, Repr

/-- U19 (R171). -/
structure U19F where
  rd : BitVec 6
  imm19 : BitVec 19
  deriving DecidableEq, Repr

/-- BC (R171). -/
structure BcF where
  cond : BitVec 3
  w1 : Bool
  rs1 : BitVec 6
  off15 : BitVec 15
  deriving DecidableEq, Repr

/-- J25 (R171). -/
structure J25F where
  off25 : BitVec 25
  deriving DecidableEq, Repr

/-- LP (R171); `res` is bits [17:16]. -/
structure LpF where
  rs1 : BitVec 6
  w1 : Bool
  res : BitVec 2
  off16 : BitVec 16
  deriving DecidableEq, Repr

/-- SYS (R171). -/
structure SysF where
  rd : BitVec 6
  rs1 : BitVec 6
  sel13 : BitVec 13
  deriving DecidableEq, Repr

/-- V (R172); major and fn6 are the constructor's. -/
structure VF where
  vd : BitVec 6
  vs1 : BitVec 6
  vs2 : BitVec 6
  vs3 : BitVec 6
  pm : BitVec 3
  w1 : Bool
  w2 : Bool
  w3 : Bool
  zm : Bool
  ty4 : BitVec 4
  rnd3 : BitVec 3
  imm13 : BitVec 13
  deriving DecidableEq, Repr

/-- E (R172); `x` is word 1 [25:0], fn6 is the constructor's. -/
structure EF where
  rd : BitVec 6
  rs1 : BitVec 6
  rs2 : BitVec 6
  rs3 : BitVec 6
  w : Bool
  x : BitVec 26
  deriving DecidableEq, Repr

/-- L (R172); `res` is word 0 [5:0]. -/
structure LF where
  rd : BitVec 6
  rs1 : BitVec 6
  w1 : Bool
  res : BitVec 6
  imm32 : BitVec 32
  deriving DecidableEq, Repr

/-- LX (R172); `res` is word 0 [10:0]. -/
structure LxF where
  rs1 : BitVec 6
  rs2 : BitVec 6
  w1 : Bool
  w2 : Bool
  res : BitVec 11
  simm16 : BitVec 16
  off16 : BitVec 16
  deriving DecidableEq, Repr

/-- A CP or AP stream of a context of a core (R26, R133). -/
structure StreamId where
  core : Nat
  ctx : Nat
  ap : Bool
  deriving DecidableEq, Repr

/-- One piece of an access: `len` bytes at physical address `pa`, at byte `off` of the access's data; `dev` is
the remote device plus one, or 0 for this device (R41, R46). -/
structure Seg where
  pa : Nat
  len : Nat
  off : Nat
  dev : Nat := 0
  deriving DecidableEq, Repr

/-- The atomic operations (R180). -/
inductive AmoOp where
  | add | minS | minZ | maxS | maxZ | and | or | xchg | snap | cas
  deriving DecidableEq, Repr

/-- The fibre operations (R251, R255). -/
inductive FOp where
  /-- Merges `(coordinate, value)` under an OP, 8 for the header's; `vt` is the values' format, 16 for the
  header's FMT (FINS, FCMB, FMRGV). `lanes` are those not yet applied. -/
  | merge (op vt : Nat) (lanes : List (Nat × W64))
  | delete (c : Nat)
  | init (cap maxc pool fmt op : Nat) (zp : Bool)
  | pack
  | len
  | probe (c : Nat)
  | probev (coords : VReg) (mask : BitVec 64)
  /-- FSCAN: next coordinate, entries still to read, queue (8 for memory), the next virtual address to write, the
  virtual base and the place of the page translated last, and the words read and not yet delivered. -/
  | scan (next left : Nat) (queue : Nat) (dst pageVa : Nat) (page : Seg) (buf : List W64)
  /-- FUNION: the A and B headers, their virtual addresses, op, zp, the stamp's word, the next coordinate, the stamp's
  virtual address (0 for none), its sequence number. -/
  | union (hA hB : Seg) (vaA vaB : Nat) (op : Nat) (zp : Bool) (stamp : Seg) (next stampVa seq : Nat)
  deriving DecidableEq, Repr

/-- What the scrubber finds in a unit or word (R381, R385). -/
inductive EccResult where
  | clean
  | corrected
  | uncorrectable
  deriving DecidableEq, Repr

/-- How a stack's start goes (R370): its temperature in 1/16 °C, and whether full training, if run, succeeds. -/
structure Training where
  temperature : Int
  trains : Bool
  deriving DecidableEq, Repr

/-- What the environment decides of a start (R363, R372): which reads of the flash go without error: the first-stage image
(step 2), the helper data (step 3), the configuration records (step 4). -/
structure StartEnv where
  imageReads : Bool
  helperReads : Bool
  recordsRead : Bool
  deriving DecidableEq, Repr

/-- What a flit of a remote device asks of this one (R144); `tag` is the remote device's number of its request, under
which the response goes back. -/
inductive RemoteOp where
  /-- No request: idle, or the end of a response. -/
  | none
  | store (pa : Nat) (bytes : List Byte)
  | load (pa len tag : Nat)
  | atomic (op : AmoOp) (pa len : Nat) (b e : W64) (tag : Nat)
  /-- A fibre operation on a header here. -/
  | fibre (hdr : Nat) (op : FOp) (tag : Nat)
  /-- A barrier member: 0 BAR.INIT, 1 BAR.ARR, 2 BAR.WAIT's read, with its operand (R250). -/
  | barrier (pa member : Nat) (v : W64) (tag : Nat)
  /-- A write at the remote home to the word that a stream here monitors (R247). -/
  | hit (who : StreamId)
  deriving DecidableEq, Repr

/-- A flit that arrives on a lane group (R145): from which device, its sequence number on the group, whether its CRC
holds, and the request it carries. -/
structure Flit where
  group : Nat
  lane : Nat
  dev : Nat
  seq : Nat
  crcOk : Bool
  request : RemoteOp
  deriving DecidableEq, Repr

/-- What a host's reply of OP 10 carries beside its session and SEQ (R331, R395). -/
structure Ack where
  addr : W64
  status : Nat
  tag : Nat
  deriving DecidableEq, Repr

/-- An HQT request (R331), and the Ethernet port it arrives on (R330). -/
structure Datagram where
  port : Nat
  ver : BitVec 8
  op : BitVec 8
  session : BitVec 32
  seq : W64
  addr : W64
  len : BitVec 16
  payload : List Byte
  tag : Nat
  deriving DecidableEq, Repr

/-- The payload of a HELLO request (R333), and the Ethernet port it arrives on. -/
structure Hello where
  port : Nat
  driver : Bool
  asid : BitVec 16
  prio : BitVec 3
  nonce : List Byte
  ek : List Byte
  grant : BitVec 32
  key : List Byte
  sig : List Byte
  deriving DecidableEq, Repr

/-- The instructions and steps of the opcode table, one constructor for each row, in the table's order. -/
inductive Instr where
  /-- ADD (R188). -/
  | add (f : R3F)
  /-- SUB (R188). -/
  | sub (f : R3F)
  /-- AND (R188). -/
  | and (f : R3F)
  /-- ANDN (R188). -/
  | andn (f : R3F)
  /-- OR (R188). -/
  | or (f : R3F)
  /-- XOR (R188). -/
  | xor (f : R3F)
  /-- SHL (R188). -/
  | shl (f : R3F)
  /-- SHR (R188). -/
  | shr (f : R3F)
  /-- SRA (R188). -/
  | sra (f : R3F)
  /-- CLZ (R188). -/
  | clz (f : R3F)
  /-- POPC (R188). -/
  | popc (f : R3F)
  /-- MUL (R189). -/
  | mul (f : R3F)
  /-- MULH_S64 (R189). -/
  | mulhS64 (f : R3F)
  /-- MULH_Z64 (R189). -/
  | mulhZ64 (f : R3F)
  /-- DIV_S64 (R189). -/
  | divS64 (f : R3F)
  /-- DIV_Z64 (R189). -/
  | divZ64 (f : R3F)
  /-- REM_S64 (R189). -/
  | remS64 (f : R3F)
  /-- REM_Z64 (R189). -/
  | remZ64 (f : R3F)
  /-- MIN_S64 (R190). -/
  | minS64 (f : R3F)
  /-- MIN_Z64 (R190). -/
  | minZ64 (f : R3F)
  /-- MAX_S64 (R190). -/
  | maxS64 (f : R3F)
  /-- MAX_Z64 (R190). -/
  | maxZ64 (f : R3F)
  /-- SLT_S64 (R190). -/
  | sltS64 (f : R3F)
  /-- SLT_Z64 (R190). -/
  | sltZ64 (f : R3F)
  /-- SLTZ (R190). -/
  | sltz (f : R3F)
  /-- SEL (R190). -/
  | sel (f : R3F)
  /-- LEA (R191). -/
  | lea (sc : BitVec 2) (f : R3F)
  /-- SETE (R192). -/
  | sete (f : R3F)
  /-- SETF (R192). -/
  | setf (f : R3F)
  /-- TESTFE (R192). -/
  | testfe (f : R3F)
  /-- ADDI (R194). -/
  | addi (f : I12F)
  /-- ANDI (R194). -/
  | andi (f : I12F)
  /-- ORI (R194). -/
  | ori (f : I12F)
  /-- XORI (R194). -/
  | xori (f : I12F)
  /-- SHLI (R179). -/
  | shli (f : I12F)
  /-- SHRI (R179). -/
  | shri (f : I12F)
  /-- SRAI (R179). -/
  | srai (f : I12F)
  /-- SLTI (R194). -/
  | slti (f : I12F)
  /-- LUI (R195). -/
  | lui (f : U19F)
  /-- BC (R197). -/
  | bc (f : BcF)
  /-- LOOP (R203). -/
  | loop (f : LpF)
  /-- JMP (R198). -/
  | jmp (f : J25F)
  /-- CALL (R199). -/
  | call (f : J25F)
  /-- JMPR (R198). -/
  | jmpr (f : R3F)
  /-- CALLR (R199). -/
  | callr (f : R3F)
  /-- RET (R200). -/
  | ret (f : R3F)
  /-- FIRE_END (R208). -/
  | fireEnd (f : R3F)
  /-- YIELD (R209). -/
  | yield (f : R3F)
  /-- LD8 (R239). -/
  | ld8 (f : I12F)
  /-- LD16 (R239). -/
  | ld16 (f : I12F)
  /-- LD32 (R239). -/
  | ld32 (f : I12F)
  /-- LD64 (R239). -/
  | ld64 (f : I12F)
  /-- ST8 (R239). -/
  | st8 (f : I12F)
  /-- ST16 (R239). -/
  | st16 (f : I12F)
  /-- ST32 (R239). -/
  | st32 (f : I12F)
  /-- ST64 (R239). -/
  | st64 (f : I12F)
  /-- AMOADD (R245). -/
  | amoadd (f : AmoF)
  /-- AMOMIN_S (R245). -/
  | amominS (f : AmoF)
  /-- AMOMIN_Z (R245). -/
  | amominZ (f : AmoF)
  /-- AMOMAX_S (R245). -/
  | amomaxS (f : AmoF)
  /-- AMOMAX_Z (R245). -/
  | amomaxZ (f : AmoF)
  /-- AMOAND (R245). -/
  | amoand (f : AmoF)
  /-- AMOOR (R245). -/
  | amoor (f : AmoF)
  /-- AMOXCHG (R245). -/
  | amoxchg (f : AmoF)
  /-- AMOSNAP (R245). -/
  | amosnap (f : AmoF)
  /-- AMOCAS (R245). -/
  | amocas (f : AmoF)
  /-- FENCE_CORE (R142). -/
  | fenceCore (f : R3F)
  /-- FENCE_CLUSTER (R142). -/
  | fenceCluster (f : R3F)
  /-- FENCE_DEVICE (R142). -/
  | fenceDevice (f : R3F)
  /-- FENCE_DOMAIN (R142). -/
  | fenceDomain (f : R3F)
  /-- FENCE_ENG (R147). -/
  | fenceEng (f : R3F)
  /-- MARM (R247). -/
  | marm (f : R3F)
  /-- MWAIT (R248). -/
  | mwait (f : R3F)
  /-- MWAIT_ACQ (R248). -/
  | mwaitAcq (f : R3F)
  /-- FINIT (R252). -/
  | finit (f : R3F)
  /-- FLEN (R251). -/
  | flen (f : R3F)
  /-- FPROBE (R253). -/
  | fprobe (f : R3F)
  /-- FDEL (R62). -/
  | fdel (f : R3F)
  /-- FPACK (R254). -/
  | fpack (f : R3F)
  /-- FINS (R253). -/
  | fins (f : R3F)
  /-- FCMB (R181). -/
  | fcmb (op : BitVec 3) (f : R3F)
  /-- MFSR (R210). -/
  | mfsr (f : SysF)
  /-- MTSR (R211). -/
  | mtsr (f : SysF)
  /-- NOP (R214). -/
  | nop (f : R3F)
  /-- ERET (R213). -/
  | eret (f : R3F)
  /-- WDRAIN (R158). -/
  | wdrain (f : R3F)
  /-- HALT (R215). -/
  | halt (f : R3F)
  /-- TRAP (R212). -/
  | trap (f : I12F)
  /-- BAR_INIT (R250). -/
  | barInit (f : R3F)
  /-- BAR_ARR (R250). -/
  | barArr (f : R3F)
  /-- BAR_WAIT (R250). -/
  | barWait (f : R3F)
  /-- LI (R196). -/
  | li (f : LF)
  /-- LIH (R196). -/
  | lih (f : LF)
  /-- ADDL (R196). -/
  | addl (f : LF)
  /-- LOOPI (R204). -/
  | loopi (f : LxF)
  /-- VADD (R222). -/
  | vadd (f : VF)
  /-- VSUB (R222). -/
  | vsub (f : VF)
  /-- VMUL (R222). -/
  | vmul (f : VF)
  /-- VFMA (R222). -/
  | vfma (f : VF)
  /-- VMIN (R222). -/
  | vmin (f : VF)
  /-- VMAX (R222). -/
  | vmax (f : VF)
  /-- VABS (R222). -/
  | vabs (f : VF)
  /-- VNEG (R222). -/
  | vneg (f : VF)
  /-- VAND (R223). -/
  | vand (f : VF)
  /-- VOR (R223). -/
  | vor (f : VF)
  /-- VXOR (R223). -/
  | vxor (f : VF)
  /-- VSHL (R223). -/
  | vshl (f : VF)
  /-- VSHR (R223). -/
  | vshr (f : VF)
  /-- VSRA (R223). -/
  | vsra (f : VF)
  /-- VCMP (R224). -/
  | vcmp (f : VF)
  /-- VSEL (R225). -/
  | vsel (f : VF)
  /-- VMOV (R225). -/
  | vmov (f : VF)
  /-- VSPLAT (R225). -/
  | vsplat (f : VF)
  /-- VBCAST (R225). -/
  | vbcast (f : VF)
  /-- VPERM (R225). -/
  | vperm (f : VF)
  /-- VINS (R225). -/
  | vins (f : VF)
  /-- VEXT (R225). -/
  | vext (f : VF)
  /-- VRED (R226). -/
  | vred (f : VF)
  /-- VSCAN (R227). -/
  | vscan (f : VF)
  /-- VHIST (R228). -/
  | vhist (f : VF)
  /-- VEXP2 (R230). -/
  | vexp2 (f : VF)
  /-- VRCP (R230). -/
  | vrcp (f : VF)
  /-- VRSQ (R230). -/
  | vrsq (f : VF)
  /-- VLOG2 (R230). -/
  | vlog2 (f : VF)
  /-- PAND (R232). -/
  | pand (f : VF)
  /-- POR (R232). -/
  | por (f : VF)
  /-- PNOT (R232). -/
  | pnot (f : VF)
  /-- PCNT (R232). -/
  | pcnt (f : VF)
  /-- PFIRST (R232). -/
  | pfirst (f : VF)
  /-- LDV (R242). -/
  | ldv (f : VF)
  /-- STV (R243). -/
  | stv (f : VF)
  /-- LDVS (R242). -/
  | ldvs (f : VF)
  /-- GATHER (R242). -/
  | gather (f : VF)
  /-- SCATTER (R243). -/
  | scatter (f : VF)
  /-- QPUSH (R244). -/
  | qpush (f : VF)
  /-- VCVT (R233). -/
  | vcvt (f : VF)
  /-- VQMX (R234). -/
  | vqmx (f : VF)
  /-- VDQMX (R235). -/
  | vdqmx (f : VF)
  /-- VLUT (R236). -/
  | vlut (f : VF)
  /-- MLDB (R262). -/
  | mldb (f : EF)
  /-- MLDM (R263). -/
  | mldm (f : EF)
  /-- MMA (R264). -/
  | mma (f : EF)
  /-- MMA_S (R265). -/
  | mmaS (f : EF)
  /-- MCLR (R266). -/
  | mclr (f : EF)
  /-- MRD (R267). -/
  | mrd (f : EF)
  /-- TDCLASS (R268). -/
  | tdclass (f : EF)
  /-- TDQUERY (R268). -/
  | tdquery (f : EF)
  /-- MTEST (R269). -/
  | mtest (f : EF)
  /-- CPY (R277). -/
  | cpy (f : EF)
  /-- CPYSTAT (R279). -/
  | cpystat (f : EF)
  /-- CPYCANCEL (R280). -/
  | cpycancel (f : EF)
  /-- CHPUSH (R284). -/
  | chpush (f : EF)
  /-- CHPOP (R286). -/
  | chpop (f : EF)
  /-- CHPEEK (R287). -/
  | chpeek (f : EF)
  /-- CHMARK (R285). -/
  | chmark (f : EF)
  /-- CHSTAT (R288). -/
  | chstat (f : EF)
  /-- CBLOAD (R289). -/
  | cbload (f : EF)
  /-- FMRGV (R256). -/
  | fmrgv (f : EF)
  /-- FSCAN (R258). -/
  | fscan (f : EF)
  /-- FPROBEV (R257). -/
  | fprobev (f : EF)
  /-- FUNION (R259). -/
  | funion (f : EF)
  /-- ASYNC_TRAP (R346). -/
  | asyncTrap (who : StreamId)
  /-- REGISTER_FILL (R160). -/
  | registerFill (id : Nat)
  /-- HELD_WRITE_DELIVERY (R48). -/
  | heldWriteDelivery (core idx : Nat)
  /-- WINDOW_WRITE (R48). -/
  | windowWrite (id : Nat)
  /-- SPILL_WRITE (R157). -/
  | spillWrite (core ctx : Nat)
  /-- FILL_ARRIVE (R157). -/
  | fillArrive (core ctx reg : Nat)
  /-- STORE_AT_HOME (R45). -/
  | storeAtHome (id : Nat)
  /-- LOAD_AT_HOME (R45). -/
  | loadAtHome (id : Nat)
  /-- ATOMIC_AT_HOME (R245). -/
  | atomicAtHome (id : Nat)
  /-- MONITOR_REGISTER (R247). -/
  | monitorRegister (id : Nat)
  /-- MWAIT_TIMEOUT (R248). -/
  | mwaitTimeout (who : StreamId)
  /-- FENCE_ACK (R142). -/
  | fenceAck (who : StreamId) (path : Nat)
  /-- MERGE_AT_HOME (R62). -/
  | mergeAtHome (id : Nat)
  /-- DELETE_AT_HOME (R62). -/
  | deleteAtHome (id : Nat)
  /-- FINIT_AT_HOME (R252). -/
  | finitAtHome (id : Nat)
  /-- FPACK_AT_HOME (R254). -/
  | fpackAtHome (id : Nat)
  /-- PROBE_AT_HOME (R253). -/
  | probeAtHome (id : Nat)
  /-- SCAN_AT_HOME (R258). -/
  | scanAtHome (id : Nat)
  /-- FUNION_AT_HOME (R259). -/
  | funionAtHome (id : Nat)
  /-- STALLED_MERGE_RESUME (R67). -/
  | stalledMergeResume (pool : Nat)
  /-- POOL_TIMEOUT (R67). -/
  | poolTimeout (pool : Nat)
  /-- DONATE (R66). -/
  | donate (pool : Nat) (v : W64) (drv : Bool)
  /-- POOL_RESET (R66). -/
  | poolReset (pool : Nat) (v : W64) (drv : Bool)
  /-- FAULTCTL_RESUME (R295). -/
  | faultctlResume (pool : Nat) (drv : Bool)
  /-- FAULTCTL_ABANDON (R68). -/
  | faultctlAbandon (pool : Nat) (drv : Bool)
  /-- SCHEDULING_EVENT (R28). -/
  | schedulingEvent (core launch : Nat)
  /-- CHANNEL_COMMIT (R118). -/
  | channelCommit (id : Nat)
  /-- CHANNEL_RELEASE (R118). -/
  | channelRelease (id : Nat)
  /-- TABLE_TOKEN_TAKE (R122). -/
  | tableTokenTake (core slot port : Nat)
  /-- EOS_FORWARD (R34). -/
  | eosForward (core slot : Nat)
  /-- INSTANCE_RETIRE (R34). -/
  | instanceRetire (core slot : Nat)
  /-- POISON_REINJECT (R383). -/
  | poisonReinject (core ch cons : Nat)
  /-- RATE_SAMPLE (R125). -/
  | rateSample (core ch : Nat)
  /-- RATE_PARAM_WRITE (R127). -/
  | rateParamWrite (core ch word : Nat) (v : W64) (drv : Bool)
  /-- SINK_DATA_SLOT (R35). -/
  | sinkDataSlot (core ch cons : Nat)
  /-- SINK_END_OF_STREAM (R35). -/
  | sinkEndOfStream (core ch cons : Nat)
  /-- MARKER_INJECT (R130). -/
  | markerInject (core slot : Nat)
  /-- SNAPSHOT_ALIGN (R130). -/
  | snapshotAlign (core slot : Nat)
  /-- SNAPSHOT_UNALIGNED_SWITCH (R131). -/
  | snapshotUnalignedSwitch (core slot : Nat)
  /-- UNALIGNED_MARKER_ARRIVE (R131). -/
  | unalignedMarkerArrive (core slot port : Nat)
  /-- SNAPREQ (R393). -/
  | snapreq (launch : Nat) (v : W64) (drv : Bool)
  /-- SNAPSHOT_COMPLETE (R393). -/
  | snapshotComplete (launch : Nat)
  /-- SNAPDATA_RESEND (R395). -/
  | snapdataResend (session seq : Nat)
  /-- SNAPDATA_SESSION_LOST (R395). -/
  | snapdataSessionLost (session : Nat)
  /-- SNAPDATA_ACK (R395): a host's reply of OP 10, with the TAG it carries (R331); it has no payload. -/
  | snapdataAck (session seq : Nat) (ack : Ack)
  /-- WATCHDOG (R33). -/
  | watchdog (launch : Nat)
  /-- LAUNCH_PACKET (R340). -/
  | launchPacket (die queue : Nat)
  /-- COPY_PACKET (R341). -/
  | copyPacket (die queue : Nat)
  /-- WAIT_STAMP_PACKET (R340). -/
  | waitStampPacket (die queue : Nat)
  /-- SIGNAL_PACKET (R340). -/
  | signalPacket (die queue : Nat)
  /-- LAUNCH_START (R23). -/
  | launchStart (launch : Nat)
  /-- LAUNCH_COMPLETION (R36). -/
  | launchCompletion (launch : Nat)
  /-- COMPLETION_STAMP (R36). -/
  | completionStamp (launch : Nat)
  /-- INTENSITY_WINDOW (R38): `cycles` and `bytes` are an outside reading of the window and change nothing, since the machine counts
  both itself. -/
  | intensityWindow (launch cycles bytes : Nat)
  /-- TILE_TASK_ISSUE (R109). -/
  | tileTaskIssue (core id : Nat)
  /-- TILE_TASK_COMPLETE (R109). -/
  | tileTaskComplete (core id : Nat)
  /-- SELF_TEST (R112). -/
  | selfTest (core slot : Nat) (pass : Bool)
  /-- SECTOR_ISSUE (R276). -/
  | sectorIssue (eng slot : Nat)
  /-- COPY_STAMP (R276). -/
  | copyStamp (eng slot : Nat)
  /-- COPY_CTRL_RESUME (R281). -/
  | copyCtrlResume (eng slot : Nat) (drv : Bool)
  /-- COPY_CTRL_ABANDON (R281). -/
  | copyCtrlAbandon (eng slot : Nat) (drv : Bool)
  /-- IENABLE (R31). -/
  | ienable (core slot : Nat) (v : W64)
  /-- LCTL_PREEMPT (R356). -/
  | lctlPreempt (launch : Nat) (drv : Bool)
  /-- PREEMPT_COMPLETE (R356). -/
  | preemptComplete (launch : Nat)
  /-- LCTL_RESUME (R358). -/
  | lctlResume (launch : Nat) (drv : Bool)
  /-- LCTL_KILL (R360). -/
  | lctlKill (launch : Nat) (drv : Bool)
  /-- KILL_STAMP (R360). -/
  | killStamp (launch : Nat)
  /-- LCORE_PREEMPT (R353). -/
  | lcorePreempt (launch core : Nat) (drv : Bool)
  /-- LCORE_RESUME (R353). -/
  | lcoreResume (launch core : Nat) (drv : Bool)
  /-- DOORBELL (R347). -/
  | doorbell (core : Nat) (v : W64) (drv : Bool)
  /-- TINV_VA (R350). -/
  | tinvVa (asid va : Nat) (drv : Bool)
  /-- TINV_ASID (R350). -/
  | tinvAsid (asid : Nat) (drv : Bool)
  /-- TINV_ALL (R350). -/
  | tinvAll (drv : Bool)
  /-- INVALIDATION_COMPLETE (R350). -/
  | invalidationComplete
  /-- TRANSLATION_WALK (R349). -/
  | translationWalk (id : Nat)
  /-- TILE_PAGE_TABLE_WRITE (R106). -/
  | tilePageTableWrite (m : Nat) (v : W64) (drv : Bool)
  /-- HASH_ROW_WRITE (R56). -/
  | hashRowWrite (row : Nat) (v : W64) (drv : Bool)
  /-- PINSIZE_WRITE (R55). -/
  | pinsizeWrite (v : W64) (drv : Bool)
  /-- PLANE_TABLE_WRITE (R58). -/
  | planeTableWrite (off : Nat) (v : W64) (drv : Bool)
  /-- PLANE_DEAD_SET (R388). -/
  | planeDeadSet (mask : BitVec 8) (drv : Bool)
  /-- QUIESCE_CLEAR (R388). -/
  | quiesceClear (drv : Bool)
  /-- LINK_FLIT (R145). -/
  | linkFlit (f : Flit)
  /-- MIGRATION_GO (R361). -/
  | migrationGo (m : Nat) (drv : Bool)
  /-- MIGRATION_SECTOR_COPY (R362). -/
  | migrationSectorCopy (m : Nat)
  /-- MIGRATION_CLR (R361). -/
  | migrationClr (m : Nat) (drv : Bool)
  /-- COUNTER_CLEAR (R374). -/
  | counterClear (addr : Nat) (v : W64)
  /-- REFRESH (R71). -/
  | refresh (stack : Nat) (splits : Bool)
  /-- SCRUB_READ (R385). -/
  | scrubRead (addr : Nat) (found : EccResult)
  /-- SCRUB_WRITEBACK (R385). -/
  | scrubWriteback (addr : Nat)
  /-- POWER_REQ_FULL (R390). -/
  | powerReqFull (drv : Bool)
  /-- POWER_REQ_HALF (R390). -/
  | powerReqHalf (drv : Bool)
  /-- POWER_REQ_IDLE (R390). -/
  | powerReqIdle (drv : Bool)
  /-- POWER_TRANSITION_DONE (R390). -/
  | powerTransitionDone
  /-- SENSOR_SAMPLE (R391). -/
  | sensorSample (sensor sample : Nat)
  /-- TELEMETRY_REFRESH (R392). -/
  | telemetryRefresh (words : List Nat)
  /-- POWER_UP (R363). -/
  | powerUp (env : StartEnv)
  /-- CLUSTER_START (R369). -/
  | clusterStart (k : Nat) (pass : Bool)
  /-- STACK_PAIR_START (R370). -/
  | stackPairStart (p : Nat) (lo hi : Training)
  /-- ATTESTATION_REPORT (R368). -/
  | attestationReport (session : Nat) (nonce : List Byte)
  /-- READ (R332). -/
  | read (d : Datagram)
  /-- WRITE (R332). -/
  | write (d : Datagram)
  /-- FADD (R332). -/
  | fadd (d : Datagram)
  /-- CAS (R332). -/
  | cas (d : Datagram)
  /-- CLOSE (R333). -/
  | close (d : Datagram)
  /-- HELLO (R333). -/
  | hello (h : Hello)
  /-- WATCH (R333). -/
  | watch (d : Datagram)
  /-- GRANT (R333). -/
  | grant (d : Datagram)
  /-- OTHER_FRAME (R330). -/
  | otherFrame (tags : Nat)
  /-- REGISTER_WRITE (R396). -/
  | registerWrite (addr size : Nat) (v : W64) (drv : Bool)
  /-- POWER_LOSS (R372). -/
  | powerLoss
  /-- UNALLOCATED_KIND_PACKET (R339). -/
  | unallocatedKindPacket (die queue : Nat)
  deriving DecidableEq, Repr

end Sys2Proof
end

