-- ==== Sys2Proof/Machine/State.lean ====
section
/-!
DEFINITION. Sys2Proof/Machine/State.lean: everything the spec gives the machine, as plain data, and `State.reset`.
Families of like things (cores, registers, table entries) are `Tbl`: sparse lists of key and value with keys
rising and no entry equal to the family's value at reset.
-/

namespace Sys2Proof.Machine

/-- A sparse family: keys strictly rising, no entry at the default value. -/
abbrev Tbl (α : Type) := List (Nat × α)

/-- Who issues an access (R133). -/
inductive Agent where
  | stream (who : StreamId)
  | copyEngine (eng slot : Nat)
  | launchProc (die : Nat)
  | session (n : Nat)
  | remote (dev : Nat)
  deriving DecidableEq, Repr

/-- What a request in flight asks of its home. -/
inductive ReqKind where
  | load
  | store
  | atomic (op : AmoOp) (b e : W64)
  /-- A monitor registration (R247). -/
  | monitor
  /-- A result that needs no home: only its delivery is outstanding (R160). -/
  | ready
  /-- An issued sector of a copy (R276). -/
  | sector (eng slot sec : Nat)
  /-- A whole register that a sector writes (R275, R48). -/
  | regWrite (eng slot sec : Nat)
  deriving DecidableEq, Repr

/-- Where the result of a long-latency producer goes (R160, R162). -/
inductive Dest where
  | none
  /-- Physical scalar register of R47's numbering. -/
  | scalar (p : Nat)
  /-- A vector register, its inactive lanes already in the request's data (R218). -/
  | vector (v : Nat)
  | queue (q : Nat)
  /-- A vector register and a predicate with its found flags (FPROBEV, R257). -/
  | probe (v p : Nat) (found : BitVec 64)
  /-- The codebook register (CBLOAD, R289). -/
  | codebook
  /-- A response to a remote device, under its own number of the request (R144). -/
  | link (dev tag : Nat)
  deriving DecidableEq, Repr

/-- Why a fibre operation stands still at its home (R67, R68). -/
inductive Held where
  | no
  /-- Stalled by its pool since TIME `since`. -/
  | stalled (since : Nat)
  /-- Parked on a translation failure of a pod page or of a scan's destination page. -/
  | parked (faultVa : Nat)
  deriving DecidableEq, Repr

/-- A fibre operation on its way to, or queued at, its home (R65). -/
structure FReq where
  id : Nat
  agent : Agent
  core : Nat
  launch : Nat
  slot : Nat := 64
  fir : Nat := 0
  asid : Nat
  /-- Header: physical and virtual address, and the remote device that holds it plus one, 0 for this device (R144). -/
  hdr : Nat
  va : Nat
  dev : Nat := 0
  op : FOp
  dest : Dest := .none
  held : Held := .no
  /-- Its turn has come and it has not left: other operations on its header wait (R65, R256, R259). -/
  begun : Bool := false
  /-- A union whose conditions hold (R259). -/
  checked : Bool := false
  /-- A union whose writes of the destination are over, and whether it failed: its stamp is still to be written (R259). -/
  outcome : Option Bool := none
  /-- Entries of a union's source A, and of B, read and not yet used; none where its next pod is to be read, empty at its end
  (R134, R259). -/
  bufA : Option (List (Nat × Nat)) := none
  bufB : Option (List (Nat × Nat)) := none
  deriving DecidableEq, Repr

/-- A request in flight: posted, or its result not yet delivered (R45, R133-R140). -/
structure Req where
  id : Nat
  agent : Agent
  /-- The firing it belongs to: instance slot and firing number (R140). -/
  slot : Nat := 64
  fir : Nat := 0
  /-- Its launch, 64 where it belongs to none (R36, R360). -/
  launch : Nat := 64
  kind : ReqKind
  /-- Pieces not yet performed. -/
  todo : List Seg
  data : VReg := 0
  /-- The pieces of one 64-byte line are performed together (R243). -/
  byLine : Bool := false
  acq : Bool := false
  rel : Bool := false
  relEng : Bool := false
  dest : Dest := .none
  /-- Bytes and sign extension of a scalar result (R239). -/
  size : Nat := 8
  signed : Bool := false
  /-- Issued under driver authority (R396). -/
  drv : Bool := false
  va : Nat := 0
  /-- Source pieces of a copy's sector not yet read (R276), and the stream read so far. -/
  src : List Seg := []
  read : Nat := 0
  /-- The data of a sector's destination pieces, once every source piece is read (R134). -/
  formed : Option Nat := none
  /-- The pieces as sent: its response returns on their planes (R13). -/
  path : List Seg := []
  /-- The fibre operation whose write of a register view it is: that operation is complete after it (R147, R258). -/
  part : Option Nat := none
  /-- The engine whose responses return in request order (R149): 1 + k the fibre unit of stack k, 16 + k that of cluster
  k, 0 none. -/
  unit : Nat := 0
  /-- The read of a fibre it answers, which is performed afresh where the response is lost (R389). -/
  again : Option FReq := none
  deriving DecidableEq, Repr

/-- The unit that serves an access: its home (R45). -/
inductive Home where
  | bank (core b : Nat)
  | stack (k : Nat)
  | window (core : Nat)
  | cluster (k : Nat)
  | device
  /-- The fibre unit of stack k (1 + k) or of cluster k (16 + k). -/
  | fibres (unit : Nat)
  | remote (dev : Nat)
  deriving DecidableEq, Repr

/-- What a home keeps of a write, an atomic, a fibre operation or a barrier member that it applied: its source, its request and
its response (R389). -/
structure Applied where
  home : Home
  agent : Agent
  id : Nat
  response : VReg := 0
  deriving DecidableEq, Repr

/-- The number system's registers of a stream that a trap saves into (R168, R169). -/
structure TrapRegs where
  cause : W64 := 0
  pc : W64 := 0
  val : W64 := 0
  inst : W64 := 0
  vec : W64 := 0
  deriving DecidableEq, Repr

/-- MODE (R167). -/
structure Mode where
  sup : Bool := false
  psup : Bool := false
  intrap : Bool := false
  deriving DecidableEq, Repr

/-- CWP (R156). -/
structure Cwp where
  win : Nat := 0
  depth : Nat := 0
  below : Nat := 1
  deriving DecidableEq, Repr

/-- An active loop level but for its count, which stands in lc (R202). -/
structure Level where
  /-- Level number: lck counts it. -/
  k : Nat
  s : W64
  e : W64
  dtag : Nat
  itag : Bool
  deriving DecidableEq, Repr

/-- A monitor (R247). -/
structure Monitor where
  armed : Bool := false
  /-- Accepted at its home: only then do writes set HIT. -/
  placed : Bool := false
  hit : Bool := false
  pa : Nat := 0
  va : Nat := 0
  /-- The remote device of the word plus one, 0 for this device. -/
  dev : Nat := 0
  deriving DecidableEq, Repr

/-- What a stream waits for (R32). -/
inductive Wait where
  | none
  /-- A register code's full bit. -/
  | reg (code : Nat) (vector : Bool)
  | queue (q : Nat)
  /-- MWAIT, until CYCLE reaches the deadline (0 once its time is over); the register it has marked empty, and
  whether that was full. -/
  | mwait (deadline reg : Nat) (full : Bool)
  | barrier (pa : Nat)
  /-- A walk of the die walker (R349). -/
  | walk (asid va : Nat)
  /-- An interlock: fences, slots, buffers, tables (07, R161, R109). -/
  | interlock
  deriving DecidableEq, Repr

/-- A device or domain fence in progress (R142): the paths that have not acknowledged. Path 0-7 is a plane, 8 the
cluster crossbar, 16 + 8d + g lane group g to remote device d. -/
structure Fence where
  upto : Nat
  paths : List Nat
  deriving DecidableEq, Repr

/-- A word fetched ahead: its virtual and physical address, and whether a FENCE that covers its home has been
executed since, so that the next transfer drops it (R399). -/
structure Fetched where
  va : Nat
  word : W32
  pa : Nat
  fenced : Bool := false
  deriving DecidableEq, Repr

/-- A load read before its instruction issues (R135, R138, R151): the instruction's address, the registers its addresses come from
with their values (class 0 scalar, 1 vector, 2 predicate, and number), the pieces read and their bytes as the load's data. -/
structure Early where
  pc : Nat
  srcs : List (Nat × Nat × VReg)
  segs : List Seg
  data : VReg
  deriving DecidableEq, Repr

/-- Whether a stream issues (R25, R26, R208, R215, R169). -/
inductive Run where
  | idle
  | running
  | ended
  | halted
  /-- Stopped by a double trap. -/
  | stopped
  deriving DecidableEq, Repr

/-- One CP or AP stream: its register set and its system registers (R155-R169, R345). -/
structure Stream where
  run : Run := .idle
  pc : W64 := 0
  /-- Scalar registers by physical number: g0-g7 are 0-7, p of window w is 8 + 16w + p (R47). -/
  sreg : Tbl W64 := []
  sfull : BitVec 136 := 1
  link : Tbl W64 := []
  cwp : Cwp := {}
  vreg : Tbl VReg := []
  vfull : BitVec 32 := 0
  preg : Tbl W64 := []
  lc : Tbl W32 := []
  /-- Active levels, innermost first. -/
  levels : List Level := []
  mode : Mode := {}
  trap : TrapRegs := {}
  sscra : W64 := 0
  sscrb : W64 := 0
  ttroot : W64 := 0
  monitor : Monitor := {}
  wait : Wait := .none
  fence : Option Fence := none
  /-- A walk's fault for the access that waited on it: ASID, address, kind (R349). -/
  walkFault : Option (Nat × Nat × Nat) := none
  /-- Words fetched ahead of issue (R399). -/
  fetched : List Fetched := []
  /-- MODEL: loads read early and not yet issued, the oldest first (log 17). -/
  early : List Early := []
  /-- Remote devices addressed since the firing's start or its last domain fence (R142). -/
  remote : List Nat := []
  /-- Physical scalar registers whose value and carried residue differ, with the residue, or the residue that the result of a pending
producer will carry, plus 16 (R379). -/
  residue : Tbl Nat := []
  /-- Vector registers that hold a parity error (R380). -/
  parity : List Nat := []
  deriving DecidableEq, Repr

/-- A spill buffer in use (R157, R158): where the record's bytes go, and the frame. -/
structure SpillBuf where
  segs : List Seg
  regs : List W64
  full : BitVec 16
  link : W64
  /-- Order number among the context's accesses, and the firing. -/
  id : Nat
  slot : Nat := 64
  fir : Nat := 0
  /-- Spilt under supervisor authority (R158, R396). -/
  drv : Bool := false
  deriving DecidableEq, Repr

/-- A register whose fill is outstanding (R157): where its value and its full bit are stored, and its order number among
the context's accesses. -/
structure Fill where
  reg : Nat
  val : Seg
  full : Seg
  bit : Nat
  id : Nat
  deriving DecidableEq, Repr

/-- A firing's reservation on one port (R24, R283): reserved and committed (or released) slots. -/
structure PortRes where
  res : Nat := 0
  taken : Nat := 0
  /-- End-of-stream has been committed on it. -/
  eos : Bool := false
  /-- First sequence number of the reservation of a replay firing (R383). -/
  base : Option Nat := none
  deriving DecidableEq, Repr

/-- The firing a context runs (R24, R25). -/
structure Firing where
  launch : Nat
  slot : Nat
  fir : Nat
  /-- Its place among the firings of the instance, replay firings counted (R140). -/
  ord : Nat := 0
  asid : Nat
  /-- Base of the launch's local window, if it has one (R318). -/
  window : Option Nat
  ports : List PortRes := []
  /-- Poisoned by an access, and whether a slot has carried the mark (R381). -/
  poisoned : Bool := false
  marked : Bool := false
  /-- A replay firing does not advance FIRECNT (R383). -/
  replay : Bool := false
  deriving DecidableEq, Repr

/-- A pending asynchronous trap (R281, R346): cause, value, TRAPINST. -/
structure AsyncTrap where
  cause : Nat
  val : W64
  inst : W64
  slot : Nat
  deriving DecidableEq, Repr

/-- A tile a matrix task names (R102, R109): accumulator, slot, region tile or a stretch of memory. -/
inductive Tile where
  | acc (d : Nat)
  | mslot (s : Nat)
  | mem (pa len : Nat)
  deriving DecidableEq, Repr

/-- The tasks of the tile dependency table (R109, R262-R269). -/
inductive TaskKind where
  | mldb (s fmt : Nat) (src : Seg) (scale : Option Seg) (cb : BitVec 256)
  | mldm (s : Nat) (src : Seg)
  | mma (d s fmt : Nat) (a : Seg) (sc : Option Seg)
  | mmaS (d s fmt : Nat) (wide : Bool) (a : Seg) (sc : Option Seg)
  | mclr (d : Nat)
  | mrd (d rp : Nat)
  | tdclass (t : Tile)
  | mtest (s : Nat)
  deriving DecidableEq, Repr

/-- How an issued MMA is carried out (R108). -/
inductive Rewrite where
  | full | elided | accumulate | scaledSum
  deriving DecidableEq, Repr

/-- A task of the tile dependency table (R109). -/
structure Task where
  id : Nat
  who : StreamId
  launch : Nat := 64
  slot : Nat := 64
  fir : Nat := 0
  kind : TaskKind
  reads : List Tile
  writes : List Tile
  dest : Dest := .none
  issued : Bool := false
  rewrite : Rewrite := .full
  /-- The result, taken at issue and written at completion: words of the destination, or lanes. -/
  result : List W32 := []
  flags : BitVec 5 := 0
  poisoned : Bool := false
  deriving DecidableEq, Repr

/-- A context: what its two streams share (R164, R166, R162). -/
structure Ctx where
  cb : BitVec 256 := 0
  fpctl : BitVec 9 := 0
  fpflags : BitVec 5 := 0
  seed : W32 := 0
  /-- Lane generators that differ from those a write of SEED 0 leaves (R84). -/
  lanes : Tbl W32 := []
  winspill : W64 := 0
  wid : W64 := 0
  firecnt : W64 := 0
  /-- q0-q7, oldest first (R162). -/
  queues : Tbl (List VReg) := []
  spills : List SpillBuf := []
  fills : List Fill := []
  firing : Option Firing := none
  pending : List AsyncTrap := []
  /-- A pending CBLOAD holds readers of cb back (R289). -/
  cbBusy : Nat := 0
  /-- Contexts of the core still to be offered a turn since YIELD (R209). -/
  yielded : List Nat := []
  /-- Queue entries that hold a parity error: the queue and its place in it (R380). -/
  queueParity : List (Nat × Nat) := []
  /-- Destinations of the last 16 instructions that wrote a vector register or a queue, the latest last: 64 for the AP
  stream plus the vector register, or 128 plus the queue plus 8 for each push into it before that entry (R380). -/
  producers : List Nat := []
  /-- Entries pushed into each queue so far (R380). -/
  pushed : Tbl Nat := []
  deriving DecidableEq, Repr

/-- A tile directory entry (R102): side value and [3:0]. -/
structure DirEntry where
  nf : Bool
  cls : BitVec 2
  side : W32
  deriving DecidableEq, Repr

/-- The entry of an accumulator or region tile at power-up (R107). -/
def DirEntry.general : DirEntry := { nf := true, cls := 0, side := 0 }
/-- The entry of a macro slot at power-up (R107). -/
def DirEntry.zero : DirEntry := { nf := false, cls := 1, side := 0 }

/-- A row buffer (R98). -/
structure RowBuf where
  pa : Nat
  fmt : Nat
  scalePa : Nat
  /-- The MMAs that use it, by task. -/
  users : List Nat := []
  deriving DecidableEq, Repr

/-- A level of a copy (R273). -/
structure CopyLevel where
  count : Nat
  sstride : Int
  dstride : Int
  deriving DecidableEq, Repr

/-- A copy descriptor as read (R271, R272). -/
structure CopyDesc where
  src : W64 := 0
  dst : W64 := 0
  stamp : W64 := 0
  ctl : W64 := 0
  seq : W64 := 0
  rest : List W64 := []
  levels : List W64 := []
  deriving DecidableEq, Repr

/-- A copy slot: its record and the copy in it (R278). -/
structure Copy where
  gen : Nat := 0
  prio : Nat := 0
  ctx : Nat := 0
  state : Nat := 0
  nsec : Nat := 0
  secdone : Nat := 0
  fault : W64 := 0
  cause : Nat := 0
  seq : W64 := 0
  stampva : W64 := 0
  desc : CopyDesc := {}
  /-- Next sector to issue. -/
  next : Nat := 0
  cancel : Bool := false
  /-- Ends with the stamp's bit 63 set. -/
  failed : Bool := false
  /-- Order of its CPY, for turns within a class (R276). -/
  order : Nat := 0
  asid : Nat := 0
  root : Nat := 0
  sup : Bool := false
  core : Nat := 0
  window : Option Nat := none
  cb : BitVec 256 := 0
  launch : Nat := 64
  slot : Nat := 64
  fir : Nat := 0
  /-- Channel, its first slot's sequence number, slots and payload width of a CH copy (R275). -/
  chan : Option (Nat × Nat × Nat) := none
  port : Nat := 0
  /-- Was in STATE 4 when a pre-emption suspended it (R359). -/
  pfault : Bool := false
  /-- Carries a snapshot's record (R132): the launch and the record's offset and length. -/
  snap : Option (Nat × Nat × Nat) := none
  /-- Half-bytes of covered tiles written so far under CLASSIFY, as start and length (R275). -/
  cover : List (Nat × Nat) := []
  /-- A snapshot record's bytes as recorded (R130-R132). -/
  data : List Byte := []
  /-- The tiles of its core that it reads and writes, declared when it is accepted (R109). -/
  reads : List Tile := []
  writes : List Tile := []
  /-- Its stamp is what failed to translate (R281). -/
  stampFault : Bool := false
  /-- A pre-emption asks it to stop at a sector boundary (R356). -/
  suspend : Bool := false
  /-- Issued by a replay firing: its slots are the original ones (R383). -/
  replay : Bool := false
  /-- A value of its address generator does not match the residue it carries (R379). -/
  residueBad : Bool := false
  deriving DecidableEq, Repr

/-- A window write held at the port (R48). -/
structure HeldWrite where
  /-- Context, register: physical scalar number, or 200 + k for vk. -/
  ctx : Nat
  reg : Nat
  data : VReg
  id : Nat
  deriving DecidableEq, Repr

/-- What kind of instance a slot holds (R29, R22). -/
inductive InstKind where
  | ordinary | reserve | shadow
  deriving DecidableEq, Repr

/-- A port of an instance (R25, R323). -/
structure Port where
  output : Bool
  count : Nat
  /-- The channel's record: producer core and number; the consumer number of an input. -/
  core : Nat
  ch : Nat
  cons : Nat := 0
  /-- Its marker of the current snapshot has been taken (R131). -/
  arrived : Bool := false
  /-- End-of-stream taken (input) or committed (output) (R34). -/
  eos : Bool := false
  deriving DecidableEq, Repr

/-- A firing of a replayable instance whose input slots are not yet released: its number, the first sequence number
and the count of tokens at each port, and whether it has ended (R382, R383). -/
structure FireRec where
  fir : Nat
  spans : List (Nat × Nat)
  ended : Bool := false
  /-- Tokens it put into, or took from, each port, once it has ended. -/
  made : List Nat := []
  deriving DecidableEq, Repr

/-- An instance slot (R23, R30, R122). -/
structure Inst where
  launch : Nat
  actor : Nat
  n : Nat
  kind : InstKind
  en : Bool
  /-- STATE of ISTATE but for 3, which is computed: 1 dormant, 2 waiting, 4 firing, 5 retired. -/
  state : Nat := 2
  ctx : Nat := 0
  firecnt : Nat := 0
  /-- Firings started, replay firings counted (R140). -/
  ord : Nat := 0
  credit : Int := 0
  cbimg : BitVec 256 := 0
  wid : W64
  /-- Physical address of the state block. -/
  block : Nat
  blockSize : Nat
  ports : List Port
  baseWeight : Nat
  priv : Bool
  entry : W64
  aentry : W64
  replayable : Bool
  /-- Markers: inject after the current firing (source), state recorded, unaligned (R130, R131). -/
  inject : Bool := false
  recorded : Bool := false
  unaligned : Bool := false
  /-- Retirement counted (R34). -/
  counted : Bool := false
  hist : List FireRec := []
  deriving DecidableEq, Repr

/-- A channel record (R123) and what the channel unit keeps beside it. -/
structure Chan where
  launch : Nat
  chan : Nat
  base : Nat
  dbase : Nat
  cmask : Nat
  dfmt : Nat
  pfmt : Nat
  log2n : Nat
  log2z : Nat
  dlog2z : Nat
  head : Nat := 0
  tails : Tbl Nat := []
  kp : Nat := 0
  ki : Nat := 0
  gshift : Nat := 0
  log2t : Nat := 8
  imax : Nat := 0
  sp : Nat := 0
  w0p : Nat := 1
  w0c : Nat := 1
  wmin : Nat := 1
  wmax : Nat := 64
  integ : Int := 0
  wp : Nat := 1
  wc : Nat := 1
  lasto : Nat := 0
  eosc : Nat := 0
  rej : Bool := false
  unal : Bool := false
  eosp : Bool := false
  frozen : Bool := false
  cbtab : BitVec 256 := 0
  /-- CYCLE at which the next sample is due, and log2 of the period that ends there (R125, R127, R129). -/
  cycles : Nat := 0
  period : Nat := 8
  /-- Producer: instance slot, port, production count; largest consumption count (R128). -/
  pslot : Nat
  pport : Nat
  prod : Nat
  /-- Slots reserved by the firing in progress and not yet committed. -/
  reserved : Nat := 0
  /-- Consumers: core and instance slot, or a sink. -/
  consumers : List (Option (Nat × Nat × Nat × Nat)) := []
  /-- Sinks: consumer number, sink number of the image, data slots seen, end-of-stream counted. -/
  sinks : List (Nat × Nat × Nat × Nat) := []
  /-- Headers of committed tokens by slot index, as the channel unit holds them (R115, R116). -/
  hdrs : Tbl W64 := []
  /-- What copies have noted of slots not yet committed, by slot index: EOD bits, POISON and SEQ in a header's places (R275,
  R381); KIND 15 tells a note from none. -/
  notes : Tbl W64 := []
  /-- Times the token of a sequence number has been re-injected (R383). -/
  reinjected : Tbl Nat := []
  /-- The shadow's record this exit channel is compared with (R384): core, channel, tokens compared. -/
  shadow : Option (Nat × Nat) := none
  compared : Nat := 0
  isShadow : Bool := false
  deriving DecidableEq, Repr

/-- A commit posted and not yet taken effect (R118). -/
structure Commit where
  id : Nat
  core : Nat
  ch : Nat
  kind : Nat
  eod : Option Nat
  poison : Bool := false
  /-- The committing context and instance. -/
  ctx : Nat := 4
  slot : Nat := 64
  fir : Nat := 0
  /-- Rewrites an existing slot: the SEQ of a replayed token (R383). -/
  seq : Option Nat := none
  /-- A marker's snapshot number. -/
  marker : Nat := 0
  deriving DecidableEq, Repr

/-- A release posted and not yet taken effect (R118): `n` slots of a consumer; earlier reads of its agent are awaited. -/
structure Release where
  id : Nat
  core : Nat
  ch : Nat
  cons : Nat
  n : Nat
  agent : StreamId
  slot : Nat
  fir : Nat
  deriving DecidableEq, Repr

/-- A core (R10). -/
structure Core where
  ctxs : Tbl Ctx := []
  cps : Tbl Stream := []
  aps : Tbl Stream := []
  accDir : Tbl DirEntry := []
  slotDir : Tbl DirEntry := []
  regDir : Tbl DirEntry := []
  /-- MMAFULL, MMAELIDE, MMAIDENT, MMACONST, MTESTRUN, MTESTFAIL (R107). -/
  meCount : Tbl Nat := []
  tasks : List Task := []
  /-- Waiting matrix tasks that a pre-emption has taken out of the table, in table order (R111). -/
  savedTasks : List Task := []
  rowBufs : List RowBuf := []
  /-- Accumulators (by number) and slots (64 and the number) that hold a parity error, and the accumulators that the
  16 last tasks wrote (R380). -/
  parity : List Nat := []
  recentAcc : List Nat := []
  spares : Nat := 2
  interval : Nat := 0
  sinceTest : Tbl Nat := []
  tdbase : Nat := 0
  tdsize : Nat := 0
  tdesz : Nat := 0
  sphash : BitVec 55 := 0
  copies : Tbl Copy := []
  /-- Account of the shared priorities, and the copy last served of each class by its order (R276). -/
  copyTurn : Nat := 0
  copyLast : Tbl Nat := []
  heldWrites : List HeldWrite := []
  insts : Tbl (Option Inst) := []
  chans : Tbl (Option Chan) := []
  commits : List Commit := []
  releases : List Release := []
  /-- Snapshot records that wait for a copy slot: launch, place in SNAPAREA and bytes (R132, R395). -/
  records : List (Nat × Nat × List Byte) := []
  /-- The tick at which each bank's conflict counter was last cleared (R52; log 56). -/
  conflicts : Tbl Nat := []
  mismatches : Nat := 0
  doorbell : W64 := 0
  psave : Nat := 0
  deriving DecidableEq, Repr

/-- A barrier object (R249). -/
structure Barrier where
  count : Nat := 0
  arrived : Nat := 0
  phase : Bool := false
  deriving DecidableEq, Repr

/-- A pool descriptor (R66) and its fibre unit's state for it. -/
structure Pool where
  base : Nat := 0
  npods : Nat := 0
  freecnt : Nat := 0
  freehead : Nat := 0
  /-- Donated runs that no allocation has reached, first pod and count: the end of the free list (R295). -/
  runs : List (Nat × Nat) := []
  wmark : Nat := 0
  timeout : Nat := 0
  scale : BitVec 8 := 0
  asid : Nat := 0
  faultva : Nat := 0
  parked : Bool := false
  deriving DecidableEq, Repr

/-- A cached leaf (R348): ASID, virtual base, log2 of the page size, the entry. -/
structure TlbEntry where
  asid : Nat
  vbase : Nat
  log2 : Nat
  pte : W64
  deriving DecidableEq, Repr

/-- A cached table pointer (R348): ASID, root, level it was read at, virtual base, next table. -/
structure PtrEntry where
  asid : Nat
  level : Nat
  vbase : Nat
  next : Nat
  deriving DecidableEq, Repr

/-- A unit that translates without a stream: a copy of an engine, the home of a stack or a cluster (numbered as a request's
`unit`), a launch processor, an HQT session (R348, R352). -/
inductive WalkUnit where
  | copy (eng slot : Nat)
  | home (unit : Nat)
  | launchProc (die : Nat)
  | session (n : Nat)
  deriving DecidableEq, Repr

/-- A walk's result for a unit that waited on it: its leaf, or its fault's kind (R349). -/
structure WalkEnd where
  unit : WalkUnit
  asid : Nat
  va : Nat
  leaf : Option TlbEntry
  kind : Nat := 0
  deriving DecidableEq, Repr

/-- A walk running or queued at a die's walker (R349), with the streams and units waiting on it. -/
structure Walk where
  id : Nat
  cluster : Nat
  asid : Nat
  root : Nat
  va : Nat
  waiters : List StreamId
  units : List WalkUnit := []
  deriving DecidableEq, Repr

/-- A cluster (R11). -/
structure Cluster where
  barriers : Tbl Barrier := []
  routes : Tbl W64 := []
  pools : Tbl Pool := []
  tlb : List TlbEntry := []
  /-- The cluster fibre unit's own cache (R348). -/
  fibTlb : List TlbEntry := []
  outOfReset : Bool := false
  deriving DecidableEq, Repr

/-- A compute die. -/
structure Die where
  fenceMap : BitVec 1024 := 0
  /-- Superseded fence maps by generation, for launches already in the log (R20). -/
  oldMaps : Tbl (BitVec 1024) := []
  copies : Tbl Copy := []
  copyTurn : Nat := 0
  copyLast : Tbl Nat := []
  /-- The class table (R38) by image: 1 memory-bound, 2 compute-bound, 0 no entry. -/
  classes : Tbl Nat := []
  lpTlb : List TlbEntry := []
  ptrs : List PtrEntry := []
  /-- The queue last served at each priority (R343). -/
  served : Tbl Nat := []
  deriving DecidableEq, Repr

/-- A stack (R57, R370). -/
structure Stack where
  pccount : Tbl Nat := []
  splitcnt : Nat := 0
  refpostcnt : Nat := 0
  inService : Bool := false
  tlb : List TlbEntry := []
  deriving DecidableEq, Repr

/-- A queue table entry (R335). -/
structure Queue where
  base : Nat := 0
  ctlb : Nat := 0
  asid : Nat := 0
  log2n : Nat := 4
  prio : Nat := 0
  drv : Bool := false
  en : Bool := false
  deriving DecidableEq, Repr

/-- An address-space table entry (R352). -/
structure Space where
  root : Nat := 0
  v : Bool := false
  tvec : Nat := 0
  deriving DecidableEq, Repr

/-- A tile page table entry (R106). -/
structure TilePage where
  v : Bool := false
  esz : Nat := 0
  ppn : Nat := 0
  deriving DecidableEq, Repr

/-- A migration record (R361). -/
structure Migration where
  mold : Nat := 0
  mnew : Nat := 0
  ptr : Nat := 0
  act : Bool := false
  /-- The pages of the migration under way. -/
  old : Nat := 0
  new : Nat := 0
  /-- MOLD, MNEW as they stand were written while ACT = 1. -/
  moldLate : Bool := false
  mnewLate : Bool := false
  deriving DecidableEq, Repr

/-- An injector (R387). -/
structure Injector where
  delay : Nat := 0
  lane : Nat := 0
  mode : Nat := 0
  arm : Bool := false
  n : Nat := 0
  seen : Nat := 0
  deriving DecidableEq, Repr

/-- A 32-byte record of the event or error ring as its four words (R334, R378). -/
structure RingRec where
  w0 : W64 := 0
  w1 : W64 := 0
  w2 : W64 := 0
  w3 : W64 := 0
  deriving DecidableEq, Repr

/-- A failed launch's error record (R327, R354). -/
structure ErrorRec where
  code : Nat := 0
  kind : Nat := 0
  index : Nat := 0
  wordoff : Nat := 0
  core : Nat := 0
  addr : W64 := 0
  detail : W64 := 0
  deriving DecidableEq, Repr

/-- The element fields of an image (R322). -/
structure ImgPort where
  /-- Word offset of its header in the stream. -/
  off : Nat := 0
  cfmt : Nat
  count : Nat
  output : Bool
  ch : Nat
  deriving DecidableEq, Repr

structure ImgActor where
  off : Nat
  entry : W64
  aentry : W64
  priv : Bool
  dual : Bool
  reserve : Nat
  repl : Bool
  weight : Nat
  span : Nat
  stride : Nat
  offset : Nat
  statesz : Nat
  ports : List ImgPort
  deriving DecidableEq, Repr

structure ImgChannel where
  off : Nat
  pfmt : Nat
  log2z : Nat
  log2n : Nat
  deriving DecidableEq, Repr

structure ImgRate where
  off : Nat
  ch : Nat
  kp : Nat
  ki : Nat
  gshift : Nat
  log2t : Nat
  imax : Nat
  sp : Nat
  w0p : Nat
  w0c : Nat
  wmin : Nat
  wmax : Nat
  deriving DecidableEq, Repr

structure ImgSink where
  off : Nat
  expect : Nat
  ch : Nat
  buffer : Nat
  deriving DecidableEq, Repr

structure ImgSection where
  off : Nat
  index : Nat
  va : Nat
  size : Nat
  stage : Nat
  deriving DecidableEq, Repr

structure ImgPool where
  off : Nat
  index : Nat
  base : Nat
  npods : Nat
  donfirst : Nat
  doncount : Nat
  wmark : Nat
  scale : Nat
  timeout : Nat
  deriving DecidableEq, Repr

structure ImgMap where
  off : Nat
  index : Nat
  va : Nat
  deriving DecidableEq, Repr

/-- A configuration stream as read (R321, R322). -/
structure Image where
  computeHint : Bool := false
  watchdog : Nat := 0
  fpctl : Nat := 0
  seed : W32 := 0
  macrec : Nat := 0
  chanarea : Nat := 0
  snaparea : Nat := 0
  spillbase : Nat := 0
  spillrec : Nat := 0
  spsize : Nat := 0
  spbase : Nat := 0
  /-- Width and extent of L0-L5. -/
  levels : List (Nat × Nat) := []
  sections : List ImgSection := []
  channels : List ImgChannel := []
  rates : List ImgRate := []
  actors : List ImgActor := []
  sinks : List ImgSink := []
  pools : List ImgPool := []
  barriers : List (Nat × Nat × Nat) := []
  maps : List ImgMap := []
  deriving DecidableEq, Repr

/-- The snapshot of a launch in progress (R393-R395). -/
structure Snap where
  cur : Nat := 0
  last : Nat := 0
  session : Nat := 0
  /-- Next free offset of the snapshot's part of the area. -/
  off : Nat := 0
  /-- Bytes performed or acknowledged (R395). -/
  drained : Nat := 0
  /-- A record's copy ended unperformed: the snapshot in progress never completes (R393). -/
  broken : Bool := false
  deriving DecidableEq, Repr

/-- An entry of the launch log and its launch (R353). -/
structure Launch where
  /-- The packet's eight words. -/
  packet : List W64 := []
  lstate : Nat := 0
  coloc : Bool := false
  fgen : Nat := 0
  err : ErrorRec := {}
  failed : Bool := false
  snap : Snap := {}
  /-- Queue's ASID and DRV. -/
  asid : Nat := 0
  drv : Bool := false
  stampVa : Nat := 0
  compute : Bool := false
  image : Image := {}
  /-- Slot list (R21), cores that hold its instances. -/
  slots : List Nat := []
  cores : List Nat := []
  window : Option Nat := none
  corewin : Option Nat := none
  macrec : Nat := 0
  chanPa : Nat := 0
  chanVa : Nat := 0
  /-- Live instances not yet retired; sinks not yet complete (R36). -/
  live : Nat := 0
  sinksLeft : Nat := 0
  /-- TIME at which the watchdog period expires, or none when it does not run (R33). -/
  watch : Option Nat := none
  /-- The intensity window in progress: the TIME at which it ends, and the threshold in force; compute-bound and memory-bound
  windows so far (R38). -/
  windowAt : Nat := 0
  thresh : Nat := 0
  cwin : Nat := 0
  mwin : Nat := 0
  /-- Cores held by LCORE; cores not yet saved by a pre-emption. -/
  heldCores : List Nat := []
  toSave : List Nat := []
  deriving DecidableEq, Repr

/-- A SNAPDATA datagram not acknowledged (R395); SEQ 2^64 before it is sent. -/
structure SnapMsg where
  seq : Nat
  launch : Nat
  off : Nat
  sent : Nat
  payload : List Byte
  deriving DecidableEq, Repr

/-- An HQT session (R331, R333); its datagrams leave through the Ethernet port it was opened on. -/
structure Session where
  port : Nat := 0
  driver : Bool
  asid : Nat
  prio : Nat
  key : Nat
  /-- Next SEQ to apply; requests that wait for a gap; the last 256 replies (R332). -/
  seq : Nat := 0
  early : List Datagram := []
  saved : List (Nat × Nat × List Byte) := []
  mask : Nat := 0
  /-- Next device-to-host SEQ; SNAPDATA unsent or unacknowledged (R395). -/
  outSeq : Nat := 0
  snapdata : List SnapMsg := []
  /-- TIME of the last acknowledgement, and whether the session is lost for SNAPDATA. -/
  lastAck : Nat := 0
  lost : Bool := false
  deriving DecidableEq, Repr

/-- A grant (R333). -/
structure Grant where
  asid : Nat
  prio : Nat
  hash : Nat
  issuer : Nat
  deriving DecidableEq, Repr

/-- A datagram the device sends: Ethernet port and PFC priority (R330), session, OP, SEQ, ADDR, STATUS, payload, and its
TAG, which a HELLO reply does not carry (R331, R333-R334, R395). -/
structure OutMsg where
  port : Nat := 0
  prio : Nat := 0
  tag : Option Nat := none
  session : Nat
  op : Nat
  seq : Nat
  addr : W64
  status : W64
  payload : List Byte
  deriving DecidableEq, Repr

/-- A failed or finished start (R372). -/
structure Attempt where
  counter : Nat
  cause : Nat
  stage : Nat
  time : Nat
  deriving DecidableEq, Repr

/-- What a configuration record says of harvesting, the fence map, the INTERVAL defaults and the operators (R9, R363
step 4). -/
structure RecordContent where
  fenceMap : BitVec 1024 := 0
  clustersOut : BitVec 16 := 0
  stacksOut : BitVec 8 := 0
  /-- How many of a core's 34 macros are out of service, by core. -/
  macrosOut : Tbl Nat := []
  intervals : Tbl Nat := []
  /-- The operator record's hashes of operator keys (R333). -/
  operators : Option (List Nat) := none
  deriving DecidableEq, Repr, Inhabited

/-- A signed configuration record of the flash (R365): its content, its key and its signature. -/
structure ConfigRec where
  content : RecordContent := {}
  key : List Byte := []
  sig : List Byte := []
  deriving DecidableEq, Repr, Inhabited

/-- A training record (R370). -/
structure TrainRec where
  bytes : List Byte
  temperature : Int
  digest : Nat
  failedStack : Option Nat := none
  deriving DecidableEq, Repr

/-- What the flash's firmware and record areas hold (R363-R366, R333). -/
structure FlashImage where
  /-- The header of the first-stage image (R365). -/
  magic : W64 := 0
  svn : W32 := 0
  length : Nat := 0
  key : List Byte := []
  sig : List Byte := []
  /-- What the first-stage image holds: its code, and the keys it carries for the configuration records. -/
  code : List Byte := []
  recordKeys : List (List Byte) := []
  records : List ConfigRec := []
  /-- Firmware images that the first stage loads later (R368). -/
  later : List (List Byte) := []
  deriving DecidableEq, Repr, Inhabited

/-- The module's serial flash (R363-R373). -/
structure Flash where
  counter : Nat := 0
  minsvn : Nat := 0
  contents : FlashImage := {}
  /-- Bytes of those areas written over HQT in Sprout mode, by address (R373). -/
  cells : List Host.Cell := []
  training : Tbl TrainRec := []
  attempts : List Attempt := []
  helper : List Byte := []
  deriving DecidableEq, Repr

/-- BOOTSTAT (R364). -/
structure Boot where
  stage : Nat := 0
  sprout : Bool := false
  fails : Nat := 0
  cause : Nat := 0
  clusters : BitVec 16 := 0
  stacksUp : BitVec 8 := 0
  /-- Attempt over: nothing further of the start sequence runs. -/
  finished : Bool := false
  /-- Clusters and stack pairs that have had their turn (R369). -/
  nextCluster : Nat := 0
  nextPair : Nat := 0
  cold : Bool := true
  /-- Stage 7's bookkeeping of R372 is done. -/
  cleared : Bool := false
  deriving DecidableEq, Repr

/-- Power, thermal and telemetry registers (R390-R392). -/
structure Power where
  thwarn : Bool := false
  busy : Bool := false
  /-- TIME at which the transition in progress began (the watchdog periods stand still since then, R33). -/
  began : Nat := 0
  cur : Nat := 1
  req : Nat := 1
  thermstat : W64 := 0
  tripped : Bool := false
  telemetry : Tbl W64 := []
  twarn : Nat := 0x640
  deriving DecidableEq, Repr

/-- A lane group or die-to-die link (R145, R386): the next sequence number taken in. -/
structure Link where
  expected : Nat := 0
  replays : Nat := 0
  /-- The CYCLE until which an injector's delay holds its flits (R387). -/
  heldUntil : Nat := 0
  deriving DecidableEq, Repr

/-- An invalidation requested and not complete (R350). -/
structure Tinv where
  scope : Nat
  asid : Nat
  va : Nat
  /-- Requests in flight when it arrived are awaited. -/
  upto : Nat
  deriving DecidableEq, Repr

/-- The registers of the device-control range and the device's shared units. -/
structure Dev where
  hashRows : Tbl W64 := []
  pinsize : Nat := 0
  planeRows : Tbl W64 := []
  buckets : Tbl Nat := []
  quiesce : Bool := false
  dead : BitVec 8 := 0
  /-- Planes that have died since QUIESCE was last cleared (R388). -/
  deadNew : BitVec 8 := 0
  pools : Tbl Pool := []
  tilePages : Tbl TilePage := []
  hbmDir : Tbl DirEntry := []
  queues : Tbl Queue := []
  logWr : Nat := 0
  launches : Tbl Launch := []
  fenceGen : Nat := 0
  intensity : Nat := 0xD00
  tinv : List Tinv := []
  tinvdone : Nat := 0
  walks : List Walk := []
  /-- Results of walks for units, until these take them (R349). -/
  walkEnds : List WalkEnd := []
  spaces : Tbl Space := []
  migrations : Tbl Migration := []
  events : Tbl RingRec := []
  evtwidx : Nat := 0
  errors : Tbl RingRec := []
  raswidx : Nat := 0
  /-- SRAM corrections, HBM corrections, parity replays, link replays, scrubber rereads (R378). -/
  corrected : Tbl Nat := []
  /-- Poisoned words and units by base address (R381). -/
  poison : List Nat := []
  /-- Scrubber reads outstanding: address, and whether a write has come in between (R385). -/
  scrubs : List (Nat × Bool) := []
  injectors : Tbl Injector := []
  links : Tbl Link := []
  reachable : List Nat := []
  /-- MODEL: responses sent to remote devices: device, its number of the request, the data (R144; log 14). -/
  responses : List (Nat × Nat × VReg) := []
  deriving DecidableEq, Repr

/-- The IOD's management complex and Ethernet side (R14, R331-R333, R363-R373). -/
structure Mgmt where
  flash : Flash := {}
  /-- The module has been without power since its last start (R370). -/
  unpowered : Bool := true
  /-- Ethernet ports that are up (R330, R363 step 5, R373). -/
  portsUp : BitVec 2 := 0
  boot : Boot := {}
  power : Power := {}
  identity : Option Nat := none
  measurement : List Byte := List.replicate 32 0
  sessions : Tbl (Option Session) := []
  nextSession : Nat := 1
  grants : Tbl (Option Grant) := []
  nextGrant : Nat := 1
  dropped : Nat := 0
  badTags : Nat := 0
  refusedHellos : Nat := 0
  kems : Nat := 0
  /-- MODEL: datagrams sent and not yet taken by the outside (log 1). -/
  outbox : List OutMsg := []
  deriving DecidableEq, Repr

/-- The machine. -/
structure State where
  mem : List Host.Cell := []
  cores : Tbl Core := []
  clusters : Tbl Cluster := []
  dies : Tbl Die := []
  hbm : Tbl Stack := []
  dev : Dev := {}
  mgmt : Mgmt := {}
  reqs : List Req := []
  freqs : List FReq := []
  /-- Next order number of requests, tasks, commits and copies. -/
  nextId : Nat := 0
  time : Nat := 0
  cycle : Nat := 0
  /-- What each home keeps of the last 64 writes, atomics, fibre operations and barrier members that it applied for each source
  (R389). -/
  replay : List Applied := []
  /-- What the classifier has measured of each running launch's window: cycles of cores whose matrix engine had a task of it
  issued, bytes of HBM and Rolest traffic of its agents (R38). -/
  matrixBusy : Tbl Nat := []
  traffic : Tbl Nat := []
  /-- Ids of requests sent on a plane that died before it acknowledged them, and of requests held at their source because their
  bucket named a dead plane (R388). -/
  unacked : List Nat := []
  heldBack : List Nat := []
  /-- MODEL: the stream whose instruction `exec` runs (log 1). -/
  cur : StreamId := { core := 0, ctx := 0, ap := false }
  /-- MODEL: streams to issue next, before the round robin (log 1). -/
  turns : List StreamId := []
  /-- MODEL: events to happen next, before the model's own order (log 1). -/
  agenda : List Instr := []
  /-- MODEL: whether the next default act is an event or an instruction (log 2). -/
  drain : Bool := false
  /-- MODEL: how many words each of the next fetches reads ahead, 0 when it is empty (log 16). -/
  ahead : List Nat := []
  /-- MODEL: steps taken, the argument of the free clock (log 3). -/
  tick : Nat := 0
  /-- MODEL: acts that have left all HBM contents undefined (log 23). -/
  epoch : Nat := 0
  /-- MODEL: free values drawn so far (log 26). -/
  openCnt : Nat := 0
  deriving DecidableEq, Repr

/-- The ways a step can stop with a fault. The spec gives every step of this machine an effect, a wait or a trap,
so nothing raises one; the constructor keeps the type inhabited. -/
inductive Fault where
  /-- Raised by no meaning. Safe. -/
  | unreachable
  deriving DecidableEq, Repr

/-- Why an instruction is refused. -/
inductive Refusal where
  /-- Raised by an arm of `exec` that has no meaning yet. Safe: the run stops. -/
  | notModelled (mnemonic : String)
  deriving DecidableEq, Repr

/-- The machine right after power-up or reset, before the start sequence of R363. -/
def State.reset : State := {}

end Sys2Proof.Machine
end

