-- ==== Sys2Proof/Config.lean ====
section
/-!
DEFINITION. Sys2Proof/Config.lean: what the spec leaves open for a value, as constants without a body,
and the outputs of the cryptographic standards the spec cites without restating them.
-/

namespace Sys2Proof.Config

open Sys2Proof.Machine (FlashImage RecordContent)

/-- Core cycles that pass during step `t`: the spec's latencies and interleavings are open (R319, R37).
A free value; log 3. -/
opaque stepCycles : Nat → Nat
/-- Nanoseconds that pass during step `t` (R166). A free value; log 3. -/
opaque stepNanos : Nat → Nat
/-- The byte an HBM address holds after the `e`-th change of the hash rows or of PINSIZE (R56) or after a
thermal trip (R391), which leave the contents undefined. A free value; log 23. -/
opaque scrambledByte : Nat → Nat → Byte
/-- A word that the spec calls undefined after an act, indexed by State's counter of such words. A free
value; log 26. -/
opaque freeWord : Nat → W64

/-- Cycles that bank `b` (core × 32 + bank) lost to arbitration from tick `at` to tick `now`: timing decides it (R52).
A free value; log 56. -/
opaque lostCycles : (b at_ now : Nat) → Nat

/-- What the coupling of a snapshot's drain gives as weight (1 to 64, modulo 64 and plus 1): the spec gives it no gains (R132,
R395). Arguments: launch log entry, bytes drained, tick. A free value; log 59. -/
opaque drainWeight : (e drained now : Nat) → Nat

/-- Whether the coupling of a snapshot's drain lets a checkpoint copy issue a sector now, while records before its own are not
drained: the spec gives no rate (R132, R276). Arguments: launch log entry, bytes drained, tick. A free value; log 59. -/
opaque drainPaced : (e drained now : Nat) → Bool

/-- SHA3-256 (FIPS 202) of a byte string, 32 bytes as a number; log 13. -/
opaque sha3_256 : List Byte → Nat
/-- Whether an ML-DSA-44 signature (FIPS 204) of a message verifies under a public key; log 13. -/
opaque mldsaVerify : (key msg sig : List Byte) → Bool
/-- The ML-DSA-44 public key of a seed; log 13. -/
opaque mldsaPublic : (seed : Nat) → List Byte
/-- The ML-DSA-44 signature of a message under the key of a seed; log 13. -/
opaque mldsaSign : (seed : Nat) → (msg : List Byte) → List Byte
/-- The KMAC128 tag (SP 800-185) of a datagram under a session key; log 13. -/
opaque kmac128 : (key : Nat) → List Byte → Nat
/-- The shared secret and the ciphertext of ML-KEM-768 (FIPS 203) against an encapsulation key, for the
`n`-th encapsulation of the device; log 13. -/
opaque mlkem : (ek : List Byte) → (n : Nat) → Nat × List Byte
/-- The `n`-th 32-byte nonce of the device; log 13. -/
opaque deviceNonce : Nat → List Byte
/-- The Horpol key hash held in mask ROM (R365); log 13. -/
opaque horpolKeyHash : Nat
/-- The response that the device's SRAM gives with the helper data (R367); log 13. -/
opaque pufResponse : (helper : List Byte) → Option (List Byte)

/-- The first 64 bytes of the first-stage header, which hold MAGIC, SVN and LENGTH; the image of its code and the keys it
carries; a configuration record's bytes. R365 signs them and gives no layout; log 18. -/
opaque headerBytes : (magic : W64) → (svn : W32) → (length : Nat) → List Byte
opaque imageBytes : (code : List Byte) → (keys : List (List Byte)) → List Byte
opaque recordBytes : RecordContent → List Byte

/-- Whether an HQT address names the flash's firmware and record areas or the attempt records, and the address of the
start counter: R373 lets Sprout mode reach them and gives no address; log 34. -/
opaque flashAddr : Nat → Bool
opaque counterAddr : Nat
/-- The attempt record whose word an HQT address names, as record × 4 + word (counter, cause, STAGE, TIME; log 34). -/
opaque attemptAddr : Nat → Option Nat
/-- What the flash's areas hold after bytes have been written over what they held: their layout is open; log 34. -/
opaque flashRead : List Host.Cell → FlashImage → FlashImage

end Sys2Proof.Config
end

