-- ==== Sys2Proof/Machine/Bits.lean ====
section
/-!
DEFINITION. Sys2Proof/Machine/Bits.lean: sparse tables, bit fields, byte order, signed readings (R4, R5).
-/

namespace Sys2Proof.Machine

/-! ### Sparse tables -/

/-- The value at key `k`, or the family's default. -/
def tget {α : Type} (d : α) (t : Tbl α) (k : Nat) : α :=
  match t with
  | [] => d
  | (j, v) :: r => if k = j then v else tget d r k

/-- Insertion at its place by key. -/
def tins {α : Type} (t : Tbl α) (k : Nat) (v : α) : Tbl α :=
  match t with
  | [] => [(k, v)]
  | (j, w) :: r => if k < j then (k, v) :: (j, w) :: r else (j, w) :: tins r k v

/-- Setting the value at key `k`; setting the default removes the entry. -/
def tset {α : Type} [DecidableEq α] (d : α) (t : Tbl α) (k : Nat) (v : α) : Tbl α :=
  let t' := t.filter (fun e => e.1 != k)
  if v = d then t' else tins t' k v

/-- A table with every listed value changed; values that become the default are removed. -/
def tmap {α : Type} [DecidableEq α] (d : α) (f : Nat → α → α) (t : Tbl α) : Tbl α :=
  (t.map (fun e => (e.1, f e.1 e.2))).filter (fun e => !decide (e.2 = d))

/-! ### Numbers and fields -/

/-- Bits hi..lo of a number, as `len` bits from `lo`. -/
def nbits (x lo len : Nat) : Nat := (x >>> lo) % 2 ^ len

/-- Bits of a register from `lo`, `len` of them. -/
def wbits {n : Nat} (x : BitVec n) (lo len : Nat) : Nat := (x.toNat >>> lo) % 2 ^ len

/-- A 64-bit word of a number's low bits. -/
def w64 (n : Nat) : W64 := BitVec.ofNat 64 n
/-- A 64-bit word of an integer, two's complement (R5). -/
def w64i (n : Int) : W64 := BitVec.ofInt 64 n
def w32 (n : Nat) : W32 := BitVec.ofNat 32 n

/-- A Bool as 0 or 1. -/
def bit (b : Bool) : Nat := if b then 1 else 0

/-- Sign extension of the low `n` bits to 64 (R5: SExt). -/
def sext64 {n : Nat} (x : BitVec n) : W64 := x.signExtend 64
def zext64 {n : Nat} (x : BitVec n) : W64 := x.setWidth 64

/-- A number's low `n` bits read as two's complement. -/
def toSigned (n x : Nat) : Int :=
  let y := x % 2 ^ n
  if y < 2 ^ (n - 1) then (y : Int) else (y : Int) - (2 ^ n : Nat)

/-- Two's-complement bits of an integer, `n` of them, as a number. -/
def fromSigned (n : Nat) (x : Int) : Nat := (x % ((2 ^ n : Nat) : Int)).toNat

/-- One bits among the low `n` of `x`. -/
def popNat (n x : Nat) : Nat :=
  match n with
  | 0 => 0
  | k + 1 => x % 2 + popNat k (x / 2)

/-- Parity of the low 64 bits (R50, R53, R58). -/
def parity64 (x : Nat) : Nat := popNat 64 x % 2

/-- Clamp of an integer to a range. -/
def clampInt (x lo hi : Int) : Int := if x < lo then lo else if hi < x then hi else x

/-- Ceiling of a / b for b > 0. -/
def ceilDiv (a b : Nat) : Nat := (a + b - 1) / b

/-- Least multiple of `k` at or above `n`, for k > 0. -/
def roundUp (n k : Nat) : Nat := ceilDiv n k * k

/-! ### Bytes (R4) -/

/-- The `n` little-endian bytes of a number. -/
def bytesOf (n x : Nat) : List Byte :=
  match n with
  | 0 => []
  | k + 1 => BitVec.ofNat 8 x :: bytesOf k (x / 256)

/-- The number of little-endian bytes. -/
def numOf (bs : List Byte) : Nat :=
  match bs with
  | [] => 0
  | b :: r => b.toNat + 256 * numOf r

/-- The list 0, 1, ..., n - 1, from `i`. -/
def upFrom (i n : Nat) : List Nat :=
  match n with
  | 0 => []
  | k + 1 => i :: upFrom (i + 1) k

/-! ### Vector registers (R216) -/

/-- Element `j` of width `w` of a register. -/
def elem (v : VReg) (w j : Nat) : Nat := (v.toNat >>> (w * j)) % 2 ^ w
/-- Lane `k`. -/
def lane (v : VReg) (k : Nat) : W32 := BitVec.ofNat 32 (elem v 32 k)
/-- The number whose element `j` of width `w` is the `j`-th of a list. -/
def packNat (w : Nat) (xs : List Nat) : Nat :=
  match xs with
  | [] => 0
  | x :: r => x % 2 ^ w + 2 ^ w * packNat w r
/-- A register of its lanes. -/
def ofLanes (xs : List W32) : VReg := BitVec.ofNat 2048 (packNat 32 (xs.map BitVec.toNat))
/-- The 64 lanes of a register. -/
def lanes (v : VReg) : List W32 := (upFrom 0 64).map (lane v)
/-- A register with element `j` of width `w` replaced. -/
def setElem (v : VReg) (w j x : Nat) : VReg :=
  let m : Nat := (2 ^ w - 1) <<< (w * j)
  BitVec.ofNat 2048 ((v.toNat - (v.toNat &&& m)) + ((x % 2 ^ w) <<< (w * j)))

/-! ### Memory (R44, R47): bytes by physical address -/

/-- What a byte that nothing has written since the `e`-th loss of HBM contents reads as: HBM 0 before the first loss
(log 5) and a free value after one (log 23); the tags of the macro slots their reset (R97: SCALE 0x7F, FMT BF16); the
macro slots, masks (R97) and every other byte 0 (log 5). -/
def unlisted (e pa : Nat) : Byte :=
  if pa < 0xA000000000 then (if e = 0 then 0 else Config.scrambledByte e pa)
  else if 0xC000000000000 ≤ pa ∧ pa < 0xC000100000000 then
    let o := pa % 0x400000
    if 0xB0200 ≤ o ∧ o < 0xB0A00 then
      let j := (o - 0xB0200) % 0x40
      if j < 0x20 then 0x7F else if j = 0x20 then 1 else 0
    else 0
  else 0

namespace Memory

/-- Addresses strictly rising and no entry at what an unlisted address reads as. -/
def wf (e : Nat) (m : List Host.Cell) : Bool :=
  match m with
  | [] => true
  | (a, b) :: r => b != unlisted e a && (match r with | [] => true | (a', _) :: _ => a < a') && wf e r

/-- The byte at an address. -/
def get (e : Nat) (m : List Host.Cell) (a : Nat) : Byte :=
  match m with
  | [] => unlisted e a
  | (j, b) :: r => if a = j then b else get e r a

/-- Insertion of a cell at its place by address. -/
def ins (m : List Host.Cell) (a : Nat) (b : Byte) : List Host.Cell :=
  match m with
  | [] => [(a, b)]
  | (j, c) :: r => if a < j then (a, b) :: (j, c) :: r else (j, c) :: ins r a b

/-- A byte stored; the canonical form is kept. -/
def set (e : Nat) (m : List Host.Cell) (a : Nat) (b : Byte) : List Host.Cell :=
  let m' := m.filter (fun c => c.1 != a)
  if b = unlisted e a then m' else ins m' a b

/-- The bytes of `n` addresses from `a`, of cells all at or above `a`. -/
def walkBytes (e : Nat) (m : List Host.Cell) (a n : Nat) : List Byte :=
  match n with
  | 0 => []
  | k + 1 =>
    match m with
    | [] => unlisted e a :: walkBytes e [] (a + 1) k
    | (j, b) :: r => if j = a then b :: walkBytes e r (a + 1) k else unlisted e a :: walkBytes e ((j, b) :: r) (a + 1) k

/-- The bytes of a range. -/
def slice (e : Nat) (m : List Host.Cell) (a n : Nat) : List Byte :=
  walkBytes e (m.filter (fun c => decide (a ≤ c.1))) a n

/-- The cells that a list of bytes from `a` needs. -/
def cellsOf (e a : Nat) (bs : List Byte) : List Host.Cell :=
  match bs with
  | [] => []
  | b :: r => if b = unlisted e a then cellsOf e (a + 1) r else (a, b) :: cellsOf e (a + 1) r

/-- A range replaced. -/
def put (e : Nat) (m : List Host.Cell) (a : Nat) (bs : List Byte) : List Host.Cell :=
  m.filter (fun c => decide (c.1 < a)) ++ cellsOf e a bs ++ m.filter (fun c => decide (a + bs.length ≤ c.1))

end Memory

end Sys2Proof.Machine
end

