-- ==== Sys2Proof/WellFormed.lean ====
section
/-!
DEFINITION. Sys2Proof/WellFormed.lean: which field values an instruction may carry, stream apart: step 2 of
R174 by R154, R171, R175-R185 and the field tables of the instruction chapters. An ill-formed term stands for no
instruction: its word traps ILLEGAL_INSTRUCTION. The events of rows 161-271 have no encoding and are well formed.
-/

namespace Sys2Proof

/-- Element width in bits of a format code (R72); 0 for a code without one. -/
def fmtWidth (c : Nat) : Nat :=
  match c with
  | 0 | 9 | 10 => 32
  | 1 | 2 => 16
  | 3 | 4 | 7 => 8
  | 5 | 6 | 8 => 4
  | 11 => 64
  | _ => 0

/-- Accepted as VCVT source and destination (R72): every format but CB4, FX64, the reserved ones and raw. -/
def fmtVcvt (c : Nat) : Bool := c ≤ 10 && c != 6
/-- E4M3, E5M2 or E2M1, the MX formats (R77). -/
def fmtMx (c : Nat) : Bool := c == 3 || c == 4 || c == 5
/-- Accepted as MMA A operand (R72). -/
def fmtMmaA (c : Nat) : Bool := 1 ≤ c && c ≤ 5
/-- Accepted as the value type of FMRGV (R255). -/
def fmtLane (c : Nat) : Bool := c == 0 || c == 1 || c == 2 || c == 9 || c == 10
/-- FP32, S32 or Z32 (R184). -/
def tyArith (c : BitVec 4) : Bool := c == 0 || c == 9 || c == 10
/-- rnd3 of a member that uses it (R82). -/
def rndUsed (r : BitVec 3) : Bool := r.toNat ≤ 4 || r == 7

/-- A field that a member leaves unused is zero (R154). -/
def unused {n : Nat} (x : BitVec n) : Bool := x == 0

namespace R3F

/-- rd, rs1 and rs2 used. -/
def wfAll (_ : R3F) : Bool := true
/-- rs2 and w2 unused. -/
def wfNoRs2 (f : R3F) : Bool := unused f.rs2 && !f.w2
/-- rd unused. -/
def wfNoRd (f : R3F) : Bool := unused f.rd
/-- rd, rs2 and w2 unused. -/
def wfRs1 (f : R3F) : Bool := unused f.rd && unused f.rs2 && !f.w2
/-- Only rd used. -/
def wfRd (f : R3F) : Bool := unused f.rs1 && unused f.rs2 && !f.w1 && !f.w2
/-- Only rd and rs1 used, without a w bit (TESTFE, R192). -/
def wfTest (f : R3F) : Bool := unused f.rs2 && !f.w1 && !f.w2
/-- Every field zero. -/
def wfNone (f : R3F) : Bool := unused f.rd && unused f.rs1 && unused f.rs2 && !f.w1 && !f.w2

end R3F

namespace I12F

/-- ORD of R178. -/
def ord (f : I12F) : Nat := (f.imm12.extractLsb' 10 2).toNat
/-- Z of R178. -/
def z (f : I12F) : Bool := f.imm12.getLsbD 9
/-- The shift member's selector [7:6] with [11:8] zero (R179). -/
def wfShift (f : I12F) (k : Nat) : Bool := (f.imm12.extractLsb' 6 6).toNat == k
/-- A load of less than 64 bits (R178). -/
def wfLoad (f : I12F) : Bool := f.ord ≤ 1
/-- LD64 (R178). -/
def wfLoad64 (f : I12F) : Bool := f.ord ≤ 1 && !f.z
/-- A store (R178). -/
def wfStore (f : I12F) : Bool := f.ord ≤ 2 && !f.z
/-- TRAP (R212). -/
def wfTrap (f : I12F) : Bool := unused f.rd && unused f.rs1 && !f.w1

end I12F

namespace VF

def noVs1 (f : VF) : Bool := unused f.vs1 && !f.w1
def noVs2 (f : VF) : Bool := unused f.vs2 && !f.w2
def noVs3 (f : VF) : Bool := unused f.vs3 && !f.w3
def noPred (f : VF) : Bool := unused f.pm && !f.zm
def noTyRnd (f : VF) : Bool := unused f.ty4 && unused f.rnd3
/-- ty4 unused, rnd3 taken no notice of (R82). -/
def noTy (f : VF) : Bool := unused f.ty4 && rndUsed f.rnd3
def noImm (f : VF) : Bool := unused f.imm13
def immBits (f : VF) (lo len : Nat) : Nat := (f.imm13.extractLsb' lo len).toNat

/-- VADD and its like (R221). -/
def wfArith (f : VF) : Bool := tyArith f.ty4 && rndUsed f.rnd3 && f.noVs3 && f.noImm
def wfFma (f : VF) : Bool := f.ty4 == 0 && rndUsed f.rnd3 && f.noImm
def wfAbs (f : VF) : Bool := (f.ty4 == 0 || f.ty4 == 9) && rndUsed f.rnd3 && f.noVs2 && f.noVs3 && f.noImm
def wfBit (f : VF) : Bool := f.noTyRnd && f.noVs3 && f.noImm
/-- R223. -/
def wfShift (f : VF) : Bool :=
  f.noTyRnd && f.noVs3 &&
    (if f.imm13.getLsbD 12 then f.noVs2 && f.immBits 6 6 == 0 else f.noImm)
/-- R224: codes 6 and 7 only with FP32. -/
def wfCmp (f : VF) : Bool :=
  tyArith f.ty4 && rndUsed f.rnd3 && f.noVs3 && f.immBits 3 10 == 0 && (f.ty4 == 0 || f.immBits 0 3 ≤ 5)
def wfSel (f : VF) : Bool := f.noTyRnd && f.noVs3 && f.noImm && !f.zm
def wfMov (f : VF) : Bool := f.noTyRnd && f.noVs2 && f.noVs3 && f.noImm
def wfBcast (f : VF) : Bool := f.noTyRnd && f.noVs2 && f.noVs3 && f.immBits 6 7 == 0
def wfIns (f : VF) : Bool := f.wfBcast && f.noPred
def wfExt (f : VF) : Bool := f.noTyRnd && f.noVs2 && f.noVs3 && f.immBits 7 6 == 0 && f.noPred
/-- R226. -/
def wfRed (f : VF) : Bool :=
  tyArith f.ty4 && rndUsed f.rnd3 && f.noVs2 && f.noVs3 && f.immBits 2 11 == 0 && f.immBits 0 2 != 3 && !f.zm
/-- R227: only ADD has a carry. -/
def wfScan (f : VF) : Bool :=
  tyArith f.ty4 && rndUsed f.rnd3 && f.noVs3 && f.immBits 3 10 == 0 && f.immBits 0 2 != 3 &&
    (f.immBits 0 2 == 0 || f.noVs2)
/-- R228. -/
def wfHist (f : VF) : Bool :=
  f.noTy && unused f.vd && f.noVs3 && f.immBits 1 6 == 0 && (f.imm13.getLsbD 0 || f.noVs2) && !f.zm
def wfTrans (f : VF) : Bool := f.ty4 == 0 && rndUsed f.rnd3 && f.noVs2 && f.noVs3 && f.noImm
/-- Predicates have no full/empty bit, so no w bit governs them (R160, R154). -/
def wfPred2 (f : VF) : Bool := f.noTyRnd && f.noVs3 && !f.w1 && !f.w2 && f.noImm && f.noPred
def wfPred1 (f : VF) : Bool := f.noTyRnd && f.noVs2 && f.noVs3 && !f.w1 && f.noImm && f.noPred
/-- R233. -/
def wfCvt (f : VF) : Bool :=
  fmtVcvt f.ty4.toNat && fmtVcvt (f.immBits 0 4) && rndUsed f.rnd3 && f.noVs2 && f.noVs3 &&
    f.immBits 10 3 == 0 && (f.immBits 4 3) * fmtWidth (f.immBits 0 4) < 32 &&
    (f.immBits 7 3) * fmtWidth f.ty4.toNat < 32
/-- R234. -/
def wfQmx (f : VF) : Bool :=
  fmtMx f.ty4.toNat && rndUsed f.rnd3 && f.noVs2 && f.noPred && f.immBits 0 7 == 0 && f.immBits 10 3 == 0 &&
    (f.immBits 7 3) * fmtWidth f.ty4.toNat < 32
/-- R235. -/
def wfDqmx (f : VF) : Bool :=
  fmtMx f.ty4.toNat && rndUsed f.rnd3 && f.noVs3 && f.immBits 0 4 == 0 && f.immBits 7 6 == 0 &&
    (f.immBits 4 3) * fmtWidth f.ty4.toNat < 32
/-- R236. -/
def wfLut (f : VF) : Bool :=
  f.ty4 == 6 && rndUsed f.rnd3 && f.noVs2 && f.noVs3 && f.immBits 0 4 == 0 && f.immBits 7 6 == 0
/-- R241. -/
def wfLdv (f : VF) : Bool := f.noTy && f.noVs2 && f.noVs3
def wfStv (f : VF) : Bool := f.noTy && unused f.vd && f.noVs2 && !f.zm
def wfLdvs (f : VF) : Bool := f.noTy && f.noVs3
def wfGather (f : VF) : Bool := f.noTy && f.noVs3 && f.immBits 2 11 == 0
def wfScatter (f : VF) : Bool := f.noTy && unused f.vd && f.immBits 2 11 == 0 && !f.zm
def wfQpush (f : VF) : Bool := f.noTy && f.noVs2 && f.noVs3 && f.immBits 1 12 == 0 && f.noPred

end VF

namespace EF

def bits (f : EF) (lo len : Nat) : Nat := (f.x.extractLsb' lo len).toNat
def noRd (f : EF) : Bool := unused f.rd
def noRs1 (f : EF) : Bool := unused f.rs1
def noRs2 (f : EF) : Bool := unused f.rs2
def noRs3 (f : EF) : Bool := unused f.rs3

/-- R260, R262. -/
def wfMldb (f : EF) : Bool :=
  f.noRd && f.noRs3 && f.bits 21 5 == 0 && f.bits 0 12 == 0 && (fmtMmaA (f.bits 12 4) || f.bits 12 4 == 6)
def wfMldm (f : EF) : Bool := f.noRd && f.noRs2 && f.noRs3 && f.bits 21 5 == 0 && f.bits 0 16 == 0
def wfMma (f : EF) : Bool := f.noRd && f.noRs3 && f.bits 0 12 == 0 && fmtMmaA (f.bits 12 4)
def wfMmaS (f : EF) : Bool := f.noRd && f.noRs3 && f.bits 0 11 == 0 && fmtMmaA (f.bits 12 4)
def wfMclr (f : EF) : Bool := f.noRd && f.noRs1 && f.noRs2 && f.noRs3 && !f.w && f.bits 0 21 == 0
def wfMrd (f : EF) : Bool :=
  f.noRs1 && f.noRs2 && f.noRs3 && !f.w && f.bits 16 5 == 0 && f.bits 0 12 == 0
/-- R260: D only with K = 0, S only with K = 1, rs1 (and w) only with K = 2. -/
def wfTile (f : EF) : Bool :=
  f.noRs2 && f.noRs3 && f.bits 12 4 == 0 && f.bits 0 10 == 0 && f.bits 10 2 != 3 &&
    (f.bits 10 2 == 0 || f.bits 21 5 == 0) && (f.bits 10 2 == 1 || f.bits 16 5 == 0) &&
    (f.bits 10 2 == 2 || (f.noRs1 && !f.w))
def wfTdclass (f : EF) : Bool := f.noRd && f.wfTile
def wfMtest (f : EF) : Bool :=
  f.noRs1 && f.noRs2 && f.noRs3 && !f.w && f.bits 21 5 == 0 && f.bits 0 16 == 0
/-- CPY, CPYSTAT (R260). -/
def wfCpy (f : EF) : Bool := f.noRs2 && f.noRs3 && unused f.x
/-- CPYCANCEL, CBLOAD (R260). -/
def wfRs1 (f : EF) : Bool := f.noRd && f.noRs2 && f.noRs3 && unused f.x
def wfChpush (f : EF) : Bool := f.noRd && f.noRs2 && f.noRs3 && f.bits 0 14 == 0
def wfChpop (f : EF) : Bool := f.noRs2 && f.noRs3 && f.bits 0 22 == 0
def wfChmark (f : EF) : Bool :=
  f.noRd && f.noRs1 && f.noRs2 && f.noRs3 && !f.w && f.bits 0 20 == 0 && (f.bits 20 2 == 1 || f.bits 20 2 == 3)
def wfChstat (f : EF) : Bool := f.noRs1 && f.noRs2 && f.noRs3 && !f.w && f.bits 0 20 == 0
/-- R255. -/
def wfFmrgv (f : EF) : Bool := f.noRs3 && f.bits 0 15 == 0 && f.bits 22 4 ≤ 8 && fmtLane (f.bits 18 4)
def wfFscan (f : EF) : Bool := f.bits 0 25 == 0
def wfFprobev (f : EF) : Bool := f.noRs3 && f.bits 0 20 == 0
def wfFunion (f : EF) : Bool := f.bits 16 5 == 0 && f.bits 22 4 ≤ 8

end EF

/-- A sel13 value that names a system register (R166). -/
def listedSel (sel : BitVec 13) : Bool :=
  let n := sel.toNat
  decide (n ≤ 5) || decide (8 ≤ n ∧ n ≤ 10) || n == 0x10 || n == 0x11 || n == 0x18 || n == 0x19 ||
    decide (0x20 ≤ n ∧ n ≤ 0x29)

/-- Step 2 of R174 but for legality in the stream: the fields an instruction may carry. -/
def Instr.wf (i : Instr) : Bool :=
  match i with
  | .add f | .sub f | .and f | .andn f | .or f | .xor f | .shl f | .shr f | .sra f | .mul f | .mulhS64 f
  | .mulhZ64 f | .divS64 f | .divZ64 f | .remS64 f | .remZ64 f | .minS64 f | .minZ64 f | .maxS64 f | .maxZ64 f
  | .sltS64 f | .sltZ64 f | .sel f | .lea _ f => f.wfAll
  | .clz f | .popc f | .sltz f => f.wfNoRs2
  | .sete f | .setf f => f.wfRd
  | .testfe f => f.wfTest
  | .addi _ | .andi _ | .ori _ | .xori _ | .slti _ => true
  | .shli f => f.wfShift 0
  | .shri f => f.wfShift 1
  | .srai f => f.wfShift 2
  | .lui _ => true
  | .bc f => f.cond.toNat ≤ 5
  | .loop f => unused f.res
  | .jmp _ | .call _ => true
  | .jmpr f | .callr f => f.wfRs1
  | .ret f | .fireEnd f | .yield f => f.wfNone
  | .ld8 f | .ld16 f | .ld32 f => f.wfLoad
  | .ld64 f => f.wfLoad64
  | .st8 f | .st16 f | .st32 f | .st64 f => f.wfStore
  | .amoadd _ | .amominS _ | .amominZ _ | .amomaxS _ | .amomaxZ _ | .amoand _ | .amoor _ | .amoxchg _
  | .amocas _ => true
  | .amosnap f => f.r.wfNoRs2
  | .fenceCore f | .fenceCluster f | .fenceDevice f | .fenceDomain f | .fenceEng f => f.wfNone
  | .marm f => f.wfRs1
  | .mwait f | .mwaitAcq f => f.wfNoRs2
  | .finit f | .fprobe f | .fins f => f.wfAll
  | .flen f => f.wfNoRs2
  | .fdel f => f.wfNoRd
  | .fpack f => f.wfRs1
  | .fcmb _ f => f.wfAll
  | .mfsr f => unused f.rs1 && listedSel f.sel13
  | .mtsr f => unused f.rd && listedSel f.sel13
  | .nop f | .eret f | .wdrain f | .halt f => f.wfNone
  | .trap f => f.wfTrap
  | .barInit f | .barWait f => f.wfNoRd
  | .barArr f => f.wfAll
  | .li f | .lih f => unused f.rs1 && !f.w1 && unused f.res
  | .addl f => unused f.res
  | .loopi f => unused f.res
  | .vadd f | .vsub f | .vmul f | .vmin f | .vmax f => f.wfArith
  | .vfma f => f.wfFma
  | .vabs f | .vneg f => f.wfAbs
  | .vand f | .vor f | .vxor f => f.wfBit
  | .vshl f | .vshr f | .vsra f => f.wfShift
  | .vcmp f => f.wfCmp
  | .vsel f => f.wfSel
  | .vmov f | .vsplat f => f.wfMov
  | .vbcast f => f.wfBcast
  | .vperm f => f.wfBit
  | .vins f => f.wfIns
  | .vext f => f.wfExt
  | .vred f => f.wfRed
  | .vscan f => f.wfScan
  | .vhist f => f.wfHist
  | .vexp2 f | .vrcp f | .vrsq f | .vlog2 f => f.wfTrans
  | .pand f | .por f => f.wfPred2
  | .pnot f | .pcnt f | .pfirst f => f.wfPred1
  | .ldv f => f.wfLdv
  | .stv f => f.wfStv
  | .ldvs f => f.wfLdvs
  | .gather f => f.wfGather
  | .scatter f => f.wfScatter
  | .qpush f => f.wfQpush
  | .vcvt f => f.wfCvt
  | .vqmx f => f.wfQmx
  | .vdqmx f => f.wfDqmx
  | .vlut f => f.wfLut
  | .mldb f => f.wfMldb
  | .mldm f => f.wfMldm
  | .mma f => f.wfMma
  | .mmaS f => f.wfMmaS
  | .mclr f => f.wfMclr
  | .mrd f => f.wfMrd
  | .tdclass f => f.wfTdclass
  | .tdquery f => f.wfTile
  | .mtest f => f.wfMtest
  | .cpy f | .cpystat f => f.wfCpy
  | .cpycancel f | .cbload f => f.wfRs1
  | .chpush f => f.wfChpush
  | .chpop f | .chpeek f => f.wfChpop
  | .chmark f => f.wfChmark
  | .chstat f => f.wfChstat
  | .fmrgv f => f.wfFmrgv
  | .fscan f => f.wfFscan
  | .fprobev f => f.wfFprobev
  | .funion f => f.wfFunion
  | .asyncTrap _ | .registerFill _ | .heldWriteDelivery _ _ | .windowWrite _ | .spillWrite _ _
  | .fillArrive _ _ _ | .storeAtHome _ | .loadAtHome _ | .atomicAtHome _ | .monitorRegister _
  | .mwaitTimeout _ | .fenceAck _ _ | .mergeAtHome _ | .deleteAtHome _ | .finitAtHome _ | .fpackAtHome _
  | .probeAtHome _ | .scanAtHome _ | .funionAtHome _ | .stalledMergeResume _ | .poolTimeout _
  | .donate _ _ _ | .poolReset _ _ _ | .faultctlResume _ _ | .faultctlAbandon _ _ | .schedulingEvent _ _
  | .channelCommit _ | .channelRelease _ | .tableTokenTake _ _ _ | .eosForward _ _ | .instanceRetire _ _
  | .poisonReinject _ _ _ | .rateSample _ _ | .rateParamWrite _ _ _ _ _ | .sinkDataSlot _ _ _
  | .sinkEndOfStream _ _ _ | .markerInject _ _ | .snapshotAlign _ _ | .snapshotUnalignedSwitch _ _
  | .unalignedMarkerArrive _ _ _ | .snapreq _ _ _ | .snapshotComplete _ | .snapdataResend _ _
  | .snapdataSessionLost _ | .snapdataAck _ _ _ | .watchdog _ | .launchPacket _ _ | .copyPacket _ _
  | .waitStampPacket _ _ | .signalPacket _ _ | .launchStart _ | .launchCompletion _ | .completionStamp _
  | .intensityWindow _ _ _ | .tileTaskIssue _ _ | .tileTaskComplete _ _ | .selfTest _ _ _ | .sectorIssue _ _
  | .copyStamp _ _ | .copyCtrlResume _ _ _ | .copyCtrlAbandon _ _ _ | .ienable _ _ _ | .lctlPreempt _ _
  | .preemptComplete _ | .lctlResume _ _ | .lctlKill _ _ | .killStamp _ | .lcorePreempt _ _ _
  | .lcoreResume _ _ _ | .doorbell _ _ _ | .tinvVa _ _ _ | .tinvAsid _ _ | .tinvAll _
  | .invalidationComplete | .translationWalk _ | .tilePageTableWrite _ _ _ | .hashRowWrite _ _ _
  | .pinsizeWrite _ _ | .planeTableWrite _ _ _ | .planeDeadSet _ _ | .quiesceClear _ | .linkFlit _
  | .migrationGo _ _ | .migrationSectorCopy _ | .migrationClr _ _ | .counterClear _ _ | .refresh _ _
  | .scrubRead _ _ | .scrubWriteback _ | .powerReqFull _ | .powerReqHalf _ | .powerReqIdle _
  | .powerTransitionDone | .sensorSample _ _ | .telemetryRefresh _ | .powerUp _ | .clusterStart _ _
  | .stackPairStart _ _ _ | .attestationReport _ _ | .read _ | .write _ | .fadd _ | .cas _ | .close _
  | .hello _ | .watch _ | .grant _ | .otherFrame _ | .registerWrite _ _ _ _ | .powerLoss
  | .unallocatedKindPacket _ _ => true

/-- Rows 161-271: a step of another agent, without an encoding. -/
def Instr.isEvent (i : Instr) : Bool :=
  match i with
  | .asyncTrap _ | .registerFill _ | .heldWriteDelivery _ _ | .windowWrite _ | .spillWrite _ _
  | .fillArrive _ _ _ | .storeAtHome _ | .loadAtHome _ | .atomicAtHome _ | .monitorRegister _
  | .mwaitTimeout _ | .fenceAck _ _ | .mergeAtHome _ | .deleteAtHome _ | .finitAtHome _ | .fpackAtHome _
  | .probeAtHome _ | .scanAtHome _ | .funionAtHome _ | .stalledMergeResume _ | .poolTimeout _
  | .donate _ _ _ | .poolReset _ _ _ | .faultctlResume _ _ | .faultctlAbandon _ _ | .schedulingEvent _ _
  | .channelCommit _ | .channelRelease _ | .tableTokenTake _ _ _ | .eosForward _ _ | .instanceRetire _ _
  | .poisonReinject _ _ _ | .rateSample _ _ | .rateParamWrite _ _ _ _ _ | .sinkDataSlot _ _ _
  | .sinkEndOfStream _ _ _ | .markerInject _ _ | .snapshotAlign _ _ | .snapshotUnalignedSwitch _ _
  | .unalignedMarkerArrive _ _ _ | .snapreq _ _ _ | .snapshotComplete _ | .snapdataResend _ _
  | .snapdataSessionLost _ | .snapdataAck _ _ _ | .watchdog _ | .launchPacket _ _ | .copyPacket _ _
  | .waitStampPacket _ _ | .signalPacket _ _ | .launchStart _ | .launchCompletion _ | .completionStamp _
  | .intensityWindow _ _ _ | .tileTaskIssue _ _ | .tileTaskComplete _ _ | .selfTest _ _ _ | .sectorIssue _ _
  | .copyStamp _ _ | .copyCtrlResume _ _ _ | .copyCtrlAbandon _ _ _ | .ienable _ _ _ | .lctlPreempt _ _
  | .preemptComplete _ | .lctlResume _ _ | .lctlKill _ _ | .killStamp _ | .lcorePreempt _ _ _
  | .lcoreResume _ _ _ | .doorbell _ _ _ | .tinvVa _ _ _ | .tinvAsid _ _ | .tinvAll _
  | .invalidationComplete | .translationWalk _ | .tilePageTableWrite _ _ _ | .hashRowWrite _ _ _
  | .pinsizeWrite _ _ | .planeTableWrite _ _ _ | .planeDeadSet _ _ | .quiesceClear _ | .linkFlit _
  | .migrationGo _ _ | .migrationSectorCopy _ | .migrationClr _ _ | .counterClear _ _ | .refresh _ _
  | .scrubRead _ _ | .scrubWriteback _ | .powerReqFull _ | .powerReqHalf _ | .powerReqIdle _
  | .powerTransitionDone | .sensorSample _ _ | .telemetryRefresh _ | .powerUp _ | .clusterStart _ _
  | .stackPairStart _ _ _ | .attestationReport _ _ | .read _ | .write _ | .fadd _ | .cas _ | .close _
  | .hello _ | .watch _ | .grant _ | .otherFrame _ | .registerWrite _ _ _ _ | .powerLoss
  | .unallocatedKindPacket _ _ => true
  | .add _ | .sub _ | .and _ | .andn _ | .or _ | .xor _ | .shl _ | .shr _ | .sra _ | .clz _ | .popc _
  | .mul _ | .mulhS64 _ | .mulhZ64 _ | .divS64 _ | .divZ64 _ | .remS64 _ | .remZ64 _ | .minS64 _ | .minZ64 _
  | .maxS64 _ | .maxZ64 _ | .sltS64 _ | .sltZ64 _ | .sltz _ | .sel _ | .lea _ _ | .sete _ | .setf _
  | .testfe _ | .addi _ | .andi _ | .ori _ | .xori _ | .shli _ | .shri _ | .srai _ | .slti _ | .lui _
  | .bc _ | .loop _ | .jmp _ | .call _ | .jmpr _ | .callr _ | .ret _ | .fireEnd _ | .yield _ | .ld8 _
  | .ld16 _ | .ld32 _ | .ld64 _ | .st8 _ | .st16 _ | .st32 _ | .st64 _ | .amoadd _ | .amominS _ | .amominZ _
  | .amomaxS _ | .amomaxZ _ | .amoand _ | .amoor _ | .amoxchg _ | .amosnap _ | .amocas _ | .fenceCore _
  | .fenceCluster _ | .fenceDevice _ | .fenceDomain _ | .fenceEng _ | .marm _ | .mwait _ | .mwaitAcq _
  | .finit _ | .flen _ | .fprobe _ | .fdel _ | .fpack _ | .fins _ | .fcmb _ _ | .mfsr _ | .mtsr _ | .nop _
  | .eret _ | .wdrain _ | .halt _ | .trap _ | .barInit _ | .barArr _ | .barWait _ | .li _ | .lih _ | .addl _
  | .loopi _ | .vadd _ | .vsub _ | .vmul _ | .vfma _ | .vmin _ | .vmax _ | .vabs _ | .vneg _ | .vand _
  | .vor _ | .vxor _ | .vshl _ | .vshr _ | .vsra _ | .vcmp _ | .vsel _ | .vmov _ | .vsplat _ | .vbcast _
  | .vperm _ | .vins _ | .vext _ | .vred _ | .vscan _ | .vhist _ | .vexp2 _ | .vrcp _ | .vrsq _ | .vlog2 _
  | .pand _ | .por _ | .pnot _ | .pcnt _ | .pfirst _ | .ldv _ | .stv _ | .ldvs _ | .gather _ | .scatter _
  | .qpush _ | .vcvt _ | .vqmx _ | .vdqmx _ | .vlut _ | .mldb _ | .mldm _ | .mma _ | .mmaS _ | .mclr _
  | .mrd _ | .tdclass _ | .tdquery _ | .mtest _ | .cpy _ | .cpystat _ | .cpycancel _ | .chpush _ | .chpop _
  | .chpeek _ | .chmark _ | .chstat _ | .cbload _ | .fmrgv _ | .fscan _ | .fprobev _ | .funion _ => false

end Sys2Proof
end

