-- ==== Sys2Proof/Machine/Fmt.lean ====
section
/-!
DEFINITION. Sys2Proof/Machine/Fmt.lean: number formats, exact values, rounding, flags, conversion and stochastic
rounding (R72-R95). A finite value is exact: sign, numerator mantissa and a power of two.
-/

namespace Sys2Proof.Machine

/-! ### Formats (R75) -/

/-- Exponent bits, mantissa bits, bias of a floating format code. -/
structure Ffmt where
  ebits : Nat
  mbits : Nat
  bias : Nat
  deriving DecidableEq, Repr

/-- The floating format of a code (R75); integer codes give FP32. -/
def ffmt (c : Nat) : Ffmt :=
  match c with
  | 1 => ⟨8, 7, 127⟩
  | 2 => ⟨5, 10, 15⟩
  | 3 => ⟨4, 3, 7⟩
  | 4 => ⟨5, 2, 15⟩
  | 5 => ⟨2, 1, 1⟩
  | _ => ⟨8, 23, 127⟩

/-- FP32, BF16, FP16, E4M3, E5M2, E2M1. -/
def isFloat (c : Nat) : Bool := c ≤ 5
/-- A format with infinities (R75). -/
def hasInf (c : Nat) : Bool := c == 0 || c == 1 || c == 2 || c == 4
/-- A format FTZ applies to (R89). -/
def ftzFmt (c : Nat) : Bool := c == 0 || c == 1 || c == 2
/-- Canonical NaN (R75); E2M1 has none. -/
def canonNaN (c : Nat) : Nat :=
  match c with
  | 1 => 0x7FC0
  | 2 => 0x7E00
  | 3 => 0x7F
  | 4 => 0x7E
  | 5 => 0
  | _ => 0x7FC00000

/-- A value read from an encoding. -/
inductive FVal where
  /-- NaN, signalling or quiet. -/
  | nan (signalling : Bool)
  | inf (neg : Bool)
  /-- (-1)^neg × m × 2^e; m = 0 is a zero of its sign. -/
  | fin (neg : Bool) (m : Nat) (e : Int)
  deriving DecidableEq, Repr

def FVal.zero : FVal := .fin false 0 0

/-- The flags of FPFLAGS: NV 4, DZ 3, OF 2, UF 1, NX 0 (R86). -/
abbrev Flags := BitVec 5
def flagNV : Flags := 16
def flagDZ : Flags := 8
def flagOF : Flags := 4
def flagUF : Flags := 2
def flagNX : Flags := 1

/-- Reading a floating encoding by R75. -/
def readFloat (c x : Nat) : FVal :=
  let f := ffmt c
  let m := x % 2 ^ f.mbits
  let e := (x >>> f.mbits) % 2 ^ f.ebits
  let s := (x >>> (f.mbits + f.ebits)) % 2 == 1
  let emax := 2 ^ f.ebits - 1
  if hasInf c && e == emax then
    if m == 0 then .inf s else .nan (ftzFmt c && m < 2 ^ (f.mbits - 1))
  else if c == 3 && e == emax && m == 7 then .nan false
  else if e == 0 then .fin s m (1 - (f.bias : Int) - f.mbits)
  else .fin s (2 ^ f.mbits + m) ((e : Int) - f.bias - f.mbits)

/-- Reading an element of any VCVT or copy format: floats by R75, integers by R79. -/
def readElem (c x : Nat) : FVal :=
  if isFloat c then readFloat c x
  else
    let n : Int := if c == 10 then (x % 2 ^ 32 : Nat) else toSigned (fmtWidth c) x
    .fin (n < 0) n.natAbs 0

/-- FTZ on an operand: a subnormal of FP32, BF16 or FP16 reads as zero of its sign (R89). -/
def flushIn (ftz : Bool) (c : Nat) (v : FVal) (x : Nat) : FVal :=
  if ftz && ftzFmt c && (x >>> (ffmt c).mbits) % 2 ^ (ffmt c).ebits == 0 then
    match v with
    | .fin s _ _ => .fin s 0 0
    | o => o
  else v

/-! ### Exact arithmetic -/

def FVal.neg : FVal → FVal
  | .nan s => .nan s
  | .inf s => .inf (!s)
  | .fin s m e => .fin (!s) m e

def FVal.isNaN : FVal → Bool
  | .nan _ => true
  | _ => false
def FVal.isSig : FVal → Bool
  | .nan s => s
  | _ => false
def FVal.isInf : FVal → Bool
  | .inf _ => true
  | _ => false
def FVal.isZero : FVal → Bool
  | .fin _ m _ => m == 0
  | _ => false
def FVal.sign : FVal → Bool
  | .nan _ => false
  | .inf s => s
  | .fin s _ _ => s

/-- A finite value as an integer multiple of 2^e0, for e0 at or below its exponent. -/
def scaledTo (e0 : Int) (v : FVal) : Int :=
  match v with
  | .fin s m e => (if s then -1 else 1) * ((m <<< (e - e0).toNat : Nat) : Int)
  | _ => 0

/-- The exponent of a finite non-zero value; others do not bound a sum. -/
def expOf (v : FVal) : Option Int :=
  match v with
  | .fin _ 0 _ => none
  | .fin _ _ e => some e
  | _ => none

/-- The least exponent among values, 0 when none has one. -/
def minExp (vs : List FVal) : Int :=
  match vs.filterMap expOf with
  | [] => 0
  | e :: r => r.foldl (fun a b => if b < a then b else a) e

/-- The exact sum of finite values: an integer and the power of two it counts. -/
def sumFin (vs : List FVal) : Int × Int :=
  let e0 := minExp vs
  (vs.foldl (fun a v => a + (if v.isZero then 0 else scaledTo e0 v)) 0, e0)

/-- An exact integer multiple of 2^e as a value; zero takes the sign given. -/
def ofSum (s : Int × Int) (zneg : Bool) : FVal :=
  if s.1 = 0 then .fin zneg 0 0 else .fin (s.1 < 0) s.1.natAbs s.2

/-- The exact product of finite values. -/
def mulFin (a b : FVal) : FVal :=
  match a, b with
  | .fin s m e, .fin t n f => .fin (s != t) (m * n) (e + f)
  | _, _ => .zero

/-- Comparison of values without a NaN, with -0 = +0: -1, 0 or 1. -/
def cmpVal (a b : FVal) : Int :=
  match a, b with
  | .inf s, .inf t => if s == t then 0 else if s then -1 else 1
  | .inf s, _ => if s then -1 else 1
  | _, .inf t => if t then 1 else -1
  | a, b =>
    let e0 := minExp [a, b]
    let x := if a.isZero then 0 else scaledTo e0 a
    let y := if b.isZero then 0 else scaledTo e0 b
    if x < y then -1 else if y < x then 1 else 0

/-! ### Rounding (R80, R83, R85) -/

/-- A magnitude to be rounded: (m + f) × 2^e with 0 ≤ f < 1, f > 0 exactly when `sticky`. -/
structure Mag where
  m : Nat
  e : Int
  sticky : Bool := false
  deriving DecidableEq, Repr

/-- One rounding step at the unit 2^q: whether the neighbour above is taken, by mode (R80) or, in mode 4, by the
random `r` (R85). `lo` is the truncated quotient, `rem` over `2^k` the rest. -/
def roundsUp (mode : Nat) (neg : Bool) (r : W32) (lo rem k : Nat) (sticky : Bool) : Bool :=
  let inexact := rem != 0 || sticky
  match mode with
  | 0 =>
    if k == 0 then false
    else
      let half := 2 ^ (k - 1)
      if rem < half then false
      else if rem > half || sticky then true
      else lo % 2 == 1
  | 1 => false
  | 2 => inexact && !neg
  | 3 => inexact && neg
  | _ => inexact && r.toNat ≤ (rem <<< 32) >>> k

/-- A magnitude rounded to a whole number of units 2^q: the multiple and whether it is inexact. The magnitude's
exponent may stand above or below q; a sticky magnitude must have at least 35 bits below the unit. -/
def roundAt (mode : Nat) (neg : Bool) (r : W32) (x : Mag) (q : Int) : Nat × Bool :=
  if q ≤ x.e then (x.m <<< (x.e - q).toNat, x.sticky)
  else
    let k := (q - x.e).toNat
    let lo := x.m >>> k
    let rem := x.m % 2 ^ k
    (if roundsUp mode neg r lo rem k x.sticky then lo + 1 else lo, rem != 0 || x.sticky)

/-- What a rounding answers: the encoding and its flags. -/
structure Rounded where
  bits : Nat
  flags : Flags := 0
  deriving DecidableEq, Repr

/-- The encoding of a non-zero magnitude (mult × 2^q) in a format, without its sign; none when beyond the largest finite. -/
def encodeMag (c : Nat) (mult : Nat) (q : Int) : Option Nat :=
  let f := ffmt c
  if mult = 0 then some 0
  else
    let top := Nat.log2 mult
    -- exponent field of the leading bit
    let ex : Int := (top : Int) + q + f.bias
    let bits :=
      if ex ≤ 0 then
        -- subnormal: units of 2^(1 - bias - mbits)
        (mult <<< (q - (1 - (f.bias : Int) - f.mbits)).toNat)
      else
        let m := if top ≤ f.mbits then mult <<< (f.mbits - top) else mult >>> (top - f.mbits)
        ex.toNat * 2 ^ f.mbits + (m - 2 ^ f.mbits)
    let limit := if c == 3 then 0x7E else if c == 5 then 7 else (2 ^ f.ebits - 1) * 2 ^ f.mbits - 1
    if limit < bits then none else some bits

/-- The largest finite encoding, without its sign (R75). -/
def maxFinite (c : Nat) : Nat :=
  let f := ffmt c
  if c == 3 then 0x7E else if c == 5 then 7 else (2 ^ f.ebits - 1) * 2 ^ f.mbits - 1

/-- The sign bit's weight in a format. -/
def signOf (c : Nat) (neg : Bool) : Nat := if neg then 2 ^ ((ffmt c).ebits + (ffmt c).mbits) else 0

/-- ∞'s encoding (R75). -/
def infBits (c : Nat) (neg : Bool) : Nat := signOf c neg + (2 ^ (ffmt c).ebits - 1) * 2 ^ (ffmt c).mbits

/-- Overflow by R91: IEEE for formats with infinities, saturation for E4M3 and E2M1. -/
def overflowBits (c mode : Nat) (neg : Bool) : Nat :=
  if hasInf c then
    match mode with
    | 1 => signOf c neg + maxFinite c
    | 2 => if neg then signOf c neg + maxFinite c else infBits c neg
    | 3 => if neg then infBits c neg else signOf c neg + maxFinite c
    | _ => infBits c neg
  else signOf c neg + maxFinite c

/-- E4M3 in mode 4 above the largest finite value 448 and below 2^9: 448, or 2^9 when the random is at most the
fraction of the way there (R85), as a multiple of 2^5 (log 10). -/
def overMag (r : W32) (x : Mag) : Nat × Bool :=
  -- The magnitude in units of 2^-64, 448 and 64 in the same units.
  let v := if x.e < -64 then x.m >>> (-64 - x.e).toNat else x.m <<< (x.e + 64).toNat
  let f := ((v - (448 <<< 64)) <<< 32) / (64 <<< 64)
  (if r.toNat ≤ f then 16 else 14, true)

/-- Whether a magnitude lies strictly between 448 and 2^9. -/
def between448 (x : Mag) : Bool :=
  (Nat.log2 x.m : Int) + x.e == 8 &&
    (if x.e < 0 then decide ((448 <<< (-x.e).toNat) < x.m) || (x.sticky && x.m == 448 <<< (-x.e).toNat)
     else decide (448 < x.m <<< x.e.toNat) || x.sticky)

/-- The real (-1)^neg × x, not zero, rounded to a floating format (R80, R83, R85, R86, R89, R91). Tininess is
judged on the rounding to unbounded exponent range with the same random (log 11). -/
def roundFloat (c mode : Nat) (ftz : Bool) (r : W32) (neg : Bool) (x : Mag) : Rounded :=
  let f := ffmt c
  let top : Int := (Nat.log2 x.m : Int) + x.e
  let emin : Int := 1 - f.bias
  let qn := top - f.mbits
  let qs := emin - f.mbits
  -- Rounded to unbounded exponent range, for tininess.
  let u := roundAt mode neg r x qn
  let tiny := (Nat.log2 u.1 : Int) + qn < emin
  let q := if qn < qs then qs else qn
  -- Above 448, mode 4 takes 448 and 2^9 as the neighbours (R85; log 10).
  let v := if c == 3 && mode == 4 && between448 x then overMag r x else roundAt mode neg r x q
  if ftz && ftzFmt c && tiny then
    { bits := signOf c neg, flags := flagUF ||| flagNX }
  else
    let nx := if v.2 then flagNX else 0
    let uf := if tiny && v.2 then flagUF else 0
    match encodeMag c v.1 q with
    | some b => { bits := signOf c neg + b, flags := nx ||| uf }
    | none => { bits := overflowBits c mode neg, flags := flagOF ||| flagNX }

/-- Rounding to an integer format with saturation (R91). -/
def roundInt (c mode : Nat) (r : W32) (neg : Bool) (x : Mag) : Rounded :=
  let v := roundAt mode neg r x 0
  let n : Int := if neg then -(v.1 : Int) else v.1
  let w := fmtWidth c
  let lo : Int := if c == 10 then 0 else -(2 ^ (w - 1) : Nat)
  let hi : Int := if c == 10 then (2 ^ 32 - 1 : Nat) else (2 ^ (w - 1) - 1 : Nat)
  if n < lo then { bits := fromSigned w lo, flags := flagNV }
  else if hi < n then { bits := fromSigned w hi, flags := flagNV }
  else { bits := fromSigned w n, flags := if v.2 then flagNX else 0 }

/-- A value converted to a format by R91, the flags included; a signalling NaN raises NV (R90). -/
def convert (c mode : Nat) (ftz : Bool) (r : W32) (v : FVal) : Rounded :=
  let w := fmtWidth c
  if isFloat c then
    match v with
    | .nan s =>
      if c == 5 then { bits := 0, flags := flagNV }
      else { bits := canonNaN c, flags := if s then flagNV else 0 }
    | .inf s =>
      if hasInf c then { bits := infBits c s }
      else { bits := signOf c s + maxFinite c, flags := flagNV }
    | .fin s m e => if m = 0 then { bits := signOf c s } else roundFloat c mode ftz r s { m := m, e := e }
  else
    match v with
    | .nan _ => { bits := 0, flags := flagNV }
    | .inf s =>
      let lo : Int := if c == 10 then 0 else -(2 ^ (w - 1) : Nat)
      let hi : Int := if c == 10 then (2 ^ 32 - 1 : Nat) else (2 ^ (w - 1) - 1 : Nat)
      { bits := fromSigned w (if s then lo else hi), flags := flagNV }
    | .fin s m e => if m = 0 then { bits := 0 } else roundInt c mode r s { m := m, e := e }

/-- An exact value rounded to FP32 (R222, R226, R94): values already reduced, NaN given as the canonical one. -/
def roundFP32 (mode : Nat) (ftz : Bool) (r : W32) (v : FVal) : Rounded := convert 0 mode ftz r v

/-! ### Stochastic generators (R84) -/

/-- xorshift32. -/
def xorshift (x : W32) : W32 :=
  let x := x ^^^ (x <<< 13)
  let x := x ^^^ (x >>> 17)
  x ^^^ (x <<< 5)

/-- `n` steps of the generator. -/
def xorshiftN (n : Nat) (x : W32) : W32 :=
  match n with
  | 0 => x
  | k + 1 => xorshiftN k (xorshift x)

/-- Lane generators after a write of SEED: the state of lane `k` (R84). -/
def seedLane (seed : W32) (k : Nat) : W32 := xorshiftN (k + 1) (if seed = 0 then 0x6D2B79F5 else seed)

/-! ### Block scales (R76, R77, R93) -/

/-- Whether a floating value times 2^k. -/
def scale2 (k : Int) (v : FVal) : FVal :=
  match v with
  | .fin s m e => .fin s m (e + k)
  | o => o

/-- The value of an MX element under scale code `sc` (R77). -/
def mxValue (c x sc : Nat) : FVal :=
  if sc = 0 then .zero
  else if sc = 0xFF then .nan false
  else scale2 ((sc : Int) - 127) (readFloat c x)

/-- floor(log2 |v|) of a finite non-zero value. -/
def floorLog2 (v : FVal) : Int :=
  match v with
  | .fin _ m e => (Nat.log2 m : Int) + e
  | _ => 0

/-- EMAX of R93. -/
def emaxOf (c : Nat) : Int := if c == 3 then 8 else if c == 4 then 15 else 2

/-- A block of values quantised by R93: scale code, elements and flags. `rs` are the lanes' randoms. -/
def quantBlock (c mode : Nat) (rs : List W32) (xs : List FVal) : Nat × List Nat × Flags :=
  if xs.any (fun x => x.isNaN || x.isInf) then
    (0xFF, xs.map (fun _ => 0), if xs.any (fun x => x.isInf || x.isSig) then flagNV else 0)
  else if xs.all FVal.isZero then (0, xs.map (fun _ => 0), 0)
  else
    let tops := (xs.filter (fun x => !x.isZero)).map floorLog2
    let amax := tops.foldl (fun a b => if a < b then b else a) (tops.headD 0)
    let code := (clampInt (amax - emaxOf c + 127) 1 254).toNat
    let es := (xs.zip rs).map (fun p =>
      match scale2 (127 - (code : Int)) p.1 with
      | .fin s 0 _ => ({ bits := signOf c s } : Rounded)
      | .fin s m e =>
        let y := roundFloat c mode false p.2 s { m := m, e := e }
        -- Beyond the largest finite value: clamped, NX only.
        if (y.flags &&& flagOF) != 0 || y.bits % 2 ^ (fmtWidth c - 1) > maxFinite c then
          { bits := signOf c s + maxFinite c, flags := flagNX }
        else y
      | _ => { bits := 0 })
    (code, es.map (·.bits), es.foldl (fun a y => a ||| y.flags) 0)

end Sys2Proof.Machine
end

