-- ==== Sys2Proof/Machine/Elem.lean ====
section
/-!
DEFINITION. Sys2Proof/Machine/Elem.lean: base-2 exponential, reciprocal, reciprocal root and logarithm (R230,
R231). VEXP2 and VRCP are rounded from more bits than any FP32 operand needs; VRSQ and VLOG2 are truncated to 26
significant bits first, as the spec says.
-/

namespace Sys2Proof.Machine

/-- Newton steps towards the integer square root of `n` from above. -/
def isqrtGo (fuel n x : Nat) : Nat :=
  match fuel with
  | 0 => x
  | k + 1 =>
    let y := (x + n / x) / 2
    if y < x then isqrtGo k n y else x

/-- floor(√n). -/
def isqrt (n : Nat) : Nat := if n = 0 then 0 else isqrtGo (Nat.log2 n + 2) n (2 ^ (Nat.log2 n / 2 + 1))

/-- Precision, in bits, of VEXP2's products. -/
def expPrec : Nat := 256

/-- The product of 2^(2^-i) over the set bits of a fraction: `bits` is the fraction's remaining bits, most
significant first, `rt` is 2^(2^-i) and `acc` the product so far, both with `expPrec` bits below the point. -/
def exp2Go (bits : List Bool) (rt acc : Nat) : Nat :=
  match bits with
  | [] => acc
  | b :: r => exp2Go r (isqrt (rt <<< expPrec)) (if b then (acc * rt) >>> expPrec else acc)

/-- 2^x for x = v/2^t with 0 ≤ v < 2^t, as a multiple of 2^-expPrec, rounded down. -/
def exp2Frac (v t : Nat) : Nat :=
  exp2Go ((upFrom 0 t).map (fun i => v.testBit (t - 1 - i))) (isqrt (2 <<< (2 * expPrec))) (1 <<< expPrec)

/-- 2^x for a finite non-zero x (R230). -/
def exp2Mag (neg : Bool) (m : Nat) (e : Int) : Mag :=
  if 0 ≤ e then
    -- x is an integer.
    let n : Int := if neg then -((m <<< e.toNat : Nat) : Int) else (m <<< e.toNat : Nat)
    { m := 1, e := if n < -400 then -400 else if 400 < n then 400 else n }
  else
    let t := (-e).toNat
    let whole := m >>> t
    let frac := m % 2 ^ t
    if 300 < whole then { m := 1, e := if neg then -400 else 400, sticky := true }
    else if frac = 0 then { m := 1, e := if neg then -(whole : Int) else whole }
    else
      let n : Int := if neg then -(whole : Int) - 1 else whole
      let f := if neg then 2 ^ t - frac else frac
      { m := exp2Frac f t, e := n - expPrec, sticky := true }

/-- 1/x for a finite non-zero x = m × 2^e (R230). -/
def rcpMag (m : Nat) (e : Int) : Mag :=
  let k := Nat.log2 m + 96
  { m := 2 ^ k / m, e := -e - k, sticky := 2 ^ k % m != 0 }

/-- A magnitude truncated to 26 significant bits, and whether that lost anything. -/
def trunc26 (x : Mag) : Mag × Bool :=
  let top := Nat.log2 x.m
  if top ≤ 25 then ({ x with sticky := false }, x.sticky)
  else
    let k := top - 25
    ({ m := x.m >>> k, e := x.e + k }, x.m % 2 ^ k != 0 || x.sticky)

/-- 1/√x for x = m × 2^e > 0, rounded down to about 60 bits. -/
def rsqMag (m : Nat) (e : Int) : Mag :=
  let m' := if e % 2 = 0 then m else 2 * m
  let e' := if e % 2 = 0 then e else e - 1
  let k := (Nat.log2 m' + 121) / 2
  let q := isqrt (2 ^ (2 * k) / m')
  { m := q, e := -(e' / 2) - k, sticky := q * q * m' != 2 ^ (2 * k) }

/-- `n` fraction bits of log2 z for 1 ≤ z < 2, where z stands with `expPrec` bits below the point. -/
def log2Go (n z acc : Nat) : Nat :=
  match n with
  | 0 => acc
  | k + 1 =>
    let q := (z * z) >>> expPrec
    if q < 2 <<< expPrec then log2Go k q (2 * acc) else log2Go k (q >>> 1) (2 * acc + 1)

/-- log2 x for x = m × 2^e > 0 other than 1: sign and magnitude rounded toward zero to 80 bits below the point. -/
def log2Mag (m : Nat) (e : Int) : Bool × Mag :=
  let top := Nat.log2 m
  let whole : Int := (top : Int) + e
  let exact := m == 2 ^ top
  let fr : Int := if exact then 0 else (log2Go 80 (m <<< (expPrec - top)) 0 : Nat)
  let v : Int := whole * (2 ^ 80 : Nat) + fr
  if 0 ≤ v then (false, { m := v.natAbs, e := -80, sticky := !exact })
  else (true, { m := if exact then v.natAbs else v.natAbs - 1, e := -80, sticky := !exact })

/-- The transcendental members of major 0x06 by fn6 (R230). -/
inductive Trans where
  | exp2 | rcp | rsq | log2
  deriving DecidableEq, Repr

/-- The rounding of VRSQ and VLOG2: 26 significant bits, then FP32; NX when the result is not exact (R230). -/
def roundTrunc (mode : Nat) (ftz : Bool) (r : W32) (neg : Bool) (x : Mag) : Rounded :=
  let y := trunc26 x
  let z := roundFloat 0 mode ftz r neg y.1
  if y.2 then { z with flags := z.flags ||| flagNX } else z

/-- One lane of a member of major 0x06 (R230, R231). -/
def transLane (op : Trans) (mode : Nat) (ftz : Bool) (r : W32) (x : Nat) : Rounded :=
  let v := flushIn ftz 0 (readFloat 0 x) x
  match op, v with
  | _, .nan s => { bits := canonNaN 0, flags := if s then flagNV else 0 }
  | .exp2, .inf s => { bits := if s then 0 else infBits 0 false }
  | .exp2, .fin s m e =>
    if m = 0 then { bits := 0x3F800000 } else roundFloat 0 mode ftz r false (exp2Mag s m e)
  | .rcp, .inf s => { bits := signOf 0 s }
  | .rcp, .fin s m e =>
    if m = 0 then { bits := infBits 0 s, flags := flagDZ } else roundFloat 0 mode ftz r s (rcpMag m e)
  | .rsq, .inf s => if s then { bits := canonNaN 0, flags := flagNV } else { bits := 0 }
  | .rsq, .fin s m e =>
    if m = 0 then { bits := infBits 0 s, flags := flagDZ }
    else if s then { bits := canonNaN 0, flags := flagNV }
    else roundTrunc mode ftz r false (rsqMag m e)
  | .log2, .inf s => if s then { bits := canonNaN 0, flags := flagNV } else { bits := infBits 0 false }
  | .log2, .fin s m e =>
    if m = 0 then { bits := infBits 0 true, flags := flagDZ }
    else if s then { bits := canonNaN 0, flags := flagNV }
    else if m = 2 ^ Nat.log2 m && (Nat.log2 m : Int) + e = 0 then { bits := 0 }
    else
      let y := log2Mag m e
      roundTrunc mode ftz r y.1 y.2

end Sys2Proof.Machine
end

