-- ==== Sys2Proof/Decode.lean ====
section
/-!
DEFINITION. Sys2Proof/Decode.lean: from instruction words to instructions (R170-R185), rejecting by name, and
back (`encode`, from the same tables).
-/

namespace Sys2Proof

/-- Why a word pair is no instruction; every one of them traps ILLEGAL_INSTRUCTION (R173, R175, R185). -/
inductive DecodeError where
  /-- Fewer bytes than the instruction has. -/
  | short
  /-- A major that R176 or R182 leaves unallocated. -/
  | noMajor (major : Nat)
  /-- An fn, fn6 or sub-field value that R177-R184 leave unallocated. -/
  | noFn (fn : Nat)
  /-- A field outside what the member accepts, or an unused or reserved field not zero (R154, R185). -/
  | badField
  deriving DecidableEq, Repr

/-- The R3 fields of a word (R171). -/
def r3Fields (w : W32) : R3F :=
  { rd := w.extractLsb' 19 6, rs1 := w.extractLsb' 13 6, rs2 := w.extractLsb' 7 6
    w1 := w.getLsbD 6, w2 := w.getLsbD 5 }

/-- The I12 fields of a word (R171). -/
def i12Fields (w : W32) : I12F :=
  { rd := w.extractLsb' 19 6, rs1 := w.extractLsb' 13 6, w1 := w.getLsbD 12, imm12 := w.extractLsb' 0 12 }

/-- The U19 fields of a word (R171). -/
def u19Fields (w : W32) : U19F := { rd := w.extractLsb' 19 6, imm19 := w.extractLsb' 0 19 }

/-- The BC fields of a word (R171). -/
def bcFields (w : W32) : BcF :=
  { cond := w.extractLsb' 22 3, w1 := w.getLsbD 21, rs1 := w.extractLsb' 15 6, off15 := w.extractLsb' 0 15 }

/-- The LP fields of a word (R171). -/
def lpFields (w : W32) : LpF :=
  { rs1 := w.extractLsb' 19 6, w1 := w.getLsbD 18, res := w.extractLsb' 16 2, off16 := w.extractLsb' 0 16 }

/-- The J25 field of a word (R171). -/
def j25Fields (w : W32) : J25F := { off25 := w.extractLsb' 0 25 }

/-- The SYS fields of a word (R171). -/
def sysFields (w : W32) : SysF :=
  { rd := w.extractLsb' 19 6, rs1 := w.extractLsb' 13 6, sel13 := w.extractLsb' 0 13 }

/-- The V fields of a word pair (R172). -/
def vFields (w0 w1 : W32) : VF :=
  { vd := w0.extractLsb' 19 6, vs1 := w0.extractLsb' 13 6, vs2 := w0.extractLsb' 7 6, vs3 := w1.extractLsb' 26 6
    pm := w0.extractLsb' 4 3, w1 := w0.getLsbD 3, w2 := w0.getLsbD 2, w3 := w0.getLsbD 1, zm := w0.getLsbD 0
    ty4 := w1.extractLsb' 16 4, rnd3 := w1.extractLsb' 13 3, imm13 := w1.extractLsb' 0 13 }

/-- The E fields of a word pair (R172). -/
def eFields (w0 w1 : W32) : EF :=
  { rd := w0.extractLsb' 19 6, rs1 := w0.extractLsb' 13 6, rs2 := w0.extractLsb' 7 6, rs3 := w0.extractLsb' 1 6
    w := w0.getLsbD 0, x := w1.extractLsb' 0 26 }

/-- The L fields of a word pair (R172). -/
def lFields (w0 w1 : W32) : LF :=
  { rd := w0.extractLsb' 19 6, rs1 := w0.extractLsb' 13 6, w1 := w0.getLsbD 12, res := w0.extractLsb' 0 6
    imm32 := w1 }

/-- The LX fields of a word pair (R172). -/
def lxFields (w0 w1 : W32) : LxF :=
  { rs1 := w0.extractLsb' 19 6, rs2 := w0.extractLsb' 13 6, w1 := w0.getLsbD 12, w2 := w0.getLsbD 11
    res := w0.extractLsb' 0 11, simm16 := w1.extractLsb' 16 16, off16 := w1.extractLsb' 0 16 }

/-- An atomic of the major with ordering qualifier `ord` (R180). -/
def decodeAmo (ord : BitVec 2) (w : W32) : Except DecodeError Instr :=
  let f : AmoF := { ord := ord, z := w.getLsbD 4, r := r3Fields w }
  match (w.extractLsb' 0 4).toNat with
  | 0 => .ok (.amoadd f)
  | 1 => .ok (.amominS f)
  | 2 => .ok (.amominZ f)
  | 3 => .ok (.amomaxS f)
  | 4 => .ok (.amomaxZ f)
  | 5 => .ok (.amoand f)
  | 6 => .ok (.amoor f)
  | 7 => .ok (.amoxchg f)
  | 8 => .ok (.amosnap f)
  | 9 => .ok (.amocas f)
  | n => .error (.noFn n)

/-- The 32-bit space by major and fn (R176-R181). -/
def decode32 (w : W32) : Except DecodeError Instr :=
  let fn := (w.extractLsb' 0 5).toNat
  match (w.extractLsb' 25 6).toNat with
  | 1 =>
    match fn with
    | 0 => .ok (.add (r3Fields w))
    | 1 => .ok (.sub (r3Fields w))
    | 2 => .ok (.and (r3Fields w))
    | 3 => .ok (.andn (r3Fields w))
    | 4 => .ok (.or (r3Fields w))
    | 5 => .ok (.xor (r3Fields w))
    | n => .error (.noFn n)
  | 2 =>
    match fn with
    | 0 => .ok (.shl (r3Fields w))
    | 1 => .ok (.shr (r3Fields w))
    | 2 => .ok (.sra (r3Fields w))
    | 3 => .ok (.clz (r3Fields w))
    | 4 => .ok (.popc (r3Fields w))
    | n => .error (.noFn n)
  | 3 =>
    match fn with
    | 0 => .ok (.mul (r3Fields w))
    | 1 => .ok (.mulhS64 (r3Fields w))
    | 2 => .ok (.mulhZ64 (r3Fields w))
    | 3 => .ok (.divS64 (r3Fields w))
    | 4 => .ok (.divZ64 (r3Fields w))
    | 5 => .ok (.remS64 (r3Fields w))
    | 6 => .ok (.remZ64 (r3Fields w))
    | n => .error (.noFn n)
  | 4 =>
    match fn with
    | 0 => .ok (.minS64 (r3Fields w))
    | 1 => .ok (.minZ64 (r3Fields w))
    | 2 => .ok (.maxS64 (r3Fields w))
    | 3 => .ok (.maxZ64 (r3Fields w))
    | 4 => .ok (.sltS64 (r3Fields w))
    | 5 => .ok (.sltZ64 (r3Fields w))
    | 6 => .ok (.sltz (r3Fields w))
    | 7 => .ok (.sel (r3Fields w))
    | n => .error (.noFn n)
  | 5 => if fn ≤ 3 then .ok (.lea (BitVec.ofNat 2 fn) (r3Fields w)) else .error (.noFn fn)
  | 6 =>
    match fn with
    | 0 => .ok (.sete (r3Fields w))
    | 1 => .ok (.setf (r3Fields w))
    | 2 => .ok (.testfe (r3Fields w))
    | n => .error (.noFn n)
  | 8 => .ok (.addi (i12Fields w))
  | 9 => .ok (.andi (i12Fields w))
  | 10 => .ok (.ori (i12Fields w))
  | 11 => .ok (.xori (i12Fields w))
  | 12 =>
    match (w.extractLsb' 6 2).toNat with
    | 0 => .ok (.shli (i12Fields w))
    | 1 => .ok (.shri (i12Fields w))
    | 2 => .ok (.srai (i12Fields w))
    | n => .error (.noFn n)
  | 13 => .ok (.slti (i12Fields w))
  | 15 => .ok (.lui (u19Fields w))
  | 16 => .ok (.bc (bcFields w))
  | 17 => .ok (.loop (lpFields w))
  | 18 => .ok (.jmp (j25Fields w))
  | 19 => .ok (.call (j25Fields w))
  | 20 =>
    match fn with
    | 0 => .ok (.jmpr (r3Fields w))
    | 1 => .ok (.callr (r3Fields w))
    | 2 => .ok (.ret (r3Fields w))
    | n => .error (.noFn n)
  | 21 =>
    match fn with
    | 0 => .ok (.fireEnd (r3Fields w))
    | 1 => .ok (.yield (r3Fields w))
    | n => .error (.noFn n)
  | 24 => .ok (.ld8 (i12Fields w))
  | 25 => .ok (.ld16 (i12Fields w))
  | 26 => .ok (.ld32 (i12Fields w))
  | 27 => .ok (.ld64 (i12Fields w))
  | 28 => .ok (.st8 (i12Fields w))
  | 29 => .ok (.st16 (i12Fields w))
  | 30 => .ok (.st32 (i12Fields w))
  | 31 => .ok (.st64 (i12Fields w))
  | 32 => decodeAmo 0 w
  | 33 => decodeAmo 1 w
  | 34 => decodeAmo 2 w
  | 35 => decodeAmo 3 w
  | 36 =>
    match fn with
    | 0 => .ok (.fenceCore (r3Fields w))
    | 1 => .ok (.fenceCluster (r3Fields w))
    | 2 => .ok (.fenceDevice (r3Fields w))
    | 3 => .ok (.fenceDomain (r3Fields w))
    | 4 => .ok (.fenceEng (r3Fields w))
    | n => .error (.noFn n)
  | 37 =>
    match fn with
    | 0 => .ok (.marm (r3Fields w))
    | 1 => .ok (.mwait (r3Fields w))
    | 2 => .ok (.mwaitAcq (r3Fields w))
    | n => .error (.noFn n)
  | 40 =>
    match fn with
    | 0 => .ok (.finit (r3Fields w))
    | 1 => .ok (.flen (r3Fields w))
    | 2 => .ok (.fprobe (r3Fields w))
    | 3 => .ok (.fdel (r3Fields w))
    | 4 => .ok (.fpack (r3Fields w))
    | n => .error (.noFn n)
  | 41 =>
    match fn with
    | 0 => .ok (.fins (r3Fields w))
    | n => .error (.noFn n)
  | 42 => if fn ≤ 7 then .ok (.fcmb (BitVec.ofNat 3 fn) (r3Fields w)) else .error (.noFn fn)
  | 48 => .ok (.mfsr (sysFields w))
  | 49 => .ok (.mtsr (sysFields w))
  | 50 =>
    match fn with
    | 0 => .ok (.nop (r3Fields w))
    | 1 => .ok (.eret (r3Fields w))
    | 2 => .ok (.wdrain (r3Fields w))
    | 3 => .ok (.halt (r3Fields w))
    | n => .error (.noFn n)
  | 51 => .ok (.trap (i12Fields w))
  | 52 =>
    match fn with
    | 0 => .ok (.barInit (r3Fields w))
    | 1 => .ok (.barArr (r3Fields w))
    | 2 => .ok (.barWait (r3Fields w))
    | n => .error (.noFn n)
  | m => .error (.noMajor m)

/-- The 64-bit space by major and fn6 (R182-R184). -/
def decode64 (w0 w1 : W32) : Except DecodeError Instr :=
  match (w0.extractLsb' 25 6).toNat with
  | 1 =>
    match (w1.extractLsb' 20 6).toNat with
    | 0 => .ok (.vadd (vFields w0 w1))
    | 1 => .ok (.vsub (vFields w0 w1))
    | 2 => .ok (.vmul (vFields w0 w1))
    | 3 => .ok (.vfma (vFields w0 w1))
    | 4 => .ok (.vmin (vFields w0 w1))
    | 5 => .ok (.vmax (vFields w0 w1))
    | 6 => .ok (.vabs (vFields w0 w1))
    | 7 => .ok (.vneg (vFields w0 w1))
    | n => .error (.noFn n)
  | 2 =>
    match (w1.extractLsb' 20 6).toNat with
    | 0 => .ok (.vand (vFields w0 w1))
    | 1 => .ok (.vor (vFields w0 w1))
    | 2 => .ok (.vxor (vFields w0 w1))
    | 3 => .ok (.vshl (vFields w0 w1))
    | 4 => .ok (.vshr (vFields w0 w1))
    | 5 => .ok (.vsra (vFields w0 w1))
    | n => .error (.noFn n)
  | 3 =>
    match (w1.extractLsb' 20 6).toNat with
    | 0 => .ok (.vcmp (vFields w0 w1))
    | 1 => .ok (.vsel (vFields w0 w1))
    | 2 => .ok (.vmov (vFields w0 w1))
    | 3 => .ok (.vsplat (vFields w0 w1))
    | 4 => .ok (.vbcast (vFields w0 w1))
    | n => .error (.noFn n)
  | 4 =>
    match (w1.extractLsb' 20 6).toNat with
    | 0 => .ok (.vperm (vFields w0 w1))
    | 1 => .ok (.vins (vFields w0 w1))
    | 2 => .ok (.vext (vFields w0 w1))
    | n => .error (.noFn n)
  | 5 =>
    match (w1.extractLsb' 20 6).toNat with
    | 0 => .ok (.vred (vFields w0 w1))
    | 1 => .ok (.vscan (vFields w0 w1))
    | 2 => .ok (.vhist (vFields w0 w1))
    | n => .error (.noFn n)
  | 6 =>
    match (w1.extractLsb' 20 6).toNat with
    | 0 => .ok (.vexp2 (vFields w0 w1))
    | 1 => .ok (.vrcp (vFields w0 w1))
    | 2 => .ok (.vrsq (vFields w0 w1))
    | 3 => .ok (.vlog2 (vFields w0 w1))
    | n => .error (.noFn n)
  | 7 =>
    match (w1.extractLsb' 20 6).toNat with
    | 0 => .ok (.pand (vFields w0 w1))
    | 1 => .ok (.por (vFields w0 w1))
    | 2 => .ok (.pnot (vFields w0 w1))
    | 3 => .ok (.pcnt (vFields w0 w1))
    | 4 => .ok (.pfirst (vFields w0 w1))
    | n => .error (.noFn n)
  | 16 =>
    match (w1.extractLsb' 20 6).toNat with
    | 0 => .ok (.ldv (vFields w0 w1))
    | 1 => .ok (.stv (vFields w0 w1))
    | 2 => .ok (.ldvs (vFields w0 w1))
    | 3 => .ok (.gather (vFields w0 w1))
    | 4 => .ok (.scatter (vFields w0 w1))
    | 5 => .ok (.qpush (vFields w0 w1))
    | n => .error (.noFn n)
  | 24 =>
    match (w1.extractLsb' 20 6).toNat with
    | 0 => .ok (.vcvt (vFields w0 w1))
    | 1 => .ok (.vqmx (vFields w0 w1))
    | 2 => .ok (.vdqmx (vFields w0 w1))
    | 3 => .ok (.vlut (vFields w0 w1))
    | n => .error (.noFn n)
  | 32 =>
    match (w1.extractLsb' 26 6).toNat with
    | 0 => .ok (.mldb (eFields w0 w1))
    | 1 => .ok (.mldm (eFields w0 w1))
    | 2 => .ok (.mma (eFields w0 w1))
    | 3 => .ok (.mmaS (eFields w0 w1))
    | 4 => .ok (.mclr (eFields w0 w1))
    | 5 => .ok (.mrd (eFields w0 w1))
    | 6 => .ok (.tdclass (eFields w0 w1))
    | 7 => .ok (.tdquery (eFields w0 w1))
    | 8 => .ok (.mtest (eFields w0 w1))
    | n => .error (.noFn n)
  | 40 =>
    match (w1.extractLsb' 26 6).toNat with
    | 0 => .ok (.cpy (eFields w0 w1))
    | 1 => .ok (.cpystat (eFields w0 w1))
    | 2 => .ok (.cpycancel (eFields w0 w1))
    | 3 => .ok (.chpush (eFields w0 w1))
    | 4 => .ok (.chpop (eFields w0 w1))
    | 5 => .ok (.chpeek (eFields w0 w1))
    | 6 => .ok (.chmark (eFields w0 w1))
    | 7 => .ok (.chstat (eFields w0 w1))
    | 8 => .ok (.cbload (eFields w0 w1))
    | n => .error (.noFn n)
  | 48 =>
    match (w1.extractLsb' 26 6).toNat with
    | 0 => .ok (.fmrgv (eFields w0 w1))
    | 1 => .ok (.fscan (eFields w0 w1))
    | 2 => .ok (.fprobev (eFields w0 w1))
    | 3 => .ok (.funion (eFields w0 w1))
    | n => .error (.noFn n)
  | 56 =>
    match (w0.extractLsb' 6 6).toNat with
    | 0 => .ok (.li (lFields w0 w1))
    | 1 => .ok (.lih (lFields w0 w1))
    | 2 => .ok (.addl (lFields w0 w1))
    | n => .error (.noFn n)
  | 57 => .ok (.loopi (lxFields w0 w1))
  | m => .error (.noMajor m)

/-- The size of the instruction whose first word is `w0`, in bytes: bit [31] (R170). -/
def sizeOf0 (w0 : W32) : Nat := if w0.getLsbD 31 then 8 else 4

/-- The fields that step 2 of R174 examines, the stream apart. -/
def acceptsFields (i : Instr) : Bool := i.wf

/-- The instruction of a first word and the word after it, which a 32-bit instruction ignores (R170-R185). -/
def decodeWords (w0 w1 : W32) : Except DecodeError Instr := do
  let i ← if w0.getLsbD 31 then decode64 w0 w1 else decode32 w0
  if acceptsFields i then .ok i else .error .badField

/-- The little-endian word of four bytes (R4). -/
def wordOfBytes (b0 b1 b2 b3 : Byte) : W32 := b3 ++ b2 ++ b1 ++ b0

/-- Decoding a list of bytes: the instruction and the bytes after it. Total on any bytes. -/
def decode (bs : List Byte) : Except DecodeError (Instr × List Byte) :=
  match bs with
  | b0 :: b1 :: b2 :: b3 :: rest =>
    let w0 := wordOfBytes b0 b1 b2 b3
    if w0.getLsbD 31 then
      match rest with
      | c0 :: c1 :: c2 :: c3 :: rest' => do
        let i ← decodeWords w0 (wordOfBytes c0 c1 c2 c3)
        .ok (i, rest')
      | _ => .error .short
    else do
      let i ← decodeWords w0 0
      .ok (i, rest)
  | _ => .error .short

/-- The four bytes of a word as memory holds them (R4). -/
def bytesOfWord (w : W32) : List Byte :=
  [w.extractLsb' 0 8, w.extractLsb' 8 8, w.extractLsb' 16 8, w.extractLsb' 24 8]

/-- The instruction the decoder reads from an instruction whose bits are `w`, numbered from the least
significant bit of the first word. -/
def decodeTableWord (nbits w : Nat) : Option Instr :=
  let v := w % 2 ^ nbits
  match decode (bytesOfWord (BitVec.ofNat 32 v) ++ bytesOfWord (BitVec.ofNat 32 (v / 2 ^ 32))) with
  | .ok (i, _) => some i
  | .error _ => none

/-! ### The encoder, from R171, R172, R176-R184 -/

/-- An R3 word (R187). -/
def encR3 (major : BitVec 6) (fn : BitVec 5) (f : R3F) : W32 :=
  0#1 ++ major ++ f.rd ++ f.rs1 ++ f.rs2 ++ BitVec.ofBool f.w1 ++ BitVec.ofBool f.w2 ++ fn

/-- An I12 word (R194). -/
def encI12 (major : BitVec 6) (f : I12F) : W32 :=
  0#1 ++ major ++ f.rd ++ f.rs1 ++ BitVec.ofBool f.w1 ++ f.imm12

/-- An atomic's word (R180, R245): the major's low bits are the qualifier, fn[4] the width. -/
def encAmo (op : BitVec 4) (f : AmoF) : W32 :=
  0#1 ++ 8#4 ++ f.ord ++ f.r.rd ++ f.r.rs1 ++ f.r.rs2 ++ BitVec.ofBool f.r.w1 ++ BitVec.ofBool f.r.w2 ++
    BitVec.ofBool f.z ++ op

/-- A V pair (R217). -/
def encV (major fn6 : BitVec 6) (f : VF) : List W32 :=
  [1#1 ++ major ++ f.vd ++ f.vs1 ++ f.vs2 ++ f.pm ++ BitVec.ofBool f.w1 ++ BitVec.ofBool f.w2 ++
      BitVec.ofBool f.w3 ++ BitVec.ofBool f.zm,
    f.vs3 ++ fn6 ++ f.ty4 ++ f.rnd3 ++ f.imm13]

/-- An E pair (R255, R260). -/
def encE (major fn6 : BitVec 6) (f : EF) : List W32 :=
  [1#1 ++ major ++ f.rd ++ f.rs1 ++ f.rs2 ++ f.rs3 ++ BitVec.ofBool f.w, fn6 ++ f.x]

/-- An L pair (R196). -/
def encL (fn6 : BitVec 6) (f : LF) : List W32 :=
  [1#1 ++ 56#6 ++ f.rd ++ f.rs1 ++ BitVec.ofBool f.w1 ++ fn6 ++ f.res, f.imm32]

/-- The LX pair (R204). -/
def encLx (f : LxF) : List W32 :=
  [1#1 ++ 57#6 ++ f.rs1 ++ f.rs2 ++ BitVec.ofBool f.w1 ++ BitVec.ofBool f.w2 ++ f.res, f.simm16 ++ f.off16]

/-- The words of an instruction; the events have none. -/
def encode (i : Instr) : List W32 :=
  match i with
  | .add f => [encR3 1 0 f]
  | .sub f => [encR3 1 1 f]
  | .and f => [encR3 1 2 f]
  | .andn f => [encR3 1 3 f]
  | .or f => [encR3 1 4 f]
  | .xor f => [encR3 1 5 f]
  | .shl f => [encR3 2 0 f]
  | .shr f => [encR3 2 1 f]
  | .sra f => [encR3 2 2 f]
  | .clz f => [encR3 2 3 f]
  | .popc f => [encR3 2 4 f]
  | .mul f => [encR3 3 0 f]
  | .mulhS64 f => [encR3 3 1 f]
  | .mulhZ64 f => [encR3 3 2 f]
  | .divS64 f => [encR3 3 3 f]
  | .divZ64 f => [encR3 3 4 f]
  | .remS64 f => [encR3 3 5 f]
  | .remZ64 f => [encR3 3 6 f]
  | .minS64 f => [encR3 4 0 f]
  | .minZ64 f => [encR3 4 1 f]
  | .maxS64 f => [encR3 4 2 f]
  | .maxZ64 f => [encR3 4 3 f]
  | .sltS64 f => [encR3 4 4 f]
  | .sltZ64 f => [encR3 4 5 f]
  | .sltz f => [encR3 4 6 f]
  | .sel f => [encR3 4 7 f]
  | .lea sc f => [encR3 5 (sc.setWidth 5) f]
  | .sete f => [encR3 6 0 f]
  | .setf f => [encR3 6 1 f]
  | .testfe f => [encR3 6 2 f]
  | .addi f => [encI12 8 f]
  | .andi f => [encI12 9 f]
  | .ori f => [encI12 10 f]
  | .xori f => [encI12 11 f]
  | .shli f => [encI12 12 f]
  | .shri f => [encI12 12 f]
  | .srai f => [encI12 12 f]
  | .slti f => [encI12 13 f]
  | .lui f => [(0#1 ++ 15#6 ++ f.rd ++ f.imm19 : BitVec 32)]
  | .bc f => [(0#1 ++ 16#6 ++ f.cond ++ BitVec.ofBool f.w1 ++ f.rs1 ++ f.off15 : BitVec 32)]
  | .loop f => [(0#1 ++ 17#6 ++ f.rs1 ++ BitVec.ofBool f.w1 ++ f.res ++ f.off16 : BitVec 32)]
  | .jmp f => [(0#1 ++ 18#6 ++ f.off25 : BitVec 32)]
  | .call f => [(0#1 ++ 19#6 ++ f.off25 : BitVec 32)]
  | .jmpr f => [encR3 20 0 f]
  | .callr f => [encR3 20 1 f]
  | .ret f => [encR3 20 2 f]
  | .fireEnd f => [encR3 21 0 f]
  | .yield f => [encR3 21 1 f]
  | .ld8 f => [encI12 24 f]
  | .ld16 f => [encI12 25 f]
  | .ld32 f => [encI12 26 f]
  | .ld64 f => [encI12 27 f]
  | .st8 f => [encI12 28 f]
  | .st16 f => [encI12 29 f]
  | .st32 f => [encI12 30 f]
  | .st64 f => [encI12 31 f]
  | .amoadd f => [encAmo 0 f]
  | .amominS f => [encAmo 1 f]
  | .amominZ f => [encAmo 2 f]
  | .amomaxS f => [encAmo 3 f]
  | .amomaxZ f => [encAmo 4 f]
  | .amoand f => [encAmo 5 f]
  | .amoor f => [encAmo 6 f]
  | .amoxchg f => [encAmo 7 f]
  | .amosnap f => [encAmo 8 f]
  | .amocas f => [encAmo 9 f]
  | .fenceCore f => [encR3 36 0 f]
  | .fenceCluster f => [encR3 36 1 f]
  | .fenceDevice f => [encR3 36 2 f]
  | .fenceDomain f => [encR3 36 3 f]
  | .fenceEng f => [encR3 36 4 f]
  | .marm f => [encR3 37 0 f]
  | .mwait f => [encR3 37 1 f]
  | .mwaitAcq f => [encR3 37 2 f]
  | .finit f => [encR3 40 0 f]
  | .flen f => [encR3 40 1 f]
  | .fprobe f => [encR3 40 2 f]
  | .fdel f => [encR3 40 3 f]
  | .fpack f => [encR3 40 4 f]
  | .fins f => [encR3 41 0 f]
  | .fcmb op f => [encR3 42 (op.setWidth 5) f]
  | .mfsr f => [(0#1 ++ 48#6 ++ f.rd ++ f.rs1 ++ f.sel13 : BitVec 32)]
  | .mtsr f => [(0#1 ++ 49#6 ++ f.rd ++ f.rs1 ++ f.sel13 : BitVec 32)]
  | .nop f => [encR3 50 0 f]
  | .eret f => [encR3 50 1 f]
  | .wdrain f => [encR3 50 2 f]
  | .halt f => [encR3 50 3 f]
  | .trap f => [encI12 51 f]
  | .barInit f => [encR3 52 0 f]
  | .barArr f => [encR3 52 1 f]
  | .barWait f => [encR3 52 2 f]
  | .li f => encL 0 f
  | .lih f => encL 1 f
  | .addl f => encL 2 f
  | .loopi f => encLx f
  | .vadd f => encV 1 0 f
  | .vsub f => encV 1 1 f
  | .vmul f => encV 1 2 f
  | .vfma f => encV 1 3 f
  | .vmin f => encV 1 4 f
  | .vmax f => encV 1 5 f
  | .vabs f => encV 1 6 f
  | .vneg f => encV 1 7 f
  | .vand f => encV 2 0 f
  | .vor f => encV 2 1 f
  | .vxor f => encV 2 2 f
  | .vshl f => encV 2 3 f
  | .vshr f => encV 2 4 f
  | .vsra f => encV 2 5 f
  | .vcmp f => encV 3 0 f
  | .vsel f => encV 3 1 f
  | .vmov f => encV 3 2 f
  | .vsplat f => encV 3 3 f
  | .vbcast f => encV 3 4 f
  | .vperm f => encV 4 0 f
  | .vins f => encV 4 1 f
  | .vext f => encV 4 2 f
  | .vred f => encV 5 0 f
  | .vscan f => encV 5 1 f
  | .vhist f => encV 5 2 f
  | .vexp2 f => encV 6 0 f
  | .vrcp f => encV 6 1 f
  | .vrsq f => encV 6 2 f
  | .vlog2 f => encV 6 3 f
  | .pand f => encV 7 0 f
  | .por f => encV 7 1 f
  | .pnot f => encV 7 2 f
  | .pcnt f => encV 7 3 f
  | .pfirst f => encV 7 4 f
  | .ldv f => encV 16 0 f
  | .stv f => encV 16 1 f
  | .ldvs f => encV 16 2 f
  | .gather f => encV 16 3 f
  | .scatter f => encV 16 4 f
  | .qpush f => encV 16 5 f
  | .vcvt f => encV 24 0 f
  | .vqmx f => encV 24 1 f
  | .vdqmx f => encV 24 2 f
  | .vlut f => encV 24 3 f
  | .mldb f => encE 32 0 f
  | .mldm f => encE 32 1 f
  | .mma f => encE 32 2 f
  | .mmaS f => encE 32 3 f
  | .mclr f => encE 32 4 f
  | .mrd f => encE 32 5 f
  | .tdclass f => encE 32 6 f
  | .tdquery f => encE 32 7 f
  | .mtest f => encE 32 8 f
  | .cpy f => encE 40 0 f
  | .cpystat f => encE 40 1 f
  | .cpycancel f => encE 40 2 f
  | .chpush f => encE 40 3 f
  | .chpop f => encE 40 4 f
  | .chpeek f => encE 40 5 f
  | .chmark f => encE 40 6 f
  | .chstat f => encE 40 7 f
  | .cbload f => encE 40 8 f
  | .fmrgv f => encE 48 0 f
  | .fscan f => encE 48 1 f
  | .fprobev f => encE 48 2 f
  | .funion f => encE 48 3 f
  | .asyncTrap _ | .registerFill _ | .heldWriteDelivery _ _ | .windowWrite _ | .spillWrite _ _
  | .fillArrive _ _ _ | .storeAtHome _ | .loadAtHome _ | .atomicAtHome _ | .monitorRegister _
  | .mwaitTimeout _ | .fenceAck _ _ | .mergeAtHome _ | .deleteAtHome _ | .finitAtHome _ | .fpackAtHome _
  | .probeAtHome _ | .scanAtHome _ | .funionAtHome _ | .stalledMergeResume _ | .poolTimeout _
  | .donate _ _ _ | .poolReset _ _ _ | .faultctlResume _ _ | .faultctlAbandon _ _ | .schedulingEvent _ _
  | .channelCommit _ | .channelRelease _ | .tableTokenTake _ _ _ | .eosForward _ _ | .instanceRetire _ _
  | .poisonReinject _ _ _ | .rateSample _ _ | .rateParamWrite _ _ _ _ _ | .sinkDataSlot _ _ _
  | .sinkEndOfStream _ _ _ | .markerInject _ _ | .snapshotAlign _ _ | .snapshotUnalignedSwitch _ _
  | .unalignedMarkerArrive _ _ _ | .snapreq _ _ _ | .snapshotComplete _ | .snapdataResend _ _
  | .snapdataSessionLost _ | .snapdataAck _ _ _ | .watchdog _ | .launchPacket _ _ | .copyPacket _ _
  | .waitStampPacket _ _ | .signalPacket _ _ | .launchStart _ | .launchCompletion _ | .completionStamp _
  | .intensityWindow _ _ _ | .tileTaskIssue _ _ | .tileTaskComplete _ _ | .selfTest _ _ _
  | .sectorIssue _ _ | .copyStamp _ _ | .copyCtrlResume _ _ _ | .copyCtrlAbandon _ _ _ | .ienable _ _ _
  | .lctlPreempt _ _ | .preemptComplete _ | .lctlResume _ _ | .lctlKill _ _ | .killStamp _
  | .lcorePreempt _ _ _ | .lcoreResume _ _ _ | .doorbell _ _ _ | .tinvVa _ _ _ | .tinvAsid _ _ | .tinvAll _
  | .invalidationComplete | .translationWalk _ | .tilePageTableWrite _ _ _ | .hashRowWrite _ _ _
  | .pinsizeWrite _ _ | .planeTableWrite _ _ _ | .planeDeadSet _ _ | .quiesceClear _ | .linkFlit _
  | .migrationGo _ _ | .migrationSectorCopy _ | .migrationClr _ _ | .counterClear _ _ | .refresh _ _
  | .scrubRead _ _ | .scrubWriteback _ | .powerReqFull _ | .powerReqHalf _ | .powerReqIdle _
  | .powerTransitionDone | .sensorSample _ _ | .telemetryRefresh _ | .powerUp _ | .clusterStart _ _
  | .stackPairStart _ _ _ | .attestationReport _ _ | .read _ | .write _ | .fadd _ | .cas _ | .close _
  | .hello _ | .watch _ | .grant _ | .otherFrame _ | .registerWrite _ _ _ _ | .powerLoss
  | .unallocatedKindPacket _ _ => []

/-- The bytes of an instruction as memory holds them. -/
def encodeBytes (i : Instr) : List Byte := (encode i).flatMap bytesOfWord

end Sys2Proof
end

