-- ==== Sys2Proof/Machine/Map.lean ====
section
/-!
DEFINITION. Sys2Proof/Machine/Map.lean: the physical map (R44, R47, R49 and the device-control registers' places),
the hashes over stacks, channels, planes and banks (R50-R58), and what each target accepts (R238).
-/

namespace Sys2Proof.Machine

/-- HBM ends here: 640 GiB (R44). -/
def hbmEnd : Nat := 0xA000000000
def coreWin : Nat := 0xC000000000000
def clusterWin : Nat := 0xD000000000000
def devBase : Nat := 0xE000000000000
/-- Base of core n's window (R44). -/
def coreBase (n : Nat) : Nat := coreWin + n * 0x400000

/-- A device-control register (R53-R58, R66, R106, R112, R335, R353, R38, R341, R347, R350, R352, R355, R361, R364,
R378, R387, R388, R390-R392, R334); `off` is a byte offset within a record. -/
inductive DevReg where
  | planeRow (k : Nat) | bucket (b : Nat) | planectl | hashRow (i : Nat) | pinsize
  | pool (p off : Nat) | tilePage (m : Nat) | mtest (n : Nat) | queue (q off : Nat)
  | log (e off : Nat) | intensity | lpCopy (d k off : Nat) | tinvreq | tinvdone | doorbell (n : Nat)
  | migration (m off : Nat) | psave (n : Nat) | bootstat | errorRec (i off : Nat) | raswidx | corrected (i : Nat)
  | event (i off : Nat) | evtwidx | injector (i off : Nat) | pwrctl | thermstat | telemetry (off : Nat)
  | pccount (s i : Nat) | splitcnt (s : Nat) | refpost (s : Nat) | space (a off : Nat) | none
  deriving DecidableEq, Repr

/-- The register at an offset of the device-control range. Offsets that no rule names have no target. -/
def devReg (o : Nat) : DevReg :=
  if o < 0x1000000 then .none
  else if o < 0x1000030 then .planeRow ((o - 0x1000000) / 8)
  else if 0x1000040 ≤ o ∧ o < 0x1000080 then .bucket (o - 0x1000040)
  else if 0x1000080 ≤ o ∧ o < 0x1000088 then .planectl
  else if 0x1100000 ≤ o ∧ o < 0x1100068 then .hashRow ((o - 0x1100000) / 8)
  else if 0x1100080 ≤ o ∧ o < 0x1100088 then .pinsize
  else if 0x1200000 ≤ o ∧ o < 0x1240000 then .pool ((o - 0x1200000) / 64) (o % 64)
  else if 0x1300000 ≤ o ∧ o < 0x1308000 then .tilePage ((o - 0x1300000) / 8)
  else if 0x1400000 ≤ o ∧ o < 0x1408000 then (if o % 0x20 < 8 then .mtest ((o - 0x1400000) / 0x20) else .none)
  else if 0x1500000 ≤ o ∧ o < 0x1504000 then .queue ((o - 0x1500000) / 64) (o % 64)
  else if 0x1600000 ≤ o ∧ o < 0x1604000 then
    (if o % 0x100 < 0x68 ∨ (0x80 ≤ o % 0x100 ∧ o % 0x100 < 0xA0) then .log ((o - 0x1600000) / 0x100) (o % 0x100) else .none)
  else if 0x1608000 ≤ o ∧ o < 0x1608008 then .intensity
  else if 0x1680000 ≤ o ∧ o < 0x1684000 then
    (if o % 0x1000 < 0x400 then .lpCopy ((o - 0x1680000) / 0x1000) (o % 0x1000 / 64) (o % 64) else .none)
  else if 0x1700000 ≤ o ∧ o < 0x1700008 then .tinvreq
  else if 0x1700008 ≤ o ∧ o < 0x1700010 then .tinvdone
  else if 0x1720000 ≤ o ∧ o < 0x1722000 then .doorbell ((o - 0x1720000) / 8)
  else if 0x1800000 ≤ o ∧ o < 0x1800080 then (if o % 0x20 < 0x18 then .migration ((o - 0x1800000) / 0x20) (o % 0x20) else .none)
  else if 0x1900000 ≤ o ∧ o < 0x1902000 then .psave ((o - 0x1900000) / 8)
  else if 0x1A00000 ≤ o ∧ o < 0x1A00008 then .bootstat
  else if 0x1B00000 ≤ o ∧ o < 0x1B02000 then .errorRec ((o - 0x1B00000) / 0x20) (o % 0x20)
  else if 0x1B02000 ≤ o ∧ o < 0x1B02008 then .raswidx
  else if 0x1B03000 ≤ o ∧ o < 0x1B03028 then .corrected ((o - 0x1B03000) / 8)
  else if 0x1C00000 ≤ o ∧ o < 0x1C04000 then .event ((o - 0x1C00000) / 0x20) (o % 0x20)
  else if 0x1C04000 ≤ o ∧ o < 0x1C04008 then .evtwidx
  else if 0x1D00000 ≤ o ∧ o < 0x1D00500 then (if o % 0x20 < 0x10 then .injector ((o - 0x1D00000) / 0x20) (o % 0x20) else .none)
  else if 0x1E00000 ≤ o ∧ o < 0x1E00008 then .pwrctl
  else if 0x1E00008 ≤ o ∧ o < 0x1E00010 then .thermstat
  else if 0x1E00100 ≤ o ∧ o < 0x1E001B0 then .telemetry (o - 0x1E00100)
  else if 0x2000000 ≤ o ∧ o < 0x2800000 then
    (let s := (o - 0x2000000) / 0x100000
     let x := o % 0x100000
     if x < 0x200 then .pccount s (x / 8) else if x < 0x208 then .splitcnt s else if x < 0x210 then .refpost s else .none)
  else if 0x3000000 ≤ o ∧ o < 0x3100000 then .space ((o - 0x3000000) / 16) (o % 16)
  else .none

/-- What stands at a physical address (R44, R47, R49). -/
inductive Place where
  | hbm
  | spad (core off : Nat)
  | acc (core off : Nat)
  | slots (core off : Nat)
  | mask (core off : Nat)
  | tag (core off : Nat)
  /-- Scalar registers of a context by physical number. -/
  | scalar (core ctx p : Nat)
  | scalarFull (core ctx word : Nat)
  | preg (core ctx p : Nat)
  | lc (core ctx k : Nat)
  | cb (core ctx : Nat)
  | link (core ctx w : Nat)
  | vector (core ctx v : Nat)
  | vectorFull (core ctx : Nat)
  | directory (core off : Nat)
  | chanRec (core k off : Nat)
  | cbImage (core k : Nat)
  | instRec (core k off : Nat)
  | copyRec (core k off : Nat)
  | barrier (cl b off : Nat)
  | route (cl i : Nat)
  | clusterPool (cl p off : Nat)
  | conflict (cl i : Nat)
  | dev (r : DevReg)
  | none
  deriving DecidableEq, Repr

/-- The view at an offset of the scalar block of a context (R47). -/
def scalarPlace (n c o : Nat) : Place :=
  if o < 0x40 then .scalar n c (o / 8)
  else if 0x100 ≤ o ∧ o < 0x500 then .scalar n c (8 + (o - 0x100) / 8)
  else if 0x800 ≤ o ∧ o < 0x818 then .scalarFull n c ((o - 0x800) / 8)
  else if 0x900 ≤ o ∧ o < 0x940 then .preg n c ((o - 0x900) / 8)
  else if 0x940 ≤ o ∧ o < 0x960 then .lc n c ((o - 0x940) / 8)
  else if 0x960 ≤ o ∧ o < 0x980 then .cb n c
  else if 0x980 ≤ o ∧ o < 0x9C0 then .link n c ((o - 0x980) / 8)
  else .none

/-- The view at an offset of a core window (R47, R97). -/
def corePlace (n o : Nat) : Place :=
  if o < 0x80000 then .spad n o
  else if o < 0xA0000 then .acc n (o - 0x80000)
  else if o < 0xB0000 then .slots n (o - 0xA0000)
  else if o < 0xB0200 then .mask n (o - 0xB0000)
  else if o < 0xB0A00 then .tag n (o - 0xB0200)
  else if o < 0xB1000 then .none
  else if o < 0xB5000 then scalarPlace n ((o - 0xB1000) / 0x1000) (o % 0x1000)
  else if o < 0xC0000 then .none
  else if o < 0xC8000 then .vector n ((o - 0xC0000) / 0x2000) (o % 0x2000 / 0x100)
  else if o < 0xC8020 then .vectorFull n ((o - 0xC8000) / 8)
  else if o < 0xD0000 then .none
  else if o < 0xE0000 then .directory n (o - 0xD0000)
  else if o < 0xE4000 then .chanRec n ((o - 0xE0000) / 0x80) (o % 0x80)
  else if o < 0xE4800 then .cbImage n ((o - 0xE4000) / 0x20)
  else if o < 0xE8000 then .none
  else if o < 0xE9000 then .instRec n ((o - 0xE8000) / 0x40) (o % 0x40)
  else if o < 0xF0000 then .none
  else if o < 0xF2000 then .copyRec n ((o - 0xF0000) / 0x40) (o % 0x40)
  else .none

/-- The unit at an offset of a cluster window (R49). -/
def clusterPlace (k o : Nat) : Place :=
  if o < 0x1000 then .barrier k (o / 64) (o % 64)
  else if 0x10000 ≤ o ∧ o < 0x18000 then .route k ((o - 0x10000) / 8)
  else if 0x20000 ≤ o ∧ o < 0x21000 then .clusterPool k ((o - 0x20000) / 64) (o % 64)
  else if 0x30000 ≤ o ∧ o < 0x34000 then .conflict k ((o - 0x30000) / 8)
  else .none

/-- What stands at a physical address (R44). -/
def place (pa : Nat) : Place :=
  if pa < hbmEnd then .hbm
  else if coreWin ≤ pa ∧ pa < coreWin + 0x100000000 then corePlace ((pa - coreWin) / 0x400000) (pa % 0x400000)
  else if clusterWin ≤ pa ∧ pa < clusterWin + 0x10000000 then clusterPlace ((pa - clusterWin) / 0x1000000) (pa % 0x1000000)
  else if devBase ≤ pa ∧ pa < 0x10000000000000 then
    (match devReg (pa - devBase) with
     | .none => .none
     | r => .dev r)
  else .none

/-- The core whose window an address lies in. -/
def coreOfPa (pa : Nat) : Option Nat :=
  if coreWin ≤ pa ∧ pa < coreWin + 0x100000000 then some ((pa - coreWin) / 0x400000) else none

/-- The cluster whose crossbar reaches an address: of a core window or a cluster window (R11). -/
def clusterOfPa (pa : Nat) : Option Nat :=
  if coreWin ≤ pa ∧ pa < coreWin + 0x100000000 then some ((pa - coreWin) / 0x400000 / 64)
  else if clusterWin ≤ pa ∧ pa < clusterWin + 0x10000000 then some ((pa - clusterWin) / 0x1000000)
  else none

/-! ### HBM placement (R53-R55) -/

/-- Home bit of hash row i (R53). -/
def homeBit (i : Nat) : Nat :=
  if i < 3 then 13 + i else if i < 8 then 5 + i else if i = 8 then 7 else 7 + i

/-- A row as the hardware holds it: its home bit 1, the other rows' home bits, [6:0] and [63:30] 0 (R53). -/
def forceRow (i : Nat) (v : W64) : W64 :=
  -- Free bits are 29..20; home bits are 7..19.
  (v &&& 0x3FF00000) ||| (1#64 <<< homeBit i)

/-- Hash row i in force. -/
def hashRow (d : Dev) (i : Nat) : Nat := (tget (1#64 <<< homeBit i) d.hashRows i).toNat

/-- Output bit i of the hash for an address (R53). -/
def hashBit (d : Dev) (i x : Nat) : Nat := parity64 (x &&& hashRow d i)

/-- Start of the pinned ranges (R55). -/
def pinStart (d : Dev) : Nat := 8 * (80 - d.pinsize) * 2 ^ 30

/-- The stack that serves an HBM address, and the address its channel is taken from (R55). -/
def stackOf (d : Dev) (pa : Nat) : Nat × Nat :=
  if pa < pinStart d then (hashBit d 0 pa + 2 * hashBit d 1 pa + 4 * hashBit d 2 pa, pa)
  else
    let x := pa - pinStart d
    (x / (d.pinsize * 2 ^ 30), x % (d.pinsize * 2 ^ 30))

/-- Index of PCCOUNT for an address of a stack: channel × 2 + pseudo-channel (R57). -/
def pcIndex (d : Dev) (x : Nat) : Nat :=
  (hashBit d 3 x + 2 * hashBit d 4 x + 4 * hashBit d 5 x + 8 * hashBit d 6 x + 16 * hashBit d 7 x) * 2 + hashBit d 8 x

/-- The location of an address within its bank (R54, R55). -/
def hbmLocation (d : Dev) (pa : Nat) : Nat :=
  if pa < pinStart d then nbits pa 20 20 * 128 + pa % 128
  else
    let x := (stackOf d pa).2
    (80 - d.pinsize) * 2 ^ 20 + (nbits x 20 20 * 8 + nbits x 13 3) * 128 + x % 128

/-! ### Planes (R58, R13) -/

/-- Default plane row k: bits 6 + k + 6m below 52 (R58). -/
def planeRowDefault (k : Nat) : W64 :=
  (upFrom 0 8).foldl (fun a m => if 6 + k + 6 * m < 52 then a ||| (1#64 <<< (6 + k + 6 * m)) else a) 0

/-- The bucket of a physical address (R58). -/
def bucketOf (d : Dev) (pa : Nat) : Nat :=
  (upFrom 0 6).foldl (fun a k => a + parity64 (pa &&& (tget (planeRowDefault k) d.planeRows k).toNat) * 2 ^ k) 0

/-- The plane of a bucket: by default b mod 8 (R58). -/
def planeOfBucket (d : Dev) (b : Nat) : Nat := tget (b % 8) d.buckets b

/-- Plane(pa) (R13). -/
def planeOf (d : Dev) (pa : Nat) : Nat := planeOfBucket d (bucketOf d pa)

/-- Whether a piece that a core of cluster `cl` sends stays within the cluster: it uses the crossbar and no plane (R11,
R13). -/
def onCrossbar (cl : Nat) (seg : Seg) : Bool := seg.dev == 0 && clusterOfPa seg.pa == some cl

/-- The paths of R142: plane 0-7, or 8 for the crossbar of cluster `cl` when the target lies in it, or 16 + 8d + g for
remote device d on lane group g, the plane of the address (R14, R15). -/
def pathOf (d : Dev) (cl : Nat) (seg : Seg) : Nat :=
  if seg.dev ≠ 0 then 8 + 8 * seg.dev + planeOf d seg.pa
  else if onCrossbar cl seg then 8
  else planeOf d seg.pa

/-! ### Scratchpad banks (R50) -/

/-- The bank that serves a scratchpad offset. -/
def bankOf (sphash : BitVec 55) (x : Nat) : Nat :=
  let row := nbits x 8 11
  let h := (upFrom 0 5).foldl (fun a j => a + parity64 (row &&& wbits sphash (11 * j) 11) * 2 ^ j) 0
  nbits x 3 5 ^^^ h

/-! ### What targets accept (R238, R48, R243, R374) -/

/-- The operations a target is asked for. -/
inductive Access where
  | load | store
  /-- A store of an STV or a SCATTER (R243). -/
  | lanes
  | atomic | marm | barrier | fibre | fetch
  deriving DecidableEq, Repr

/-- Registers that take only aligned 8-byte loads and stores (R374). -/
def wordOnly (r : DevReg) : Bool :=
  match r with
  | .pccount _ _ | .splitcnt _ | .refpost _ => true
  | _ => false

/-- Whether a device-control register accepts a store of `n` bytes at offset `o` (log 9): aligned 8-byte stores, one
byte at a time in the bucket table, and 4-byte stores to the fields of a pool descriptor. -/
def devStoreOk (r : DevReg) (pa n : Nat) : Bool :=
  match r with
  | .bucket _ => n == 1 || (n == 8 && pa % 8 == 0) || (n ≤ 4 && pa % n == 0)
  | .pool _ _ => (n == 4 || n == 8) && pa % n == 0
  | _ => n == 8 && pa % 8 == 0

/-- Kind of R43 for an access of `n` bytes at a place, or none where it is accepted; `fib` is the page's FIB bit,
`whole` tells a full 256-byte vector store of every lane (R243). -/
def refuse (a : Access) (p : Place) (pa n : Nat) (fib whole remote : Bool) : Option Nat :=
  match p with
  | .none => some 5
  | .hbm =>
    match a with
    | .load | .fetch => none
    | .store | .lanes | .atomic => if fib then some 6 else none
    | .marm => if fib || remote then some 6 else none
    | .barrier => some 6
    | .fibre => if fib then none else some 6
  | .spad _ _ =>
    match a with
    | .load | .fetch => none
    | .store | .lanes | .atomic | .marm => if fib then some 6 else none
    | .barrier => some 6
    | .fibre => if fib then none else some 6
  | .route _ _ =>
    match a with
    | .load | .store | .lanes | .atomic | .marm => none
    | _ => some 6
  | .barrier _ _ o =>
    match a with
    | .load => none
    | .barrier => if o = 0 then none else some 6
    | _ => some 6
  | .scalar _ _ _ =>
    match a with
    | .load => none
    | .store => if n = 8 && pa % 8 = 0 then none else some 6
    | _ => some 6
  | .vector _ _ _ =>
    match a with
    | .load => none
    | .lanes => if whole && n = 256 && pa % 256 = 0 then none else some 6
    | _ => some 6
  | .scalarFull _ _ _ | .vectorFull _ _ | .link _ _ _ =>
    match a with
    | .load => none
    | .store => if n = 8 && pa % 8 = 0 then none else some 6
    | _ => some 6
  | .preg _ _ _ | .lc _ _ _ | .cb _ _ =>
    match a with
    | .load | .store => none
    | _ => some 6
  | .dev r =>
    match a with
    | .load => if wordOnly r && !(n = 8 && pa % 8 = 0) then some 6 else none
    | .store | .lanes => if devStoreOk r pa n then none else some 6
    | _ => some 6
  | .clusterPool _ _ _ =>
    match a with
    | .load => none
    | .store | .lanes => if (n = 4 || n = 8) && pa % n = 0 then none else some 6
    | _ => some 6
  | _ =>
    match a with
    | .load | .store | .lanes => none
    | _ => some 6

end Sys2Proof.Machine
end

