-- ==== Sys2Proof/Machine/Acc.lean ====
section
/-!
DEFINITION. Sys2Proof/Machine/Acc.lean: reading and updating the parts of State, and the marks the device leaves for
its driver: event records, error-log records, datagrams (R334, R378).
-/

namespace Sys2Proof.Machine

def getCore (s : State) (n : Nat) : Core := tget {} s.cores n
def setCore (s : State) (n : Nat) (c : Core) : State := { s with cores := tset {} s.cores n c }
def modCore (s : State) (n : Nat) (f : Core → Core) : State := setCore s n (f (getCore s n))

def getCtx (s : State) (n c : Nat) : Ctx := tget {} (getCore s n).ctxs c
def setCtx (s : State) (n c : Nat) (x : Ctx) : State :=
  modCore s n (fun k => { k with ctxs := tset {} k.ctxs c x })
def modCtx (s : State) (n c : Nat) (f : Ctx → Ctx) : State := setCtx s n c (f (getCtx s n c))

def getStream (s : State) (w : StreamId) : Stream :=
  if w.ap then tget {} (getCore s w.core).aps w.ctx else tget {} (getCore s w.core).cps w.ctx
def setStream (s : State) (w : StreamId) (x : Stream) : State :=
  modCore s w.core (fun k =>
    if w.ap then { k with aps := tset {} k.aps w.ctx x } else { k with cps := tset {} k.cps w.ctx x })
def modStream (s : State) (w : StreamId) (f : Stream → Stream) : State := setStream s w (f (getStream s w))

/-- The issuing stream and its context. -/
def curStream (s : State) : Stream := getStream s s.cur
def curCtx (s : State) : Ctx := getCtx s s.cur.core s.cur.ctx
def modCur (s : State) (f : Stream → Stream) : State := modStream s s.cur f
def modCurCtx (s : State) (f : Ctx → Ctx) : State := modCtx s s.cur.core s.cur.ctx f

def getCluster (s : State) (k : Nat) : Cluster := tget {} s.clusters k
def modCluster (s : State) (k : Nat) (f : Cluster → Cluster) : State :=
  { s with clusters := tset {} s.clusters k (f (getCluster s k)) }
def getDie (s : State) (d : Nat) : Die := tget {} s.dies d
def modDie (s : State) (d : Nat) (f : Die → Die) : State := { s with dies := tset {} s.dies d (f (getDie s d)) }
def getStack (s : State) (k : Nat) : Stack := tget {} s.hbm k
def modStack (s : State) (k : Nat) (f : Stack → Stack) : State :=
  { s with hbm := tset {} s.hbm k (f (getStack s k)) }
def modDev (s : State) (f : Dev → Dev) : State := { s with dev := f s.dev }
def modMgmt (s : State) (f : Mgmt → Mgmt) : State := { s with mgmt := f s.mgmt }

def getLaunch (s : State) (e : Nat) : Launch := tget {} s.dev.launches e
def setLaunch (s : State) (e : Nat) (l : Launch) : State :=
  modDev s (fun d => { d with launches := tset {} d.launches e l })
def modLaunch (s : State) (e : Nat) (f : Launch → Launch) : State := setLaunch s e (f (getLaunch s e))

def getInst (s : State) (n k : Nat) : Option Inst := tget none (getCore s n).insts k
def setInst (s : State) (n k : Nat) (x : Option Inst) : State :=
  modCore s n (fun c => { c with insts := tset none c.insts k x })
def modInst (s : State) (n k : Nat) (f : Inst → Inst) : State :=
  match getInst s n k with
  | some i => setInst s n k (some (f i))
  | none => s
def getChan (s : State) (n k : Nat) : Option Chan := tget none (getCore s n).chans k
def setChan (s : State) (n k : Nat) (x : Option Chan) : State :=
  modCore s n (fun c => { c with chans := tset none c.chans k x })
def modChan (s : State) (n k : Nat) (f : Chan → Chan) : State :=
  match getChan s n k with
  | some i => setChan s n k (some (f i))
  | none => s

/-- Copy engines by number: 0-1023 the cores', 1024 + d the launch processor's of die d (R10, R341). -/
def getCopy (s : State) (eng k : Nat) : Copy :=
  if eng < 1024 then tget {} (getCore s eng).copies k else tget {} (getDie s (eng - 1024)).copies k
def setCopy (s : State) (eng k : Nat) (x : Copy) : State :=
  if eng < 1024 then modCore s eng (fun c => { c with copies := tset {} c.copies k x })
  else modDie s (eng - 1024) (fun d => { d with copies := tset {} d.copies k x })
def modCopy (s : State) (eng k : Nat) (f : Copy → Copy) : State := setCopy s eng k (f (getCopy s eng k))

/-- The cluster and the die of a core (R4). -/
def clusterOf (n : Nat) : Nat := n / 64
def dieOf (n : Nat) : Nat := n / 256

/-- A fresh order number. -/
def takeId (s : State) : Nat × State := (s.nextId, { s with nextId := s.nextId + 1 })

/-- A free value, and the state that has drawn it (log 26). -/
def takeFree (s : State) : W64 × State := (Config.freeWord s.openCnt, { s with openCnt := s.openCnt + 1 })

/-- A request put in flight under a fresh order number. -/
def addReq (s : State) (r : Req) : State :=
  { s with reqs := s.reqs ++ [{ r with id := s.nextId }], nextId := s.nextId + 1 }

/-- A fibre operation put in flight under a fresh order number. -/
def addFReq (s : State) (r : FReq) : State :=
  { s with freqs := s.freqs ++ [{ r with id := s.nextId }], nextId := s.nextId + 1 }

/-! ### Reports (R334, R378) -/

/-- The bytes of a datagram that its tag covers (R331): a STATUS that is a TRAPVAL has a second half, which follows its first
(log 48). -/
def tagBytes (op session seq : Nat) (addr : W64) (len status : Nat) (payload : List Byte) : List Byte :=
  bytesOf 1 1 ++ bytesOf 1 op ++ bytesOf 2 0 ++ bytesOf 4 session ++ bytesOf 8 seq ++ bytesOf 8 addr.toNat ++ bytesOf 2 len ++
    bytesOf 2 0 ++ bytesOf 4 status ++ (if status < 2 ^ 32 then [] else bytesOf 4 (status / 2 ^ 32)) ++ payload

/-- A datagram that the device sends in session `n`: through the session's port, at its PFC priority, under its tag (R330,
R331). -/
def sealed (x : Session) (n op seq : Nat) (addr status : W64) (payload : List Byte) : OutMsg :=
  { port := x.port, prio := x.prio, session := n, op := op, seq := seq, addr := addr, status := status, payload := payload
    tag := some (Config.kmac128 x.key (tagBytes op n seq addr payload.length status.toNat payload)) }

/-- A datagram put on its way. -/
def sendOut (s : State) (m : OutMsg) : State := modMgmt s (fun g => { g with outbox := g.outbox ++ [m] })

/-- A datagram of OP 5 to every session that `who` selects. -/
def notifyAll (s : State) (who : Session → Bool) (addr : W64) (payload : List Byte) : State :=
  let targets := s.mgmt.sessions.filterMap (fun e =>
    match e.2 with
    | some x => if who x then some (e.1, x) else none
    | none => none)
  modMgmt s (fun m =>
    { m with
      outbox := m.outbox ++ targets.map (fun t => sealed t.2 t.1 5 t.2.outSeq addr 0 payload)
      sessions := targets.foldl (fun ss t => tset none ss t.1 (some { t.2 with outSeq := t.2.outSeq + 1 })) m.sessions })

/-- The four words of a ring record as bytes. -/
def ringBytes (r : RingRec) : List Byte :=
  bytesOf 8 r.w0.toNat ++ bytesOf 8 r.w1.toNat ++ bytesOf 8 r.w2.toNat ++ bytesOf 8 r.w3.toNat

/-- A driver event (R334): a record in the event ring, and a NOTIFY to the driver sessions that watch its code. -/
def driverEvent (s : State) (code core ctx aux : Nat) (addr detail : W64) : State :=
  let r : RingRec :=
    { w0 := w64 (aux % 2 ^ 32 * 2 ^ 32 + ctx % 4 * 2 ^ 18 + core % 1024 * 2 ^ 8 + code % 256)
      w1 := w64 s.time, w2 := addr, w3 := detail }
  let i := s.dev.evtwidx
  let s := modDev s (fun d => { d with events := tset {} d.events (i % 512) r, evtwidx := (i + 1) % 2 ^ 64 })
  notifyAll s (fun x => x.driver && x.mask.testBit code) (w64 (devBase + 0x1C00000 + i % 512 * 0x20)) (ringBytes r)

/-- An error-log record (R378), which interrupts the driver once (event 0x04). -/
def logError (s : State) (type unit core ctx : Nat) (addr detail : W64) : State :=
  let r : RingRec :=
    { w0 := w64 (unit % 16 * 2 ^ 20 + ctx % 4 * 2 ^ 18 + core % 1024 * 2 ^ 8 + type)
      w1 := w64 s.time, w2 := addr, w3 := detail }
  let i := s.dev.raswidx
  let s := modDev s (fun d => { d with errors := tset {} d.errors (i % 256) r, raswidx := (i + 1) % 2 ^ 64 })
  driverEvent s 4 core ctx 0 (w64 (devBase + 0x1B00000 + i % 256 * 0x20)) (w64 ((i + 1) % 2 ^ 64))

/-- One more corrected event of kind i, saturating (R378). -/
def countCorrected (s : State) (i : Nat) : State :=
  modDev s (fun d => { d with corrected := tset 0 d.corrected i (min (2 ^ 64 - 1) (tget 0 d.corrected i + 1)) })

/-- Whether the cores' clocks are stopped: a power transition, or IDLE (R390). -/
def clocksOff (s : State) : Bool := s.mgmt.power.busy || s.mgmt.power.cur == 2

/-- Whether a launch stands still on a core: it is pre-empted there, or about to be saved (R353, R356). -/
def coreStopped (s : State) (e n : Nat) : Bool :=
  let l := getLaunch s e
  decide (3 ≤ l.lstate ∧ l.lstate ≤ 5) || l.heldCores.contains n || l.toSave.contains n

/-- Whether what a launch held on a core has been saved: its contexts, instance slots and channel records there are free until the
resume (R356). -/
def savedOn (s : State) (e n : Nat) : Bool :=
  coreStopped s e n && (getLaunch s e).cores.contains n && !(getLaunch s e).toSave.contains n

/-- A failure of a launch: only the first is recorded (R354). -/
def failLaunch (s : State) (e : Nat) (r : ErrorRec) : State :=
  modLaunch s e (fun l => if l.failed then l else { l with failed := true, err := r })

end Sys2Proof.Machine
end

