-- ==== Sys2Proof/Machine/Xlate.lean ====
section
/-!
DEFINITION. Sys2Proof/Machine/Xlate.lean: physical accesses with redirection (R362) and counting (R374), page tables
and walks (R40-R43, R348-R352), translation caches, the local window (R318).
-/

namespace Sys2Proof.Machine

/-! ### Physical memory -/

/-- The page redirection of R362 for a read of an HBM address: the new page for a sector already copied. -/
def redirectRead (d : Dev) (pa : Nat) : Nat :=
  match d.migrations.find? (fun e => e.2.act && e.2.old == pa / 65536) with
  | some (_, m) => if pa % 65536 / 4096 < m.ptr then m.new * 65536 + pa % 65536 else pa
  | none => pa

/-- Whether a write of `n` bytes of HBM meets the sector at PTR of a migrating page, and waits for its copy (R362). -/
def redirectHeld (d : Dev) (pa n : Nat) : Bool :=
  d.migrations.any (fun e =>
    let a := e.2.old * 65536 + e.2.ptr * 4096
    e.2.act && decide (e.2.ptr < 16) && decide (pa < a + 4096 ∧ a < pa + n))

/-- Where a byte stands: HBM by the redirection, all else as addressed. -/
def homePa (s : State) (pa : Nat) : Nat := if pa < hbmEnd then redirectRead s.dev pa else pa

/-- A byte of HBM, a scratchpad, an accumulator, a slot, a mask or a tag. -/
def memByte (s : State) (pa : Nat) : Byte := Memory.get s.epoch s.mem (homePa s pa)

/-- `n` little-endian bytes of memory. -/
def memRead (s : State) (pa n : Nat) : Nat :=
  match n with
  | 0 => 0
  | k + 1 => (memByte s pa).toNat + 256 * memRead s (pa + 1) k

/-- Whether a unit or word that a byte range touches is poisoned (R381); HBM units are 32 bytes, SRAM words 8. -/
def unitBase (pa : Nat) : Nat := if pa < hbmEnd then pa / 32 * 32 else pa / 8 * 8
def poisonedAt (s : State) (pa n : Nat) : Option Nat :=
  (upFrom pa n).find? (fun a => s.dev.poison.contains (unitBase a))

/-- The poison marks a write of `n` bytes at `pa` clears: those of units it covers whole (R381). -/
def clearPoison (p : List Nat) (pa n : Nat) : List Nat :=
  p.filter (fun u => !(pa ≤ u && u + (if u < hbmEnd then 32 else 8) ≤ pa + n))

/-- Scrubber reads that a write comes between (R385). -/
def spoilScrubs (l : List (Nat × Bool)) (pa n : Nat) : List (Nat × Bool) :=
  l.map (fun e => if e.1 < pa + n && pa < e.1 + (if e.1 < hbmEnd then 32 else 8) then (e.1, true) else e)

/-- Poison and scrubber reads after a write. -/
def spoil (s : State) (pa n : Nat) : State :=
  if s.dev.poison.isEmpty && s.dev.scrubs.isEmpty then s
  else modDev s (fun d => { d with poison := clearPoison d.poison pa n, scrubs := spoilScrubs d.scrubs pa n })

/-- A stream with a monitor registered on a word that the bytes touch. -/
def monitorOn (pa n : Nat) (x : Stream) : Bool :=
  x.monitor.armed && x.monitor.placed && x.monitor.dev == 0 && decide (x.monitor.pa < pa + n) && decide (pa < x.monitor.pa + 8)

/-- HIT set in the streams of a table that watch the bytes. -/
def hitStreams (pa n : Nat) (t : Tbl Stream) : Tbl Stream :=
  if t.any (fun e => monitorOn pa n e.2) then
    t.map (fun e => (e.1, if monitorOn pa n e.2 then { e.2 with monitor := { e.2.monitor with hit := true } } else e.2))
  else t

/-- A write sets HIT of the monitors registered on a word it touches (R247), those of pre-empted streams too (R248). -/
def hitMonitors (s : State) (pa n : Nat) : State :=
  { s with cores := s.cores.map (fun (e : Nat × Core) => (e.1, { e.2 with cps := hitStreams pa n e.2.cps, aps := hitStreams pa n e.2.aps })) }

/-- `n` bytes of a number stored to memory at their home: the poison, scrubber and monitor rules with it. -/
def memWrite (s : State) (pa n x : Nat) : State :=
  let go : List Host.Cell := (upFrom 0 n).foldl (fun m i => Memory.set s.epoch m (homePa s (pa + i)) (BitVec.ofNat 8 (x >>> (8 * i)))) s.mem
  let s := { s with mem := go }
  hitMonitors (spoil s pa n) pa n

/-- Bytes stored to memory. -/
def memWriteBytes (s : State) (pa : Nat) (bs : List Byte) : State := memWrite s pa bs.length (numOf bs)

/-- `n` bytes of memory as a list. -/
def memBytes (s : State) (pa n : Nat) : List Byte := (upFrom pa n).map (memByte s)

/-- The aligned 32-byte units of HBM that a byte range touches, by number. -/
def burstUnits (pa n : Nat) : List Nat :=
  if pa < hbmEnd && n ≠ 0 then upFrom (pa / 32) ((pa + n - 1) / 32 - pa / 32 + 1) else []

/-- Units that a stack controller serves, where the redirection of R362 places them, each counted once (R374). -/
def countUnits (s : State) (units : List Nat) : State :=
  units.foldl (fun s u =>
    let st := stackOf s.dev (homePa s (u * 32))
    modStack s st.1 (fun k =>
      let i := pcIndex s.dev st.2
      { k with pccount := tset 0 k.pccount i (min (2 ^ 64 - 1) (tget 0 k.pccount i + 1)) })) s

/-- One request that a stack controller serves: every aligned 32-byte unit its bytes touch counts once (R374). -/
def countBursts (s : State) (pa n : Nat) : State := countUnits s (burstUnits pa n)

/-- The pieces of one request that its home serves together: a unit that several of them touch counts once (R46, R243,
R374). -/
def countPieces (s : State) (gs : List Seg) : State :=
  countUnits s ((gs.filter (fun g => g.dev == 0)).flatMap (fun g => burstUnits g.pa g.len)).eraseDups

/-- Bytes of HBM and Rolest traffic that an access of a running launch's agents adds to its intensity window (R38). -/
def addTraffic (s : State) (e : Nat) (gs : List Seg) : State :=
  let n := (gs.filter (fun g => g.dev != 0 || decide (g.pa < hbmEnd))).foldl (fun a g => a + g.len) 0
  if n = 0 ∨ (getLaunch s e).lstate ≠ 2 then s else { s with traffic := tset 0 s.traffic e (tget 0 s.traffic e + n) }

/-- Whether a piece of an agent's request would travel on a dead plane while the device is quiesced: one within a core's own
cluster uses none (R11, R13). -/
def pathDead (s : State) (core : Option Nat) (g : Seg) : Bool :=
  s.dev.quiesce && !core.any (fun n => onCrossbar (clusterOf n) g) && s.dev.dead.getLsbD (planeOf s.dev g.pa)

/-- The units that stack controllers have served so far. -/
def served (s : State) : Nat := s.hbm.foldl (fun a k => k.2.pccount.foldl (fun b c => b + c.2) a) 0

/-! ### Page table entries (R40-R42) -/

def pteV (e : W64) : Bool := e.getLsbD 0
def pteLeaf (e : W64) : Bool := e.getLsbD 1
def pteRd (e : W64) : Bool := e.getLsbD 2
def pteWr (e : W64) : Bool := e.getLsbD 3
def pteEx (e : W64) : Bool := e.getLsbD 4
def pteUsr (e : W64) : Bool := e.getLsbD 5
def pteTile (e : W64) : Bool := e.getLsbD 6
def pteFib (e : W64) : Bool := e.getLsbD 7
def pteRem (e : W64) : Bool := e.getLsbD 8
def pteEsz (e : W64) : Nat := wbits e 14 2
def pteDev (e : W64) : Nat := wbits e 52 9

/-- log2 of the leaf page size of a level (R40). -/
def levelLog (l : Nat) : Nat := match l with | 0 => 16 | 1 => 21 | 2 => 29 | _ => 35
/-- Entries of a table of a level (R40). -/
def levelEntries (l : Nat) : Nat := match l with | 0 => 32 | 1 => 256 | 2 => 64 | _ => 8192

/-- Base of the page a leaf maps: ADDR without the fields of bits [15:8] (R41). -/
def leafBase (e : W64) : Nat := wbits e 16 36 * 65536

/-- Whether a valid entry of a level is malformed (R42). -/
def malformed (l : Nat) (e : W64) : Bool :=
  wbits e 61 3 != 0 ||
  (if pteLeaf e then
    (pteDev e != 0 && !pteRem e) || wbits e 9 5 != 0 || leafBase e % 2 ^ levelLog l != 0 ||
      (pteTile e && pteFib e) || (pteRem e && pteEx e) || (decide (devBase ≤ leafBase e) && pteUsr e)
   else
    l == 0 || pteDev e != 0 || wbits e 2 6 != 0 || (l == 3 && e.getLsbD 8) || (l == 2 && wbits e 8 3 != 0))

/-- What a walk finds: a leaf with its level's page size, or a kind of R43; the table pointers it read; the addresses of
the entries it read, each one read of the walker (R349). -/
structure WalkResult where
  leaf : Except Nat TlbEntry
  ptrs : List PtrEntry := []
  reads : List Nat := []

/-- Index of a virtual address into a table of a level. -/
def levelIndex (l va : Nat) : Nat := va / 2 ^ levelLog l % levelEntries l

/-- Whether an address of HBM is served by a stack that is not in service (R371). -/
def stackOut (s : State) (pa : Nat) : Bool := decide (pa < hbmEnd) && !(getStack s (stackOf s.dev pa).1).inService

/-- Whether a stack that is not in service serves any of `n` bytes: the hash places each 128 bytes of its own (R55, R371). -/
def stackOutIn (s : State) (pa n : Nat) : Bool :=
  decide (pa < hbmEnd) && (upFrom (pa / 128) ((pa + n - 1) / 128 - pa / 128 + 1)).any (fun u => stackOut s (u * 128))

/-- A table entry read by a walker; where its stack is not in service, kind 5 (R43, R371). DESIGN CHOICE: the spec does not say
which targets may hold a table; one elsewhere than in HBM or a scratchpad gives kind 5 too (log 86). -/
def readPte (s : State) (pa : Nat) : Except Nat W64 :=
  if stackOut s pa then .error 5
  else
    match place pa with
    | .hbm | .spad _ _ => .ok (w64 (memRead s pa 8))
    | _ => .error 5

/-- A walk from a table of level `l`, through the die's cached table pointers (R348, R349). -/
def walkFrom (s : State) (ptrs : List PtrEntry) (asid va : Nat) (l table : Nat) : WalkResult :=
  let pa := table + levelIndex l va * 8
  match readPte s pa with
  | .error k => { leaf := .error k }
  | .ok e =>
    if !pteV e then { leaf := .error 0, reads := [pa] }
    else if malformed l e then { leaf := .error 2, reads := [pa] }
    else if pteLeaf e then
      { leaf := .ok { asid := asid, vbase := va / 2 ^ levelLog l * 2 ^ levelLog l, log2 := levelLog l, pte := e }, reads := [pa] }
    else
      match l with
      | 0 => { leaf := .error 2, reads := [pa] }
      | k + 1 =>
        let next := wbits e 8 44 * 256
        let r := walkFrom s ptrs asid va k next
        { r with
          reads := pa :: r.reads
          ptrs := { asid := asid, level := k, vbase := va / 2 ^ levelLog (k + 1) * 2 ^ levelLog (k + 1), next := next } :: r.ptrs }

/-- A walk from a root, starting at the lowest table a cached pointer leads to. -/
def walk (s : State) (ptrs : List PtrEntry) (asid root va : Nat) : WalkResult :=
  let cached (k : Nat) : Option PtrEntry :=
    ptrs.find? (fun p => p.asid == asid && p.level == k && p.vbase == va / 2 ^ levelLog (k + 1) * 2 ^ levelLog (k + 1))
  match cached 0, cached 1, cached 2 with
  | some p, _, _ => walkFrom s ptrs asid va 0 p.next
  | _, some p, _ => walkFrom s ptrs asid va 1 p.next
  | _, _, some p => walkFrom s ptrs asid va 2 p.next
  | _, _, _ => walkFrom s ptrs asid va 3 root

/-- The reads of a walk as its tables' homes serve them (R349, R374). -/
def countWalk (s : State) (reads : List Nat) : State := reads.foldl (fun s a => countBursts s a 8) s

/-- The cached leaf that covers an address. -/
def tlbFind (t : List TlbEntry) (asid va : Nat) : Option TlbEntry :=
  t.find? (fun e => e.asid == asid && va / 2 ^ e.log2 * 2 ^ e.log2 == e.vbase)

/-- A leaf put into a cache of `cap` entries, the oldest making room (log 15). -/
def tlbAdd (cap : Nat) (t : List TlbEntry) (e : TlbEntry) : List TlbEntry :=
  if t.contains e then t else (e :: t).take cap

/-! ### Translation of one access (R43) -/

/-- What translation gives an access. -/
structure Xlated where
  pa : Nat
  dev : Nat := 0
  fib : Bool := false
  tile : Bool := false
  deriving DecidableEq, Repr

/-- The permission check of a leaf (R41, R352): kind 1 where refused. -/
def permitted (e : W64) (a : Access) (sup fibreWrites : Bool) : Bool :=
  (sup || pteUsr e) &&
  match a with
  | .load | .marm => pteRd e
  | .store | .lanes => pteWr e
  | .atomic => pteRd e && pteWr e
  | .barrier => if fibreWrites then pteWr e else pteRd e
  | .fetch => pteEx e
  | .fibre => if fibreWrites then pteWr e else pteRd e

/-- The check of the target of a physical address against the fixed map and the link state (R237, R371). -/
def checkTarget (s : State) (a : Access) (x : Xlated) (n : Nat) (whole : Bool) : Option Nat :=
  if x.dev ≠ 0 && !s.dev.reachable.contains (x.dev - 1) then some 4
  else
    match refuse a (place x.pa) x.pa n x.fib whole (x.dev ≠ 0) with
    | some k => some k
    | none => if x.dev = 0 && stackOutIn s x.pa n then some 5 else none

/-- The permission check of a leaf and the address it gives. -/
def leafAddress (e : TlbEntry) (a : Access) (va : Nat) (sup fibreWrites : Bool) : Except Nat Xlated :=
  if !permitted e.pte a sup fibreWrites then .error 1
  else .ok { pa := leafBase e.pte + va % 2 ^ e.log2, dev := if pteRem e.pte then pteDev e.pte + 1 else 0
             fib := pteFib e.pte, tile := pteTile e.pte }

/-- An address against its target. -/
def targeted (s : State) (a : Access) (n : Nat) (whole : Bool) (x : Xlated) : Except Nat Xlated :=
  match checkTarget s a x n whole with
  | some k => .error k
  | none => .ok x

/-- Translation through a leaf: permission, then the target. -/
def throughLeaf (s : State) (e : TlbEntry) (a : Access) (va n : Nat) (sup fibreWrites whole : Bool) : Except Nat Xlated :=
  leafAddress e a va sup fibreWrites >>= targeted s a n whole

/-- The local window (R318): offset within it, and what R318 grants there. -/
def inWindow (w : Option Nat) (va : Nat) : Option Nat :=
  match w with
  | some b => if b ≤ va ∧ va < b + 0x400000 then some (va - b) else none
  | none => none

def windowAddress (core o : Nat) (a : Access) : Except Nat Xlated :=
  if 0x100000 ≤ o then .error 5
  else if 0x80000 ≤ o && a == .fetch then .error 1
  else .ok { pa := coreBase core + o }

def throughWindow (s : State) (core o : Nat) (a : Access) (n : Nat) (whole : Bool) : Except Nat Xlated :=
  windowAddress core o a >>= targeted s a n whole

/-- TRAPVAL of R43. -/
def faultVal (kind va : Nat) : W64 := w64 (kind * 2 ^ 60 + va % 2 ^ 48)

/-! ### Units that translate without a stream (R348, R349, R352; log 15) -/

/-- The result of a walk that a unit waited on, for a miss of its (R349). -/
def walkEnd (s : State) (u : WalkUnit) (asid va : Nat) : Option WalkEnd :=
  s.dev.walkEnds.find? (fun e => e.unit == u && e.asid == asid &&
    match e.leaf with
    | some l => va / 2 ^ l.log2 * 2 ^ l.log2 == l.vbase
    | none => e.va / 65536 == va / 65536)

/-- A unit takes the result of its walk. -/
def takeEnd (s : State) (u : WalkUnit) (asid va : Nat) : State :=
  if (walkEnd s u asid va).isSome then modDev s (fun d => { d with walkEnds := d.walkEnds.filter (fun e => some e != walkEnd s u asid va) }) else s


/-- Translation for a fibre home, a launch processor or an HQT session in an ASID's own root (R352); the permission
is the supervisor's. -/
def unitXlate (s : State) (u : WalkUnit) (tlb : List TlbEntry) (ptrs : List PtrEntry) (asid va : Nat) (a : Access) (n : Nat)
    (fibreWrites : Bool) : Except Nat (Xlated × Option TlbEntry) :=
  if 2 ^ 48 ≤ va then .error 3
  else
    match tlbFind tlb asid va with
    | some e => (throughLeaf s e a va n true fibreWrites false).map (fun x => (x, none))
    | none =>
      let sp := tget {} s.dev.spaces asid
      let leaf : Except Nat TlbEntry :=
        match walkEnd s u asid va with
        | some w => match w.leaf with | some e => .ok e | none => .error w.kind
        | none => if !sp.v then .error 0 else (walk s ptrs asid (sp.root * 65536) va).leaf
      leaf >>= fun e => (throughLeaf s e a va n true fibreWrites false).map (fun x => (x, some e))

/-- The table entries that such a translation reads. -/
def unitReads (s : State) (u : WalkUnit) (tlb : List TlbEntry) (ptrs : List PtrEntry) (asid va : Nat) : List Nat :=
  if decide (2 ^ 48 ≤ va) || (tlbFind tlb asid va).isSome || (walkEnd s u asid va).isSome || !(tget {} s.dev.spaces asid).v then []
  else (walk s ptrs asid ((tget {} s.dev.spaces asid).root * 65536) va).reads

/-- Translation by the launch processor of a die, its cache kept. -/
def lpXlate (s : State) (die asid va : Nat) (a : Access) (n : Nat) : Except Nat Xlated × State :=
  let u : WalkUnit := .launchProc die
  let t := takeEnd (countWalk s (unitReads s u (getDie s die).lpTlb (getDie s die).ptrs asid va)) u asid va
  match unitXlate s u (getDie s die).lpTlb (getDie s die).ptrs asid va a n false with
  | .error k => (.error k, t)
  | .ok (x, none) => (.ok x, t)
  | .ok (x, some e) => (.ok x, modDie t die (fun d => { d with lpTlb := tlbAdd 256 d.lpTlb e }))

/-- The address that a core's copy engine reaches: the local window, then the cluster's cache, then the result of the walk it
waited on, or a walk from the given root whose leaf the cache keeps (R318, R348, R349). -/
def engineAddress (s : State) (u : WalkUnit) (core : Nat) (w : Option Nat) (asid root va : Nat) (a : Access) (sup : Bool) :
    Except Nat Xlated × State :=
  if 2 ^ 48 ≤ va then (.error 3, s)
  else
    match inWindow w va with
    | some o => (windowAddress core o a, s)
    | none =>
      match tlbFind (getCluster s (clusterOf core)).tlb asid va with
      | some e => (leafAddress e a va sup false, s)
      | none =>
        let r : WalkResult :=
          match walkEnd s u asid va with
          | some w => { leaf := match w.leaf with | some e => .ok e | none => .error w.kind }
          | none => walk s (getDie s (dieOf core)).ptrs asid root va
        let s := takeEnd (countWalk s r.reads) u asid va
        match r.leaf with
        | .error k => (.error k, s)
        | .ok e =>
          let s := modCluster s (clusterOf core) (fun c => { c with tlb := tlbAdd 4096 c.tlb e })
          let s := modDie s (dieOf core) (fun d => { d with ptrs := (r.ptrs ++ d.ptrs.filter (fun p => !r.ptrs.contains p)).take 256 })
          (leafAddress e a va sup false, s)

end Sys2Proof.Machine
end

