-- ==== Sys2Proof/Machine/Ops.lean ====
section
/-!
DEFINITION. Sys2Proof/Machine/Ops.lean: the named operations over registers and streams: register codes and windows
(R153, R155), full/empty bits (R160-R163), the checks of R174 in their order, loop levels (R202-R207), taking a trap
(R169, R344-R346) and returning from one (R213), translation for a stream (R43, R237, R349).
-/

namespace Sys2Proof.Machine

/-! ### How an instruction can end -/

/-- Why an instruction does not complete: a trap with its TRAPVAL, or a wait. -/
inductive Stop where
  | trap (cause : Nat) (val : W64)
  | wait (w : Wait)
  deriving DecidableEq, Repr

/-- Where an instruction that completes goes on. -/
inductive Flow where
  /-- At the next address, by the end test of R205. -/
  | seq
  /-- Transfer(t) of R206. -/
  | transfer (t : W64)
  /-- CALL's transfer, which deactivates no level (R206). -/
  | call (t : W64)
  /-- At the first body instruction of a level it has opened (R204). -/
  | body (t : W64)
  /-- As an ordinary instruction whose next address is `e` (R205, a count of 0). -/
  | skip (e : W64)
  /-- Not completed: the stream waits with what the instruction has done so far. -/
  | hold (w : Wait)
  /-- The stream's address does not advance. -/
  | none
  deriving DecidableEq, Repr

abbrev Ex (α : Type) := Except Stop α
abbrev Out := Host.Outcome State Fault Refusal

/-- An event of the device's own: nothing happens while a thermal trip has stopped every clock (R391). -/
def event (s : State) (f : State → State) : Out := .next (if s.mgmt.power.tripped then s else f s)

/-- Trap causes of R168. -/
def cILLEGAL : Nat := 0x01
def cRESERVED : Nat := 0x02
def cEMPTY : Nat := 0x03
def cPRIV : Nat := 0x04
def cMISALIGNED : Nat := 0x05
def cFETCH : Nat := 0x06
def cLOAD : Nat := 0x07
def cSTORE : Nat := 0x08
def cFIBRE : Nat := 0x09
def cCOPY : Nat := 0x0A
def cOPERAND : Nat := 0x0B
def cBARRIER : Nat := 0x0C
def cDIV0 : Nat := 0x0D
def cFP : Nat := 0x0E
def cSPILL : Nat := 0x0F
def cTRAP : Nat := 0x10
def cRESIDUE : Nat := 0x11
def cPARITY : Nat := 0x12
def cPOISON : Nat := 0x13

def trapEx {α : Type} (cause : Nat) (val : W64) : Ex α := .error (.trap cause val)
def waitEx {α : Type} (w : Wait) : Ex α := .error (.wait w)

/-- Bytes an instruction occupies (R170). -/
def instrSize (i : Instr) : Nat := 4 * (encode i).length

/-- TRAPINST of an instruction (R169). -/
def instrWords (i : Instr) : W64 :=
  match encode i with
  | [a] => a.setWidth 64
  | a :: b :: _ => b ++ a
  | [] => 0

/-! ### Registers (R153, R155) -/

/-- Physical scalar register of codes 0-31 under a window number (R155, R47). -/
def physScalar (win code : Nat) : Nat :=
  if code < 8 then code
  else if code < 16 then 8 + 16 * win + code
  else if code < 24 then 8 + 16 * win + (code - 16)
  else 8 + 16 * ((win + 7) % 8) + 8 + (code - 24)

/-- A physical scalar register; g0 reads zero. -/
def sget (x : Stream) (p : Nat) : W64 := if p = 0 then 0 else tget 0 x.sreg p
def sfullAt (x : Stream) (p : Nat) : Bool := p == 0 || x.sfull.getLsbD p
/-- Set(n, v) on a physical register: written and full; g0 discards (R155, R160). -/
def sput (x : Stream) (p : Nat) (v : W64) : Stream :=
  if p = 0 then x
  else { x with sreg := tset 0 x.sreg p v, sfull := x.sfull ||| (1#136 <<< p), residue := tset 15 x.residue p 15 }
/-- A physical register marked empty or full; g0 stays full. -/
def smark (x : Stream) (p : Nat) (full : Bool) : Stream :=
  if p = 0 then x
  else { x with sfull := if full then x.sfull ||| (1#136 <<< p) else x.sfull &&& ~~~(1#136 <<< p) }

def vget (x : Stream) (v : Nat) : VReg := tget 0 x.vreg v
def vfullAt (x : Stream) (v : Nat) : Bool := x.vfull.getLsbD v
def vput (x : Stream) (v : Nat) (d : VReg) : Stream :=
  { x with vreg := tset 0 x.vreg v d, vfull := x.vfull ||| (1#32 <<< v), parity := x.parity.filter (· != v) }
def vmark (x : Stream) (v : Nat) (full : Bool) : Stream :=
  { x with vfull := if full then x.vfull ||| (1#32 <<< v) else x.vfull &&& ~~~(1#32 <<< v) }

/-- A predicate; p0 reads all ones and discards writes (R164). -/
def pget (x : Stream) (p : Nat) : W64 := if p = 0 then BitVec.allOnes 64 else tget 0 x.preg p
def pput (x : Stream) (p : Nat) (v : W64) : Stream := if p = 0 then x else { x with preg := tset 0 x.preg p v }

/-- LINK of the current window (R199). -/
def linkOf (x : Stream) : W64 := tget 0 x.link x.cwp.win

/-! ### What is pending into a register (R161, R157) -/

/-- Destinations of the long-latency producers of a stream that have not delivered. -/
def pendingDests (s : State) (w : StreamId) : List Dest :=
  (s.reqs.filter (fun r => r.agent == .stream w)).map (·.dest) ++
    (s.freqs.filter (fun r => r.agent == .stream w)).map (·.dest) ++
    ((getCore s w.core).tasks.filter (fun t => t.who == w)).map (·.dest)

def destsScalar (d : Dest) (p : Nat) : Bool := match d with | .scalar q => q == p | _ => false
def destsVector (d : Dest) (v : Nat) : Bool :=
  match d with
  | .vector u => u == v
  | .probe u _ _ => u == v
  | _ => false
def destsPred (d : Dest) (p : Nat) : Bool := match d with | .probe _ q _ => q == p && p != 0 | _ => false

/-- A producer or a fill is pending into a physical scalar register. -/
def scalarPending (s : State) (w : StreamId) (p : Nat) : Bool :=
  p != 0 && ((pendingDests s w).any (destsScalar · p) ||
    (!w.ap && (getCtx s w.core w.ctx).fills.any (fun f => f.reg == p)))
def vectorPending (s : State) (w : StreamId) (v : Nat) : Bool := (pendingDests s w).any (destsVector · v)
def predPending (s : State) (w : StreamId) (p : Nat) : Bool := (pendingDests s w).any (destsPred · p)
/-- A producer or a fill is pending into a window (R157). -/
def windowPending (s : State) (w : StreamId) (win : Nat) (fills : Bool) : Bool :=
  (pendingDests s w).any (fun d => match d with
    | .scalar p => decide (8 + 16 * win ≤ p ∧ p < 24 + 16 * win)
    | _ => false) ||
  (fills && (getCtx s w.core w.ctx).fills.any (fun f => decide (8 + 16 * win ≤ f.reg ∧ f.reg < 24 + 16 * win)))

/-! ### Operands (R153, R160, R163, R174) -/

inductive Cls where
  | scalar | vector | pred
  deriving DecidableEq, Repr

inductive Role where
  /-- Read as a source. -/
  | src
  /-- A destination that never pushes. -/
  | dst
  /-- A destination that may name a queue in an AP stream. -/
  | dstQ
  /-- Destination and source at once. -/
  | both
  /-- Named, neither read nor written through Reg or Set (TESTFE's rs1). -/
  | named
  deriving DecidableEq, Repr

/-- An operand field: position (R153), code, class, role, its w bit, and whether its value serves as an address or as
store data (R379). -/
structure Opnd where
  pos : Nat
  code : BitVec 6
  cls : Cls
  role : Role
  w : Bool := false
  addr : Bool := false
  data : Bool := false
  deriving DecidableEq, Repr

/-- What an instruction asks before its own effect: the stream it is legal in, its privilege, its operands in
position order. -/
structure Plan where
  cpOnly : Bool := false
  apOnly : Bool := false
  priv : Bool := false
  ops : List Opnd := []
  deriving DecidableEq, Repr

/-- Whether a register code traps RESERVED_REGISTER for its class, role and stream (R153, R165, R218, R240). -/
def reservedCode (ap : Bool) (o : Opnd) : Bool :=
  let c := o.code.toNat
  let queueBad := match o.role with
    | .src | .named => ap
    | .dst | .both => true
    | .dstQ => !ap
  match o.cls with
  | .scalar => if c < 32 then false else if c < 36 then queueBad else true
  | .vector => if c < 8 then false else if c < 32 then ap else if 36 ≤ c ∧ c < 40 then queueBad else true
  | .pred => decide (8 ≤ c)

/-- Step 3 of R174: the first reserved code in position order. -/
def checkCodes (ap : Bool) (ops : List Opnd) : Ex Unit :=
  match ops.find? (reservedCode ap) with
  | some o => trapEx cRESERVED (w64 (o.code.toNat + o.pos * 64))
  | none => .ok ()

/-- The queue a code names. -/
def queueOf (o : Opnd) : Option Nat :=
  let c := o.code.toNat
  match o.cls with
  | .scalar => if 32 ≤ c ∧ c < 36 then some (c - 32) else none
  | .vector => if 36 ≤ c ∧ c < 40 then some (c - 32) else none
  | .pred => none

def isRead (o : Opnd) : Bool := match o.role with | .src | .both => true | _ => false

/-- TRAPVAL of REG_EMPTY (R160). -/
def emptyVal (o : Opnd) : W64 :=
  w64 (o.code.toNat + (if o.cls == .vector then 64 else 0) + o.pos * 256)

/-- One source read (R160, R163, R174): the value, zero-extended; an empty register waits, or traps by its w bit. -/
def readOp (x : Stream) (qs : Tbl (List VReg)) (ops : List Opnd) (o : Opnd) : Ex VReg :=
  match queueOf o with
  | some q =>
    match tget [] qs q with
    | v :: _ => .ok v
    | [] =>
      match ops.find? (fun p => isRead p && queueOf p == some q && p.w) with
      | some f => trapEx cEMPTY (emptyVal f)
      | none => waitEx (.queue q)
  | none =>
    match o.cls with
    | .scalar =>
      let p := physScalar x.cwp.win o.code.toNat
      if sfullAt x p then .ok ((sget x p).setWidth 2048)
      else if o.w then trapEx cEMPTY (emptyVal o) else waitEx (.reg o.code.toNat false)
    | .vector =>
      if vfullAt x o.code.toNat then .ok (vget x o.code.toNat)
      else if o.w then trapEx cEMPTY (emptyVal o) else waitEx (.reg o.code.toNat true)
    | .pred => .ok ((pget x o.code.toNat).setWidth 2048)

/-- Step 5 of R174 over the operands in position order. -/
def readOps (x : Stream) (qs : Tbl (List VReg)) (all ops : List Opnd) : Ex (List VReg) :=
  match ops with
  | [] => .ok []
  | o :: r =>
    if isRead o then
      match readOp x qs all o with
      | .error e => .error e
      | .ok v => (readOps x qs all r).map (v :: ·)
    else readOps x qs all r

/-- Whether the value that an operand reads holds a parity error: a vector register, or the head of a queue (R380). -/
def parityBad (x : Stream) (c : Ctx) (o : Opnd) : Bool :=
  isRead o &&
  match queueOf o with
  | some q => c.queueParity.contains (q, 0)
  | none => o.cls == .vector && x.parity.contains o.code.toNat

/-- Where the replay queue knows a queue's next push, or its entry at place `i`, from: the queue, and how many entries were pushed
before it (R380). -/
def pushKey (c : Ctx) (q : Nat) : Nat := 128 + q + 8 * tget 0 c.pushed q
def entryKey (c : Ctx) (q i : Nat) : Nat := 128 + q + 8 * (tget 0 c.pushed q - (tget [] c.queues q).length + i)

/-- Where the replay queue knows an operand's value from: a vector register of the stream, or the head of a queue (R380). -/
def producerKey (c : Ctx) (ap : Bool) (o : Opnd) : Nat := match queueOf o with | some q => entryKey c q 0 | none => 64 * bit ap + o.code.toNat

/-- Whether an operand's value holds a parity error that the context's replay queue cannot repair (R380). -/
def parityLost (s : State) (o : Opnd) : Bool :=
  parityBad (curStream s) (curCtx s) o && !(curCtx s).producers.contains (producerKey (curCtx s) s.cur.ap o)

/-- Parity of the vector registers and queue entries an instruction reads, repair apart (R380). -/
def checkParity (s : State) (ops : List Opnd) : Ex Unit :=
  match ops.find? (parityLost s) with
  | some o => trapEx cPARITY (w64 o.code.toNat)
  | none => .ok ()

/-- An operand's value produced again from the context's replay queue, where that holds its producer; the parity replay
counter counts it (R380). -/
def repairOperand (s : State) (o : Opnd) : State :=
  if parityBad (curStream s) (curCtx s) o && (curCtx s).producers.contains (producerKey (curCtx s) s.cur.ap o) then
    let s := match queueOf o with
      | some q => modCurCtx s (fun c => { c with queueParity := c.queueParity.filter (· != (q, 0)) })
      | none => modCur s (fun x => { x with parity := x.parity.filter (· != o.code.toNat) })
    countCorrected s 2
  else s

def repairOperands (s : State) (ops : List Opnd) : State := ops.foldl repairOperand s

/-- The replay queue after an instruction that wrote a vector register or a queue: the last 16 stay (R380). -/
def noteProducer (s : State) (w : StreamId) (key : Nat) : State :=
  modCtx s w.core w.ctx (fun c => { c with producers := (c.producers ++ [key]).drop (c.producers.length - 15) })

/-- Residues of the scalar registers used as addresses or store data (R379). -/
def checkResidue (x : Stream) (ops : List Opnd) : Ex Unit :=
  match ops.find? (fun o => (o.addr || o.data) && o.cls == .scalar && queueOf o == none &&
      tget 15 x.residue (physScalar x.cwp.win o.code.toNat) != 15) with
  | some o =>
    let p := physScalar x.cwp.win o.code.toNat
    trapEx cRESIDUE (w64 (tget 15 x.residue p + (sget x p).toNat % 15 * 16 + (if o.addr then 0 else 256)))
  | none => .ok ()

/-- The queues an instruction names as sources, each once (R163). -/
def queuesRead (ops : List Opnd) : List Nat := ((ops.filter isRead).filterMap queueOf).eraseDups

/-- Each queue read loses its oldest entry. -/
def popQueues (s : State) (w : StreamId) (qs : List Nat) : State :=
  match qs with
  | [] => s
  | q :: r =>
    popQueues (modCtx s w.core w.ctx (fun c => { c with
      queues := tset [] c.queues q (tget [] c.queues q).tail
      queueParity := (c.queueParity.filter (· != (q, 0))).map (fun e => if e.1 = q then (q, e.2 - 1) else e) })) w r

/-- Predicates that a pending FPROBEV is still to write are waited for (R161, R257). -/
def checkPreds (s : State) (ops : List Opnd) : Ex Unit :=
  if ops.any (fun o => o.cls == .pred && predPending s s.cur o.code.toNat) then waitEx .interlock else .ok ()

/-- Steps 2 (stream) to 5 of R174 and the checks at value use (R379, R380): the source values in position order. DESIGN CHOICE:
TRAPVAL of a PRIVILEGED trap is 0, which no rule gives (log 87). -/
def start (s : State) (p : Plan) : Ex (List VReg) := do
  let x := curStream s
  if (p.cpOnly && s.cur.ap) || (p.apOnly && !s.cur.ap) then trapEx cILLEGAL 0
  checkCodes s.cur.ap p.ops
  if p.priv && !x.mode.sup then trapEx cPRIV 0
  let vs ← readOps x (curCtx s).queues p.ops p.ops
  checkPreds s p.ops
  checkParity s p.ops
  checkResidue x p.ops
  .ok vs

/-- Whether a scalar register carries a residue that is not its value's (R379). -/
def residueBad (x : Stream) (o : Opnd) : Bool :=
  o.cls == .scalar && queueOf o == none && tget 15 x.residue (physScalar x.cwp.win o.code.toNat) != 15

/-- A result computed from a mismatched source carries a residue of its own, which the spec does not give: a free value
(R379; log 63). -/
def carryResidue (x : Stream) (p : Plan) (s : State) : State :=
  if p.ops.any (fun o => isRead o && residueBad x o) then
    (p.ops.filter (fun o => o.cls == .scalar && (o.role == .dst || o.role == .both) && queueOf o == none)).foldl (fun s o =>
      let w := takeFree s
      modCur w.2 (fun y =>
        let q := physScalar x.cwp.win o.code.toNat
        let r := w.1.toNat % 15
        if q = 0 then y
        else { y with residue := tset 15 y.residue q (if !sfullAt y q then 16 + r else if r = (sget y q).toNat % 15 then 15 else r) })) s
  else s

/-- The pops of an instruction's queues, which take effect when it completes (R163, R174). -/
def popRead (s : State) (p : Plan) (f : Flow) : State :=
  match f with
  | .hold _ => s
  | _ => popQueues s s.cur (queuesRead p.ops)

/-- The scalar among source values. -/
def sval (vs : List VReg) (k : Nat) : W64 := (vs.getD k 0).setWidth 64
/-- The vector among source values. -/
def vval (vs : List VReg) (k : Nat) : VReg := vs.getD k 0

/-! ### Destinations -/

/-- A scalar destination written at completion (R160); a producer still pending into it is waited for (R161). -/
def setReg (s : State) (code : BitVec 6) (v : W64) : Ex State :=
  let p := physScalar (curStream s).cwp.win code.toNat
  if scalarPending s s.cur p then waitEx .interlock else .ok (modCur s (fun x => sput x p v))

/-- A scalar destination marked empty at issue of a long-latency producer (R160, R161). -/
def emptyReg (s : State) (code : BitVec 6) : Ex State :=
  let p := physScalar (curStream s).cwp.win code.toNat
  if scalarPending s s.cur p then waitEx .interlock else .ok (modCur s (fun x => smark x p false))

/-- The destination of a long-latency producer that names a scalar register. -/
def scalarDest (s : State) (code : BitVec 6) : Dest := .scalar (physScalar (curStream s).cwp.win code.toNat)

/-- A vector destination written at completion. -/
def setVec (s : State) (code : BitVec 6) (v : VReg) : Ex State :=
  if vectorPending s s.cur code.toNat then waitEx .interlock
  else .ok (noteProducer (modCur s (fun x => vput x code.toNat v)) s.cur (64 * bit s.cur.ap + code.toNat))

def emptyVec (s : State) (code : BitVec 6) : Ex State :=
  if vectorPending s s.cur code.toNat then waitEx .interlock else .ok (modCur s (fun x => vmark x code.toNat false))

/-- A predicate destination (R164, R161). -/
def setPred (s : State) (p : Nat) (v : W64) : Ex State :=
  if predPending s s.cur p then waitEx .interlock else .ok (modCur s (fun x => pput x p v))

/-- Instance slot and firing number of the issuing firing (R140). -/
def curSlot (s : State) : Nat := match (curCtx s).firing with | some f => f.slot | none => 64
def curFir (s : State) : Nat := match (curCtx s).firing with | some f => f.fir | none => 0
/-- The place of the issuing firing among the firings of its instance (R140). -/
def curOrd (s : State) : Nat := match (curCtx s).firing with | some f => f.ord | none => 0
def curLaunch (s : State) : Nat := match (curCtx s).firing with | some f => f.launch | none => 64
def curAgent (s : State) : Agent := .stream s.cur

/-- A producer of a unit whose result is known and only its delivery outstanding (R160, R149). -/
def deliverFrom (s : State) (unit : Nat) (d : Dest) (v : VReg) : State :=
  addReq s { id := 0, agent := curAgent s, slot := curSlot s, fir := curOrd s, launch := curLaunch s, kind := .ready, todo := [], data := v, dest := d, unit := unit }

/-- A producer whose result is known and only its delivery outstanding (R160). -/
def deliver (s : State) (d : Dest) (v : VReg) : State := deliverFrom s 0 d v

/-! ### Loop levels (R202-R207) -/

/-- Whether a level is current (R202). -/
def levelCurrent (x : Stream) (l : Level) : Bool := l.dtag == x.cwp.depth && l.itag == x.mode.intrap

/-- A level closed: its count is 0 (R202). -/
def closeLevel (x : Stream) (l : Level) : Stream :=
  { x with lc := tset 0 x.lc l.k 0, levels := x.levels.filter (fun m => m.k != l.k) }

/-- The end test of R205 for an instruction at `a` whose next address is `next`, over the levels innermost first. -/
def endTest (x : Stream) (ls : List Level) (a next : W64) : Stream × W64 :=
  match ls with
  | [] => (x, next)
  | l :: r =>
    if levelCurrent x l && a.toNat < l.e.toNat && l.e.toNat ≤ next.toNat then
      let c := tget 0 x.lc l.k - 1
      if c ≠ 0 then ({ x with lc := tset 0 x.lc l.k c }, l.s)
      else endTest (closeLevel x l) r a next
    else (x, next)

/-- Deactivation by Transfer(t) (R206), innermost first. -/
def leaveLevels (x : Stream) (ls : List Level) (t : W64) : Stream :=
  match ls with
  | [] => x
  | l :: r =>
    if levelCurrent x l then
      if l.s.toNat ≤ t.toNat ∧ t.toNat < l.e.toNat then x else leaveLevels (closeLevel x l) r t
    else leaveLevels x r t

/-- Transfer(t) (R198, R206). -/
def transferTo (x : Stream) (t : W64) : Stream := let y := leaveLevels x x.levels t
  { y with pc := t, fetched := y.fetched.filter (fun f => !f.fenced) }

/-- Every level that satisfies `p` closed. -/
def closeWhere (x : Stream) (p : Level → Bool) : Stream := (x.levels.filter p).foldl closeLevel x

/-- Advance past an instruction of `n` bytes at the stream's pc (R205). -/
def advance (x : Stream) (n : Nat) : Stream :=
  let r := endTest x x.levels x.pc (x.pc + w64 n)
  { r.1 with pc := r.2 }

/-- The stream after an instruction of `n` bytes that has completed with `f`. -/
def flowStream (x : Stream) (n : Nat) (f : Flow) : Stream :=
  let y : Stream := { x with wait := .none, walkFault := none }
  match f with
  | .seq => advance y n
  | .transfer t => transferTo y t
  | .call t => { y with pc := t, fetched := y.fetched.filter (fun f => !f.fenced) }
  | .body t => { y with pc := t }
  | .skip e =>
    let r := endTest y y.levels y.pc e
    { r.1 with pc := r.2 }
  | .hold w => { y with wait := w }
  | .none => y

/-! ### Traps (R169, R344-R346) and return (R213) -/

/-- The launch of a context. -/
def launchOf (s : State) (w : StreamId) : Option Nat := (getCtx s w.core w.ctx).firing.map (·.launch)

/-- A stream held by a pre-emption of its launch (R356). -/
def streamStopped (s : State) (w : StreamId) : Bool := (launchOf s w).any (fun e => coreStopped s e w.core)

/-- A double trap (R169): the context stops and the launch fails (R354). -/
def doubleTrap (s : State) (w : StreamId) (cause : Nat) : State :=
  let x := getStream s w
  let s := modStream s { w with ap := false } (fun y => { y with run := .stopped, wait := .none })
  let s := modStream s { w with ap := true } (fun y => if y.run == .idle then y else { y with run := .stopped, wait := .none })
  match launchOf s w with
  | some e =>
    let d := wbits x.trap.cause 0 8 + cause * 256 + w.ctx * 2 ^ 16 + bit w.ap * 2 ^ 18
    failLaunch s e { code := 0x13, core := w.core, addr := x.trap.pc, detail := w64 d }
  | none => s

/-- Trap entry (R169): the trap registers, the mode, and on at TRAPVEC. -/
def trapEntry (s : State) (w : StreamId) (cause : Nat) (async : Bool) (val inst : W64) : State :=
  modStream s w (fun x =>
    -- An abandoned MWAIT leaves its register as it was (R346).
    let x := match x.wait with
      | .mwait _ p full => smark x p full
      | _ => x
    { x with
      -- TRAPPC holds bits [47:2] (R169, R211); a fence that the trap abandons has had no effect (R346).
      fence := none
      trap := { x.trap with cause := w64 (cause + bit async * 256), pc := w64 (wbits x.pc 2 46 * 4), val := val, inst := inst }
      mode := { sup := true, psup := x.mode.sup, intrap := true }
      pc := x.trap.vec
      fetched := x.fetched.filter (fun f => !f.fenced)
      early := []
      wait := .none
      walkFault := none })

/-- What a trap logs or marks beside its entry: residue and parity records (R379, R380), poison (R381). -/
def trapMarks (s : State) (w : StreamId) (cause : Nat) (val : W64) : State :=
  if cause = cRESIDUE then logError s 1 0 w.core w.ctx 0 val
  else if cause = cPARITY then logError s 2 0 w.core w.ctx 0 val
  else if cause = cPOISON then
    modCtx s w.core w.ctx (fun c => { c with firing := c.firing.map (fun f => { f with poisoned := true }) })
  else s

/-- A synchronous trap of the issuing stream at its pc (R169, R344). -/
def takeTrap (s : State) (cause : Nat) (val inst : W64) : State :=
  let s := trapMarks s s.cur cause val
  if (curStream s).mode.intrap then doubleTrap s s.cur cause else trapEntry s s.cur cause false val inst

/-- ERET's change of mode, levels and address (R213, R207). -/
def trapReturn (x : Stream) : Stream :=
  let x := closeWhere x (fun l => l.itag)
  let x := { x with mode := { x.mode with sup := x.mode.psup, intrap := false } }
  x

/-! ### Completing an instruction -/

/-- Whether a miss falls in the leaf page of a walk that is queued or runs (R349): in the leaf that the walk finds in the
tables as they stand, at least in its 64 KiB. -/
def sameLeaf (s : State) (k : Walk) (asid va : Nat) : Bool :=
  k.asid == asid && (k.va / 65536 == va / 65536 ||
    match (walk s (getDie s (k.cluster / 4)).ptrs asid k.root k.va).leaf with
    | .ok e => va / 2 ^ e.log2 * 2 ^ e.log2 == e.vbase
    | .error _ => false)

/-- A wait recorded; one on a walk joins or queues it at the die's walker (R32, R349). -/
def noteWait (s : State) (w : Wait) : State :=
  let s := modCur s (fun x => { x with wait := w })
  match w with
  | .walk asid va =>
    let same (k : Walk) : Bool := k.cluster / 4 == s.cur.core / 256 && sameLeaf s k asid va
    if s.dev.walks.any same then
      modDev s (fun d => { d with walks := d.walks.map (fun k =>
        if same k && !k.waiters.contains s.cur then { k with waiters := k.waiters ++ [s.cur] } else k) })
    else
      let k : Walk := { id := s.nextId, cluster := clusterOf s.cur.core, asid := asid
                        root := wbits (curStream s).ttroot 16 36 * 65536, va := va, waiters := [s.cur] }
      { modDev s (fun d => { d with walks := d.walks ++ [k] }) with nextId := s.nextId + 1 }
  | _ => s

/-- The outcome of an instruction: its completion, its trap, or its wait. -/
def finish (s : State) (i : Instr) (r : Ex (State × Flow)) : Out :=
  match r with
  | .ok (t, f) => .next (modCur t (fun x => flowStream x (instrSize i) f))
  | .error (.trap c v) => .next (takeTrap s c v (instrWords i))
  | .error (.wait w) => .next (noteWait s w)

/-- An instruction by its plan and its member's own checks and effects; what it reads is repaired as it is read (R380). -/
def perform (s : State) (i : Instr) (p : Plan) (body : State → List VReg → Ex (State × Flow)) : Out :=
  match start s p with
  | .error e => finish s i (.error e)
  | .ok vs =>
    let s := repairOperands s p.ops
    finish s i (body s vs >>= fun r => .ok (carryResidue (curStream s) p (popRead r.1 p r.2), r.2))

/-! ### Translation for the issuing stream (R43, R237) -/

/-- The trap cause of a failed access (R43, R237, R250). -/
def faultCause (a : Access) (writes : Bool) : Nat :=
  match a with
  | .load | .marm => cLOAD
  | .store | .lanes | .atomic => cSTORE
  | .barrier => if writes then cSTORE else cLOAD
  | .fibre => cFIBRE
  | .fetch => cFETCH

/-- The local window of the issuing firing (R318). -/
def curWindow (s : State) : Option Nat := (curCtx s).firing.bind (·.window)
def curAsid (s : State) : Nat := wbits (curStream s).ttroot 0 16
def curRoot (s : State) : Nat := wbits (curStream s).ttroot 16 36 * 65536
def curSup (s : State) : Bool := (curStream s).mode.sup

/-- Translate(va, kind) of R237: the local window, the cluster's cache, or a wait on the walker. -/
def xlate (s : State) (a : Access) (va : W64) (n : Nat) (writes whole : Bool) : Ex Xlated :=
  let v := va.toNat
  let fault (k : Nat) : Ex Xlated := trapEx (faultCause a writes) (faultVal k v)
  if 2 ^ 48 ≤ v then fault 3
  else
    match inWindow (curWindow s) v with
    | some o =>
      match throughWindow s s.cur.core o a n whole with
      | .ok x => .ok x
      | .error k => fault k
    | none =>
      match tlbFind (getCluster s (clusterOf s.cur.core)).tlb (curAsid s) v with
      | some e =>
        match throughLeaf s e a v n (curSup s) writes whole with
        | .ok x => .ok x
        | .error k => fault k
      | none =>
        match (curStream s).walkFault with
        | some (asid, va', k) => if asid = curAsid s ∧ va' / 65536 = v / 65536 then fault k else waitEx (.walk (curAsid s) v)
        | none => waitEx (.walk (curAsid s) v)

/-- A translation whose failure traps another cause (R158). -/
def recast {α : Type} (cause : Nat) (r : Ex α) : Ex α :=
  match r with
  | .error (.trap _ v) => .error (.trap cause v)
  | o => o

/-- `len` bytes from an address, split where a 64 KiB page ends, as pieces from byte `off` of the data. -/
def pagePieces (va : W64) (len off : Nat) : List (W64 × Nat × Nat) :=
  let room := 65536 - va.toNat % 65536
  if len ≤ room then [(va, len, off)] else [(va, room, off), (va + w64 room, len - room, off + room)]

/-- The pieces of an access translated; each is asked of its target as accesses of `n` bytes. -/
def xlatePieces (s : State) (a : Access) (n : Nat) (writes whole : Bool) (ps : List (W64 × Nat × Nat)) : Ex (List Seg) :=
  match ps with
  | [] => .ok []
  | p :: r => do
    let x ← xlate s a p.1 n writes whole
    let ss ← xlatePieces s a n writes whole r
    .ok ({ pa := x.pa, len := p.2.1, off := p.2.2, dev := x.dev } :: ss)

/-- Alignment of an address (R237 step 2). -/
def aligned (va : W64) (n : Nat) : Ex Unit :=
  if va.toNat % n = 0 then .ok () else trapEx cMISALIGNED va

/-- Coordinates, starts and counts have bits [63:32] zero (R251, R255). -/
def low32 (v : W64) : Ex Unit := if v.toNat < 2 ^ 32 then .ok () else trapEx cOPERAND v

end Sys2Proof.Machine
end

