-- ==== Sys2Proof/Machine/Operands.lean ====
section
/-!
DEFINITION. Sys2Proof/Machine/Operands.lean: the operand forms of the instruction formats (R171, R172, R221, R241,
R251, R255, R260), each a list of operand fields in position order, and the address forms (R178, R239, R242).
-/

namespace Sys2Proof.Machine

/-- A scalar source at a position with its w bit. -/
def srcS (pos : Nat) (c : BitVec 6) (w : Bool) : Opnd := { pos := pos, code := c, cls := .scalar, role := .src, w := w }
/-- A scalar source whose value is used as an address (R379). -/
def addrS (pos : Nat) (c : BitVec 6) (w : Bool) : Opnd :=
  { pos := pos, code := c, cls := .scalar, role := .src, w := w, addr := true }
/-- A scalar source stored as data (R379). -/
def dataS (pos : Nat) (c : BitVec 6) (w : Bool) : Opnd :=
  { pos := pos, code := c, cls := .scalar, role := .src, w := w, data := true }
def dstS (c : BitVec 6) : Opnd := { pos := 0, code := c, cls := .scalar, role := .dst }
/-- A scalar destination that may push to a queue in an AP stream (R240). -/
def dstSQ (c : BitVec 6) : Opnd := { pos := 0, code := c, cls := .scalar, role := .dstQ }
/-- A scalar destination that is read too (SEL, LIH, AMOCAS). -/
def bothS (c : BitVec 6) : Opnd := { pos := 0, code := c, cls := .scalar, role := .both }
def srcV (pos : Nat) (c : BitVec 6) (w : Bool) : Opnd := { pos := pos, code := c, cls := .vector, role := .src, w := w }
def dstV (c : BitVec 6) : Opnd := { pos := 0, code := c, cls := .vector, role := .dst }
def dstVQ (c : BitVec 6) : Opnd := { pos := 0, code := c, cls := .vector, role := .dstQ }
/-- A vector destination read before it is written (R218): `w` governs that read where a w bit does. -/
def bothV (pos : Nat) (c : BitVec 6) (w : Bool) : Opnd := { pos := pos, code := c, cls := .vector, role := .both, w := w }
def srcP (pos : Nat) (c : BitVec 6) : Opnd := { pos := pos, code := c, cls := .pred, role := .src }
def dstP (c : BitVec 6) : Opnd := { pos := 0, code := c, cls := .pred, role := .dst }

/-- rd, rs1, rs2 of R3. -/
def ops3 (f : R3F) : List Opnd := [dstS f.rd, srcS 1 f.rs1 f.w1, srcS 2 f.rs2 f.w2]
/-- rd, rs1 of R3. -/
def ops2 (f : R3F) : List Opnd := [dstS f.rd, srcS 1 f.rs1 f.w1]
/-- rd, rs1 of I12. -/
def opsI (f : I12F) : List Opnd := [dstS f.rd, srcS 1 f.rs1 f.w1]

/-- The effective address of the load and store majors (R178, R239). -/
def ldstAddr (base : W64) (f : I12F) (n : Nat) : W64 := base + sext64 (f.imm12.extractLsb' 0 9) * w64 n

/-- The byte offset of LDV, STV and LDVS (R241, R242). -/
def vecOff (f : VF) : W64 := sext64 f.imm13 * 4

/-- The lanes that a governing predicate leaves active (R164). -/
def activeMask (s : State) (pm : BitVec 3) : BitVec 64 := pget (curStream s) pm.toNat

/-- Whether a lane is active. -/
def active (m : BitVec 64) (k : Nat) : Bool := m.getLsbD k

/-- Whether a member with merging predication reads vd (R218): an inactive lane and zm = 0. -/
def mergesVd (s : State) (f : VF) : Bool := !f.zm && activeMask s f.pm != BitVec.allOnes 64

/-- The destination operand of a predicated vector member: read too where it merges (R218, R164). -/
def vdOp (s : State) (f : VF) : Opnd := if mergesVd s f then bothV 0 f.vd false else dstV f.vd

/-- A predicate named by a 3-bit field: waited for while a producer is pending into it (R161, R257). -/
def pmOp (pm : BitVec 3) : Opnd := { pos := 0, code := pm.setWidth 6, cls := .pred, role := .named }

/-- The old value of a merging destination among the source values: the first one, or 0 where vd is not read. -/
def oldVd (s : State) (f : VF) (vs : List VReg) : VReg := if mergesVd s f then vval vs 0 else 0
/-- The other source values. -/
def restVd (s : State) (f : VF) (vs : List VReg) : List VReg := if mergesVd s f then vs.drop 1 else vs

/-- Lanes written under predication: the results on active lanes, kept or zero elsewhere (R218). -/
def mergeLanes (m : BitVec 64) (zm : Bool) (old : VReg) (res : Nat → W32) : VReg :=
  ofLanes ((upFrom 0 64).map (fun k => if active m k then res k else if zm then 0 else lane old k))

/-- Predicate bits written under predication (R224). -/
def mergeBits (m : BitVec 64) (zm : Bool) (old : W64) (res : Nat → Bool) : W64 :=
  BitVec.ofNat 64 (packNat 1 ((upFrom 0 64).map (fun k =>
    bit (if active m k then res k else if zm then false else old.getLsbD k))))

end Sys2Proof.Machine
end

