-- ==== Sys2Proof/Machine/Flags.lean ====
section
/-!
DEFINITION. Sys2Proof/Machine/Flags.lean: FPCTL, FPFLAGS and the lane generators (R81-R90, R219).
-/

namespace Sys2Proof.Machine

/-- Generator of a lane (R84). -/
def laneGen (c : Ctx) (k : Nat) : W32 := tget (seedLane 0 k) c.lanes k
def setLaneGen (c : Ctx) (k : Nat) (v : W32) : Ctx := { c with lanes := tset (seedLane 0 k) c.lanes k v }

/-- The lanes from `k` on, seeded from the running value `t` (R84). -/
def seedFrom (c : Ctx) (t : W32) (k n : Nat) : Ctx :=
  match n with
  | 0 => c
  | m + 1 =>
    let u := xorshift t
    seedFrom (setLaneGen c k u) u (k + 1) m

/-- A write of SRSEED (R84). -/
def writeSeed (c : Ctx) (seed : W32) : Ctx :=
  seedFrom { c with seed := seed } (if seed = 0 then 0x6D2B79F5 else seed) 0 64

/-- The generators of the lanes in `ks` stepped once (R85). -/
def stepGens (c : Ctx) (ks : List Nat) : Ctx :=
  match ks with
  | [] => c
  | k :: r => stepGens (setLaneGen c k (xorshift (laneGen c k))) r

/-- The active lanes, ascending. -/
def activeLanes (m : BitVec 64) : List Nat := (upFrom 0 64).filter (active m)

/-- The rounding mode of a V-format member (R82). -/
def roundMode (c : Ctx) (rnd3 : BitVec 3) : Nat := if rnd3 = 7 then wbits c.fpctl 0 3 else rnd3.toNat
/-- FPCTL.FTZ (R81). -/
def ftzOn (c : Ctx) : Bool := c.fpctl.getLsbD 3
/-- The trap enables of FPCTL in the bit positions of FPFLAGS (R81). -/
def trapEnables (c : Ctx) : Flags := c.fpctl.extractLsb' 4 5

/-- Flags raised by an instruction: an enabled one traps FP_TRAP, else they stick (R86, R87). -/
def raiseFlags (s : State) (fl : Flags) : Ex State :=
  if trapEnables (curCtx s) &&& fl != 0 then trapEx cFP (zext64 fl)
  else .ok (modCurCtx s (fun c => { c with fpflags := c.fpflags ||| fl }))

/-- The generators of the lanes in `ks` stepped in mode 4 (R85). -/
def stepIn (s : State) (mode : Nat) (ks : List Nat) : State :=
  if mode = 4 then modCurCtx s (fun c => stepGens c ks) else s

/-- The results of the active lanes of a rounding member: flags raised or trapped on, generators stepped (R219). -/
def roundLanes (s : State) (m : BitVec 64) (mode : Nat) (f : Nat → W32 → Rounded) : Ex (State × List W32) := do
  let c := curCtx s
  let rs := (upFrom 0 64).map (fun k => if active m k then f k (laneGen c k) else { bits := 0 })
  let s ← raiseFlags s (rs.foldl (fun a r => a ||| r.flags) 0)
  .ok (stepIn s mode (activeLanes m), rs.map (fun r => w32 r.bits))

/-- The same of a member that performs no rounding: no generator steps (R82). -/
def flagLanes (s : State) (m : BitVec 64) (f : Nat → Rounded) : Ex (State × List W32) :=
  roundLanes s m 0 (fun k _ => f k)

/-! ### FP32 operations on values (R219, R222, R226) -/

/-- An FP32 operand read with FTZ (R89). -/
def fp32 (ftz : Bool) (x : W32) : FVal := flushIn ftz 0 (readFloat 0 x.toNat) x.toNat

/-- The sign of an exact zero sum (R219). -/
def zeroSign (mode : Nat) (vs : List FVal) : Bool :=
  match vs with
  | [] => false
  | v :: r =>
    if (v :: r).all FVal.isZero && r.all (fun u => u.sign == v.sign) then v.sign else mode == 3

/-- An exact sum; a signalling NaN stands for a NaN with NV. Infinities of opposite sign give it whatever else the
sum holds (R226). -/
def addVals (mode : Nat) (vs : List FVal) : FVal :=
  if vs.any FVal.isSig || (vs.any (fun v => v.isInf && v.sign) && vs.any (fun v => v.isInf && !v.sign)) then .nan true
  else if vs.any FVal.isNaN then .nan false
  else
    match vs.find? FVal.isInf with
    | some v => v
    | none => ofSum (sumFin vs) (zeroSign mode vs)

/-- An exact product. -/
def mulVals (a b : FVal) : FVal :=
  if a.isSig || b.isSig then .nan true
  else if a.isNaN || b.isNaN then .nan false
  else if a.isInf || b.isInf then
    if a.isZero || b.isZero then .nan true else .inf (a.sign != b.sign)
  else mulFin a b

/-- a × b + c with one rounding; 0 × ∞ gives NV whatever c is (R222). -/
def fmaVals (mode : Nat) (a b c : FVal) : FVal :=
  match mulVals a b with
  | .nan s => .nan (s || c.isSig)
  | p => addVals mode [p, c]

/-- Position of an FP32 encoding, not a NaN, in the order with -0 below +0. -/
def fp32Key (x : Nat) : Int := if x < 2 ^ 31 then (x : Int) else -((x - 2 ^ 31 : Nat) : Int) - 1

/-- An FP32 encoding with a subnormal read as zero of its sign under FTZ (R222). -/
def flushBits (ftz : Bool) (x : Nat) : Nat := if ftz && (x >>> 23) % 256 == 0 then x / 2 ^ 31 * 2 ^ 31 else x

/-- The least or greatest of FP32 encodings, `d` for none; a NaN gives the canonical NaN (R222, R226). -/
def pickFP (ftz max : Bool) (d : Nat) (xs : List Nat) : Rounded :=
  let vs := xs.map (readFloat 0)
  if vs.any FVal.isNaN then { bits := canonNaN 0, flags := if vs.any FVal.isSig then flagNV else 0 }
  else
    match xs.map (flushBits ftz) with
    | [] => { bits := d }
    | y :: r =>
      { bits := r.foldl (fun a b =>
          if (if max then decide (fp32Key a < fp32Key b) else decide (fp32Key b < fp32Key a)) then b else a) y }

/-- The integer reading of a lane by type (R220): S32 signed, Z32 unsigned. -/
def intLane (ty : BitVec 4) (x : W32) : Int := if ty = 9 then x.toInt else (x.toNat : Int)

/-- The least or greatest of integer lanes, `d` for none. -/
def pickInt (ty : BitVec 4) (max : Bool) (d : W32) (xs : List W32) : W32 :=
  match xs with
  | [] => d
  | y :: r =>
    r.foldl (fun a b =>
      if (if max then decide (intLane ty a < intLane ty b) else decide (intLane ty b < intLane ty a)) then b else a) y

/-- The identity of a reduction (R226): operation 0 ADD, 1 MIN, 2 MAX. -/
def reduceId (ty : BitVec 4) (op : Nat) : W32 :=
  match op with
  | 0 => 0
  | 1 => if ty = 0 then 0x7F800000 else if ty = 9 then 0x7FFFFFFF else 0xFFFFFFFF
  | _ => if ty = 0 then 0xFF800000 else if ty = 9 then 0x80000000 else 0

/-- A reduction over lanes by type and operation, rounded with the random `r` (R226, R227). -/
def reduceLanes (ty : BitVec 4) (op mode : Nat) (ftz : Bool) (r : W32) (xs : List W32) : Rounded :=
  if ty = 0 then
    if op = 0 then convert 0 mode ftz r (addVals mode (xs.map (fp32 ftz)))
    else pickFP ftz (op == 2) (reduceId ty op).toNat (xs.map BitVec.toNat)
  else if op = 0 then { bits := (xs.foldl (· + ·) 0).toNat }
  else { bits := (pickInt ty (op == 2) (reduceId ty op) xs).toNat }

/-- Whether a reduction rounds: FP32 ADD (R82, R226). -/
def reduceRounds (ty : BitVec 4) (op : Nat) : Bool := ty == 0 && op == 0

end Sys2Proof.Machine
end

