-- ==== Sys2Proof/Machine/Tiles.lean ====
section
/-!
DEFINITION. Sys2Proof/Machine/Tiles.lean: the tile directory (R102-R107), stores with their entry updates, macro
records (R113), which tiles an access touches, the interlock of the tile dependency table (R109).
-/

namespace Sys2Proof.Machine

/-! ### Directories -/

/-- Bytes of a tile of element width code `esz` (R102, R105). -/
def tileBytes (esz : Nat) : Nat := 512 * 2 ^ esz
/-- Element width of a code. -/
def eszWidth (esz : Nat) : Nat := 4 * 2 ^ esz

/-- The directory entry that covers an address: where it is kept, the tile's base, its element width. -/
inductive DirRef where
  | acc (core d : Nat)
  | slot (core k : Nat)
  | region (core t : Nat)
  | page (base : Nat)
  deriving DecidableEq, Repr

/-- A covered tile: entry, first byte, bytes, element width in memory, element width for patterns. -/
structure Covered where
  ref : DirRef
  base : Nat
  bytes : Nat
  stride : Nat
  width : Nat
  deriving DecidableEq, Repr

/-- Tag byte `o` of a slot (R97). -/
def slotTag (s : State) (core k o : Nat) : Nat := (memByte s (coreBase core + 0xB0200 + k * 0x40 + o)).toNat
/-- FMT of a slot. -/
def slotFmt (s : State) (core k : Nat) : Nat := slotTag s core k 0x20 % 16
/-- The 32 scale bytes of a slot. -/
def slotScales (s : State) (core k : Nat) : List Nat := (upFrom 0 32).map (slotTag s core k)
/-- The mask of a slot. -/
def slotMask (s : State) (core k : Nat) : Nat := memRead s (coreBase core + 0xB0000 + k * 16) 16

/-- The tile of the scratchpad region that holds an offset (R105). -/
def regionTile (c : Core) (o : Nat) : Option (Nat × Nat) :=
  let lo := c.tdbase * 4096
  if lo ≤ o ∧ o < lo + c.tdsize * 4096 then some ((o - lo) / tileBytes c.tdesz, c.tdesz) else none

/-- The tile page table entry that lists an HBM page (R106). DESIGN CHOICE: of two valid ones the lowest-numbered (log 85). -/
def pageEsz (d : Dev) (pa : Nat) : Option Nat :=
  (d.tilePages.find? (fun e => e.2.v && e.2.ppn == pa / 65536)).map (fun e => e.2.esz)

/-- The covered tile an address lies in, a slot's mask and tag apart (R102). -/
def covered (s : State) (pa : Nat) : Option Covered :=
  match place pa with
  | .acc n o => some { ref := .acc n (o / 4096), base := pa - o % 4096, bytes := 4096, stride := 32, width := 32 }
  | .slots n o =>
    some { ref := .slot n (o / 2048), base := pa - o % 2048, bytes := 2048, stride := 16, width := fmtWidth (slotFmt s n (o / 2048)) }
  | .spad n o =>
    (regionTile (getCore s n) o).map (fun t =>
      let z := tileBytes t.2
      { ref := .region n t.1, base := coreBase n + (getCore s n).tdbase * 4096 + t.1 * z, bytes := z, stride := eszWidth t.2, width := eszWidth t.2 })
  | .hbm =>
    (pageEsz s.dev pa).map (fun e =>
      let z := tileBytes e
      { ref := .page (pa / z * z), base := pa / z * z, bytes := z, stride := eszWidth e, width := eszWidth e })
  | _ => none

/-- An entry (R102, R107). -/
def getDir (s : State) (r : DirRef) : DirEntry :=
  match r with
  | .acc n d => tget .general (getCore s n).accDir d
  | .slot n k => tget .zero (getCore s n).slotDir k
  | .region n t => tget .general (getCore s n).regDir t
  | .page b => tget .general s.dev.hbmDir b

/-- Whether the hash spreads a tile of HBM over more than one stack: its entry then stays GENERAL (R106). -/
def tileSpread (s : State) (b : Nat) : Bool :=
  let n := tileBytes ((pageEsz s.dev b).getD 0)
  (upFrom 0 (n / 128)).any (fun i => (stackOf s.dev (b + 128 * i)).1 != (stackOf s.dev b).1)

def setDir (s : State) (r : DirRef) (e : DirEntry) : State :=
  match r with
  | .acc n d => modCore s n (fun c => { c with accDir := tset .general c.accDir d e })
  | .slot n k => modCore s n (fun c => { c with slotDir := tset .zero c.slotDir k e })
  | .region n t => modCore s n (fun c => { c with regDir := tset .general c.regDir t e })
  | .page b => if tileSpread s b then s else modDev s (fun d => { d with hbmDir := tset .general d.hbmDir b e })

/-- The word form of an entry (R107). -/
def dirWord (e : DirEntry) : Nat := e.side.toNat * 2 ^ 32 + bit e.nf * 4 + e.cls.toNat

/-! ### Classification (R103) -/

/-- All bits 0 but possibly the top one. -/
def zeroPat (w x : Nat) : Bool := x % 2 ^ (w - 1) == 0
/-- An encoding that may be a NaN or an infinity. -/
def nfPat (w x : Nat) : Bool :=
  match w with
  | 8 => x % 128 == 0x7F || x / 4 % 32 == 0x1F
  | 16 => x / 1024 % 32 == 0x1F || x / 128 % 256 == 0xFF
  | 32 => x / 2 ^ 23 % 256 == 0xFF
  | _ => false

/-- Whether element `i` of a 32 × 32 tile is on the diagonal. -/
def onDiag (i : Nat) : Bool := i % 33 == 0

/-- Exact classification of 1024 encodings of a width. -/
def classify (w : Nat) (xs : List Nat) : DirEntry :=
  let nf := xs.any (nfPat w)
  let ix := xs.zipIdx
  if xs.all (zeroPat w) then { nf := nf, cls := 1, side := 0 }
  else
    let x0 := xs.headD 0
    if !zeroPat w x0 && ix.all (fun p => if onDiag p.2 then p.1 == x0 else zeroPat w p.1) then
      { nf := nf, cls := 3, side := w32 x0 }
    else if xs.all (· == x0) then { nf := nf, cls := 2, side := w32 x0 }
    else { nf := nf, cls := 0, side := 0 }

/-- The encodings of a covered tile, in order. -/
def tileElems (s : State) (c : Covered) : List Nat :=
  let x := memRead s c.base c.bytes
  (upFrom 0 1024).map (fun i => (x >>> (c.stride * i)) % 2 ^ c.width)

/-- A slot's own conditions: unequal scales exclude CONST and IDENTITY, a scale of 0xFF sets NF. -/
def slotRule (scales : List Nat) (e : DirEntry) : DirEntry :=
  let e := if e.cls = 2 ∨ e.cls = 3 then (if scales.all (· == scales.headD 0) then e else { e with cls := 0, side := 0 }) else e
  if scales.any (· == 0xFF) then { e with nf := true } else e

/-- Exact classification of a covered tile as it stands (R104). -/
def reclassify (s : State) (c : Covered) : State :=
  let e := classify c.width (tileElems s c)
  match c.ref with
  | .slot n k => setDir s c.ref (slotRule (slotScales s n k) e)
  | _ => setDir s c.ref e

/-- The covered tile of an accumulator, of a slot. -/
def accTile (n d : Nat) : Covered :=
  { ref := .acc n d, base := coreBase n + 0x80000 + d * 4096, bytes := 4096, stride := 32, width := 32 }
def slotTile (s : State) (n k : Nat) : Covered :=
  { ref := .slot n k, base := coreBase n + 0xA0000 + k * 2048, bytes := 2048, stride := 16, width := fmtWidth (slotFmt s n k) }

/-- The entry after a partial store to elements `lo` to `hi` of a covered tile, whose data is written (R104). -/
def partialEntry (s : State) (c : Covered) (lo hi : Nat) (e : DirEntry) : DirEntry :=
  let at_ := fun i => (memRead s (c.base + c.stride * i / 8) ((c.stride + 7) / 8) >>> (c.stride * i % 8)) % 2 ^ c.width
  let js := upFrom lo (hi + 1 - lo)
  let ok := fun i =>
    let x := at_ i
    if e.cls = 1 then zeroPat c.width x
    else if e.cls = 2 then x == e.side.toNat
    else if e.cls = 3 then (if onDiag i then x == e.side.toNat else zeroPat c.width x)
    else true
  let nf := e.nf || js.any (fun i => nfPat c.width (at_ i))
  if js.all ok then { e with nf := nf } else { nf := nf, cls := 0, side := 0 }

/-- The covered tiles from an address up to `last`, in order; no tile is shorter than 512 bytes. -/
def tilesFrom (s : State) (pa last fuel : Nat) : List Covered :=
  match fuel with
  | 0 => []
  | k + 1 =>
    if last ≤ pa then []
    else
      match covered s pa with
      | some c => c :: tilesFrom s (c.base + c.bytes) last k
      | none => tilesFrom s (pa / 512 * 512 + 512) last k

/-- The covered tiles that `n` bytes at `pa` meet. -/
def tilesOf (s : State) (pa n : Nat) : List Covered :=
  if pa < hbmEnd && s.dev.tilePages.isEmpty then [] else tilesFrom s pa (pa + n) (n / 512 + 2)

/-- The entries of the tiles that a partial store of `n` bytes at `pa` touches (R104). -/
def touchTiles (s : State) (pa n : Nat) : State :=
  (tilesOf s pa n).foldl (fun s c =>
    let a := max pa c.base - c.base
    let b := min (pa + n) (c.base + c.bytes) - c.base
    setDir s c.ref (partialEntry s c (a * 8 / c.stride) ((b * 8 - 1) / c.stride) (getDir s c.ref))) s

/-! ### Macro records (R113) -/

/-- The image of a slot: elements, mask, 48 zero bytes, tag. -/
def slotImage (s : State) (n k : Nat) : List Byte :=
  memBytes s (coreBase n + 0xA0000 + k * 2048) 2048 ++ memBytes s (coreBase n + 0xB0000 + k * 16) 16 ++
    List.replicate 48 0 ++ memBytes s (coreBase n + 0xB0200 + k * 0x40) 64

/-- Whether a launch holds instances on a core (R113, R353). -/
def holdsCore (l : Launch) (n : Nat) : Bool := decide (2 ≤ l.lstate ∧ l.lstate ≤ 6) && l.cores.contains n

/-- Address of a slot's record in a launch's macro record. -/
def macroRecord (l : Launch) (n k : Nat) : Nat := l.macrec + (n * 32 + k) * 2176

/-- A slot's image written to one launch's record. -/
def imageTo (s : State) (e n k : Nat) : State :=
  let pa := macroRecord (getLaunch s e) n k
  addTraffic (countBursts (touchTiles (memWriteBytes s pa (slotImage s n k)) pa 2176) pa 2176) e [{ pa := pa, len := 2176, off := 0 }]

/-- Whether a write of a slot waits, because a record of it lies in a sector that a migration is about to copy (R362). -/
def imageHeld (s : State) (n k : Nat) : Bool :=
  s.dev.launches.any (fun e => holdsCore e.2 n && redirectHeld s.dev (macroRecord e.2 n k) 2176)

/-- A slot's image written to the record of every launch that holds the core. -/
def imageSlot (s : State) (n k : Nat) : State :=
  (s.dev.launches.filter (fun e => holdsCore e.2 n)).foldl (fun s e => imageTo s e.1 n k) s

/-! ### Stores to memory with their entries -/

/-- The bytes of a store that a tag accepts (R97): scales, and a format code that slots hold. -/
def tagByte (s : State) (n o : Nat) (b : Byte) : State :=
  let j := o % 0x40
  let pa := coreBase n + 0xB0200 + o
  if j < 0x20 then memWrite s pa 1 b.toNat
  else if j = 0x20 && (1 ≤ b.toNat % 16 && b.toNat % 16 ≤ 5) then memWrite s pa 1 (b.toNat % 16)
  else s

/-- The units of `z` bytes that `n` bytes at `o` meet, by number. -/
def stretch (o n z : Nat) : List Nat := upFrom (o / z) ((o + n - 1) / z + 1 - o / z)

/-- A store of `n` bytes of a number to a scratchpad, HBM, an accumulator, a slot, a mask or a tag, as one act with
the entry (R104). -/
def storeMem (s : State) (pa n x : Nat) : State :=
  match place pa with
  | .mask c o =>
    (stretch o n 16).foldl (fun s k => imageSlot (reclassify s (slotTile s c k)) c k) (memWrite s pa n x)
  | .tag c o =>
    let s := (upFrom 0 n).foldl (fun s i => tagByte s c (o + i) (BitVec.ofNat 8 (x >>> (8 * i)))) s
    (stretch o n 0x40).foldl (fun s k => imageSlot (reclassify s (slotTile s c k)) c k) s
  | .slots c o =>
    (stretch o n 2048).foldl (fun s k => imageSlot s c k) (touchTiles (memWrite s pa n x) pa n)
  | _ => touchTiles (memWrite s pa n x) pa n

/-! ### The table's interlock (R109) -/

/-- The tiles of a core that `n` bytes of its window meet, where the table orders accesses to them: accumulators, slots
with their masks and tags, tiles of the scratchpad region. -/
def windowTiles (s : State) (pa n : Nat) : List (Nat × Tile) :=
  match place pa with
  | .acc c o => (stretch o n 4096).map (fun k => (c, .acc k))
  | .slots c o => (stretch o n 2048).map (fun k => (c, .mslot k))
  | .mask c o => (stretch o n 16).map (fun k => (c, .mslot k))
  | .tag c o => (stretch o n 0x40).map (fun k => (c, .mslot k))
  | .spad c o =>
    let k := getCore s c
    let z := tileBytes k.tdesz
    let lo := max o (k.tdbase * 4096)
    let hi := min (o + n) ((k.tdbase + k.tdsize) * 4096)
    if lo < hi then (stretch (lo - k.tdbase * 4096) (hi - lo) z).map (fun t => (c, .mem (coreBase c + k.tdbase * 4096 + t * z) z)) else []
  | _ => []

/-- The tiles of core `n` among those that a piece meets. -/
def coreTiles (s : State) (n : Nat) (g : Seg) : List Tile :=
  if g.dev ≠ 0 then [] else (windowTiles s g.pa g.len).filterMap (fun t => if t.1 = n then some t.2 else none)

def tilesMeet (a b : Tile) : Bool :=
  match a, b with
  | .acc x, .acc y => x == y
  | .mslot x, .mslot y => x == y
  | .mem p n, .mem q m => decide (p < q + m ∧ q < p + n)
  | _, _ => false

/-- Whether a request's kind writes. -/
def ReqKind.writes (k : ReqKind) : Bool :=
  match k with
  | .store | .atomic _ _ _ | .sector _ _ _ | .regWrite _ _ _ => true
  | _ => false

/-- The core an agent's accesses enter a table from: its own (R109). -/
def agentCore (a : Agent) : Option Nat :=
  match a with
  | .stream w => some w.core
  | .copyEngine e _ => if e < 1024 then some e else none
  | _ => none

/-- Whether a piece of a request is a copy's: its copy's one entry stands for it. -/
def isSector (k : ReqKind) : Bool :=
  match k with
  | .sector _ _ _ | .regWrite _ _ _ => true
  | _ => false

/-- When the entry that stands for a request entered the table: with its copy, for a sector (R109). -/
def entryOf (s : State) (r : Req) : Nat :=
  match r.kind with
  | .sector e k _ | .regWrite e k _ => (getCopy s e k).order
  | _ => r.id

/-- A copy that holds an entry: accepted, not ended, not suspended (R109, R111). -/
def copyEntered (c : Copy) : Bool := (c.state == 1 || c.state == 2 || c.state == 4) && !(c.reads.isEmpty && c.writes.isEmpty)

/-- An entry that reads `rs` and writes `ws` stands between an access to tile `t` and its effect (R109). -/
def entryBlocks (rs ws : List Tile) (t : Tile) (writes : Bool) : Bool := ws.any (tilesMeet t) || (writes && rs.any (tilesMeet t))

def taskBlocks (t : Tile) (writes : Bool) (k : Task) : Bool := entryBlocks k.reads k.writes t writes

/-- Whether pieces meet tiles of core `n`. -/
def meetsTiles (s : State) (n : Nat) (gs : List Seg) : Bool := gs.any (fun g => !(coreTiles s n g).isEmpty)

/-- Spills and fills of a core that meet tiles of its own: each record takes one entry (R109, R157, R158). -/
def spillEntries (s : State) (n : Nat) : Nat :=
  ((getCore s n).ctxs.map (fun c => (c.2.spills.filter (fun b => meetsTiles s n b.segs)).length +
    ((c.2.fills.filter (fun f => meetsTiles s n [f.val])).map (·.full.pa)).eraseDups.length)).foldl (· + ·) 0

/-- Entries in the table of a core: matrix tasks, copies, accesses of the core itself to tiles of its own. -/
def tableCount (s : State) (n : Nat) : Nat :=
  (getCore s n).tasks.length + ((getCore s n).copies.filter (fun e => copyEntered e.2)).length + spillEntries s n +
    (s.reqs.filter (fun r => agentCore r.agent == some n && !isSector r.kind && meetsTiles s n r.todo)).length

/-- A table with no entry free. -/
def tableFull (s : State) (n : Nat) : Bool := decide (32 ≤ tableCount s n)

/-- The launch that an access of a stream belongs to: a request's own, else that of the firing the stream's context runs. -/
def accessLaunch (s : State) (w : StreamId) (id : Nat) : Nat :=
  match s.reqs.find? (fun r => r.id == id) with
  | some r => r.launch
  | none => (launchOf s w).getD 64

/-- Tasks of an access's stream that a pre-emption has taken out of the table: they stand before the later accesses of their
launch (R111). -/
def savedTasksOf (s : State) (agent : Agent) (id : Nat) : List Task :=
  match agent with
  | .stream w => (getCore s w.core).savedTasks.filter (fun k => k.who == w && k.launch == accessLaunch s w id)
  | _ => []

/-- Whether the table of a core holds an access to a tile of it back: one of the core itself waits for the entries before
its own, one from elsewhere for those it finds as it arrives, and for an entry (R109). -/
def tileHolds (s : State) (agent : Agent) (id : Nat) (writes : Bool) (n : Nat) (t : Tile) : Bool :=
  let own := agentCore agent == some n
  (getCore s n).tasks.any (fun k => taskBlocks t writes k && (!own || decide (k.id < id))) ||
    (own && (savedTasksOf s agent id).any (fun k => taskBlocks t writes k && decide (k.id < id))) ||
    (getCore s n).copies.any (fun e => copyEntered e.2 && agent != .copyEngine n e.1 && entryBlocks e.2.reads e.2.writes t writes &&
      (!own || decide (e.2.order < id))) ||
    s.reqs.any (fun q => q.agent == agent && !isSector q.kind && decide (q.id < id) && (writes || q.kind.writes) &&
      q.todo.any (fun h => (coreTiles s n h).any (tilesMeet t))) ||
    (!own && tableFull s n)

/-- Whether a table holds a piece of an access back. -/
def tableHolds (s : State) (agent : Agent) (id : Nat) (writes : Bool) (g : Seg) : Bool :=
  g.dev == 0 && (windowTiles s g.pa g.len).any (fun t => tileHolds s agent id writes t.1 t.2)

/-- Whether an access in flight from the core itself, entered before a task, meets the task's tiles. -/
def accessBlocks (s : State) (n : Nat) (k : Task) (r : Req) : Bool :=
  agentCore r.agent == some n && !isSector r.kind && decide (r.id < k.id) &&
    r.todo.any (fun g => (coreTiles s n g).any (fun t => taskBlocks t r.kind.writes k))

/-- Whether a spill or a fill of the core, entered before a task, meets the task's tiles. -/
def spillBlocks (s : State) (n : Nat) (k : Task) (c : Ctx) : Bool :=
  let meets := fun (g : Seg) (writes : Bool) => (coreTiles s n g).any (fun t => taskBlocks t writes k)
  c.spills.any (fun b => decide (b.id < k.id) && b.segs.any (meets · true)) || c.fills.any (fun f => decide (f.id < k.id) && meets f.val false)

/-- Whether a copy that entered before a task meets the task's tiles. -/
def copyBlocks (k : Task) (c : Copy) : Bool :=
  copyEntered c && decide (c.order < k.id) && (c.reads.any (fun t => taskBlocks t false k) || c.writes.any (fun t => taskBlocks t true k))

/-- An empty table (R105): no task, no copy and no access in flight from the core to a tile of its own. -/
def tableEmpty (s : State) (n : Nat) : Bool := tableCount s n == 0

/-- The row buffers of a core after writes of tiles have entered its table: those of the tiles are filled again (R98). -/
def dropBufs (s : State) (n : Nat) (ts : List Tile) : State :=
  if (getCore s n).rowBufs.isEmpty then s
  else modCore s n (fun c => { c with rowBufs := c.rowBufs.filter (fun b => !ts.any (tilesMeet (.mem b.pa (128 * fmtWidth b.fmt)))) })

/-- Whether an access of the core's own can take an entry where it needs one: a context stalls while the table is full
(R109). -/
def tableRoom (s : State) (n : Nat) (gs : List Seg) : Bool := gs.all (fun g => (coreTiles s n g).isEmpty) || !tableFull s n

/-- One more of counter `i` of the matrix engine (R107). -/
def countMatrix (s : State) (n i : Nat) : State :=
  modCore s n (fun c => { c with meCount := tset 0 c.meCount i ((tget 0 c.meCount i + 1) % 2 ^ 64) })

/-- The next fence-map generation: all four replicas, then the generation (R20). -/
def advanceFence (s : State) (f : BitVec 1024 → BitVec 1024) : State :=
  let g := s.dev.fenceGen
  let s := (upFrom 0 4).foldl (fun s d =>
    modDie s d (fun x => { x with oldMaps := tset 0 x.oldMaps g x.fenceMap, fenceMap := f x.fenceMap })) s
  modDev s (fun d => { d with fenceGen := (g + 1) % 128 })

/-- The next fence-map generation takes a core out of placement (R20, R113, R384). -/
def fenceCore (s : State) (n : Nat) : State := advanceFence s (fun m => m ||| (1#1024 <<< n))

end Sys2Proof.Machine
end

