-- ==== Sys2Proof/Machine/Chans.lean ====
section
/-!
DEFINITION. Sys2Proof/Machine/Chans.lean: what the channel unit counts (R117), which instances are permitted (R24),
their weights (R27), slot addresses (R115, R317).
-/

namespace Sys2Proof.Machine

/-- Slots of a ring, bytes of a slot. -/
def chN (c : Chan) : Nat := 2 ^ c.log2n
def chZ (c : Chan) : Nat := 2 ^ c.log2z

/-- How far count `a` is past count `b`, modulo 2^32 (R117). -/
def past (a b : Nat) : Nat := (a + 2 ^ 32 - b % 2 ^ 32) % 2 ^ 32
def bump (a n : Nat) : Nat := (a + n) % 2 ^ 32

def tailOf (c : Chan) (k : Nat) : Nat := tget 0 c.tails k

/-- Occupancy (R117); a ring read by the comparator alone counts from the tokens compared (R384). -/
def occupancy (c : Chan) : Nat :=
  match c.consumers with
  | [] => past c.head c.compared
  | cs => (upFrom 0 cs.length).foldl (fun o k => max o (past c.head (tailOf c k))) 0

/-- Free slots (R117). -/
def freeSlots (c : Chan) : Nat := chN c - occupancy c - c.reserved

/-- The header the unit holds for a sequence number. -/
def hdrAt (c : Chan) (seq : Nat) : W64 := tget 0 c.hdrs (seq % chN c)
def hdrKind (h : W64) : Nat := wbits h 32 4
def hdrPoison (h : W64) : Bool := h.getLsbD 36
def hdrEod (h : W64) : Nat := wbits h 37 8
/-- A header (R116). -/
def header (fmt eod kind seq : Nat) (poison : Bool) : W64 :=
  w64 (fmt % 16 * 2 ^ 45 + eod % 256 * 2 ^ 37 + bit poison * 2 ^ 36 + kind % 16 * 2 ^ 32 + seq % 2 ^ 32)

/-- The end of what consumers see: an exit channel shows only tokens that compared equal (R384). -/
def seenTo (c : Chan) : Nat := if c.shadow.isSome then c.compared else c.head

/-- Commits posted on a channel that have not advanced HEAD. -/
def pendCommits (s : State) (n k : Nat) : Nat :=
  ((getCore s n).commits.filter (fun c => c.ch == k && c.seq.isNone)).length

/-- Slots of a consumer whose release is posted and has not advanced TAIL. -/
def pendReleases (s : State) (n k cons : Nat) : Nat :=
  ((getCore s n).releases.filter (fun r => r.ch == k && r.cons == cons)).foldl (fun a r => a + r.n) 0

/-- The sequence number a consumer takes next. -/
def nextTake (s : State) (n k : Nat) (c : Chan) (cons : Nat) : Nat := bump (tailOf c cons) (pendReleases s n k cons)

/-- The sequence number a producer commits next. -/
def nextCommit (s : State) (n k : Nat) (c : Chan) : Nat := bump c.head (pendCommits s n k)

/-- Unpoisoned data tokens that stand from `seq` on, up to `want` (R117, R383). -/
def dataRun (c : Chan) (seq want : Nat) : Nat :=
  match want with
  | 0 => 0
  | w + 1 =>
    if past (seenTo c) seq = 0 ∨ past (seenTo c) seq > chN c then 0
    else if hdrKind (hdrAt c seq) = 0 ∧ !hdrPoison (hdrAt c seq) then 1 + dataRun c (bump seq 1) w
    else 0

/-- The token at the head of an input port, if one stands there. -/
def headToken (s : State) (p : Port) : Option (Nat × W64) :=
  match getChan s p.core p.ch with
  | some c =>
    let q := nextTake s p.core p.ch c p.cons
    if past (seenTo c) q = 0 ∨ past (seenTo c) q > chN c then none else some (q, hdrAt c q)
  | none => none

/-- Conditions 3 and 4 of R24 at a port. -/
def portReady (s : State) (p : Port) : Bool :=
  match getChan s p.core p.ch with
  | some c =>
    if p.output then !p.eos && decide (p.count ≤ freeSlots c)
    else decide (dataRun c (nextTake s p.core p.ch c p.cons) p.count = p.count)
  | none => false

/-- Permitted (R24, conditions 1 to 4). -/
def permitted24 (s : State) (n k : Nat) : Bool :=
  match getInst s n k with
  | some i => (i.kind != .reserve || i.en) && i.state == 2 && i.ports.all (portReady s)
  | none => false

/-- The weight that the drain of a launch's snapshot in progress allows its instances (R132, R395). -/
def drainWeight (s : State) (e : Nat) : Nat :=
  let x := (getLaunch s e).snap
  if x.cur = 0 then 64 else 1 + Config.drainWeight e x.drained s.tick % 64

/-- The weight of an instance (R27): the least that its ports' controllers give, and the drain of a snapshot. -/
def instWeight (s : State) (i : Inst) : Nat :=
  let ws := i.ports.filterMap (fun p => (getChan s p.core p.ch).map (fun c => if p.output then c.wp else c.wc))
  min (drainWeight s i.launch) (match ws with
    | [] => i.baseWeight
    | w :: r => r.foldl min w)

/-! ### Rings (R115, R119) -/

/-- A ring: its base, slot bytes, slots, format. -/
structure Ring where
  base : Nat
  z : Nat
  n : Nat
  fmt : Nat
  deriving DecidableEq, Repr

def prodRing (c : Chan) : Ring := { base := c.base, z := chZ c, n := chN c, fmt := c.pfmt }
def delivRing (c : Chan) : Ring := { base := c.dbase, z := 2 ^ c.dlog2z, n := chN c, fmt := c.dfmt }

/-- Whether a channel has a delivery ring. -/
def hasDelivery (c : Chan) : Bool := c.dfmt != c.pfmt

/-- The ring a consumer reads: that of its own format; a sink reads the producer's (R119, R35). -/
def ringOf (c : Chan) (cons : Nat) : Ring :=
  match c.consumers.getD cons none with
  | some x => if hasDelivery c && x.2.2.2 != c.pfmt then delivRing c else prodRing c
  | none => prodRing c

def isMx (fmt : Nat) : Bool := fmt == 3 || fmt == 4 || fmt == 5
/-- Elements of a slot. -/
def slotElems (r : Ring) : Nat := r.z * 8 / fmtWidth r.fmt
/-- Bytes of a slot's side band, 0 where the ring has none. -/
def sideBytes (r : Ring) : Nat := if isMx r.fmt then max 8 (slotElems r / 32) else 0
def payloadPa (r : Ring) (seq : Nat) : Nat := r.base + seq % r.n * r.z
def headerPa (r : Ring) (seq : Nat) : Nat := r.base + r.n * r.z + seq % r.n * 8
def sidePa (r : Ring) (seq : Nat) : Nat := r.base + r.n * r.z + r.n * 8 + seq % r.n * sideBytes r
/-- Bytes of a ring with its headers and side band. -/
def ringBytesTotal (r : Ring) : Nat := r.n * r.z + r.n * 8 + r.n * sideBytes r

/-- The rings that stand in a core's scratchpad: address and bytes. -/
def ringsIn (s : State) (n : Nat) : List (Nat × Nat) :=
  s.cores.flatMap (fun k => k.2.chans.flatMap (fun x =>
    match x.2 with
    | some c =>
      ((if hasDelivery c then [prodRing c, delivRing c] else [prodRing c]).filter (fun r => coreOfPa r.base == some n)).map
        (fun r => (r.base, ringBytesTotal r))
    | none => []))

/-- The slot address that core `n` is given for a payload at `pa` (R317). -/
def slotVa (s : State) (launch n pa : Nat) : Nat :=
  let l := getLaunch s launch
  if pa < hbmEnd then l.chanVa + (pa - l.chanPa)
  else if coreOfPa pa = some n then l.window.getD 0 + pa % 0x400000
  else l.corewin.getD 0 + (pa - coreWin)

end Sys2Proof.Machine
end

