-- ==== Sys2Proof/Machine/Views.lean ====
section
/-!
DEFINITION. Sys2Proof/Machine/Views.lean: what a read of each place of the physical map returns (R47, R48, R49): register
views, the directory view (R107), channel, instance and copy records (R123, R30, R278), barrier objects (R249), pools
(R66), counters, and every device-control register.
-/

namespace Sys2Proof.Machine

/-! ### Pools (R59, R66) -/

/-- Whether a POOL value names a pool (R59). -/
def poolNamed (p : Nat) : Bool :=
  (p / 2 ^ 28 == 0 && nbits p 12 16 == 0) || (p / 2 ^ 28 == 1 && nbits p 20 8 == 0 && nbits p 6 10 == 0)

/-- A pool descriptor by the value of a header's POOL field. -/
def getPool (s : State) (p : Nat) : Pool :=
  if p / 2 ^ 28 = 0 then tget {} s.dev.pools (p % 4096)
  else tget {} (getCluster s (p / 65536 % 16)).pools (p % 64)
def setPool (s : State) (p : Nat) (x : Pool) : State :=
  if p / 2 ^ 28 = 0 then modDev s (fun d => { d with pools := tset {} d.pools (p % 4096) x })
  else modCluster s (p / 65536 % 16) (fun c => { c with pools := tset {} c.pools (p % 64) x })
def modPool (s : State) (p : Nat) (f : Pool → Pool) : State := setPool s p (f (getPool s p))
/-- The POOL value of a cluster's pool. -/
def clusterPoolId (k p : Nat) : Nat := 2 ^ 28 + k * 65536 + p

/-- The word at an aligned offset of a pool descriptor (R66). -/
def poolWord (p : Pool) (o : Nat) : Nat :=
  match o / 8 with
  | 0 => p.base
  | 1 => p.freecnt * 2 ^ 32 + p.npods
  | 2 => p.wmark * 2 ^ 32 + p.freehead
  | 3 => p.asid * 2 ^ 24 + p.scale.toNat * 2 ^ 16 + p.timeout
  | 5 => p.faultva
  | 6 => bit p.parked
  | _ => 0

/-! ### Channel, instance and copy records -/

/-- Bits of a signed number as a register holds them. -/
def field (n : Nat) (x : Int) : Nat := fromSigned n x

/-- The word at an aligned offset of a channel record (R123). -/
def chanWord (c : Chan) (o : Nat) : Nat :=
  match o / 8 with
  | 0 => c.base
  | 1 => c.cmask * 2 ^ 48 + c.dfmt * 2 ^ 44 + c.pfmt * 2 ^ 40 + c.log2n * 2 ^ 36 + c.log2z * 2 ^ 32
  | 2 => c.dbase
  | 3 => c.head
  | 4 => tailOf c 1 * 2 ^ 32 + tailOf c 0
  | 5 => tailOf c 3 * 2 ^ 32 + tailOf c 2
  | 6 => tailOf c 5 * 2 ^ 32 + tailOf c 4
  | 7 => tailOf c 7 * 2 ^ 32 + tailOf c 6
  | 8 => c.kp * 2 ^ 48 + c.ki * 2 ^ 32 + c.gshift * 2 ^ 28 + c.log2t % 16 * 2 ^ 24 + c.imax
  | 9 => c.sp * 2 ^ 32 + c.w0p * 2 ^ 24 + c.w0c * 2 ^ 16 + c.wmin * 2 ^ 8 + c.wmax
  | 10 => field 32 c.integ * 2 ^ 32 + c.wp * 2 ^ 24 + c.wc * 2 ^ 16 + c.lasto
  | 11 => c.eosc * 2 ^ 8 + bit c.rej * 16 + bit c.unal * 8 + bit c.eosp * 4 + bit (occupancy c == chN c) * 2 + bit c.frozen
  | 12 => wbits c.cbtab 0 64
  | 13 => wbits c.cbtab 64 64
  | 14 => wbits c.cbtab 128 64
  | _ => wbits c.cbtab 192 64

/-- STATE of ISTATE, permission included (R30). -/
def instState (s : State) (n k : Nat) (i : Inst) : Nat := if permitted24 s n k then 3 else i.state

/-- The word at an aligned offset of an instance record (R30). -/
def instWord (s : State) (n k : Nat) (i : Inst) (o : Nat) : Nat :=
  match o / 8 with
  | 0 => bit i.en
  | 1 => i.firecnt * 2 ^ 32 + instWeight s i * 2 ^ 24 + i.ctx * 2 ^ 16 + instState s n k i
  | _ => 0

/-- The word at an aligned offset of a copy record (R278). -/
def copyWord (c : Copy) (o : Nat) : Nat :=
  match o / 8 with
  | 0 => c.gen * 2 ^ 8 + c.prio * 2 ^ 6 + c.ctx % 4 * 2 ^ 4 + c.state
  | 1 => c.nsec * 2 ^ 32 + c.secdone
  | 2 => c.fault.toNat
  | 3 => c.cause
  | 4 => c.seq.toNat
  | 5 => c.stampva.toNat
  | 6 => bit (c.state == 4)
  | _ => 0

/-- The word of a barrier object (R249). -/
def barrierWord (b : Barrier) (o : Nat) : Nat :=
  if o / 8 = 0 then bit b.phase * 2 ^ 32 + b.arrived * 2 ^ 16 + b.count else 0

/-! ### The directory view (R107) -/

def directoryWord (s : State) (n o : Nat) : Nat :=
  let c := getCore s n
  let w := o / 8
  if w < 32 then dirWord (getDir s (.acc n w))
  else if w < 64 then dirWord (getDir s (.slot n (w - 32)))
  else if w < 0x600 then
    (if w - 64 < c.tdsize * 4096 / tileBytes c.tdesz then dirWord (getDir s (.region n (w - 64))) else 0)
  else if w < 0x606 then tget 0 c.meCount (w - 0x600)
  else 0

/-! ### Device control -/

/-- The word at an aligned offset of a queue table entry (R335). -/
def queueWord (q : Queue) (o : Nat) : Nat :=
  match o / 8 with
  | 0 => q.base
  | 1 => q.ctlb
  | 2 => q.asid * 2 ^ 16 + q.log2n * 2 ^ 7 + q.prio * 2 ^ 3 + bit q.drv * 4 + bit q.en * 2
  | _ => 0

/-- The words of an error record (R327, R354). -/
def errorWord (e : ErrorRec) (o : Nat) : Nat :=
  match o / 8 with
  | 0 => e.index * 2 ^ 48 + e.kind * 2 ^ 40 + e.code
  | 1 => e.core * 2 ^ 32 + e.wordoff
  | 2 => e.addr.toNat
  | _ => e.detail.toNat

/-- The word at an aligned offset of a launch log entry (R353, R393). -/
def logWord (l : Launch) (o : Nat) : Nat :=
  if o < 0x40 then (l.packet.getD (o / 8) 0).toNat
  else if o < 0x48 then l.lstate * 2 ^ 8 + bit l.coloc * 2 ^ 7 + l.fgen
  else if 0x58 ≤ o ∧ o < 0x60 then l.snap.cur * 2 ^ 32 + l.snap.last
  else if 0x80 ≤ o then errorWord l.err (o - 0x80)
  else 0

def ringWord (r : RingRec) (o : Nat) : Nat :=
  match o / 8 with
  | 0 => r.w0.toNat
  | 1 => r.w1.toNat
  | 2 => r.w2.toNat
  | _ => r.w3.toNat

/-- BOOTSTAT (R364). -/
def bootWord (b : Boot) : Nat :=
  b.stacksUp.toNat * 2 ^ 32 + b.clusters.toNat * 2 ^ 16 + b.cause * 2 ^ 8 + b.fails * 2 ^ 5 + bit b.sprout * 16 + b.stage

/-- PWRCTL (R390). -/
def pwrWord (p : Power) : Nat := bit p.thwarn * 2 ^ 11 + bit p.busy * 2 ^ 10 + p.cur * 2 ^ 8 + p.req

/-- The control word of a migration record (R361). -/
def migrationWord (m : Migration) (o : Nat) : Nat :=
  match o / 8 with
  | 0 => m.mold * 2 ^ 16
  | 1 => m.mnew * 2 ^ 16
  | _ => m.ptr * 16 + bit (m.ptr == 16) * 4 + bit m.act * 2

/-- An injector's words (R387). -/
def injectorWord (x : Injector) (o : Nat) : Nat :=
  if o / 8 = 0 then x.delay * 2 ^ 18 + x.lane * 2 ^ 15 + x.mode * 2 + bit x.arm else x.n

/-- PLANECTL (R388). -/
def planectlWord (d : Dev) : Nat := bit d.quiesce * 2 ^ 16 + d.dead.toNat * 2 ^ 8 + (255 - d.dead.toNat)

/-- The eight bytes of the bucket table at an aligned offset (R58). -/
def bucketWord (d : Dev) (b : Nat) : Nat := packNat 8 ((upFrom (b / 8 * 8) 8).map (planeOfBucket d))

/-- The aligned word a device-control register reads as. -/
def devWord (s : State) (r : DevReg) : Nat :=
  let d := s.dev
  match r with
  | .planeRow k => (tget (planeRowDefault k) d.planeRows k).toNat
  | .bucket b => bucketWord d b
  | .planectl => planectlWord d
  | .hashRow i => hashRow d i
  | .pinsize => d.pinsize
  | .pool p o => poolWord (getPool s p) o
  | .tilePage m => let t := tget {} d.tilePages m; bit t.v * 2 ^ 63 + t.esz * 2 ^ 40 + t.ppn * 2 ^ 16
  | .mtest n => (getCore s n).spares * 2 ^ 16 + (getCore s n).interval
  | .queue q o => queueWord (tget {} d.queues q) o
  | .log e o => logWord (getLaunch s e) o
  | .intensity => d.intensity
  | .lpCopy x k o => copyWord (getCopy s (1024 + x) k) o
  | .tinvreq => 0
  | .tinvdone => d.tinvdone
  | .doorbell n => (getCore s n).doorbell.toNat
  | .migration m o => migrationWord (tget {} d.migrations m) o
  | .psave n => (getCore s n).psave * 2 ^ 20
  | .bootstat => bootWord s.mgmt.boot
  | .errorRec i o => ringWord (tget {} d.errors i) o
  | .raswidx => d.raswidx
  | .corrected i => tget 0 d.corrected i
  | .event i o => ringWord (tget {} d.events i) o
  | .evtwidx => d.evtwidx
  | .injector i o => injectorWord (tget {} d.injectors i) o
  | .pwrctl => pwrWord s.mgmt.power
  | .thermstat => s.mgmt.power.thermstat.toNat
  | .telemetry o => if o / 8 = 0x15 then s.mgmt.power.twarn else (tget 0 s.mgmt.power.telemetry (o / 8)).toNat
  | .pccount k i => tget 0 (getStack s k).pccount i
  | .splitcnt k => (getStack s k).splitcnt
  | .refpost k => (getStack s k).refpostcnt
  | .space a o => let p := tget {} d.spaces a; if o / 8 = 0 then p.root * 2 ^ 16 + bit p.v else p.tvec * 4
  | .none => 0

/-! ### Reading a place -/

/-- Whether a context of a core is saved with its firing, and free until the resume (R356). -/
def ctxSaved (s : State) (n c : Nat) : Bool := (getCtx s n c).firing.any (fun f => savedOn s f.launch n)

/-- The CP stream whose registers a context's views show (R47): a free one shows what no firing has written (R208, R356). -/
def viewStream (s : State) (n c : Nat) : Stream := if ctxSaved s n c then {} else getStream s { core := n, ctx := c, ap := false }

/-- The aligned 8 bytes around an address of a place that is not memory. -/
def viewWord (s : State) (p : Place) (pa : Nat) : Nat :=
  match p with
  | .scalar n c r => (sget (viewStream s n c) r).toNat
  | .scalarFull n c w => wbits (viewStream s n c).sfull (64 * w) 64
  | .preg n c k => (pget (viewStream s n c) k).toNat
  | .lc n c k => (tget 0 (viewStream s n c).lc k).toNat
  | .cb n c => if ctxSaved s n c then 0 else wbits (getCtx s n c).cb (pa % 32 / 8 * 64) 64
  | .link n c w => (tget 0 (viewStream s n c).link w).toNat
  | .vector n c v => wbits (vget (viewStream s n c) v) (pa % 256 / 8 * 64) 64
  | .vectorFull n c => (viewStream s n c).vfull.toNat
  | .directory n o => directoryWord s n o
  | .chanRec n k o => match getChan s n k with | some c => if savedOn s c.launch n then 0 else chanWord c o | none => 0
  | .cbImage n k => match getInst s n k with | some i => if savedOn s i.launch n then 0 else wbits i.cbimg (pa % 32 / 8 * 64) 64 | none => 0
  | .instRec n k o => match getInst s n k with | some i => if savedOn s i.launch n then 0 else instWord s n k i o | none => 0
  | .copyRec n k o => copyWord (getCopy s n k) o
  | .barrier k b o => barrierWord (getBarrierOf s k b) o
  | .route k i => (tget 0 (getCluster s k).routes i).toNat
  | .clusterPool k p o => poolWord (getPool s (clusterPoolId k p)) o
  | .conflict k i => lostSince s (k * 64 + i / 32) (i % 32)
  | .dev r => devWord s r
  | _ => 0
where
  /-- Cycles a bank has lost since its counter was cleared (R52). -/
  lostSince (s : State) (n b : Nat) : Nat :=
    let c := tget 0 (getCore s n).conflicts b
    if s.tick ≤ c then 0 else min (2 ^ 64 - 1) (Config.lostCycles (n * 32 + b) c s.tick)
  /-- A barrier object by cluster and number. -/
  getBarrierOf (s : State) (k b : Nat) : Barrier := tget {} (getCluster s k).barriers b

/-- Whether a place is bytes of memory. -/
def isMemory (p : Place) : Bool :=
  match p with
  | .hbm | .spad _ _ | .acc _ _ | .slots _ _ | .mask _ _ | .tag _ _ => true
  | _ => false

/-- The byte that a read of a physical address returns. -/
def physByte (s : State) (pa : Nat) : Byte :=
  let p := place pa
  if isMemory p then memByte s pa else BitVec.ofNat 8 (viewWord s p pa >>> (8 * (pa % 8)))

/-- `n` bytes read from a physical address, little-endian. -/
def physRead (s : State) (pa n : Nat) : Nat :=
  match n with
  | 0 => 0
  | k + 1 => (physByte s pa).toNat + 256 * physRead s (pa + 1) k

/-- `n` bytes of a remote device: free values (log 14). -/
def freeBytes (s : State) (n : Nat) : Nat × State :=
  (upFrom 0 ((n + 7) / 8)).foldl (fun r k =>
    let w := takeFree r.2
    (r.1 + w.1.toNat * 2 ^ (64 * k), w.2)) (0, s)

/-- The bytes of a piece as its home gives them: those of a remote device are free (log 14). -/
def readRaw (s : State) (g : Seg) : Nat × State :=
  if g.dev ≠ 0 then
    let r := freeBytes s g.len
    (r.1 % 2 ^ (8 * g.len), r.2)
  else (physRead s g.pa g.len, s)

/-- A piece of an access read at its home; a stack controller counts what it serves (R374). -/
def readSeg (s : State) (g : Seg) : Nat × State :=
  let r := readRaw s g
  (r.1, countPieces r.2 [g])

end Sys2Proof.Machine
end

