-- ==== Sys2Proof/Machine/Edges.lean ====
section
/-!
DEFINITION. Sys2Proof/Machine/Edges.lean: the ordering edges of chapter 07: which earlier accesses of an agent hold one back
(R137, R139, R140, R147), and when a piece may be performed at its home (R109, R362, R388). Members that act at their home when
they issue ask the same question.
-/

namespace Sys2Proof.Machine

/-- Whether pieces of two accesses share a byte. -/
def segsMeet (a b : List Seg) : Bool :=
  a.any (fun x => b.any (fun y => x.dev == y.dev && x.pa < y.pa + y.len && y.pa < x.pa + x.len))

/-- A fibre operation that reads: a probe or a length (R251). -/
def isProbe (f : FReq) : Bool :=
  match f.op with
  | .len | .probe _ | .probev _ _ => true
  | _ => false

/-- The spills and fills of a context are accesses of its CP stream (R158). -/
def spillSegs (s : State) (w : StreamId) : List (Nat × List Seg) :=
  if w.ap then []
  else
    let c := getCtx s w.core w.ctx
    c.spills.map (fun b => (b.id, b.segs)) ++ c.fills.map (fun f => (f.id, [f.val]))

/-- A copy that has not ended (R278). -/
def copyLive (c : Copy) : Bool := decide (1 ≤ c.state ∧ c.state ≤ 4)

/-- A copy of a stream: its context's, but for checkpoint copies. -/
def copyOf (w : StreamId) (c : Copy) : Bool := !w.ap && c.ctx == w.ctx && c.snap.isNone

def isMma (k : TaskKind) : Bool :=
  match k with
  | .mma _ _ _ _ _ | .mmaS _ _ _ _ _ _ => true
  | _ => false

/-- A product of a stream that came before an order number (R147). -/
def earlierMma (w : StreamId) (upto : Nat) (t : Task) : Bool := t.who == w && isMma t.kind && decide (t.id < upto)

/-- Earlier engine requests of a stream that are not complete, products that a pre-emption has saved among them (R147, R111). -/
def engineBusy (s : State) (w : StreamId) (upto : Nat) : Bool :=
  s.freqs.any (fun f => f.agent == .stream w && !isProbe f && decide (f.id < upto)) ||
    (getCore s w.core).copies.any (fun e => copyOf w e.2 && copyLive e.2 && decide (e.2.order < upto)) ||
    (getCore s w.core).tasks.any (earlierMma w upto) || (getCore s w.core).savedTasks.any (earlierMma w upto)

/-! ### Earlier accesses of an agent (R137, R139, R140, R147) -/

/-- The bytes of a fibre operation's header, the location of the fibre (R134). -/
def headerSeg (f : FReq) : Seg := { pa := f.hdr, len := 64, off := 0, dev := f.dev }

/-- The pieces of an access that has not been performed: those its home has still to serve; all of a load until its value has
returned, and a probe's header until its answer has, since either is performed afresh where the response is lost (R142, R389). -/
def unperformed (q : Req) : List Seg :=
  match q.again with
  | some f => headerSeg f :: q.todo
  | none => if q.kind == .load && q.dest != .none then q.todo ++ q.path else q.todo

/-- The pieces of a request that lacks its acknowledgement or its response (R142, R389). -/
def unanswered (q : Req) : List Seg := unperformed q ++ (if q.dest == .none then [] else q.path)

/-- Earlier requests of an agent that satisfy `p`. -/
def earlier (s : State) (a : Agent) (id : Nat) (p : Req → Bool) : Bool :=
  s.reqs.any (fun q => decide (q.id < id) && q.agent == a && p q)

/-- Earlier spills and fills of a stream's context that satisfy `p` (R158). -/
def earlierSpill (s : State) (a : Agent) (id : Nat) (p : List Seg → Bool) : Bool :=
  match a with
  | .stream w => (spillSegs s w).any (fun b => decide (b.1 < id) && p b.2)
  | _ => false

/-! ### Homes, and what they keep for each source (R45, R389) -/

/-- The home of an access that is no fibre operation. -/
def homeOf (s : State) (g : Seg) : Home :=
  if g.dev ≠ 0 then .remote g.dev
  else
    match place g.pa with
    | .hbm => .stack (stackOf s.dev g.pa).1
    | .spad n o => .bank n (bankOf (getCore s n).sphash o)
    | .barrier k _ _ | .route k _ | .clusterPool k _ _ | .conflict k _ => .cluster k
    | .dev _ | .none => .device
    | _ => match coreOfPa g.pa with | some n => .window n | none => .device

/-- The numbers of a core's matrix engine and copy engine among the engines that answer a stream (R149). -/
def matrixUnit : Nat := 32
def copyUnit : Nat := 33

/-- The fibre unit that serves a header: 1 + k of stack k, 16 + k of cluster k, 0 of another device. -/
def fibreUnit (s : State) (g : Seg) : Nat :=
  if g.dev ≠ 0 then 0
  else if g.pa < hbmEnd then 1 + (stackOf s.dev g.pa).1
  else match clusterOfPa g.pa with | some k => 16 + k | none => 0

/-- A home keeps the last 64 of what it applied for each source. -/
def noteApplied (s : State) (a : Agent) (id : Nat) (h : Home) (d : VReg) : State :=
  let x : Applied := { home := h, agent := a, id := id, response := d }
  let mine := s.replay.filter (fun e => e.home == h && e.agent == a)
  { s with replay := (if 64 ≤ mine.length then s.replay.erase (mine.headD x) else s.replay) ++ [x] }

/-- A request applied at the homes of its pieces here. -/
def noteRequest (s : State) (r : Req) (gs : List Seg) (d : VReg) : State :=
  (((r.path ++ gs).filter (·.dev == 0)).map (homeOf s)).eraseDups.foldl (fun s h => noteApplied s r.agent r.id h d) s

/-- Whether two agents are one source: the copies of an engine are (R133, R389). -/
def sameSource (a b : Agent) : Bool :=
  match a, b with
  | .copyEngine e _, .copyEngine f _ => e == f
  | a, b => a == b

/-- Whether a source has 64 requests toward the home of a piece that are not acknowledged, all before another: it then sends that
one later. -/
def homeFull (s : State) (a : Agent) (id : Nat) (g : Seg) : Bool :=
  let h := homeOf s g
  g.dev == 0 &&
    decide (64 ≤ (s.reqs.filter (fun q => sameSource q.agent a && decide (q.id < id) && (unanswered q ++ q.src).any (fun x => homeOf s x == h))).length)

/-- Whether a source has 64 operations before another at a fibre unit that are not acknowledged. -/
def unitFull (s : State) (f : FReq) : Bool :=
  let u := fibreUnit s (headerSeg f)
  decide (64 ≤ (s.freqs.filter (fun q => q.agent == f.agent && decide (q.id < f.id) && fibreUnit s (headerSeg q) == u)).length +
    (s.reqs.filter (fun q => q.agent == f.agent && decide (q.id < f.id) && q.unit == u && u != 0 && q.dest != .none)).length)

/-- Same-location order (R137); a probe of a fibre is an access of its header's location. -/
def sameLocation (s : State) (r : Req) (g : Seg) : Bool :=
  !earlier s r.agent r.id (fun q => segsMeet (unperformed q) [g]) && !earlierSpill s r.agent r.id (fun b => segsMeet b [g]) &&
    !s.freqs.any (fun f => f.agent == r.agent && isProbe f && decide (f.id < r.id) && segsMeet [headerSeg f] [g])

/-- The acquire and release edges that end at a request (R139, R147). -/
def edgesMet (s : State) (r : Req) : Bool :=
  !earlier s r.agent r.id (fun q => q.acq && !(unperformed q).isEmpty) &&
    (!r.acq || !earlier s r.agent r.id (fun q => q.rel && !q.todo.isEmpty)) &&
    (!r.rel || (!earlier s r.agent r.id (fun q => !(unperformed q).isEmpty) && !earlierSpill s r.agent r.id (fun b => !b.isEmpty) &&
      !s.freqs.any (fun f => f.agent == r.agent && isProbe f && decide (f.id < r.id)))) &&
    (!r.relEng || (match r.agent with | .stream w => !engineBusy s w r.id | _ => true))

/-- Accesses of earlier firings of an instance of a core that have not been performed; `fir` is a firing's place among those of
the instance (R140). -/
def firingBusy (s : State) (core slot fir : Nat) : Bool :=
  s.reqs.any (fun q => !(unperformed q).isEmpty && q.slot == slot && decide (q.fir < fir) &&
    (match q.agent with | .stream v => v.core == core | _ => false)) ||
    s.freqs.any (fun f => isProbe f && f.slot == slot && decide (f.fir < fir) && f.core == core) ||
    (getCore s core).ctxs.any (fun c => c.2.spills.any (fun b => b.slot == slot && decide (b.fir < fir)))

/-- Whether accesses of earlier firings of the same instance hold a request (R140). -/
def earlierFiring (s : State) (r : Req) : Bool :=
  match r.agent with
  | .stream w => firingBusy s w.core r.slot r.fir
  | _ => false

/-! ### Planes (R13, R388), migration (R362) -/

def pieceDead (s : State) (r : Req) (g : Seg) : Bool := pathDead s (agentCore r.agent) g

/-- Whether reissued requests of its source go before one that was held while they had been sent, or was sent after them (R388). -/
def reissueFirst (s : State) (a : Agent) (id : Nat) : Bool :=
  (s.unacked.contains id || s.heldBack.contains id) &&
    (s.reqs.any (fun q => sameSource q.agent a && decide (q.id < id) && s.unacked.contains q.id && !(q.todo.isEmpty && q.src.isEmpty)) ||
      s.freqs.any (fun q => q.agent == a && decide (q.id < id) && s.unacked.contains q.id))

/-- Whether a source may send a request toward the home of a piece now (R388, R389). -/
def sendReady (s : State) (a : Agent) (id : Nat) (g : Seg) : Bool := !reissueFirst s a id && !homeFull s a id g

/-- Whether a write of a stretch waits for the copy of a sector of its page (R362). -/
def writeHeld (s : State) (g : Seg) : Bool :=
  g.dev == 0 && (redirectHeld s.dev g.pa g.len || (slotsMet g).any (fun k => imageHeld s k.1 k.2))
where
  /-- The slots whose elements, mask or tag a piece meets. -/
  slotsMet (g : Seg) : List (Nat × Nat) :=
    match place g.pa with
    | .slots c o => (stretch o g.len 2048).map (fun k => (c, k))
    | .mask c o => (stretch o g.len 16).map (fun k => (c, k))
    | .tag c o => (stretch o g.len 0x40).map (fun k => (c, k))
    | _ => []

/-- Whether a request's write waits for a migration (R362). -/
def heldByMigration (s : State) (r : Req) (g : Seg) : Bool := r.kind.writes && writeHeld s g

/-! ### The walkers (R349) -/

/-- Whether a miss of a unit that walks for itself must wait: for a walk of the same page, which it joins, while 64 walks run at its
die's walker, behind which it queues, or for a table on a dead plane (R349, R388). -/
def walkHolds (s : State) (die asid root va : Nat) : Bool :=
  let q := s.dev.walks.filter (fun k => k.cluster / 4 == die)
  decide (64 ≤ q.length) || q.any (fun k => sameLeaf s k asid va) ||
    (s.dev.quiesce && (walk s (getDie s die).ptrs asid root va).reads.any (fun a => pathDead s none { pa := a, len := 8, off := 0 }))

/-- A unit's miss that waits joins the walk of its leaf page, or queues behind those that its die's walker has (R349). -/
def noteMiss (s : State) (u : WalkUnit) (die cluster asid root va : Nat) : State :=
  let same (k : Walk) : Bool := k.cluster / 4 == die && sameLeaf s k asid va
  if s.dev.walks.any same then
    modDev s (fun d => { d with walks := d.walks.map (fun k =>
      if same k && !k.units.contains u then { k with units := k.units ++ [u] } else k) })
  else
    let k : Walk := { id := s.nextId, cluster := cluster, asid := asid, root := root, va := va, waiters := [], units := [u] }
    { modDev s (fun d => { d with walks := d.walks ++ [k] }) with nextId := s.nextId + 1 }

/-- Whether a unit that translates in an address space's own root waits for the walker. -/
def unitWaits (s : State) (u : WalkUnit) (tlb : List TlbEntry) (die asid va : Nat) : Bool :=
  decide (va < 2 ^ 48) && (tlbFind tlb asid va).isNone && (walkEnd s u asid va).isNone && (tget {} s.dev.spaces asid).v &&
    walkHolds s die asid ((tget {} s.dev.spaces asid).root * 65536) va

/-- Such a unit's miss noted. -/
def noteUnit (s : State) (u : WalkUnit) (die asid va : Nat) : State :=
  noteMiss s u die (4 * die) asid ((tget {} s.dev.spaces asid).root * 65536) va

/-- Whether an access of the launch processor of a die waits for the walker. -/
def lpWaits (s : State) (die asid va : Nat) : Bool := unitWaits s (.launchProc die) (getDie s die).lpTlb die asid va

/-- Whether an address of a copy waits for the walker. -/
def copyWaits (s : State) (eng k : Nat) (c : Copy) (va : Nat) : Bool :=
  if eng < 1024 then
    decide (va < 2 ^ 48) && (inWindow c.window va).isNone && (tlbFind (getCluster s (clusterOf c.core)).tlb c.asid va).isNone &&
      (walkEnd s (.copy eng k) c.asid va).isNone && walkHolds s (dieOf c.core) c.asid c.root va
  else unitWaits s (.copy eng k) (getDie s (eng - 1024)).lpTlb (eng - 1024) c.asid va

/-- A copy's miss noted. -/
def noteCopy (s : State) (eng k : Nat) (c : Copy) (va : Nat) : State :=
  if eng < 1024 then noteMiss s (.copy eng k) (dieOf c.core) (clusterOf c.core) c.asid c.root va
  else noteUnit s (.copy eng k) (eng - 1024) c.asid va

/-! ### A core whose state is saved (R356, R358) -/

/-- Whether a write of a launch waits for a resume: one of memory of a core on which the launch is saved, which the resume puts
back, but for the rings there (log 20). -/
def savedHolds (s : State) (launch : Nat) (g : Seg) : Bool :=
  g.dev == 0 &&
    match coreOfPa g.pa with
    | some n => savedOn s launch n && isMemory (place g.pa) && !(ringsIn s n).any (fun r => decide (r.1 ≤ g.pa ∧ g.pa + g.len ≤ r.1 + r.2))
    | none => false

/-! ### Performing a piece -/

/-- Whether a piece may be performed now but for what its source has sent before it. -/
def pieceOpen (s : State) (r : Req) (g : Seg) : Bool :=
  sameLocation s r g && edgesMet s r && !earlierFiring s r && !tableHolds s r.agent (entryOf s r) r.kind.writes g &&
    !heldByMigration s r g && !pieceDead s r g && !(r.kind.writes && savedHolds s r.launch g)

/-- Whether a piece may be performed now. -/
def pieceReady (s : State) (r : Req) (g : Seg) : Bool := pieceOpen s r g && sendReady s r.agent r.id g

/-- Pieces of a request that are performed together with `g`: those of its 64-byte line (R46). -/
def lineOf (r : Req) (g : Seg) : List Seg :=
  if r.byLine then r.todo.filter (fun h => h.dev == g.dev && h.pa / 64 == g.pa / 64) else [g]

/-- The pieces performed next among those `p` selects: the first line of which every piece can be performed. -/
def nextPieces (s : State) (r : Req) (p : Seg → Bool) : List Seg :=
  match r.todo.find? (fun g => p g && (lineOf r g).all (pieceReady s r)) with
  | some g => lineOf r g
  | none => []

/-- Neighbouring pieces of a line as one: its home takes them as one piece (R243). -/
def joinPieces (gs : List Seg) : List Seg :=
  match gs with
  | [] => []
  | g :: r =>
    match joinPieces r with
    | h :: t =>
      if g.dev = h.dev ∧ g.pa + g.len = h.pa ∧ g.off + g.len = h.off then { g with len := g.len + h.len } :: t else g :: h :: t
    | [] => [g]

/-- An access of the issuing stream that its member performs as it issues, in the place of a request it would send. -/
def atIssue (s : State) (k : ReqKind) (acq rel : Bool) : Req :=
  { id := s.nextId, agent := curAgent s, slot := curSlot s, fir := curOrd s, launch := curLaunch s, kind := k, todo := []
    acq := acq, rel := rel, drv := curSup s }

/-- Whether such an access may be performed now. -/
def issueReady (s : State) (k : ReqKind) (acq rel : Bool) (gs : List Seg) : Bool :=
  gs.all (pieceReady s (atIssue s k acq rel))

end Sys2Proof.Machine
end

