-- ==== Sys2Proof/Machine/Control.lean ====
section
/-!
DEFINITION. Sys2Proof/Machine/Control.lean: branches, jumps, calls and returns, register windows with their spills
and fills, hardware loops (R155-R158, R197-R207).
-/

namespace Sys2Proof.Machine

/-! ### Branches and jumps (R197, R198) -/

/-- Whether a branch is taken. -/
def branchTaken (cond : Nat) (x : W64) : Bool :=
  match cond with
  | 0 => x == 0
  | 1 => x != 0
  | 2 => decide (x.toInt < 0)
  | 3 => decide (0 ≤ x.toInt)
  | 4 => decide (0 < x.toInt)
  | _ => decide (x.toInt ≤ 0)

def execBc (f : BcF) (s : State) : Out :=
  perform s (.bc f) { ops := [srcS 1 f.rs1 f.w1] } (fun s v =>
    .ok (s, if branchTaken f.cond.toNat (sval v 0) then .transfer ((curStream s).pc + sext64 f.off15 * 4) else .seq))

def execJmp (f : J25F) (s : State) : Out :=
  perform s (.jmp f) {} (fun s _ => .ok (s, .transfer ((curStream s).pc + sext64 f.off25 * 4)))

def execJmpr (f : R3F) (s : State) : Out :=
  perform s (.jmpr f) { ops := [addrS 1 f.rs1 f.w1] } (fun s v => do
    aligned (sval v 0) 4
    .ok (s, .transfer (sval v 0)))

/-! ### Spill records (R158) -/

/-- Window of the frame at depth f - 1 is (f + 7) mod 8; record f is that of frame f - 1. -/
def recordWindow (rec : Nat) : Nat := (rec + 7) % 8

/-- Address of a spill record. -/
def recordAddr (s : State) (rec : Nat) : W64 := (curCtx s).winspill + w64 (rec * 0x90)

/-- The pieces of a spill record, translated (R158). -/
def recordSegs (s : State) (a : Access) (rec : Nat) : Ex (List Seg) :=
  recast cSPILL (do
    let gs ← xlatePieces s a 8 (a == .store) false (pagePieces (recordAddr s rec) 0x90 0)
    -- Every byte's stack is in service (R371).
    match gs.find? (fun g => g.dev == 0 && stackOutIn s g.pa g.len) with
    | some g => trapEx cSPILL (faultVal 5 (recordAddr s rec + w64 g.off).toNat)
    | none => .ok gs)

/-- The `n` bytes from byte `o` of translated pieces on, within one of them. -/
def segAt (segs : List Seg) (o n : Nat) : Seg :=
  match segs.find? (fun g => g.off ≤ o && o < g.off + g.len) with
  | some g => { pa := g.pa + (o - g.off), len := n, off := 0, dev := g.dev }
  | none => { pa := 0, len := n, off := 0 }

/-- A piece cut at 64-byte lines, or at the 8-byte words of a view (R46, R48). -/
def cutPiece (g : Seg) (fuel : Nat) : List Seg :=
  let z := if g.dev ≠ 0 || isMemory (place g.pa) then 64 else 8
  let room := z - g.pa % z
  match fuel with
  | 0 => [g]
  | k + 1 => if g.len ≤ room then [g] else { g with len := room } :: cutPiece { g with pa := g.pa + room, len := g.len - room, off := g.off + room } k

/-- Full bits of the sixteen registers of a window. -/
def windowFull (x : Stream) (win : Nat) : BitVec 16 := x.sfull.extractLsb' (8 + 16 * win) 16

/-- A window's registers marked empty. -/
def emptyWindow (x : Stream) (win : Nat) : Stream :=
  { x with sfull := x.sfull &&& ~~~((0xFFFF : BitVec 136) <<< (8 + 16 * win)) }

/-- The residues of the registers that a spill stores (R379). -/
def checkSpilled (x : Stream) (win : Nat) : Ex Unit :=
  match (upFrom (8 + 16 * win) 16).find? (fun p => tget 15 x.residue p != 15) with
  | some p => trapEx cRESIDUE (w64 (tget 15 x.residue p + (sget x p).toNat % 15 * 16 + 256))
  | none => .ok ()

/-- Spill of record `rec` into one of the two buffers (R157). -/
def spill (s : State) (rec : Nat) : Ex State := do
  let segs ← recordSegs s .store rec
  let win := recordWindow rec
  if windowPending s s.cur win true then waitEx .interlock
  if 2 ≤ (curCtx s).spills.length || !tableRoom s s.cur.core segs then waitEx .interlock
  let x := curStream s
  checkSpilled x win
  let b : SpillBuf :=
    { segs := segs.flatMap (fun g => cutPiece g 18), regs := (upFrom 0 16).map (fun p => sget x (8 + 16 * win + p)), full := windowFull x win
      link := if rec = 0 then 0 else tget 0 x.link win, id := s.nextId, slot := curSlot s, fir := curOrd s, drv := curSup s }
  .ok (modCurCtx { s with nextId := s.nextId + 1 } (fun c => { c with spills := c.spills ++ [b] }))

/-- Fill of record `rec`: its window empty, its registers on their way, its LINK restored (R157). -/
def fill (s : State) (rec : Nat) : Ex State := do
  let segs ← recordSegs s .load rec
  let win := recordWindow rec
  if windowPending s s.cur win true || !tableRoom s s.cur.core segs then waitEx .interlock
  let lk := segAt segs 0x88 8
  if !issueReady s .load false false [lk] then waitEx .interlock
  let link := readSeg s lk
  let fs : List Fill := (upFrom 0 16).map (fun p =>
    { reg := 8 + 16 * win + p, val := segAt segs (8 * p) 8, full := segAt segs 0x80 2, bit := p, id := s.nextId + p })
  let s := modCur { link.2 with nextId := s.nextId + 16 } (fun x =>
    { emptyWindow x win with link := tset 0 x.link win (w64 link.1), residue := x.residue.filter (fun e => !decide (8 + 16 * win ≤ e.1 ∧ e.1 < 24 + 16 * win)) })
  .ok (modCurCtx s (fun c => { c with fills := c.fills ++ fs }))

/-! ### Calls and returns (R199, R200) -/

/-- CALL's rotation to the window above (R157), and the link (R199). -/
def callRotate (s : State) : Ex State := do
  let d := (curStream s).cwp.depth
  if d = 255 then trapEx cOPERAND 0
  let s ← if (curStream s).cwp.below = 7 then spill s (d - 6) else .ok s
  let win := (d + 1) % 8
  if windowPending s s.cur win true then waitEx .interlock
  .ok (modCur s (fun x =>
    { emptyWindow x win with
      cwp := { win := win, depth := d + 1, below := if x.cwp.below = 7 then 7 else x.cwp.below + 1 }
      link := tset 0 x.link win (x.pc + 4) }))

def execCall (f : J25F) (s : State) : Out :=
  perform s (.call f) { cpOnly := true } (fun s _ => do
    let u ← callRotate s
    .ok (u, .call ((curStream s).pc + sext64 f.off25 * 4)))

def execCallr (f : R3F) (s : State) : Out :=
  perform s (.callr f) { cpOnly := true, ops := [addrS 1 f.rs1 f.w1] } (fun s v => do
    aligned (sval v 0) 4
    let u ← callRotate s
    .ok (u, .call (sval v 0)))

/-- RET's rotation to the window below (R157), the levels of the frame left deactivated (R200). -/
def retRotate (s : State) : Ex State := do
  let d := (curStream s).cwp.depth
  if d = 0 then trapEx cOPERAND 0
  let b := (curStream s).cwp.below
  let s ← if b = 1 then fill s (d - 1) else .ok s
  .ok (modCur s (fun x =>
    { closeWhere x (fun l => l.dtag == d) with
      cwp := { win := (d + 7) % 8, depth := d - 1, below := if b = 1 then 1 else b - 1 } }))

def execRet (f : R3F) (s : State) : Out :=
  perform s (.ret f) { cpOnly := true } (fun s _ => do
    let t := linkOf (curStream s)
    aligned t 4
    let u ← retRotate s
    .ok (u, .transfer t))

/-- WDRAIN (R158): one frame spilled at a time from the lowest resident one, then the buffers emptied. -/
def execWdrain (f : R3F) (s : State) : Out :=
  perform s (.wdrain f) { cpOnly := true } (fun s _ => do
    let w := (curStream s).cwp
    if 1 < w.below then
      let u ← spill s (w.depth + 1 - w.below)
      .ok (modCur u (fun x => { x with cwp := { x.cwp with below := w.below - 1 } }), .hold .interlock)
    else if (curCtx s).spills.isEmpty then .ok (s, .seq)
    else waitEx .interlock)

/-! ### Hardware loops (R202-R204) -/

/-- The number of the next level: the one inside the innermost, or the lowest free one. -/
def nextLevel (ls : List Level) : Nat :=
  let free := fun k => !ls.any (fun l => l.k == k)
  let inner := match ls with | l :: _ => l.k + 1 | [] => 0
  if inner < 4 && free inner then inner else ((upFrom 0 4).find? free).getD 0

/-- Open of R204 at S with end E. -/
def openLevel (s : State) (st e : W64) (count : Nat) : Ex (State × Flow) := do
  let x := curStream s
  if 4 ≤ x.levels.length then trapEx cOPERAND 1
  if x.levels.any (fun l => levelCurrent x l && decide (l.e.toNat < e.toNat)) then trapEx cOPERAND 2
  if count = 0 then .ok (s, .skip e)
  else
    let k := nextLevel x.levels
    let l : Level := { k := k, s := st, e := e, dtag := x.cwp.depth, itag := x.mode.intrap }
    .ok (modCur s (fun x => { x with levels := l :: x.levels, lc := tset 0 x.lc k (w32 count) }), .body st)

def execLoop (f : LpF) (s : State) : Out :=
  perform s (.loop f) { ops := [srcS 1 f.rs1 f.w1] } (fun s v => do
    if f.off16 = 0 then trapEx cOPERAND 5
    let pc := (curStream s).pc
    openLevel s (pc + 4) (pc + 4 + zext64 f.off16 * 4) ((sval v 0).toNat % 2 ^ 32))

/-- LOOPI's iteration count: max(0, ceil((stop - start) / step)) for a non-zero step. -/
def loopCount (start stop step : Int) : Nat := (-(Int.fdiv (start - stop) step)).toNat

def execLoopi (f : LxF) (s : State) : Out :=
  perform s (.loopi f) { ops := [srcS 1 f.rs1 f.w1, srcS 2 f.rs2 f.w2] } (fun s v => do
    if f.off16 = 0 then trapEx cOPERAND 5
    if f.simm16 = 0 then trapEx cOPERAND 3
    let n := loopCount (sval v 0).toInt (sval v 1).toInt f.simm16.toInt
    if 0xFFFFFFFF < n then trapEx cOPERAND 4
    let pc := (curStream s).pc
    openLevel s (pc + 8) (pc + 8 + zext64 f.off16 * 4) n)

end Sys2Proof.Machine
end

