-- ==== Sys2Proof/Machine/Access.lean ====
section
/-!
DEFINITION. Sys2Proof/Machine/Access.lean: the issue of loads, stores, atomics, fences, monitors, barriers and vector
accesses (R237-R250). What an access does at its home is in Home.lean.
-/

namespace Sys2Proof.Machine

/-! ### Requests -/

/-- A request of the issuing stream. -/
def request (s : State) (k : ReqKind) (segs : List Seg) : Req :=
  { id := 0, agent := curAgent s, slot := curSlot s, fir := curOrd s, launch := curLaunch s, kind := k, todo := segs
    drv := curSup s }

/-- The remote devices an access of the issuing stream addresses, noted for the next domain fence (R142). -/
def noteRemote (s : State) (segs : List Seg) : State :=
  let ds := (segs.filter (fun g => g.dev != 0)).map (fun g => g.dev - 1)
  if ds.isEmpty then s else modCur s (fun x => { x with remote := (x.remote ++ ds).eraseDups })

/-- A request of the issuing stream put in flight. -/
def send (s : State) (r : Req) : State :=
  let s := if r.kind.writes then dropBufs s s.cur.core (r.todo.flatMap (coreTiles s s.cur.core)) else s
  noteRemote (addReq s { r with path := r.todo }) r.todo

/-- An access to a tile of the core needs an entry of its tile dependency table (R109). -/
def enterTable (s : State) (gs : List Seg) : Ex Unit := if tableRoom s s.cur.core gs then .ok () else waitEx .interlock

/-- Poisoned bytes among pieces: the least offset from the access's address (R381). -/
def poisonIn (s : State) (segs : List Seg) : Option Nat :=
  if s.dev.poison.isEmpty then none
  else segs.findSome? (fun g => if g.dev ≠ 0 then none else (poisonedAt s g.pa g.len).map (fun a => g.off + (a - g.pa)))

/-- POISON_CONSUMED for a read of a context (R381; log 8). -/
def checkPoison (s : State) (va : W64) (segs : List Seg) : Ex Unit :=
  match poisonIn s segs with
  | some o => trapEx cPOISON (va + w64 o)
  | none => .ok ()

/-! ### Parity of what a read finds (R380) -/

/-- Whether a parity error of an accumulator (k) or a slot (64 + k) can be repaired: from the engine's copy of what its 16 last
tasks wrote, or from the macro record. -/
def repairable (s : State) (n code : Nat) : Bool :=
  if code < 64 then (getCore s n).recentAcc.contains code else s.dev.launches.any (fun e => holdsCore e.2 n)

/-- The parity of the accumulators and slots of a core that an instruction reads: repaired and counted, or a trap. -/
def macroParity (s : State) (n : Nat) (codes : List Nat) : Ex State :=
  let bad := codes.filter (fun c => (getCore s n).parity.contains c)
  match bad.find? (fun c => !repairable s n c) with
  | some c => trapEx cPARITY (w64 (if c < 64 then c + 0x40 else c - 64 + 0x60))
  | none =>
    .ok (bad.foldl (fun s c => countCorrected (modCore s n (fun k => { k with parity := k.parity.filter (· != c) })) 2) s)

/-- The parity of a vector register that a read of its view finds. -/
def viewParity1 (s : State) (n c v : Nat) : Ex State :=
  let w : StreamId := { core := n, ctx := c, ap := false }
  if !(getStream s w).parity.contains v then .ok s
  else if !(getCtx s n c).producers.contains v then trapEx cPARITY (w64 v)
  else .ok (countCorrected (modStream s w (fun x => { x with parity := x.parity.filter (· != v) })) 2)

/-- The parity of what a load reads through views of vector registers, accumulators and slots. -/
def viewParity (s : State) (gs : List Seg) : Ex State :=
  match gs with
  | [] => .ok s
  | g :: r => do
    let t ←
      if g.dev ≠ 0 then .ok s
      else
        match place g.pa with
        | .vector n c v => viewParity1 s n c v
        | .acc n o => macroParity s n (stretch o g.len 4096)
        | .slots n o => macroParity s n ((stretch o g.len 2048).map (64 + ·))
        | .mask n o => macroParity s n ((stretch o g.len 16).map (64 + ·))
        | .tag n o => macroParity s n ((stretch o g.len 0x40).map (64 + ·))
        | _ => .ok s
    viewParity t r

/-- One aligned access of `n` bytes, translated. -/
def oneSeg (x : Xlated) (n : Nat) : Seg := { pa := x.pa, len := n, off := 0, dev := x.dev }

/-! ### Queues (R162) -/

/-- Entries a queue holds. -/
def queueDepth (q : Nat) : Nat := if q < 4 then 16 else 8

/-- A scan of the stream that still delivers into a queue (R258). -/
def scanInto (s : State) (w : StreamId) (q : Nat) : Bool :=
  s.freqs.any (fun f => f.agent == .stream w && match f.op with | .scan _ _ d _ _ _ _ => d == q | _ => false)

/-- A push may enter: no scan before it is still pushing, and there is room for it behind those on their way. -/
def pushReady (s : State) (q : Nat) : Ex Unit :=
  let coming := ((pendingDests s s.cur).filter (fun d => d == .queue q)).length
  if scanInto s s.cur q || queueDepth q ≤ (tget [] (curCtx s).queues q).length + coming then waitEx (.queue q) else .ok ()

/-! ### Scalar loads and stores (R239, R240) -/

/-- The destination of a load: a register marked empty, or a queue of an AP stream. -/
def loadDest (s : State) (o : Opnd) : Ex (State × Dest) :=
  match queueOf o with
  | some q => do
    pushReady s q
    .ok (s, .queue q)
  | none =>
    if o.cls = .vector then (emptyVec s o.code).map (fun t => (t, .vector o.code.toNat))
    else (emptyReg s o.code).map (fun t => (t, scalarDest s o.code))

def load (i : Instr) (f : I12F) (n : Nat) (s : State) : Out :=
  perform s i { ops := [dstSQ f.rd, addrS 1 f.rs1 f.w1] } (fun s v => do
    let va := ldstAddr (sval v 0) f n
    aligned va n
    let x ← xlate s .load va n false false
    checkPoison s va [oneSeg x n]
    let s ← viewParity s [oneSeg x n]
    enterTable s [oneSeg x n]
    let d ← loadDest s (dstSQ f.rd)
    .ok (send d.1 { request s .load [oneSeg x n] with
                    acq := f.ord == 1, dest := d.2, size := n, signed := !f.z, va := va.toNat }, .seq))

def execLd8 (f : I12F) (s : State) : Out := load (.ld8 f) f 1 s
def execLd16 (f : I12F) (s : State) : Out := load (.ld16 f) f 2 s
def execLd32 (f : I12F) (s : State) : Out := load (.ld32 f) f 4 s
def execLd64 (f : I12F) (s : State) : Out := load (.ld64 f) f 8 s

def store (i : Instr) (f : I12F) (n : Nat) (s : State) : Out :=
  perform s i { ops := [dataS 0 f.rd false, addrS 1 f.rs1 f.w1] } (fun s v => do
    let va := ldstAddr (sval v 1) f n
    aligned va n
    let x ← xlate s .store va n true false
    enterTable s [oneSeg x n]
    .ok (send s { request s .store [oneSeg x n] with
                  data := (sval v 0).setWidth 2048, rel := f.ord != 0, relEng := f.ord == 2, size := n, va := va.toNat }, .seq))

def execSt8 (f : I12F) (s : State) : Out := store (.st8 f) f 1 s
def execSt16 (f : I12F) (s : State) : Out := store (.st16 f) f 2 s
def execSt32 (f : I12F) (s : State) : Out := store (.st32 f) f 4 s
def execSt64 (f : I12F) (s : State) : Out := store (.st64 f) f 8 s

/-! ### Atomics (R245) -/

/-- The operand fields of an atomic: AMOSNAP has no rs2, AMOCAS reads rd. -/
def amoOps (op : AmoOp) (f : R3F) : List Opnd :=
  match op with
  | .snap => [dstS f.rd, addrS 1 f.rs1 f.w1]
  | .cas => [bothS f.rd, addrS 1 f.rs1 f.w1, dataS 2 f.rs2 f.w2]
  | _ => [dstS f.rd, addrS 1 f.rs1 f.w1, dataS 2 f.rs2 f.w2]

/-- Address, operand and expected value among the source values. -/
def amoVals (op : AmoOp) (v : List VReg) : W64 × W64 × W64 :=
  match op with
  | .snap => (sval v 0, 0, 0)
  | .cas => (sval v 1, sval v 2, sval v 0)
  | _ => (sval v 0, sval v 1, 0)

def amo (i : Instr) (f : AmoF) (op : AmoOp) (s : State) : Out :=
  perform s i { ops := amoOps op f.r } (fun s v => do
    let n := if f.z then 4 else 8
    let va := (amoVals op v).1
    aligned va n
    let x ← xlate s .atomic va n true false
    checkPoison s va [oneSeg x n]
    enterTable s [oneSeg x n]
    let t ← emptyReg s f.r.rd
    .ok (send t { request s (.atomic op (amoVals op v).2.1 (amoVals op v).2.2) [oneSeg x n] with
                  acq := f.ord.getLsbD 0, rel := f.ord.getLsbD 1, dest := scalarDest s f.r.rd, size := n
                  signed := op == .minS || op == .maxS, va := va.toNat }, .seq))

def execAmoadd (f : AmoF) (s : State) : Out := amo (.amoadd f) f .add s
def execAmominS (f : AmoF) (s : State) : Out := amo (.amominS f) f .minS s
def execAmominZ (f : AmoF) (s : State) : Out := amo (.amominZ f) f .minZ s
def execAmomaxS (f : AmoF) (s : State) : Out := amo (.amomaxS f) f .maxS s
def execAmomaxZ (f : AmoF) (s : State) : Out := amo (.amomaxZ f) f .maxZ s
def execAmoand (f : AmoF) (s : State) : Out := amo (.amoand f) f .and s
def execAmoor (f : AmoF) (s : State) : Out := amo (.amoor f) f .or s
def execAmoxchg (f : AmoF) (s : State) : Out := amo (.amoxchg f) f .xchg s
def execAmosnap (f : AmoF) (s : State) : Out := amo (.amosnap f) f .snap s
def execAmocas (f : AmoF) (s : State) : Out := amo (.amocas f) f .cas s

/-! ### What is outstanding (R141, R142, R147) -/

inductive Scope where
  | core | cluster | device | domain
  deriving DecidableEq, Repr

/-- Whether a home lies within a scope of the core (R141). -/
def inScope (core : Nat) (c : Scope) (g : Seg) : Bool :=
  match c with
  | .core => g.dev == 0 && coreOfPa g.pa == some core
  | .cluster => g.dev == 0 && clusterOfPa g.pa == some (clusterOf core)
  | .device => g.dev == 0
  | .domain => true

/-- Earlier accesses of a stream to homes in a scope that have not been performed: a write its home has not applied, a read whose
value has not returned (R142). -/
def outstanding (s : State) (w : StreamId) (c : Scope) (upto : Nat) : Bool :=
  s.reqs.any (fun r => r.agent == .stream w && decide (r.id < upto) && (unanswered r).any (inScope w.core c)) ||
    (spillSegs s w).any (fun b => decide (b.1 < upto) && b.2.any (inScope w.core c)) ||
    s.freqs.any (fun f => f.agent == .stream w && isProbe f && decide (f.id < upto) &&
      inScope w.core c (headerSeg f))

/-! ### Fences (R246) -/

/-- A completed fence: words fetched ahead from homes it covers are dropped at the next transfer (R399). -/
def fenceWords (s : State) (c : Scope) : State :=
  modCur s (fun x =>
    { x with
      fetched := x.fetched.map (fun f =>
        if inScope s.cur.core c { pa := f.pa, len := 4, off := 0 } then { f with fenced := true } else f)
      fence := none })

/-- FENCE.CORE and FENCE.CLUSTER (R142). -/
def fenceNear (i : Instr) (c : Scope) (s : State) : Out :=
  perform s i {} (fun s _ => do
    if outstanding s s.cur c s.nextId then waitEx .interlock
    .ok (fenceWords s c, .seq))

/-- The paths a plane-spanning fence marks: the planes of the bucket table, the crossbar, and in a domain fence every
lane group to each remote device addressed (R142). -/
def fencePaths (s : State) (c : Scope) : List Nat :=
  let planes := ((upFrom 0 64).map (planeOfBucket s.dev)).eraseDups
  planes ++ [8] ++ (if c = .domain then (curStream s).remote.flatMap (fun d => (upFrom 0 8).map (· + (16 + 8 * d))) else [])

/-- FENCE.DEVICE and FENCE.DOMAIN: markers on every path, complete at the last acknowledgement (R142). With nothing
outstanding every path acknowledges at once. -/
def fenceFar (i : Instr) (c : Scope) (s : State) : Out :=
  perform s i {} (fun s _ =>
    let done := fun (s : State) =>
      (fenceWords (if c = .domain then modCur s (fun x => { x with remote := [] }) else s) c, Flow.seq)
    match (curStream s).fence with
    | none =>
      if outstanding s s.cur c s.nextId then
        .ok (modCur s (fun x => { x with fence := some { upto := s.nextId, paths := fencePaths s c } }), .hold .interlock)
      else .ok (done s)
    | some f =>
      if f.paths.isEmpty && !outstanding s s.cur c f.upto then .ok (done s) else waitEx .interlock)

def execFenceCore (f : R3F) (s : State) : Out := fenceNear (.fenceCore f) .core s
def execFenceCluster (f : R3F) (s : State) : Out := fenceNear (.fenceCluster f) .cluster s
def execFenceDevice (f : R3F) (s : State) : Out := fenceFar (.fenceDevice f) .device s
def execFenceDomain (f : R3F) (s : State) : Out := fenceFar (.fenceDomain f) .domain s
def execFenceEng (f : R3F) (s : State) : Out :=
  perform s (.fenceEng f) {} (fun s _ => do
    if engineBusy s s.cur s.nextId then waitEx .interlock
    .ok (s, .seq))

/-! ### Monitors (R247, R248) -/

def execMarm (f : R3F) (s : State) : Out :=
  perform s (.marm f) { ops := [addrS 1 f.rs1 f.w1] } (fun s v => do
    let va := sval v 0
    aligned va 8
    let x ← xlate s .marm va 8 false false
    let s := { s with reqs := s.reqs.filter (fun r => !(r.agent == curAgent s && r.kind == .monitor)) }
    let s := modCur s (fun y => { y with monitor := { armed := true, pa := x.pa, va := va.toNat, dev := x.dev } })
    .ok (send s (request s .monitor [oneSeg x 8]), .seq))

/-- MWAIT's operands; once it waits, a timeout register that is also rd is not read again. -/
def mwaitOps (s : State) (f : R3F) : List Opnd :=
  match (curStream s).wait with
  | .mwait _ _ _ => dstS f.rd :: (if f.rs1 = f.rd then [] else [srcS 1 f.rs1 f.w1])
  | _ => [dstS f.rd, srcS 1 f.rs1 f.w1]

/-- MWAIT: the first issue notes the deadline and marks rd empty; the final read ends it once HIT is set or its time is
over. -/
def mwait (i : Instr) (f : R3F) (acq : Bool) (s : State) : Out :=
  perform s i { ops := mwaitOps s f } (fun s v => do
    let x := curStream s
    if !x.monitor.armed then trapEx cOPERAND 0
    let p := physScalar x.cwp.win f.rd.toNat
    match x.wait with
    | .mwait d q full =>
      if !x.monitor.hit && d ≠ 0 then waitEx (.mwait d q full)
      else
        let g : Seg := { pa := x.monitor.pa, len := 8, off := 0, dev := x.monitor.dev }
        if !issueReady s .load acq false [g] then waitEx (.mwait d q full)
        checkPoison s (w64 x.monitor.va) [g]
        let y := readSeg (addTraffic s (curLaunch s) [g]) g
        .ok (modCur y.2 (fun z => sput { z with monitor := { z.monitor with armed := false, placed := false } } p (w64 y.1)), .seq)
    | _ =>
      let t := (sval v 0).toNat % 2 ^ 32
      let full := sfullAt x p
      let u ← emptyReg s f.rd
      .ok (u, .hold (.mwait (if t = 0 then 0 else s.cycle + t) p full)))

def execMwait (f : R3F) (s : State) : Out := mwait (.mwait f) f false s
def execMwaitAcq (f : R3F) (s : State) : Out := mwait (.mwaitAcq f) f true s

/-! ### Barriers (R249, R250) -/

/-- A barrier object by cluster and number. -/
def getBarrier (s : State) (k b : Nat) : Barrier := tget {} (getCluster s k).barriers b
def setBarrier (s : State) (k b : Nat) (x : Barrier) : State :=
  modCluster s k (fun c => { c with barriers := tset {} c.barriers b x })

/-- A barrier member of the issuing stream applied to an object, with what it answers (R389). -/
def applyMember (s : State) (k b : Nat) (x : Barrier) (answer : Nat) : State :=
  noteApplied (setBarrier s k b x) (curAgent s) s.nextId (.cluster k) (BitVec.ofNat 2048 answer)

/-- What a barrier member acts on: an object of this device, by cluster and number, or one of a remote device. -/
inductive BarrierRef where
  | here (k b : Nat)
  | remote (dev : Nat)
  deriving DecidableEq, Repr

/-- The barrier object an address names, checked, once the edges that end at the member let it act (R250, R137-R140). -/
def barrierAt (s : State) (va : W64) (writes acq rel : Bool) : Ex BarrierRef := do
  aligned va 64
  let x ← xlate s .barrier va 8 writes false
  if !issueReady s (if writes then .store else .load) acq rel [oneSeg x 8] then waitEx .interlock
  if x.dev ≠ 0 then .ok (.remote x.dev)
  else
    match place x.pa with
    | .barrier k b _ => .ok (.here k b)
    | _ => trapEx (if writes then cSTORE else cLOAD) (faultVal 6 va.toNat)

/-- BAR.INIT at an object: refused while a phase has arrivals. -/
def barInitOn (b : Barrier) (n : Nat) : Except Nat Barrier := if b.arrived ≠ 0 then .error b.arrived else .ok { b with count := n }

/-- BAR.ARR's count on an object. -/
def arrive (b : Barrier) : Barrier :=
  if b.arrived + 1 = b.count then { b with arrived := 0, phase := !b.phase } else { b with arrived := b.arrived + 1 }

/-- BAR.INIT. What a remote home answers is a free value (log 14). -/
def execBarInit (f : R3F) (s : State) : Out :=
  perform s (.barInit f) { ops := [addrS 1 f.rs1 f.w1, srcS 2 f.rs2 f.w2] } (fun s v => do
    let n := (sval v 1).toNat
    if n < 1 ∨ 4096 < n then trapEx cOPERAND (sval v 1)
    match ← barrierAt s (sval v 0) true false false with
    | .here k b =>
      match barInitOn (getBarrier s k b) n with
      | .ok x => .ok ((takeId (applyMember s k b x 0)).2, .seq)
      | .error a => trapEx cOPERAND (w64 a)
    | .remote d =>
      let w := takeFree (noteRemote s [{ pa := 0, len := 64, off := 0, dev := d }])
      if w.1.getLsbD 0 then trapEx cOPERAND (w64 (1 + wbits w.1 1 32 % 4095)) else .ok (w.2, .seq))

/-- BAR.ARR is an atomic of the object with release (R250): earlier accesses first. -/
def execBarArr (f : R3F) (s : State) : Out :=
  perform s (.barArr f) { ops := [dstS f.rd, addrS 1 f.rs1 f.w1, srcS 2 f.rs2 f.w2] } (fun s v => do
    let p := (sval v 1).toNat
    if 1 < p then trapEx cOPERAND (sval v 1)
    match ← barrierAt s (sval v 0) true false true with
    | .here k b =>
      let x := getBarrier s k b
      if x.count = 0 then trapEx cOPERAND 0
      if p ≠ bit x.phase then trapEx cBARRIER (w64 (bit x.phase))
      let t ← emptyReg s f.rd
      .ok (deliver (applyMember t k b (arrive x) x.arrived) (scalarDest s f.rd) (BitVec.ofNat 2048 x.arrived), .seq)
    | .remote d =>
      let w := takeFree (noteRemote s [{ pa := 0, len := 64, off := 0, dev := d }])
      if wbits w.1 0 2 = 0 then trapEx cOPERAND 0
      if wbits w.1 0 2 = 1 then trapEx cBARRIER (w64 (1 - p))
      let t ← emptyReg w.2 f.rd
      .ok (deliver t (scalarDest s f.rd) (BitVec.ofNat 2048 (wbits w.1 2 12)), .seq))

/-- The phase read once it has moved away from p; the final read is an acquire (R250). -/
def execBarWait (f : R3F) (s : State) : Out :=
  perform s (.barWait f) { ops := [addrS 1 f.rs1 f.w1, srcS 2 f.rs2 f.w2] } (fun s v => do
    let p := (sval v 1).toNat
    if 1 < p then trapEx cOPERAND (sval v 1)
    match ← barrierAt s (sval v 0) false true false with
    | .here k b =>
      let x := getBarrier s k b
      if x.count = 0 then trapEx cOPERAND 0
      if p = bit x.phase then waitEx (.barrier (clusterWin + k * 0x1000000 + b * 64))
      .ok (s, .seq)
    | .remote d =>
      let w := takeFree (noteRemote s [{ pa := 0, len := 64, off := 0, dev := d }])
      if wbits w.1 0 2 = 0 then trapEx cOPERAND 0
      if wbits w.1 0 2 = 1 then .ok (w.2, .hold (.barrier 0)) else .ok (w.2, .seq))

/-! ### Vector accesses (R241-R244) -/

/-- The lanes an access touches, ascending. -/
def accessLanes (s : State) (f : VF) : List Nat := activeLanes (activeMask s f.pm)

/-- Alignment of every active lane's address, the lowest failing one reported (R242). -/
def lanesAligned (addr : Nat → W64) (ks : List Nat) : Ex Unit :=
  match ks.find? (fun k => (addr k).toNat % 4 != 0) with
  | some k => trapEx cMISALIGNED (addr k)
  | none => .ok ()

/-- The active lanes translated, lane k's 4 bytes at byte 4k of the data. -/
def laneSegs (s : State) (a : Access) (addr : Nat → W64) (ks : List Nat) : Ex (List Seg) :=
  match ks with
  | [] => .ok []
  | k :: r => do
    let x ← xlate s a (addr k) 4 (a == .lanes) false
    let rest ← laneSegs s a addr r
    .ok ({ pa := x.pa, len := 4, off := 4 * k, dev := x.dev } :: rest)

/-- The virtual address of the lowest poisoned byte that the lanes read (R381). -/
def lanesPoison (s : State) (addr : Nat → W64) (segs : List Seg) : Ex Unit :=
  let bad := segs.filterMap (fun g => (poisonIn s [g]).map (fun o => (addr (o / 4) + w64 (o % 4)).toNat))
  match bad with
  | [] => .ok ()
  | a :: r => trapEx cPOISON (w64 (r.foldl min a))

/-- The destination of a vector load: a queue of an AP stream, or a register, read too where it merges (R218, R244). -/
def loadVd (s : State) (f : VF) : Opnd :=
  if 36 ≤ f.vd.toNat ∧ f.vd.toNat < 40 then dstVQ f.vd
  else if mergesVd s f then bothV 0 f.vd false else dstVQ f.vd

/-- A vector load: base and further sources by `ops`, lane addresses by `addr` of the source values. -/
def vload (i : Instr) (f : VF) (ops : List Opnd) (addr : List VReg → Nat → W64) (byLine : Bool) (s : State) : Out :=
  let vd := loadVd s f
  perform s i { ops := vd :: ops ++ [pmOp f.pm] } (fun s v => do
    let vs := if isRead vd then v.drop 1 else v
    let ks := accessLanes s f
    lanesAligned (addr vs) ks
    let segs ← laneSegs s .load (addr vs) ks
    lanesPoison s (addr vs) segs
    let s ← viewParity s segs
    enterTable s segs
    let d ← loadDest s vd
    let old : VReg := if isRead vd then vval v 0 else 0
    let init := mergeLanes (activeMask s f.pm) false old (fun _ => 0)
    .ok (send d.1 { request s .load segs with data := init, byLine := byLine, dest := d.2, size := 256 }, .seq))

/-- The address of lane k of LDV and STV. -/
def ldvAddr (f : VF) (base : W64) (k : Nat) : W64 := base + vecOff f + w64 (4 * k)

def execLdv (f : VF) (s : State) : Out :=
  vload (.ldv f) f [addrS 1 f.vs1 f.w1] (fun v k => ldvAddr f (sval v 0) k) true s

def execLdvs (f : VF) (s : State) : Out :=
  vload (.ldvs f) f [addrS 1 f.vs1 f.w1, addrS 2 f.vs2 f.w2]
    (fun v k => sval v 0 + vecOff f + w64 k * sval v 1) false s

/-- The address of lane k of GATHER and SCATTER. -/
def indexAddr (f : VF) (base : W64) (idx : VReg) (k : Nat) : W64 := base + (sext64 (lane idx k) <<< f.immBits 0 2)

def execGather (f : VF) (s : State) : Out :=
  vload (.gather f) f [addrS 1 f.vs1 f.w1, srcV 2 f.vs2 f.w2] (fun v k => indexAddr f (sval v 0) (vval v 1) k) false s

/-- The whole of a vector register view, where an STV covers one (R243). -/
def wholeView (s : State) (va : W64) : Option Seg :=
  if va.toNat % 256 = 0 then
    match xlate s .lanes va 256 true true with
    | .ok x =>
      match place x.pa with
      | .vector _ _ _ => some (oneSeg x 256)
      | _ => none
    | .error _ => none
  else none

/-- A vector store of the data source `d`. -/
def vstore (s : State) (f : VF) (addr : Nat → W64) (data : VReg) (byLine view : Bool) : Ex (State × Flow) := do
  let ks := accessLanes s f
  lanesAligned addr ks
  let whole := if view && ks.length == 64 then wholeView s (addr 0) else none
  match whole with
  | some g => .ok (send s { request s .store [g] with data := data, size := 256 }, .seq)
  | none =>
    let segs ← laneSegs s .lanes addr ks
    enterTable s segs
    .ok (send s { request s .store segs with data := data, byLine := byLine, size := 256 }, .seq)

def execStv (f : VF) (s : State) : Out :=
  perform s (.stv f) { ops := [addrS 1 f.vs1 f.w1, srcV 3 f.vs3 f.w3, pmOp f.pm] } (fun s v =>
    vstore s f (ldvAddr f (sval v 0)) (vval v 1) true true)

def execScatter (f : VF) (s : State) : Out :=
  perform s (.scatter f) { ops := [addrS 1 f.vs1 f.w1, srcV 2 f.vs2 f.w2, srcV 3 f.vs3 f.w3, pmOp f.pm] } (fun s v =>
    vstore s f (indexAddr f (sval v 0) (vval v 1)) (vval v 2) false false)

/-- QPUSH (R244): a vector register whole, or a scalar. -/
def execQpush (f : VF) (s : State) : Out :=
  let scalar := f.imm13.getLsbD 0
  let vd : Opnd := if scalar then dstSQ f.vd else dstVQ f.vd
  let src : Opnd := if scalar then srcS 1 f.vs1 f.w1 else srcV 1 f.vs1 f.w1
  perform s (.qpush f) { apOnly := true, ops := [vd, src] } (fun s v => do
    match queueOf vd with
    | none => trapEx cOPERAND (zext64 f.vd)
    | some q =>
      pushReady s q
      .ok (deliver s (.queue q) (vval v 0), .seq))

end Sys2Proof.Machine
end

