-- ==== Sys2Proof/Machine/Fetch.lean ====
section
/-!
DEFINITION. Sys2Proof/Machine/Fetch.lean: reading the words of the next instruction (R170, R399) and choosing the
stream that issues next.
-/

namespace Sys2Proof.Machine

/-- A word read at its home for a stream, with what its read counts (R38, R374, R399). -/
def readCode (s : State) (va pa : Nat) : Fetched × State :=
  ({ va := va, word := w32 (memRead s pa 4), pa := pa }, addTraffic (countBursts s pa 4) (curLaunch s) [{ pa := pa, len := 4, off := 0 }])

/-- Whether a read of code would travel on a dead plane (R13, R388). -/
def codeDead (s : State) (pa : Nat) : Bool := pathDead s (some s.cur.core) { pa := pa, len := 4, off := 0 }

/-- One word at a virtual address: one fetched before and not yet issued, else read at its home and kept until the
instruction it belongs to issues (R399). -/
def fetchWord (s : State) (va : W64) : Ex (W32 × State) :=
  match (curStream s).fetched.find? (fun f => f.va == va.toNat) with
  | some f => .ok (f.word, s)
  | none =>
    xlate s .fetch va 4 false false >>= fun x =>
      if codeDead s x.pa then waitEx .interlock
      else
        let r := readCode s va.toNat x.pa
        .ok (r.1.word, modCur r.2 (fun y => { y with fetched := r.1 :: y.fetched }))

/-- The words of an instruction that has issued are gone; one that waits keeps them. -/
def dropWords (s : State) (w : StreamId) (pc size : Nat) : State :=
  if (getStream s w).wait == .none then
    modStream s w (fun x => { x with fetched := x.fetched.filter (fun f => !decide (pc ≤ f.va ∧ f.va < pc + size)) })
  else s

/-- The words at the stream's pc: one, or two for a 64-bit instruction (R170). -/
def fetchInstr (s : State) : Ex (W32 × W32 × State) :=
  match fetchWord s (curStream s).pc with
  | .error e => .error e
  | .ok (w0, s) =>
    if w0.getLsbD 31 then (fetchWord s ((curStream s).pc + 4)).map (fun r => (w0, r.1, r.2))
    else .ok (w0, 0, s)

/-- Words read ahead from `va` on, as far as they translate without a fault or a walk and no dead plane lies in
the way (R388, R399). -/
def fetchAhead (s : State) (va n : Nat) : State :=
  match n with
  | 0 => s
  | k + 1 =>
    if (curStream s).fetched.any (fun f => f.va == va) then fetchAhead s (va + 4) k
    else
      match xlate s .fetch (w64 va) 4 false false with
      | .ok x =>
        if codeDead s x.pa then s
        else
          let r := readCode s va x.pa
          fetchAhead (modCur r.2 (fun y => { y with fetched := y.fetched ++ [r.1] })) (va + 4) k
      | .error _ => s

/-- The words this step reads ahead of a stream, by State's own schedule (log 16). -/
def readAhead (s : State) (w : StreamId) : State :=
  match s.ahead with
  | [] => s
  | n :: r =>
    let s := { s with ahead := r }
    if (getStream s w).run == .running then
      let s := modStream s w (fun x => { x with fetched := x.fetched.drop (x.fetched.length - 32) })
      fetchAhead { s with cur := w } (getStream s w).pc.toNat (min n 16)
    else s

/-- A stream that can be offered an issue turn: running, not held by a pre-emption, and the device's clocks with it
(R26, R356, R390, R391). -/
def canIssue (s : State) (w : StreamId) : Bool :=
  (getStream s w).run == .running && !clocksOff s && !s.mgmt.power.tripped && !streamStopped s w

/-- The running streams in order of core, context, CP before AP. -/
def runningStreams (s : State) : List StreamId :=
  s.cores.flatMap (fun e =>
    (e.2.cps.map (fun c => (⟨e.1, c.1, false⟩ : StreamId)) ++ e.2.aps.map (fun c => (⟨e.1, c.1, true⟩ : StreamId))).filter (canIssue s))

/-- The order of streams in the round. -/
def streamKey (w : StreamId) : Nat := w.core * 8 + w.ctx * 2 + bit w.ap

/-- The stream of least key among some. -/
def leastKey (ws : List StreamId) : Option StreamId :=
  ws.foldl (fun o w =>
    match o with
    | some v => if streamKey w < streamKey v then some w else some v
    | none => some w) none

/-- The stream after the one that issued last, round robin. -/
def afterCur (ws : List StreamId) (w : StreamId) : Option StreamId :=
  match leastKey (ws.filter (fun v => decide (streamKey w < streamKey v))) with
  | some x => some x
  | none => leastKey ws

/-- Whether a context can be offered a turn by either stream. -/
def contextReady (s : State) (n c : Nat) : Bool := canIssue s { core := n, ctx := c, ap := false } || canIssue s { core := n, ctx := c, ap := true }

/-- Whether a context still forgoes its turns: another that was ready when it yielded, and still is, has not been offered
one (R209). -/
def yielding (s : State) (w : StreamId) : Bool := (getCtx s w.core w.ctx).yielded.any (contextReady s w.core)

/-- The stream that issues next: by State's schedule, else round robin (R37; log 1). A context that has yielded forgoes its
turn (R209). -/
def nextStream (s : State) : Option StreamId × State :=
  match s.turns with
  | w :: r => (if canIssue s w && !yielding s w then some w else none, { s with turns := r })
  | [] => (afterCur ((runningStreams s).filter (fun w => !yielding s w)) s.cur, s)

/-- A turn taken: the contexts of the core that wait for this one to be offered a turn have seen it (R209). -/
def countTurn (s : State) (w : StreamId) : State :=
  if (getCore s w.core).ctxs.any (fun e => !e.2.yielded.isEmpty) then
    modCore s w.core (fun c =>
      { c with ctxs := tmap {} (fun k x => { x with yielded := if k = w.ctx then [] else x.yielded.filter (· != w.ctx) }) c.ctxs })
  else s

/-- The cores whose matrix engine has a task of a launch issued (R38). -/
def issuedCores (s : State) (e : Nat) : Nat :=
  (s.cores.filter (fun k => k.2.tasks.any (fun t => t.issued && t.launch == e))).length

/-- The matrix cycles of the running launches after `n` more cycles (R38). -/
def busyAfter (s : State) (n : Nat) : Tbl Nat :=
  if s.cores.all (fun k => k.2.tasks.all (fun t => !t.issued)) then s.matrixBusy
  else
    (s.dev.launches.filter (fun l => l.2.lstate == 2)).foldl (fun b l => tset 0 b l.1 (tget 0 b l.1 + n * issuedCores s l.1)) s.matrixBusy

/-- The clock of a step (R166, R319; log 3); CYCLE stands still with the clusters' clocks (R390, R391). -/
def tickClock (s : State) : State :=
  let n := if clocksOff s || s.mgmt.power.tripped then 0 else Config.stepCycles s.tick
  { s with cycle := s.cycle + n, matrixBusy := busyAfter s n, time := s.time + Config.stepNanos s.tick, tick := s.tick + 1 }

end Sys2Proof.Machine
end

