-- ==== Sys2Proof/Machine/Order.lean ====
section
/-!
DEFINITION. Sys2Proof/Machine/Order.lean: when a piece of an access may be performed at its home (R137-R152), loads at
their home (R45, R46), atomics' arithmetic (R245), monitor registration (R247), fence acknowledgements (R142), walks
(R349), delivery of results (R160).
-/

namespace Sys2Proof.Machine

/-! ### Requests -/

def findReq (s : State) (id : Nat) : Option Req := s.reqs.find? (fun r => r.id == id)
def dropReq (s : State) (id : Nat) : State := { s with reqs := s.reqs.filter (fun r => r.id != id) }
def putReq (s : State) (r : Req) : State := { s with reqs := s.reqs.map (fun q => if q.id = r.id then r else q) }

/-- A request kept, or gone once every piece is performed and nothing is to be delivered. -/
def settleReq (s : State) (r : Req) : State := if r.todo.isEmpty && r.dest == .none then dropReq s r.id else putReq s r

/-- Bytes `off` to `off + len - 1` of a request's data. -/
def dataAt (r : Req) (g : Seg) : Nat := wbits r.data (8 * g.off) (8 * g.len)
/-- A request's data with a piece's bytes replaced. -/
def putData (d : VReg) (g : Seg) (x : Nat) : VReg :=
  let m : Nat := (2 ^ (8 * g.len) - 1) <<< (8 * g.off)
  BitVec.ofNat 2048 ((d.toNat - (d.toNat &&& m)) + ((x % 2 ^ (8 * g.len)) <<< (8 * g.off)))

/-- Pieces of one line read into a request's data, as one access of their home (R46, R374). -/
def readPieces (s : State) (r : Req) (gs : List Seg) : Req × State :=
  (joinPieces gs).foldl (fun a g =>
    let x := readRaw a.2 g
    ({ a.1 with data := putData a.1.data g x.1 }, x.2))
    ({ r with todo := r.todo.filter (fun g => !gs.contains g) }, addTraffic (countPieces s gs) r.launch gs)

/-! #### Which request an event names (log 17)

An event names a request by its number. Numbers not yet given name what may happen beside the default order: an even one a request
some of whose pieces wait while later ones are performed, an odd one a load whose instruction has not issued. -/

/-- The request that a number names, and how many of its pieces are passed over. -/
def namedReq (s : State) (id : Nat) : Option (Req × Nat) :=
  match findReq s id with
  | some r => some (r, 0)
  | none =>
    let j := (id - s.nextId) / 2
    if id < s.nextId ∨ (id - s.nextId) % 2 = 1 then none else (findReq s (j % s.nextId)).map (fun r => (r, j / s.nextId))

/-- Whether a piece may go before the first `k` of a list: it shares no byte with them (R46, R137). -/
def passes (gs : List Seg) (k : Nat) (g : Seg) : Bool := k == 0 || ((gs.drop k).contains g && !segsMeet (gs.take k) [g])

/-! #### Loads read early (R135, R138, R151; log 17) -/

/-- The operands of a load without a qualifier that give its addresses, and the pieces it then reads. -/
def earlyLoad (v : State) (i : Instr) : Option (List Opnd × (List VReg → Ex (List Seg))) :=
  let scalar := fun (f : I12F) (n : Nat) => (
    if f.ord ≠ 0 then none
    else some ([addrS 1 f.rs1 f.w1], fun vs => do
      let va := ldstAddr (sval vs 0) f n
      aligned va n
      let x ← xlate v .load va n false false
      .ok [oneSeg x n]) : Option (List Opnd × (List VReg → Ex (List Seg))))
  let lanes := fun (f : VF) (ops : List Opnd) (addr : List VReg → Nat → W64) =>
    (some (ops ++ [pmOp f.pm], fun vs => do
      lanesAligned (addr vs) (accessLanes v f)
      laneSegs v .load (addr vs) (accessLanes v f)) : Option (List Opnd × (List VReg → Ex (List Seg))))
  match i with
  | .ld8 f => scalar f 1
  | .ld16 f => scalar f 2
  | .ld32 f => scalar f 4
  | .ld64 f => scalar f 8
  | .ldv f => lanes f [addrS 1 f.vs1 f.w1] (fun vs k => ldvAddr f (sval vs 0) k)
  | .ldvs f => lanes f [addrS 1 f.vs1 f.w1, addrS 2 f.vs2 f.w2] (fun vs k => sval vs 0 + vecOff f + w64 k * sval vs 1)
  | .gather f => lanes f [addrS 1 f.vs1 f.w1, srcV 2 f.vs2 f.w2] (fun vs k => indexAddr f (sval vs 0) (vval vs 1) k)
  | _ => none

/-- A register by class and number, as `Early` names it. -/
def regName (x : Stream) (c : Cls) (code : BitVec 6) : Nat × Nat :=
  match c with
  | .scalar => (0, physScalar x.cwp.win code.toNat)
  | .vector => (1, code.toNat)
  | .pred => (2, code.toNat)

/-- The value of a named register, where it is full. -/
def namedReg (x : Stream) (r : Nat × Nat) : Option VReg :=
  match r.1 with
  | 0 => if sfullAt x r.2 then some ((sget x r.2).setWidth 2048) else none
  | 1 => if vfullAt x r.2 then some (vget x r.2) else none
  | _ => some ((pget x r.2).setWidth 2048)

/-- Engine responses that a stream awaits: consuming one is an acquire (R149). -/
def responseOwed (s : State) (w : StreamId) : Bool :=
  s.freqs.any (fun f => f.agent == .stream w && f.dest != .none) || (getCore s w.core).tasks.any (fun t => t.who == w && t.dest != .none) ||
    s.reqs.any (fun r => r.agent == .stream w && r.unit != 0)

/-- Pieces read into a load's data, each at its place. -/
def readInto (s : State) (gs : List Seg) (d : VReg) : VReg × State :=
  gs.foldl (fun a g => let r := readRaw a.2 g; (putData a.1 g r.1, r.2)) (d, s)

/-- The load at an address of a stream's code, its words fetched ahead, is performed before it issues, where its addresses are ready,
its bytes are no tile of the core, whose table takes accesses as they issue (R109), and no earlier access of the stream holds it
back. -/
def loadEarly (s : State) (w : StreamId) (pc : Nat) : State :=
  let v := { s with cur := w }
  let x := getStream s w
  let word := fun (a : Nat) => ((x.fetched.find? (fun f => f.va == a)).map (·.word)).getD 0
  match (x.fetched.find? (fun f => f.va == pc)).bind (fun f => (decodeWords f.word (word (pc + 4))).toOption.bind (earlyLoad v)) with
  | some (ops, segsOf) =>
    if !canIssue s w || ops.any (fun o => (queueOf o).isSome) || responseOwed s w then s
    else
      match (do let vs ← start v { ops := ops }; let gs ← segsOf vs; .ok (vs, gs) : Ex (List VReg × List Seg)) with
      | .ok (vs, gs) =>
        if (poisonIn v gs).isSome || gs.any (fun g => !(coreTiles v w.core g).isEmpty) || !issueReady v .load false false gs then s
        else
          let r := readInto (addTraffic (countPieces s gs) (curLaunch v) gs) gs 0
          let e : Early := { pc := pc, srcs := (ops.map (fun o => regName x o.cls o.code)).zip vs |>.map (fun p => (p.1.1, p.1.2, p.2)), segs := gs, data := r.1 }
          modStream r.2 w (fun x => { x with early := x.early ++ [e] })
      | .error _ => s
  | none => s

/-- The registers that an instruction writes, where no rule orders a later load behind it: arithmetic, branches, loops, stores, plain
loads and an MWAIT without .acq. -/
def passedDests (i : Instr) : Option (List (Cls × BitVec 6)) :=
  match i with
  | .bc _ | .jmp _ | .loop _ | .loopi _ | .nop _ | .st8 _ | .st16 _ | .st32 _ | .st64 _ | .stv _ | .scatter _ => some []
  | .add f | .sub f | .and f | .andn f | .or f | .xor f | .shl f | .shr f | .sra f | .clz f | .popc f | .mul f | .mulhS64 f | .mulhZ64 f
  | .minS64 f | .minZ64 f | .maxS64 f | .maxZ64 f | .sltS64 f | .sltZ64 f | .sltz f | .sel f | .lea _ f | .mwait f => some [(.scalar, f.rd)]
  | .addi f | .andi f | .ori f | .xori f | .shli f | .shri f | .srai f | .slti f => some [(.scalar, f.rd)]
  | .lui f => some [(.scalar, f.rd)]
  | .li f | .lih f | .addl f => some [(.scalar, f.rd)]
  | .ld8 f | .ld16 f | .ld32 f | .ld64 f => if f.ord = 0 then some [(.scalar, f.rd)] else none
  | .ldv f | .ldvs f | .gather f => some [(.vector, f.vd)]
  | _ => none

/-- Whether a load read early still stands once an instruction that writes `ds` has run: the registers of its addresses are as they
were, and no access of the instruction meets its bytes (R137, R138). -/
def earlyStands (s t : State) (w : StreamId) (ds : List (Cls × BitVec 6)) (e : Early) : Bool :=
  let x := getStream s w
  let y := getStream t w
  e.srcs.all (fun r => namedReg y (r.1, r.2.1) == some r.2.2 && ds.all (fun d => 32 ≤ d.2.toNat || regName x d.1 d.2 != (r.1, r.2.1))) &&
    !(t.reqs.any (fun r => decide (s.nextId ≤ r.id) && r.agent == .stream w && segsMeet (unperformed r) e.segs)) &&
    !(x.monitor.armed && segsMeet [{ pa := x.monitor.pa, len := 8, off := 0, dev := x.monitor.dev }] e.segs)

/-- A load that has just issued takes the bytes read early for it. -/
def takeEarly (s t : State) (w : StreamId) : State :=
  match (getStream s w).early.find? (fun e => e.pc == (getStream s w).pc.toNat), findReq t s.nextId with
  | some e, some r =>
    if r.kind = .load ∧ r.acq = false ∧ r.agent = .stream w ∧ r.todo = e.segs then
      putReq t { r with data := e.segs.foldl (fun d g => putData d g (wbits e.data (8 * g.off) (8 * g.len))) r.data, todo := [] }
    else t
  | _, _ => t

/-- What is left of the loads a stream has read early once its instruction `i` has run from `s` to `t`. -/
def useEarly (s t : State) (w : StreamId) (i : Instr) : State :=
  let x := getStream s w
  let y := getStream t w
  if x.early.isEmpty then t
  else if y.mode != x.mode || y.cwp != x.cwp || y.run != .running || (getCtx t w.core w.ctx).queues != (getCtx s w.core w.ctx).queues then
    modStream t w (fun y => { y with early := [] })
  else if y.wait != .none then modStream t w (fun y => { y with early := x.early.filter (earlyStands s t w []) })
  else
    match passedDests i with
    | some ds => modStream (takeEarly s t w) w (fun y => { y with early := x.early.filter (earlyStands s t w ds) })
    | none => modStream t w (fun y => { y with early := [] })

/-- LOAD_AT_HOME. -/
def loadAtHome (s : State) (id : Nat) : State :=
  match namedReq s id with
  | some (r, k) =>
    if r.kind = .load then
      let x := readPieces s r (nextPieces s r (passes r.todo k))
      settleReq x.2 x.1
    else s
  | none =>
    if s.nextId ≤ id then
      let j := (id - s.nextId) / 2
      loadEarly s { core := j / 8 % 1024, ctx := j / 2 % 4, ap := j % 2 == 1 } (j / 8192 * 4)
    else s

/-! ### Pieces applied (R45, R48, R389) -/

/-- The register a view shows: core, context, and its physical scalar number, or 200 + k for vk. -/
def regView (p : Place) : Option (Nat × Nat × Nat) :=
  match p with
  | .scalar n c r => some (n, c, r)
  | .vector n c v => some (n, c, 200 + v)
  | _ => none

/-- A request without some pieces, which its home has applied. -/
def dropPieces (s : State) (r : Req) (gs : List Seg) : State :=
  let r' := { r with todo := r.todo.filter (fun g => !gs.contains g) }
  let s := settleReq s r'
  if r'.todo.isEmpty then noteRequest s r gs 0 else s

/-- The handle of a slot's copy (R277). -/
def copyHandle (c : Copy) (k : Nat) : W64 := w64 (c.gen * 256 + k)

/-- Sectors of a copy that are issued and not performed. -/
def sectorsInFlight (s : State) (eng k : Nat) : Bool :=
  s.reqs.any (fun r => match r.kind with | .sector e j _ | .regWrite e j _ => e == eng && j == k | _ => false)

/-- A COPY_FAULT not yet taken is withdrawn when its copy leaves STATE 4 (R359). -/
def withdrawFault (s : State) (eng k : Nat) : State :=
  let c := getCopy s eng k
  if eng < 1024 then
    modCtx s c.core c.ctx (fun x => { x with pending := x.pending.filter (fun t => !(t.cause == cCOPY && t.inst == copyHandle c k)) })
  else s

/-- A copy that a pre-emption has asked to stop stands in STATE 3 once its issued sectors are performed; one in STATE 4 keeps
its fault for the resume, as does one that has failed and whose COPY_FAULT is not taken (R73); that COPY_FAULT is withdrawn
(R356, R359). -/
def settleSuspend (s : State) (eng k : Nat) : State :=
  let c := getCopy s eng k
  if !c.suspend || !copyLive c || c.state == 3 || sectorsInFlight s eng k then s
  else
    let owed := decide (eng < 1024) && (getCtx s c.core c.ctx).pending.any (fun t => t.cause == cCOPY && t.inst == copyHandle c k)
    modCopy (withdrawFault s eng k) eng k (fun c => { c with state := 3, pfault := c.pfault || owed || c.state == 4 })

/-- A sector is performed once none of its writes is left; a copy asked to stop may then stand (R356). -/
def sectorDone (s : State) (eng k sec : Nat) : State :=
  let left := s.reqs.any (fun r => match r.kind with
    | .sector e j q | .regWrite e j q => e == eng && j == k && q == sec
    | _ => false)
  if left then s else settleSuspend (modCopy s eng k (fun c => { c with secdone := c.secdone + 1 })) eng k

/-- A request whose register write has been delivered. -/
def windowDone (s : State) (r : Req) (g : Seg) : State :=
  let s := dropPieces s r [g]
  match r.kind with
  | .regWrite eng k sec => sectorDone s eng k sec
  | _ => s

/-! ### Atomics (R245) -/

/-- The new value of an atomic on an operand of `n` bits. -/
def amoNew (op : AmoOp) (n old b e : Nat) : Nat :=
  let sg := toSigned n
  match op with
  | .add => (old + b) % 2 ^ n
  | .minS => if sg b < sg old then b % 2 ^ n else old
  | .minZ => min old (b % 2 ^ n)
  | .maxS => if sg old < sg b then b % 2 ^ n else old
  | .maxZ => max old (b % 2 ^ n)
  | .and => Nat.land old (b % 2 ^ n)
  | .or => Nat.lor old (b % 2 ^ n)
  | .xchg => b % 2 ^ n
  | .snap => 0
  | .cas => if old = e % 2 ^ n then b % 2 ^ n else old

/-- The bytes of a location that takes atomics: memory, or a route counter (R238). -/
def atomicStore (s : State) (pa n x : Nat) : State :=
  match place pa with
  | .route k i =>
    let old := (tget 0 (getCluster s k).routes i).toNat
    let sh := 8 * (pa % 8)
    let w := old - (old &&& ((2 ^ (8 * n) - 1) <<< sh)) + ((x % 2 ^ (8 * n)) <<< sh)
    hitMonitors (modCluster s k (fun c => { c with routes := tset 0 c.routes i (w64 w) })) pa n
  | _ => storeMem s pa n x

/-- ATOMIC_AT_HOME: the read and the write as one act. -/
def atomicAtHome (s : State) (id : Nat) : State :=
  match findReq s id with
  | some r =>
    match r.kind with
    | .atomic op b e =>
      match nextPieces s r (fun _ => true) with
      | g :: _ =>
        let x := readSeg (addTraffic s r.launch [g]) g
        let s := if g.dev = 0 then atomicStore x.2 g.pa g.len (amoNew op (8 * g.len) x.1 b.toNat e.toNat) else x.2
        let d := putData r.data g x.1
        noteRequest (settleReq s { r with data := d, todo := [] }) r [g] d
      | [] => s
    | _ => s
  | none => s

/-! ### Results (R160, R162) -/

/-- The scalar a request's data stands for: `size` bytes, extended (R239). -/
def scalarResult (r : Req) : W64 :=
  let x := wbits r.data 0 (8 * min r.size 8)
  if r.signed && decide (r.size < 8) then w64i (toSigned (8 * r.size) x) else w64 x

/-- Whether the firing of a request is the one its stream's context runs. -/
def sameFiring (s : State) (w : StreamId) (slot fir : Nat) : Bool :=
  match (getCtx s w.core w.ctx).firing with
  | some g => g.slot == slot && g.ord == fir
  | none => decide (slot = 64)

/-- A push may enter its queue: in request order (R149), and there is room. -/
def pushTurn (s : State) (w : StreamId) (id q : Nat) : Bool :=
  !earlier s (.stream w) id (fun r => r.dest == .queue q) &&
    !s.freqs.any (fun f => f.agent == .stream w && decide (f.id < id) &&
      match f.op with | .scan _ _ d _ _ _ _ => d == q | _ => false) &&
    decide ((tget [] (getCtx s w.core w.ctx).queues q).length < queueDepth q)

def pushQueue (s : State) (w : StreamId) (q : Nat) (v : VReg) : State :=
  modCtx s w.core w.ctx (fun c => { c with
    queues := tset [] c.queues q (tget [] c.queues q ++ [v]), pushed := tset 0 c.pushed q (tget 0 c.pushed q + 1) })

/-- An entry pushed by an instruction, which the replay queue then holds (R162, R380). -/
def producePush (s : State) (w : StreamId) (q : Nat) (v : VReg) : State :=
  noteProducer (pushQueue s w q v) w (pushKey (getCtx s w.core w.ctx) q)

/-- A result delivered to a scalar register, with the residue that its producer carried from a mismatched source (R160, R379). -/
def fillScalar (x : Stream) (p : Nat) (v : W64) : Stream :=
  let r := tget 15 x.residue p
  let y := sput x p v
  if 16 ≤ r ∧ r - 16 ≠ v.toNat % 15 ∧ p ≠ 0 then { y with residue := tset 15 y.residue p (r - 16) } else y

/-- A delivered result written to its destination. -/
def fillDest (s : State) (w : StreamId) (r : Req) : State :=
  match r.dest with
  | .none => s
  | .scalar p => modStream s w (fun x => fillScalar x p (scalarResult r))
  | .vector v => noteProducer (modStream s w (fun x => vput x v r.data)) w (64 * bit w.ap + v)
  | .queue q => producePush s w q (if q < 4 then (scalarResult r).setWidth 2048 else r.data)
  | .probe v p found => noteProducer (modStream s w (fun x => pput (vput x v r.data) p found)) w (64 * bit w.ap + v)
  | .codebook => modCtx s w.core w.ctx (fun c => { c with cb := r.data.setWidth 256, cbBusy := c.cbBusy - 1 })
  | .link _ _ => s

/-- Whether a response may arrive: on planes that live (R13, R388), and after those of the same engine to earlier requests
of its agent (R149). -/
def responseTurn (s : State) (r : Req) : Bool :=
  !r.path.any (pieceDead s r) &&
    (r.unit == 0 || !(s.reqs.any (fun q => q.agent == r.agent && q.unit == r.unit && decide (q.id < r.id) && q.dest != .none) ||
      s.freqs.any (fun f => f.agent == r.agent && f.dest != .none && decide (f.id < r.id) && fibreUnit s (headerSeg f) == r.unit) ||
      (r.unit == matrixUnit && taskOwed s r)))
where
  /-- An earlier task of the stream still owes a result. -/
  taskOwed (s : State) (r : Req) : Bool :=
    match r.agent with
    | .stream w => ((getCore s w.core).tasks ++ (getCore s w.core).savedTasks).any (fun t => t.who == w && t.dest != .none && decide (t.id < r.id))
    | _ => false

/-- REGISTER_FILL: a completed producer fills its destination; what belongs to a firing that is over is dropped. A response to
a remote device leaves (R144). -/
def registerFill (s : State) (id : Nat) : State :=
  match findReq s id with
  | some r =>
    match r.agent with
    | .remote _ =>
      match r.dest with
      | .link d tag => if !r.todo.isEmpty || !responseTurn s r then s else dropReq (modDev s (fun v => { v with responses := v.responses ++ [(d, tag, r.data)] })) id
      | _ => s
    | .stream w =>
      if r.dest = .none ∨ !r.todo.isEmpty ∨ !responseTurn s r then s
      else if !sameFiring s w r.slot r.fir then dropReq s id
      else
        match r.dest with
        | .queue q => if pushTurn s w id q then dropReq (fillDest s w r) id else s
        | _ => dropReq (fillDest s w r) id
    | _ => s
  | none => s

/-! ### Monitors, MWAIT, fences (R247, R248, R142) -/

/-- MONITOR_REGISTER. -/
def monitorRegister (s : State) (id : Nat) : State :=
  match findReq s id with
  | some r =>
    match r.kind, r.agent with
    | .monitor, .stream w =>
      if (nextPieces s r (fun _ => true)).isEmpty then s
      else
        -- The home of a remote word keeps the registration there; a hit comes back on the link (R247).
        dropReq (modStream s w (fun x =>
          if x.monitor.armed then { x with monitor := { x.monitor with placed := true } } else x)) id
    | _, _ => s
  | none => s

/-- MWAIT_TIMEOUT: the wait is over once CYCLE reaches its deadline. -/
def mwaitTimeout (s : State) (w : StreamId) : State :=
  match (getStream s w).wait with
  | .mwait d p full => if d ≤ s.cycle && !(launchOf s w).any (fun e => coreStopped s e w.core) then modStream s w (fun x => { x with wait := .mwait 0 p full }) else s
  | _ => s

/-- FENCE_ACK: a path acknowledges once every earlier request of the agent on it has been performed. -/
def fenceAck (s : State) (w : StreamId) (path : Nat) : State :=
  match (getStream s w).fence with
  | some f =>
    let on := fun (g : Seg) => pathOf s.dev (clusterOf w.core) g == path
    let busy := earlier s (.stream w) f.upto (fun r => (unanswered r).any on) || earlierSpill s (.stream w) f.upto (fun b => b.any on) ||
      s.freqs.any (fun q => q.agent == .stream w && isProbe q && decide (q.id < f.upto) && on (headerSeg q))
    if busy then s else modStream s w (fun x => { x with fence := some { f with paths := f.paths.filter (· != path) } })
  | none => s

/-! ### Asynchronous traps (R346) and walks (R349) -/

/-- A stream that can be trapped: it issues, or waits. -/
def trappable (x : Stream) : Bool := x.run == .running && !x.mode.intrap

/-- ASYNC_TRAP: the oldest pending trap of a context, taken by its CP stream at a boundary with INTRAP = 0. -/
def asyncTrap (s : State) (w : StreamId) : State :=
  match (getCtx s w.core w.ctx).pending with
  | t :: r =>
    if !w.ap && trappable (getStream s w) && !streamStopped s w then
      let s := modCtx s w.core w.ctx (fun c => { c with pending := r })
      trapEntry s w t.cause true t.val t.inst
    else s
  | [] => s

/-- TRANSLATION_WALK: one of a die's 64 running walks ends; its leaf enters the cluster's cache, its fault goes to
the streams that wait on it, and the units that wait take either. -/
def walkDone (s : State) (id : Nat) : State :=
  match s.dev.walks.find? (fun k => k.id == id) with
  | some k =>
    let die := k.cluster / 4
    let running := ((s.dev.walks.filter (fun j => j.cluster / 4 == die)).take 64).any (fun j => j.id == id)
    let r := walk s (getDie s die).ptrs k.asid k.root k.va
    if !running || r.reads.any (fun a => pathDead s none { pa := a, len := 8, off := 0 }) then s
    else
      let s := countWalk s r.reads
      let s := modDev s (fun d => { d with walks := d.walks.filter (fun j => j.id != id) })
      let s := modDie s die (fun d => { d with ptrs := (r.ptrs ++ d.ptrs.filter (fun p => !r.ptrs.contains p)).take 256 })
      let ends := k.units.map (fun u => ({ unit := u, asid := k.asid, va := k.va, leaf := r.leaf.toOption,
                                            kind := (match r.leaf with | .error f => f | .ok _ => 0) } : WalkEnd))
      let s := modDev s (fun d => { d with walkEnds := d.walkEnds ++ ends })
      match r.leaf with
      | .ok e =>
        let cls := (k.waiters.map (fun w => clusterOf w.core)).eraseDups
        let s := cls.foldl (fun s c => modCluster s c (fun x => { x with tlb := tlbAdd 4096 x.tlb e })) s
        k.waiters.foldl (fun s w => modStream s w (fun x => match x.wait with | .walk _ _ => { x with wait := .none } | _ => x)) s
      | .error f =>
        k.waiters.foldl (fun s w => modStream s w (fun x =>
          match x.wait with
          -- The fault is for the miss that joined, not for a later wait of a stream that has left it (R346).
          | .walk a v => { x with wait := .none, walkFault := if a = k.asid ∧ v / 65536 = k.va / 65536 then some (a, v, f) else x.walkFault }
          | _ => x)) s
  | none => s

def execAsyncTrap (who : StreamId) (s : State) : Out := event s (fun s => asyncTrap s who)
def execRegisterFill (id : Nat) (s : State) : Out := event s (fun s => registerFill s id)
def execLoadAtHome (id : Nat) (s : State) : Out := event s (fun s => loadAtHome s id)
def execAtomicAtHome (id : Nat) (s : State) : Out := event s (fun s => atomicAtHome s id)
def execMonitorRegister (id : Nat) (s : State) : Out := event s (fun s => monitorRegister s id)
def execMwaitTimeout (who : StreamId) (s : State) : Out := event s (fun s => mwaitTimeout s who)
def execFenceAck (who : StreamId) (path : Nat) (s : State) : Out := event s (fun s => fenceAck s who path)
def execTranslationWalk (id : Nat) (s : State) : Out := event s (fun s => walkDone s id)

end Sys2Proof.Machine
end

