-- ==== Sys2Proof/Machine/Fibre.lean ====
section
/-!
DEFINITION. Sys2Proof/Machine/Fibre.lean: fibres (R59-R68): the instructions that send operations to a fibre's home
(R251-R259) and what the home does with them.
-/

namespace Sys2Proof.Machine

def noneIdx : Nat := 0xFFFFFFFF

/-- Formats a fibre's values can have (R59). -/
def fibFmt (c : Nat) : Bool := c == 0 || c == 1 || c == 2 || c == 9 || c == 10 || c == 11

/-! ### Issue (R251-R259) -/

/-- What the home of a remote device answers to a read (log 14): a length and OVF in bits 32 to 0, a probe's word, or the
lanes and found flags of the active lanes, a miss giving 0. -/
def remoteAnswer (s : State) (op : FOp) (d : Dest) : VReg × Dest × State :=
  match op, d with
  | .len, _ => let w := takeFree s; ((w.1 &&& 0x1FFFFFFFF).setWidth 2048, d, w.2)
  | .probev _ m, .probe v p _ =>
    let w := takeFree s
    let b := freeBytes w.2 256
    let found := w.1 &&& m
    (ofLanes ((upFrom 0 64).map (fun k => if found.getLsbD k then w32 (nbits b.1 (32 * k) 32) else 0)), .probe v p found, b.2)
  | _, _ => let w := takeFree s; (w.1.setWidth 2048, d, w.2)

/-- A fibre operation sent to the home of its header, here or in a remote device (R144). -/
def sendFibre (s : State) (x : Xlated) (va : W64) (op : FOp) (d : Dest) : State :=
  noteRemote (addFReq s { id := 0, agent := curAgent s, core := s.cur.core, launch := curLaunch s, slot := curSlot s, fir := curOrd s
                          asid := curAsid s, hdr := x.pa, dev := x.dev, va := va.toNat, op := op, dest := d })
    [{ dev := x.dev, pa := x.pa, len := 64, off := 0 }]

/-- A header address checked and translated by FIBRE. -/
def fibreHeader (s : State) (va : W64) (writes : Bool) : Ex Xlated := do
  aligned va 64
  xlate s .fibre va 64 writes false

/-- FINIT's operand word rs2 (R252). -/
def finitOk (v : W64) : Bool := wbits v 40 24 == 0 && fibFmt (wbits v 32 4) && poolNamed (wbits v 0 32)

def execFinit (f : R3F) (s : State) : Out :=
  perform s (.finit f) { ops := [{ pos := 0, code := f.rd, cls := .scalar, role := .src, data := true }, addrS 1 f.rs1 f.w1, dataS 2 f.rs2 f.w2] } (fun s v => do
    let d := sval v 0
    let p := sval v 2
    if !finitOk p then trapEx cOPERAND p
    let x ← fibreHeader s (sval v 1) true
    .ok (sendFibre s x (sval v 1) (.init (wbits d 0 32) (wbits d 32 32) (wbits p 0 32) (wbits p 32 4) (wbits p 36 3) (p.getLsbD 39)) .none, .seq))

def execFlen (f : R3F) (s : State) : Out :=
  perform s (.flen f) { ops := [dstS f.rd, addrS 1 f.rs1 f.w1] } (fun s v => do
    let x ← fibreHeader s (sval v 0) false
    let t ← emptyReg s f.rd
    .ok (sendFibre t x (sval v 0) .len (scalarDest s f.rd), .seq))

def execFprobe (f : R3F) (s : State) : Out :=
  perform s (.fprobe f) { ops := [dstS f.rd, addrS 1 f.rs1 f.w1, srcS 2 f.rs2 f.w2] } (fun s v => do
    low32 (sval v 1)
    let x ← fibreHeader s (sval v 0) false
    let t ← emptyReg s f.rd
    .ok (sendFibre t x (sval v 0) (.probe (sval v 1).toNat) (scalarDest s f.rd), .seq))

def execFdel (f : R3F) (s : State) : Out :=
  perform s (.fdel f) { ops := [addrS 1 f.rs1 f.w1, srcS 2 f.rs2 f.w2] } (fun s v => do
    low32 (sval v 1)
    let x ← fibreHeader s (sval v 0) true
    .ok (sendFibre s x (sval v 0) (.delete (sval v 1).toNat) .none, .seq))

def execFpack (f : R3F) (s : State) : Out :=
  perform s (.fpack f) { ops := [addrS 1 f.rs1 f.w1] } (fun s v => do
    let x ← fibreHeader s (sval v 0) true
    .ok (sendFibre s x (sval v 0) .pack .none, .seq))

/-- FINS and FCMB: one merge of Reg(rd) at coordinate rs2. DESIGN CHOICE: where fn 7 and the coordinate both fail, 7 is reported
(log 87). -/
def merge1 (i : Instr) (f : R3F) (op : Nat) (s : State) : Out :=
  perform s i { ops := [{ pos := 0, code := f.rd, cls := .scalar, role := .src, data := true }, addrS 1 f.rs1 f.w1, dataS 2 f.rs2 f.w2] } (fun s v => do
    if op = 7 then trapEx cOPERAND 7
    low32 (sval v 2)
    let x ← fibreHeader s (sval v 1) true
    .ok (sendFibre s x (sval v 1) (.merge op 16 [((sval v 2).toNat, sval v 0)]) .none, .seq))

def execFins (f : R3F) (s : State) : Out := merge1 (.fins f) f 8 s
def execFcmb (op : BitVec 3) (f : R3F) (s : State) : Out := merge1 (.fcmb op f) f op.toNat s

/-- A predicate named by an E-format field. -/
def fieldPred (s : State) (p : Nat) : Ex W64 :=
  if predPending s s.cur p then waitEx .interlock else .ok (pget (curStream s) p)

def execFmrgv (f : EF) (s : State) : Out :=
  perform s (.fmrgv f) { ops := [srcV 0 f.rd f.w, addrS 1 f.rs1 f.w, srcV 2 f.rs2 f.w] } (fun s v => do
    let m ← fieldPred s (f.bits 15 3)
    if f.bits 22 4 = 7 then trapEx cOPERAND 7
    let x ← fibreHeader s (sval v 1) true
    let ls := (activeLanes m).map (fun k => ((lane (vval v 2) k).toNat, zext64 (lane (vval v 0) k)))
    .ok (sendFibre s x (sval v 1) (.merge (f.bits 22 4) (f.bits 18 4) ls) .none, .seq))

def execFprobev (f : EF) (s : State) : Out :=
  perform s (.fprobev f) { ops := [dstV f.rd, addrS 1 f.rs1 f.w, srcV 2 f.rs2 f.w] } (fun s v => do
    let m ← fieldPred s (f.bits 20 3)
    if predPending s s.cur (f.bits 23 3) then waitEx .interlock
    let x ← fibreHeader s (sval v 0) false
    let t ← emptyVec s f.rd
    .ok (sendFibre t x (sval v 0) (.probev (vval v 1) m) (.probe f.rd.toNat (f.bits 23 3) 0), .seq))

/-- FSCAN into a queue of an AP stream (DK 0). DESIGN CHOICE: of several operand values that fail, rd's code is reported before the
start, and the start before the count (log 87). -/
def scanQueue (f : EF) (s : State) : Out :=
  perform s (.fscan f) { apOnly := true, ops := [{ pos := 0, code := f.rd, cls := .scalar, role := .dstQ }, addrS 1 f.rs1 f.w, srcS 2 f.rs2 f.w, srcS 3 f.rs3 f.w] }
    (fun s v => do
      if f.rd.toNat < 32 then trapEx cOPERAND (zext64 f.rd)
      low32 (sval v 1)
      low32 (sval v 2)
      let x ← fibreHeader s (sval v 0) false
      let q := f.rd.toNat - 32
      if scanInto s s.cur q then waitEx (.queue q)
      .ok (sendFibre s x (sval v 0) (.scan (sval v 1).toNat (sval v 2).toNat q 0 0 { pa := 0, len := 0, off := 0 } []) .none, .seq))

/-- FSCAN to memory (DK 1). -/
def scanMemory (f : EF) (s : State) : Out :=
  perform s (.fscan f) { ops := [{ pos := 0, code := f.rd, cls := .scalar, role := .src, w := f.w, addr := true }, addrS 1 f.rs1 f.w, srcS 2 f.rs2 f.w, srcS 3 f.rs3 f.w] }
    (fun s v => do
      low32 (sval v 2)
      low32 (sval v 3)
      aligned (sval v 0) 16
      let x ← fibreHeader s (sval v 1) false
      let d ← xlate s .store (sval v 0) 8 true false
      let va := (sval v 0).toNat
      .ok (sendFibre s x (sval v 1) (.scan (sval v 2).toNat (sval v 3).toNat 8 va (va / 65536)
        { dev := d.dev, pa := d.pa - va % 65536, len := 65536, off := 0 } []) .none, .seq))

def execFscan (f : EF) (s : State) : Out := if f.bits 25 1 = 0 then scanQueue f s else scanMemory f s

def execFunion (f : EF) (s : State) : Out :=
  perform s (.funion f) { ops := [{ pos := 0, code := f.rd, cls := .scalar, role := .src, w := f.w, addr := true }, addrS 1 f.rs1 f.w, addrS 2 f.rs2 f.w, addrS 3 f.rs3 f.w] }
    (fun s v => do
      if f.bits 22 4 = 7 then trapEx cOPERAND 7
      aligned (sval v 0) 64
      aligned (sval v 1) 64
      aligned (sval v 2) 64
      if sval v 3 ≠ 0 then aligned (sval v 3) 8
      let c ← xlate s .fibre (sval v 0) 64 true false
      let a ← xlate s .fibre (sval v 1) 64 false false
      let b ← xlate s .fibre (sval v 2) 64 false false
      let at64 := fun (x : Xlated) (n : Nat) => ({ dev := x.dev, pa := x.pa, len := n, off := 0 } : Seg)
      let st ← if sval v 3 ≠ 0 then (xlate s .store (sval v 3) 8 true false).map (at64 · 8) else .ok { pa := 0, len := 0, off := 0 }
      .ok (sendFibre s c (sval v 0)
        (.union (at64 a 64) (at64 b 64) (sval v 1).toNat (sval v 2).toNat (f.bits 22 4) (f.bits 21 1 == 1) st 0 (sval v 3).toNat (f.bits 0 16)) .none, .seq))

/-! ### Values (R62, R64, R256) -/

def fibNaN (fmt x : Nat) : Bool := isFloat fmt && (readFloat fmt x).isNaN
def fibCanon (fmt x : Nat) : Nat := if fibNaN fmt x then canonNaN fmt else x
/-- Zero(x): integer 0 and ±0. -/
def fibZero (fmt x : Nat) : Bool := if isFloat fmt then (readFloat fmt x).isZero else x == 0

/-- Position of a value in the order of MIN and MAX, -0 below +0. -/
def fibKey (fmt x : Nat) : Int :=
  let w := fmtWidth fmt
  if isFloat fmt then (if x < 2 ^ (w - 1) then (x : Int) else -((x - 2 ^ (w - 1) : Nat) : Int) - 1)
  else if fmt = 10 then (x : Int) else toSigned w x

/-- Combine(OP, old, v) (R62). -/
def combine (op fmt old v : Nat) : Nat :=
  let w := fmtWidth fmt
  match op with
  | 0 => v
  | 1 =>
    if isFloat fmt then
      match addVals 0 [readFloat fmt old, readFloat fmt v] with
      | .nan _ => canonNaN fmt
      | .inf g => infBits fmt g
      | .fin _ 0 _ => 0
      | x => (convert fmt 0 false 0 x).bits
    else (old + v) % 2 ^ w
  | 2 => if fibNaN fmt old || fibNaN fmt v then canonNaN fmt else if fibKey fmt v < fibKey fmt old then v else old
  | 3 => if fibNaN fmt old || fibNaN fmt v then canonNaN fmt else if fibKey fmt old < fibKey fmt v then v else old
  | 4 => Nat.lor old v
  | 5 => Nat.land old v
  | _ => old

/-- A value as it enters a fibre: as it stands for the header's own format, else converted; none where it is rejected. -/
def enterValue (fmt vt : Nat) (scale : BitVec 8) (x : W64) : Option Nat :=
  if vt = 16 ∨ vt = fmt then some (x.toNat % 2 ^ fmtWidth fmt)
  else
    let y := readElem vt (x.toNat % 2 ^ fmtWidth vt)
    if fmt = 11 then
      match scale2 (-scale.toInt) y with
      | .nan _ => none
      | .inf g => some (if g then 2 ^ 63 else 2 ^ 63 - 1)
      | .fin g m e => some (if m = 0 then 0 else (roundInt 11 0 0 g { m := m, e := e }).bits)
    else some (convert fmt 0 false 0 y).bits

/-! ### Headers and pods (R59-R61) -/

/-- Why an operation does not apply at its home. -/
inductive FErr where
  /-- A page it needs does not translate. -/
  | park (va : Nat)
  /-- It needs a pod and the pool has none. -/
  | stall
  /-- It waits for a migrating sector, or a stack's table. -/
  | hold
  /-- It waits for the die's walker (R349). -/
  | walk (asid va : Nat)
  | malformed (va : Nat)
  | poison
  /-- Rejected: OVF is set, nothing else changes. -/
  | reject
  deriving DecidableEq, Repr

/-- An act of a home on the state; after an error only what it has read stands. -/
abbrev FM := ExceptT FErr (StateM State)

def FM.fail {α : Type} (e : FErr) : FM α := throw e

/-- An act carried out: its result with the state after it, or its error with the state as it was but for the units that the stacks
have served, what their translation caches hold, and the walks' results taken (R348, R349, R374). -/
def FM.exec {α : Type} (a : FM α) (s : State) : Except (FErr × State) (α × State) :=
  match (ExceptT.run a).run s with
  | (.ok x, t) => .ok (x, t)
  | (.error e, t) => .error (e, { s with hbm := t.hbm, dev := { s.dev with walkEnds := t.dev.walkEnds } })

/-- A header's fields; `dir` are its five entries (MIN, pod index). -/
structure FHdr where
  len : Nat := 0
  npod : Nat := 0
  fmt : Nat := 0
  op : Nat := 0
  zp : Bool := false
  ovf : Bool := false
  lv : Bool := false
  resv : Nat := 0
  cap : Nat := 0
  maxc : Nat := 0
  ver : Nat := 0
  pool : Nat := 0
  dir : List (Nat × Nat) := []
  deriving DecidableEq, Repr

/-- (MIN, index) entries up to the first unused one. -/
def liveEntries (d : List (Nat × Nat)) : List (Nat × Nat) := d.takeWhile (fun e => !(e.1 == noneIdx && e.2 == noneIdx))
/-- Entries padded to `n` with unused ones. -/
def padEntries (n : Nat) (d : List (Nat × Nat)) : List (Nat × Nat) := d ++ List.replicate (n - d.length) (noneIdx, noneIdx)

/-- Entries of `n` 8-byte words from bit `o` of a block. -/
def entriesAt (x o n : Nat) : List (Nat × Nat) := (upFrom 0 n).map (fun i => (nbits x (o + 64 * i) 32, nbits x (o + 64 * i + 32) 32))
/-- Entries as packed words. -/
def entryWords (d : List (Nat × Nat)) : Nat := packNat 64 (d.map (fun e => e.1 + 2 ^ 32 * e.2))

def decodeHdr (x : Nat) : FHdr :=
  { len := nbits x 0 32, npod := nbits x 32 16, fmt := nbits x 48 4, op := nbits x 52 3, zp := x.testBit 55
    ovf := x.testBit 56, lv := x.testBit 57, resv := nbits x 58 6, cap := nbits x 64 32, maxc := nbits x 96 32
    ver := nbits x 128 32, pool := nbits x 160 32, dir := liveEntries (entriesAt x 192 5) }

def encodeHdr (h : FHdr) : Nat :=
  packNat 32 [h.len, h.npod % 2 ^ 16 + h.fmt * 2 ^ 16 + h.op * 2 ^ 20 + bit h.zp * 2 ^ 23 + bit h.ovf * 2 ^ 24 + bit h.lv * 2 ^ 25
      + h.resv * 2 ^ 26, h.cap, h.maxc, h.ver, h.pool] + 2 ^ 192 * entryWords (padEntries 5 h.dir)

/-- A malformed header (R59). -/
def hdrBad (h : FHdr) : Bool := !poolNamed h.pool || !fibFmt h.fmt || h.resv != 0

/-- A pod: NEXT and its entries in ascending order (R60, R61). -/
structure Pod where
  next : Nat := 0xFFFFFFFF
  ents : List (Nat × Nat) := []
  deriving DecidableEq, Repr

/-- Entries a data pod of a format holds. -/
def podCap (fmt : Nat) : Nat := if fmt = 11 then 15 else 31

def decodePod (fx : Bool) (x : Nat) : Pod :=
  let n := min (nbits x 32 8) (if fx then 15 else 31)
  { next := nbits x 0 32
    ents := (upFrom 0 n).map (fun i =>
      if fx then (nbits x (64 + 128 * i) 32, nbits x (64 + 128 * i + 64) 64) else (nbits x (64 + 64 * i) 32, nbits x (64 + 64 * i + 32) 32)) }

/-! ### The home's accesses -/

/-- The home of a header: the stack that serves it, or the fibre unit of the cluster whose scratchpad holds it (R65). -/
inductive FibHome where
  | stack (k : Nat)
  | cluster (c : Nat)

def fibHome (s : State) (pa : Nat) : FibHome :=
  match coreOfPa pa with
  | some n => .cluster (clusterOf n)
  | none => .stack (stackOf s.dev pa).1

def homeTlb (s : State) : FibHome → List TlbEntry
  | .stack k => (getStack s k).tlb
  | .cluster c => (getCluster s c).fibTlb
def addHomeTlb (s : State) (h : FibHome) (e : TlbEntry) : State :=
  match h with
  | .stack k => modStack s k (fun x => { x with tlb := tlbAdd 256 x.tlb e })
  | .cluster c => modCluster s c (fun x => { x with fibTlb := tlbAdd 256 x.fibTlb e })
/-- The home's die: two stacks and four clusters to a die (R9). -/
def homeDieOf : FibHome → Nat
  | .stack k => k / 2
  | .cluster c => c / 4
/-- The home as a unit that translates. -/
def homeUnit : FibHome → WalkUnit
  | .stack k => .home (1 + k)
  | .cluster c => .home (16 + c)
/-- Table pointers of the home's die. -/
def homePtrs (s : State) (h : FibHome) : List PtrEntry := (getDie s (homeDieOf h)).ptrs

/-- A virtual address translated by the home (R68). DESIGN CHOICE: a page that is mapped but fails otherwise, by its
permissions or a malformed entry, parks like one that is not mapped (log 80). A miss may have to wait for the die's walker
(R349). -/
def fibXlate (h : FibHome) (asid va n : Nat) (a : Access) (writes : Bool) : FM Xlated := do
  let s ← get
  let u := homeUnit h
  if unitWaits s u (homeTlb s h) (homeDieOf h) asid va then FM.fail (.walk asid va)
  let t := takeEnd (countWalk s (unitReads s u (homeTlb s h) (homePtrs s h) asid va)) u asid va
  set t
  match unitXlate s u (homeTlb s h) (homePtrs s h) asid va a n writes with
  | .error _ => FM.fail (.park va)
  | .ok (x, e) =>
    set (match e with | some e => addHomeTlb t h e | none => t)
    return x

/-- Pod index `i` of a pool; a pod on a page of a remote device parks too (log 80). -/
def podPa (h : FibHome) (pool i : Nat) (writes : Bool) : FM Nat := do
  let p := getPool (← get) pool
  let x ← fibXlate h p.asid (p.base + i * 256) 256 .fibre writes
  if x.dev ≠ 0 then FM.fail (.park (p.base + i * 256))
  return x.pa

/-- A read of the home; a poisoned word is not used (R381). -/
def fibRead (pa n : Nat) : FM Nat := do
  let s ← get
  set (countBursts s pa n)
  if (poisonedAt s pa n).isSome then FM.fail .poison
  return memRead s pa n
/-- A write of the home; it waits for a migrating sector (R362). -/
def fibWrite (pa n x : Nat) : FM Unit := do
  let s ← get
  if redirectHeld s.dev pa n then FM.fail .hold
  set (countBursts (storeMem s pa n x) pa n)

def readHdr (pa : Nat) : FM FHdr := do return decodeHdr (← fibRead pa 64)
def writeHdr (pa : Nat) (h : FHdr) : FM Unit := fibWrite pa 64 (encodeHdr h)

/-- A pod read by an operation that writes the fibre or that only reads it (R237). -/
def readPod (h : FibHome) (pool : Nat) (fx wr : Bool) (i : Nat) : FM Pod := do
  let pa ← podPa h pool i wr
  let x ← fibRead pa 256
  return decodePod fx x

/-- A data pod written: NEXT, CNT and the live entries; other entries' bytes stay (log 30). -/
def writePod (h : FibHome) (pool : Nat) (fx : Bool) (i : Nat) (p : Pod) : FM Unit := do
  let pa ← podPa h pool i true
  let es := if fx then packNat 128 (p.ents.map (fun e => e.1 % 2 ^ 32 + 2 ^ 64 * e.2)) else entryWords p.ents
  fibWrite pa (8 + (if fx then 16 else 8) * p.ents.length) (p.next % 2 ^ 32 + p.ents.length * 2 ^ 32 + 2 ^ 64 * es)

/-- A directory pod written: NEXT, CNT and all 31 entries (R61). -/
def writeDir (h : FibHome) (pool i : Nat) (p : Pod) : FM Unit := do
  let pa ← podPa h pool i true
  fibWrite pa 256 (p.next % 2 ^ 32 + p.ents.length * 2 ^ 32 + 2 ^ 64 * entryWords (padEntries 31 p.ents))

/-! ### The pool (R63, R66, R67) -/

/-- A pool's free count changed; a fall below the watermark tells the driver (R67). -/
def setFree (s : State) (pool n : Nat) : State :=
  let p := getPool s pool
  let s := modPool s pool (fun p => { p with freecnt := n })
  if p.wmark ≤ p.freecnt ∧ n < p.wmark then driverEvent s 2 0 0 pool 0 (w64 n) else s

/-- The first pod of the donated runs; the runs without it (R295). -/
def runHead (rs : List (Nat × Nat)) : Nat := match rs with | r :: _ => r.1 | [] => noneIdx
def dropRun (rs : List (Nat × Nat)) : List (Nat × Nat) :=
  match rs with
  | r :: t => if r.2 ≤ 1 then t else (r.1 + 1, r.2 - 1) :: t
  | [] => []

/-- A pod taken from the head of the free list: a donated one is not read, only translated (R295). -/
def allocPod (h : FibHome) (pool : Nat) : FM Nat := do
  let p := getPool (← get) pool
  if p.freecnt = 0 then FM.fail .stall
  let pa ← podPa h pool p.freehead true
  let r := dropRun p.runs
  if (p.runs.head?).any (fun x => x.1 == p.freehead) then
    modify (fun s => modPool (setFree s pool (p.freecnt - 1)) pool (fun q => { q with freehead := runHead r, runs := r }))
  else
    let nx ← fibRead pa 4
    modify (fun s => modPool (setFree s pool (p.freecnt - 1)) pool (fun q => { q with freehead := if nx = noneIdx then runHead p.runs else nx }))
  return p.freehead

/-- A pod returned to the head of the free list (R63). -/
def freePod (h : FibHome) (pool i : Nat) : FM Unit := do
  let p := getPool (← get) pool
  let pa ← podPa h pool i true
  fibWrite pa 4 p.freehead
  modify (fun s => modPool (setFree s pool (p.freecnt + 1)) pool (fun q => { q with freehead := i }))

/-! ### Finding a pod (R61) -/

/-- Position of the last entry whose MIN is at most `c`. -/
def lastAtMost (d : List (Nat × Nat)) (c : Nat) : Option Nat :=
  let n := (d.filter (fun e => e.1 ≤ c)).length
  if n = 0 then none else some (n - 1)

/-- Where a data pod stands: its index, the header entry, the directory pod of LV = 1 with its own index, the place in
that level. -/
structure Loc where
  pod : Nat
  top : Nat
  dir : Option (Nat × Pod) := none
  pos : Nat
  deriving Repr

/-- The last data pod of the first `n` directory pods of a header whose MIN is at most `c` (R61). -/
def locateDir (h : FibHome) (x : FHdr) (wr : Bool) (c : Nat) (n : Nat) : FM (Option Loc) :=
  match n with
  | 0 => return none
  | i + 1 => do
    let b := (x.dir.getD i (0, noneIdx)).2
    let d ← readPod h x.pool false wr b
    match lastAtMost d.ents c with
    | some j => return some { pod := (d.ents.getD j (0, noneIdx)).2, top := i, dir := some (b, d), pos := j }
    | none => locateDir h x wr c i

/-- The data pod for a coordinate, the last whose MIN is at most it (R61), for an operation that writes or only reads; none
in a fibre without pods. -/
def locate (h : FibHome) (x : FHdr) (wr : Bool) (c : Nat) : FM (Option Loc) := do
  match lastAtMost x.dir c with
  | none => return none
  | some i => if x.lv then locateDir h x wr c (i + 1) else return some { pod := (x.dir.getD i (0, noneIdx)).2, top := i, pos := i }

/-- The directory pod whose header entry covers MIN `m` of a new data pod after place `l`, with its index (R61, R63). -/
def coveringDir (h : FibHome) (x : FHdr) (l : Loc) (m : Nat) : FM (Option (Nat × Pod)) := do
  match l.dir with
  | none => return none
  | some d =>
    let i := (lastAtMost x.dir m).getD l.top
    if i = l.top then return some d
    else
      let b := (x.dir.getD i (0, noneIdx)).2
      return some (b, ← readPod h x.pool false true b)

/-- The data pod before a place, if any. -/
def podBefore (h : FibHome) (x : FHdr) (l : Loc) : FM (Option Nat) := do
  match l.dir with
  | none => return if l.pos = 0 then none else some (x.dir.getD (l.pos - 1) (0, noneIdx)).2
  | some (_, d) =>
    if l.pos ≠ 0 then return some (d.ents.getD (l.pos - 1) (0, noneIdx)).2
    else if l.top = 0 then return none
    else
      let p ← readPod h x.pool false true (x.dir.getD (l.top - 1) (0, noneIdx)).2
      return some (p.ents.getD (p.ents.length - 1) (0, noneIdx)).2

/-! ### Inserting (R63) -/

/-- An entry inserted at its place by coordinate. -/
def putEntry (d : List (Nat × Nat)) (e : Nat × Nat) : List (Nat × Nat) :=
  d.filter (fun a => a.1 < e.1) ++ [e] ++ d.filter (fun a => e.1 < a.1)

/-- Whether one more data pod, entered in directory pod `t` of LV = 1, would break R63: a 156th data pod, or a sixth
directory pod. -/
def podsExhausted (x : FHdr) (t : Option (Nat × Pod)) : Bool :=
  decide (155 ≤ x.npod) || t.any (fun p => decide (31 ≤ p.2.ents.length ∧ 5 ≤ x.dir.length))

/-- A directory entry for a new data pod: in the header, or in the directory pod `t` that covers it, which is split when it is
full; the directory grows when a sixth data pod is needed. -/
def addDirEntry (h : FibHome) (x : FHdr) (t : Option (Nat × Pod)) (e : Nat × Nat) : FM FHdr := do
  match t with
  | none =>
    if x.dir.length < 5 then return { x with dir := putEntry x.dir e }
    else
      let d ← allocPod h x.pool
      writeDir h x.pool d { ents := putEntry x.dir e }
      return { x with lv := true, dir := [(0, d)] }
  | some (i, d) =>
    if d.ents.length < 31 then
      writeDir h x.pool i { d with ents := putEntry d.ents e }
      return x
    else
      let j ← allocPod h x.pool
      let lo := d.ents.take 16
      let hi := d.ents.drop 16
      let m := (hi.headD (0, 0)).1
      writeDir h x.pool i { next := j, ents := if m ≤ e.1 then lo else putEntry lo e }
      writeDir h x.pool j { next := d.next, ents := if m ≤ e.1 then putEntry hi e else hi }
      return { x with dir := putEntry x.dir (m, j) }

/-- A new entry placed (R63). -/
def insertEntry (h : FibHome) (x : FHdr) (l : Option Loc) (e : Nat × Nat) : FM FHdr := do
  let fx := x.fmt = 11
  match l with
  | none =>
    let i ← allocPod h x.pool
    writePod h x.pool fx i { ents := [e] }
    return { x with len := x.len + 1, npod := x.npod + 1, dir := [(0, i)] }
  | some l =>
    let p ← readPod h x.pool fx true l.pod
    if p.ents.length < podCap x.fmt then
      writePod h x.pool fx l.pod { p with ents := putEntry p.ents e }
      return { x with len := x.len + 1 }
    else
      let k := if fx then 8 else 16
      let lo := p.ents.take k
      let hi := p.ents.drop k
      let m := (hi.headD (0, 0)).1
      let d ← coveringDir h x l m
      if podsExhausted x d then FM.fail .reject
      let i ← allocPod h x.pool
      writePod h x.pool fx l.pod { next := i, ents := if m ≤ e.1 then lo else putEntry lo e }
      writePod h x.pool fx i { next := p.next, ents := if m ≤ e.1 then putEntry hi e else hi }
      let x ← addDirEntry h x d (m, i)
      return { x with len := x.len + 1, npod := x.npod + 1 }

/-! ### Removing (R63) -/

/-- Entry `k` removed; where it was the first of all, its successor's MIN becomes 0. -/
def dropEntry (d : List (Nat × Nat)) (k : Nat) (first : Bool) : List (Nat × Nat) :=
  match d.eraseIdx k with
  | [] => []
  | (m, i) :: r => if first ∧ k = 0 then (0, i) :: r else (m, i) :: r

/-- An emptied data pod unlinked and freed, with its directory entry, and a directory pod left without one. -/
def removePod (h : FibHome) (x : FHdr) (l : Loc) (next : Nat) : FM FHdr := do
  let fx := x.fmt = 11
  match ← podBefore h x l with
  | some b =>
    let q ← readPod h x.pool fx true b
    writePod h x.pool fx b { q with next := next }
  | none => pure ()
  freePod h x.pool l.pod
  let x := { x with npod := x.npod - 1 }
  match l.dir with
  | none => return { x with dir := dropEntry x.dir l.pos true }
  | some (i, d) =>
    let ents := dropEntry d.ents l.pos (l.top = 0)
    if ents.isEmpty then
      if l.top ≠ 0 then
        let b := (x.dir.getD (l.top - 1) (0, noneIdx)).2
        let q ← readPod h x.pool false true b
        writeDir h x.pool b { q with next := d.next }
      freePod h x.pool i
      let dir := dropEntry x.dir l.top true
      -- The successor of a first directory pod now holds the fibre's first data pod.
      if l.top = 0 ∧ !dir.isEmpty then
        let n := (dir.headD (0, noneIdx)).2
        let q ← readPod h x.pool false true n
        writeDir h x.pool n { q with ents := match q.ents with | [] => [] | (_, j) :: r => (0, j) :: r }
      return { x with dir := dir, lv := !dir.isEmpty }
    else
      writeDir h x.pool i { d with ents := ents }
      return x

/-- Entry `c` removed from its pod. -/
def removeEntry (h : FibHome) (x : FHdr) (l : Loc) (p : Pod) (c : Nat) : FM FHdr := do
  let ents := p.ents.filter (fun e => e.1 != c)
  let x := { x with len := x.len - 1 }
  if ents.isEmpty then removePod h x l p.next
  else
    writePod h x.pool (x.fmt = 11) l.pod { p with ents := ents }
    return x

/-! ### Merges and deletions (R62) -/

/-- One merge under `op` of a value in the fibre's format. -/
def mergeOne (h : FibHome) (pa : Nat) (x : FHdr) (op c v : Nat) : FM Unit := do
  if x.maxc < c ∨ c = noneIdx then FM.fail .reject
  let v := fibCanon x.fmt v
  let l ← locate h x true c
  let pod ← match l with
    | some l => readPod h x.pool (x.fmt = 11) true l.pod
    | none => pure {}
  let y ← match l, pod.ents.find? (fun e => e.1 == c) with
    | some l, some (_, old) =>
      let n := combine op x.fmt old v
      if x.zp && fibZero x.fmt n then removeEntry h x l pod c
      else do
        writePod h x.pool (x.fmt = 11) l.pod { pod with ents := pod.ents.map (fun e => if e.1 = c then (c, n) else e) }
        pure x
    | l, _ =>
      if x.zp && fibZero x.fmt v then pure x
      else if x.len = x.cap then FM.fail .reject
      else insertEntry h x l (c, v)
  writeHdr pa { y with ver := bump y.ver 1 }

/-- A merge of `(c, v)` in format `vt` to the fibre at `pa` (R62, R256); it stalls while its pool is below the watermark
(R67). -/
def mergeAct (h : FibHome) (pa va op vt c : Nat) (v : W64) : FM Unit := do
  let x ← readHdr pa
  if hdrBad x then FM.fail (.malformed va)
  let p := getPool (← get) x.pool
  if p.freecnt < p.wmark then FM.fail .stall
  let op := if op = 8 then x.op else op
  if op = 7 then FM.fail .reject
  match enterValue x.fmt vt (getPool (← get) x.pool).scale v with
  | none => FM.fail .reject
  | some v => mergeOne h pa x op c v

/-- A rejected merge sets OVF; nothing else changes. -/
def rejectAct (pa : Nat) : FM Unit := do
  let x ← readHdr pa
  writeHdr pa { x with ovf := true }

/-- FDEL at the home. -/
def deleteAct (h : FibHome) (pa va c : Nat) : FM Unit := do
  let x ← readHdr pa
  if hdrBad x then FM.fail (.malformed va)
  let l ← locate h x true c
  let y ← match l with
    | none => pure x
    | some l => do
      let pod ← readPod h x.pool (x.fmt = 11) true l.pod
      if pod.ents.any (fun e => e.1 == c) then removeEntry h x l pod c else pure x
  writeHdr pa { y with ver := bump y.ver 1 }

/-- FINIT at the home: the whole header, the old one unread (R252). -/
def initAct (pa cap maxc pool fmt op : Nat) (zp : Bool) : FM Unit :=
  writeHdr pa { fmt := fmt, op := op, zp := zp, cap := cap, maxc := maxc, pool := pool }

/-! ### FPACK (R254) -/

/-- Every data pod's index in order, and the directory pods. -/
def allPods (h : FibHome) (x : FHdr) : FM (List Nat × List Nat) := do
  if !x.lv then return (x.dir.map (·.2), [])
  else
    let ds ← x.dir.mapM (fun e => readPod h x.pool false true e.2)
    return (ds.flatMap (fun d => d.ents.map (·.2)), x.dir.map (·.2))

/-- A list cut into pieces of `k`. -/
def podChunks {α : Type} (fuel k : Nat) (xs : List α) : List (List α) :=
  match fuel with
  | 0 => []
  | n + 1 => if xs.isEmpty then [] else xs.take k :: podChunks n k (xs.drop k)

/-- Pods written as a chain, each linked to the next. -/
def writeChain (write : Nat → Pod → FM Unit) (ps : List (Nat × List (Nat × Nat))) : FM Unit :=
  match ps with
  | [] => pure ()
  | (i, es) :: r => do
    write i { next := (r.map (·.1)).headD noneIdx, ents := es }
    writeChain write r

/-- MIN and index of packed pods; the first has MIN 0. -/
def packedDir (ps : List (Nat × List (Nat × Nat))) : List (Nat × Nat) :=
  ps.zipIdx.map (fun p => (if p.2 = 0 then 0 else ((p.1.2).headD (0, 0)).1, p.1.1))

/-- FPACK at the home. DESIGN CHOICE: emptied data pods return to the free list in chain order, then directory pods in
theirs (log 80). -/
def packAct (h : FibHome) (pa va : Nat) : FM Unit := do
  let x ← readHdr pa
  if hdrBad x then FM.fail (.malformed va)
  let fx := x.fmt = 11
  let (ids, ds) ← allPods h x
  let pods ← ids.mapM (readPod h x.pool fx true)
  let kept := ids.zip (podChunks 200 (podCap x.fmt) (pods.flatMap (·.ents)))
  writeChain (writePod h x.pool fx) kept
  (ids.drop kept.length).forM (freePod h x.pool)
  let dir := packedDir kept
  let x := { x with npod := kept.length, ver := bump x.ver 1 }
  if dir.length ≤ 5 then
    ds.forM (freePod h x.pool)
    writeHdr pa { x with lv := false, dir := dir }
  else
    let top := ds.zip (podChunks 8 31 dir)
    writeChain (writeDir h x.pool) top
    (ds.drop top.length).forM (freePod h x.pool)
    writeHdr pa { x with dir := packedDir top }

/-! ### Probes (R251, R253, R257) -/

/-- The value of a coordinate. -/
def lookup (h : FibHome) (x : FHdr) (c : Nat) : FM (Option Nat) := do
  match ← locate h x false c with
  | none => return none
  | some l =>
    let p ← readPod h x.pool (x.fmt = 11) false l.pod
    return (p.ents.find? (fun e => e.1 == c)).map (·.2)

/-- FPROBE's rd. -/
def probeWord (fmt : Nat) (r : Option Nat) : Nat :=
  match r with
  | none => 0
  | some v => if fmt = 11 then v else v % 2 ^ 32 + 2 ^ 32

/-- FPROBEV's lane: an FX64 value clamped to the S32 range. -/
def probeLane (fmt : Nat) (r : Option Nat) : W32 :=
  match r with
  | none => 0
  | some v => if fmt = 11 then BitVec.ofInt 32 (clampInt (toSigned 64 v) (-(2 ^ 31)) (2 ^ 31 - 1)) else w32 v

/-- A read of a fibre: the data and the found flags. -/
def probeAct (h : FibHome) (pa va : Nat) (op : FOp) : FM (VReg × W64) := do
  let x ← readHdr pa
  if hdrBad x then FM.fail (.malformed va)
  match op with
  | .len => return (BitVec.ofNat 2048 (x.len + bit x.ovf * 2 ^ 32), 0)
  | .probe c =>
    let r ← lookup h x c
    return (BitVec.ofNat 2048 (probeWord x.fmt r), 0)
  | .probev cs m =>
    let rs ← (upFrom 0 64).mapM (fun k => if active m k then lookup h x (lane cs k).toNat else pure none)
    return (ofLanes (rs.map (probeLane x.fmt)), BitVec.ofNat 64 (packNat 1 (rs.map (fun r => bit r.isSome))))
  | _ => return (0, 0)

/-! ### Scans (R258) -/

/-- The words of one entry. -/
def scanWords (fmt : Nat) (e : Nat × Nat) : List W64 :=
  if fmt = 11 then [w64 (e.1 % 2 ^ 32), w64 e.2] else [w64 (e.1 % 2 ^ 32 + 2 ^ 32 * (e.2 % 2 ^ 32))]

/-- The entries at or past `c` of the next pod that has some; none past the last. -/
def nextEntries (h : FibHome) (x : FHdr) (c : Nat) : FM (List (Nat × Nat)) := do
  match ← locate h x false c with
  | none => return []
  | some l =>
    let p ← readPod h x.pool (x.fmt = 11) false l.pod
    let es := p.ents.filter (fun e => c ≤ e.1)
    if !es.isEmpty || p.next = noneIdx then return es
    else
      let q ← readPod h x.pool (x.fmt = 11) false p.next
      return q.ents.filter (fun e => c ≤ e.1)

/-- One pod of a scan read: the words to deliver, the next coordinate, the entries still to read. -/
def scanAct (h : FibHome) (pa va next left : Nat) : FM (List W64 × Nat × Nat) := do
  let x ← readHdr pa
  if hdrBad x then FM.fail (.malformed va)
  let es ← nextEntries h x next
  match es.take left with
  | [] => return (scanWords x.fmt (noneIdx, 0), next, 0)
  | ts => return (ts.flatMap (scanWords x.fmt), ((ts.getLastD (0, 0)).1) + 1, left - ts.length)

/-! ### FUNION (R259) -/

/-- Whether one more data pod takes a directory pod (R63). -/
def dirGrows (x : FHdr) (t : Option (Nat × Pod)) : Bool :=
  match t with
  | none => decide (5 ≤ x.dir.length)
  | some (_, d) => decide (31 ≤ d.ents.length)

/-- An allocation of a union stalls while the pool is below its watermark (R67, R259). -/
def allocStall (pool : Nat) : FM Unit := do
  let p := getPool (← get) pool
  if p.freecnt < p.wmark then FM.fail .stall

/-- `(c, n)` appended to C: into the last pod while it has room, else into a new pod. -/
def appendAct (h : FibHome) (pa c n : Nat) : FM Unit := do
  let x ← readHdr pa
  let fx := x.fmt = 11
  if x.len = x.cap then FM.fail .reject
  match ← locate h x true noneIdx with
  | none =>
    allocStall x.pool
    writeHdr pa (← insertEntry h x none (c, n))
  | some l =>
    let q ← readPod h x.pool fx true l.pod
    if q.ents.length < podCap x.fmt then
      writePod h x.pool fx l.pod { q with ents := q.ents ++ [(c, n)] }
      writeHdr pa { x with len := x.len + 1 }
    else
      let d ← coveringDir h x l c
      if podsExhausted x d then FM.fail .reject
      allocStall x.pool
      let i ← allocPod h x.pool
      writePod h x.pool fx l.pod { q with next := i }
      writePod h x.pool fx i { ents := [(c, n)] }
      if dirGrows x d then allocStall x.pool
      let x ← addDirEntry h x d (c, i)
      writeHdr pa { x with len := x.len + 1, npod := x.npod + 1 }

/-- The header of a union's source: one of another device reads as free (log 14). -/
def sourceHdr (g : Seg) : FM FHdr :=
  if g.dev = 0 then readHdr g.pa
  else do
    let b := freeBytes (← get) 64
    set b.2
    return decodeHdr b.1

/-- The entries at or past `c` of a source's next pod; one of another device answers an entry or its end (log 14). -/
def sourceEntries (h : FibHome) (g : Seg) (x : FHdr) (c : Nat) : FM (List (Nat × Nat)) :=
  if g.dev = 0 then nextEntries h x c
  else do
    let w := takeFree (← get)
    let v := takeFree w.2
    let k := c + wbits w.1 0 32
    set v.2
    return if w.1.getLsbD 32 || noneIdx ≤ k then [] else [(k, v.1.toNat % 2 ^ fmtWidth x.fmt)]

/-- Whether the conditions of a union hold: C empty, three formats alike, C neither source (R259). -/
def unionCheck (paC vaC : Nat) (a b : Seg) (vaA vaB op : Nat) : FM Bool := do
  let c ← readHdr paC
  let xa ← sourceHdr a
  let xb ← sourceHdr b
  if hdrBad c then FM.fail (.malformed vaC)
  if hdrBad xa then FM.fail (.malformed vaA)
  if hdrBad xb then FM.fail (.malformed vaB)
  let op := if op = 8 then c.op else op
  return !(xa.fmt != c.fmt || xb.fmt != c.fmt || c.len != 0 || (a.dev == 0 && paC == a.pa) || (b.dev == 0 && paC == b.pa) || op == 7)

/-- One read of a source: the entries at or past `next` of its next pod, empty at its end; none where its format is no longer C's
(R65, R134). A source of another device was checked once. -/
def unionRead (h : FibHome) (paC : Nat) (g : Seg) (va next : Nat) : FM (Option (List (Nat × Nat))) := do
  let c ← readHdr paC
  if g.dev ≠ 0 then return some (← sourceEntries h g c next)
  let x ← readHdr g.pa
  if hdrBad x then FM.fail (.malformed va)
  if x.fmt ≠ c.fmt then return none
  return some (← nextEntries h x next)

/-- The next coordinate of two sources: the lesser of their first entries'. -/
def unionNext (a b : List (Nat × Nat)) : Option Nat :=
  match a, b with
  | [], [] => none
  | e :: _, [] => some e.1
  | [], f :: _ => some f.1
  | e :: _, f :: _ => some (min e.1 f.1)

/-- The value a union gives a coordinate, in C's format. -/
def unionValue (x : FHdr) (op c : Nat) (a b : List (Nat × Nat)) : Nat :=
  let op := if op = 8 then x.op else op
  fibCanon x.fmt
    (match a.find? (fun e => e.1 == c), b.find? (fun e => e.1 == c) with
    | some p, some q => combine op x.fmt p.2 q.2
    | some p, none | none, some p => p.2
    | none, none => 0)

/-- One coordinate of A ∪ B taken up: appended to C, or dropped where ZP is set and its value is zero. -/
def unionPut (h : FibHome) (paC op : Nat) (zp : Bool) (c : Nat) (a b : List (Nat × Nat)) : FM Unit := do
  let x ← readHdr paC
  let v := unionValue x op c a b
  if zp && fibZero x.fmt v then pure () else appendAct h paC c v

/-- What is left of the entries read of a source once coordinate `c` is taken up: none where its next pod is to be read. -/
def restOf (c : Nat) (a : List (Nat × Nat)) : Option (List (Nat × Nat)) :=
  if a.isEmpty then some []
  else
    match a.filter (fun e => e.1 != c) with
    | [] => none
    | r => some r

/-! ### Requests at their home -/

def findF (s : State) (id : Nat) : Option FReq := s.freqs.find? (fun f => f.id == id)
def dropF (s : State) (id : Nat) : State := { s with freqs := s.freqs.filter (fun f => f.id != id) }
def putF (s : State) (f : FReq) : State := { s with freqs := s.freqs.map (fun g => if g.id = f.id then f else g) }

/-- Headers an operation touches. -/
def fibHeaders (f : FReq) : List Seg :=
  match f.op with
  | .union a b _ _ _ _ _ _ _ _ => [headerSeg f, a, b]
  | _ => [headerSeg f]

/-- Whether an operation touches the fibre of another's header. -/
def onHeader (f g : FReq) : Bool := (fibHeaders f).any (fun x => x.dev == g.dev && x.pa == g.hdr)

def isUnion (o : FOp) : Bool := match o with | .union _ _ _ _ _ _ _ _ _ _ => true | _ => false

/-- An operation as an access of its agent: its place among the agent's other accesses (R137, R146). -/
def fibAccess (f : FReq) (k : ReqKind) : Req :=
  { id := f.id, agent := f.agent, slot := f.slot, fir := f.fir, launch := f.launch, kind := k, todo := [] }

/-- Whether an operation's turn has come: behind the agent's earlier operations on its fibres, behind one that stands still or has
begun on any of them, and, for a union, behind one that has begun to read its destination (R65, R67, R68, R256, R259); after the agent's earlier accesses to a header's location, its acquires, and the
instance's earlier firings (R137, R139, R140, R146); on a plane that lives, after what is reissued, and as one of 64 at most toward
its unit (R388, R389). -/
def fibTurn (s : State) (f : FReq) : Bool :=
  !s.freqs.any (fun g => g.id != f.id && onHeader f g && (g.held != .no || g.begun || (decide (g.id < f.id) && g.agent == f.agent))) &&
    !(isUnion f.op && !f.begun && s.freqs.any (fun g => g.id != f.id && isUnion g.op && g.begun && onHeader g f)) &&
    (fibHeaders f).all (fun h => !earlier s f.agent f.id (fun q => segsMeet (unperformed q) [{ h with len := 64 }])) &&
    edgesMet s (fibAccess f .load) && !earlierFiring s (fibAccess f .load) && !pathDead s (agentCore f.agent) (headerSeg f) &&
    !reissueFirst s f.agent f.id && !unitFull s f

/-- A failure of the launch of an operation, which is not applied. -/
def fibFail (s : State) (f : FReq) (r : ErrorRec) : State :=
  let s := dropF s f.id
  if f.launch < 64 then failLaunch s f.launch r else s

/-- The pool of a fibre, by its header as it stands. -/
def poolOfHdr (s : State) (pa : Nat) : Nat := (decodeHdr (memRead s pa 64)).pool

/-- An operation that does not apply: it waits, parks (R68), stalls (R67), or fails the launch (R59, R381). A stall renewed
after a donation that was too small dates from its start. DESIGN CHOICE: the pool that records the fault is that of the
operation's header, C's for a union, whichever of its fibres the pod belongs to (log 80). -/
def fibError (s : State) (f : FReq) (e : FErr) : State :=
  let pool := poolOfHdr s f.hdr
  match e with
  | .hold | .reject => s
  | .walk asid va => noteUnit s (homeUnit (fibHome s f.hdr)) (homeDieOf (fibHome s f.hdr)) asid va
  | .stall => putF s { f with held := match f.held with | .stalled t => .stalled t | _ => .stalled s.time }
  | .park va =>
    if (getPool s pool).parked then s
    else
      let s := putF (modPool s pool (fun p => { p with parked := true, faultva := va })) { f with held := .parked va }
      driverEvent s 3 f.core 0 pool (w64 f.va) (w64 va)
  | .malformed va =>
    let w := takeFree s
    fibFail w.2 f { code := 0x10, core := f.core, addr := w64 va, detail := w.1 }
  | .poison => fibFail s f { code := 0x15, core := f.core, addr := w64 f.va }

/-- An applied operation leaves, its result on the way under the operation's own order number. -/
def fibDone (s : State) (f : FReq) (d : VReg) (dest : Dest) : State :=
  let s := dropF s f.id
  let s := if isProbe f || f.dev != 0 then s else noteApplied s f.agent f.id (.fibres (fibreUnit s (headerSeg f))) d
  match dest with
  | .none => s
  | dest =>
    { s with reqs := s.reqs ++ [{ id := f.id, agent := f.agent, slot := f.slot, fir := f.fir, launch := f.launch, kind := .ready
                                  todo := [], data := d, dest := dest, path := [headerSeg f], unit := fibreUnit s (headerSeg f)
                                  again := if isProbe f then some f else none }] }

/-- The lanes of a merge applied in order, with no other operation between; a lane that stalls or parks keeps the rest. -/
def mergeLanesAt (s : State) (f : FReq) (op vt : Nat) (ls : List (Nat × W64)) : State :=
  match ls with
  | [] => fibDone s f 0 .none
  | (c, v) :: r =>
    let rest := { f with op := .merge op vt r, held := .no, begun := true }
    match (mergeAct (fibHome s f.hdr) f.hdr f.va op vt c v).exec s with
    | .ok (_, t) => mergeLanesAt (putF t rest) rest op vt r
    | .error (.reject, s) =>
      (match (rejectAct f.hdr).exec s with
       | .ok (_, t) => mergeLanesAt (putF t rest) rest op vt r
       | .error (e, s) => fibError s f e)
    | .error (e, s) => fibError s f e

def mergeAt (s : State) (f : FReq) : State :=
  match f.op with
  | .merge op vt ls => mergeLanesAt s f op vt ls
  | _ => s

/-- An act without result applied at its home. -/
def simpleAt (s : State) (f : FReq) (a : FM Unit) : State :=
  match a.exec s with
  | .ok (_, t) => fibDone t f 0 .none
  | .error (e, s) => fibError s f e

def probeAt (s : State) (f : FReq) : State :=
  match (probeAct (fibHome s f.hdr) f.hdr f.va f.op).exec s with
  | .ok (r, t) => fibDone t f r.1 (match f.dest with | .probe v p _ => .probe v p r.2 | d => d)
  | .error (e, s) => fibError s f e

/-! ### What an operation writes outside its fibres (R258, R259) -/

/-- Whether a word that an operation writes may be written now, as a write of its agent at the operation's place. -/
def wordReady (s : State) (f : FReq) (g : Seg) : Bool := pieceReady s (fibAccess f .store) g

/-- A word written at its home; one in a register view is a request of the operation, one of a remote device acts there. -/
def writeWord (s : State) (f : FReq) (g : Seg) (v : Nat) : State :=
  if g.dev ≠ 0 then s
  else if isMemory (place g.pa) then countBursts (storeMem s g.pa g.len v) g.pa g.len
  else addReq s { id := 0, agent := f.agent, slot := f.slot, fir := f.fir, launch := f.launch, kind := .store, todo := [g]
                  data := BitVec.ofNat 2048 v, part := some f.id }

/-- Writes of an operation into register views that are not performed. -/
def partsLeft (s : State) (f : FReq) : Bool := s.reqs.any (fun r => r.part == some f.id)

/-- Where a scan's next word goes: the page translated last, the local window, or the home's translation. -/
def scanPa (s : State) (f : FReq) (dst pageVa : Nat) (page : Seg) : Except (FErr × State) (Seg × State) :=
  let at8 := fun (x : Xlated) => ({ dev := x.dev, pa := x.pa, len := 8, off := 0 } : Seg)
  if dst / 65536 = pageVa then
    if page.dev = 0 && stackOut s (page.pa + dst % 65536) then .error (.park dst, s)
    else .ok ({ dev := page.dev, pa := page.pa + dst % 65536, len := 8, off := 0 }, s)
  else
    match inWindow ((getLaunch s f.launch).window) dst with
    | some o =>
      match throughWindow s f.core o .store 8 false with
      | .ok x => .ok (at8 x, s)
      | .error _ => .error (.park dst, s)
    | none => ((fibXlate (if f.dev = 0 then fibHome s f.hdr else .cluster (clusterOf f.core)) f.asid dst 8 .store true).exec s).map (fun r => (at8 r.1, r.2))

/-- Words of a scan written in order up to the end of the 64-byte line that holds the first; a word whose page does not
translate parks the scan. -/
def scanWrite (s : State) (f : FReq) (next left q pageVa : Nat) (page : Seg) (dst : Nat) (buf : List W64) : State :=
  match buf with
  | [] =>
    if left ≠ 0 then putF s { f with op := .scan next left q dst pageVa page [] }
    else if partsLeft s f then s
    else fibDone s f 0 .none
  | w :: r =>
    match scanPa s f dst pageVa page with
    | .error (e, s) => fibError s f e
    | .ok (g, t) =>
      if !wordReady t f g then s
      else
        let f := { f with op := .scan next left q (dst + 8) pageVa page r }
        let t := putF (writeWord t f g w.toNat) f
        if (dst + 8) % 64 = 0 then t else scanWrite t f next left q pageVa page (dst + 8) r

/-- A word that a remote device's scan pushes: it is a response (R144). -/
def linkWord (s : State) (f : FReq) (x : W64) : State :=
  match f.dest with
  | .link d tag => modDev s (fun v => { v with responses := v.responses ++ [(d, tag, x.setWidth 2048)] })
  | _ => s

/-- Words of a scan pushed while their queue has room. -/
def scanPush (s : State) (f : FReq) (w : StreamId) (next left q : Nat) (pg : Seg) (buf : List W64) : State :=
  match buf with
  | [] => if left = 0 then fibDone s f 0 .none else putF s { f with op := .scan next left q 0 0 pg [] }
  | x :: r =>
    if pushTurn s w f.id q then scanPush (producePush s w q (x.setWidth 2048)) f w next left q pg r
    else putF s { f with op := .scan next left q 0 0 pg buf }

/-- What a scan has read delivered: written to memory, pushed, or sent to the remote device that asked. -/
def scanDeliver (s : State) (f : FReq) : State :=
  match f.op with
  | .scan next left q dst pv pg buf =>
    if q = 8 then scanWrite s f next left q pv pg dst buf
    else
      match f.agent with
      | .stream w =>
        if streamStopped s w then s else if sameFiring s w f.slot f.fir then scanPush s f w next left q pg buf else dropF s f.id
      | _ =>
        let t := buf.foldl (fun s x => linkWord s f x) s
        if left = 0 then dropF t f.id else putF t { f with op := .scan next left q dst pv pg [] }
  | _ => s

/-- A scan: one pod is read when nothing read is still to be delivered (R134); a later act delivers what was read. -/
def scanAt (s : State) (f : FReq) : State :=
  match f.op with
  | .scan next left q dst pv pg buf =>
    if !buf.isEmpty || left = 0 then scanDeliver s f
    else
      match (scanAct (fibHome s f.hdr) f.hdr f.va next left).exec s with
      | .ok (r, t) => putF t { f with op := .scan r.2.1 r.2.2 q dst pv pg r.1, held := .no, begun := false }
      | .error (e, s) => fibError s f e
  | _ => s

/-- The stamp of a union, written last (R259): the union leaves once it is performed (R147). -/
def unionStamp (s : State) (f : FReq) (failed : Bool) (g : Seg) (stampVa seq : Nat) : State :=
  if partsLeft s f then s
  else if stampVa = 0 then fibDone s f 0 .none
  else if !wordReady s f g then s
  else
    let t := writeWord s f g (bit failed * 2 ^ 63 + seq)
    if partsLeft t f then
      match f.op with
      | .union hA hB vaA vaB op zp st next _ seq => putF t { f with op := .union hA hB vaA vaB op zp st next 0 seq }
      | _ => t
    else fibDone t f 0 .none

/-- A union whose writes of C are over; its stamp follows. -/
def unionOver (s : State) (f : FReq) (failed : Bool) : State :=
  match f.op with
  | .union _ _ _ _ _ _ st _ stVa seq =>
    let f := { f with held := .no, begun := true, outcome := some failed }
    unionStamp (putF s f) f failed st stVa seq
  | _ => s

/-- A union that fails sets OVF of C. -/
def unionFail (s : State) (f : FReq) : State :=
  match (rejectAct f.hdr).exec s with
  | .ok (_, t) => unionOver t f true
  | .error (e, s) => fibError s f e

/-- A union that has come to the end of both sources. -/
def unionEnd (s : State) (f : FReq) : State :=
  let a : FM Unit := do
    let x ← readHdr f.hdr
    writeHdr f.hdr { x with ver := bump x.ver 1 }
  match a.exec s with
  | .ok (_, t) => unionOver t f false
  | .error (e, s) => fibError s f e

/-- An act of a union: it goes on with what the act found, or fails, stalls or parks with its turn kept. -/
def unionAct {α : Type} (s : State) (f : FReq) (a : FM α) (go : α → State → State) : State :=
  match a.exec s with
  | .ok (x, t) => go x t
  | .error (.reject, s) => unionFail s f
  | .error (e, s) => let f := { f with begun := f.begun || f.checked }; fibError (putF s f) f e

/-- A union: its conditions, then one pod of a source or one coordinate of C at a time, then the stamp (R65, R134, R259). -/
def unionAt (s : State) (f : FReq) : State :=
  match f.op with
  | .union hA hB vaA vaB op zp st next stVa seq =>
    let h := fibHome s f.hdr
    let g := { f with held := .no }
    match f.outcome, f.checked, f.bufA, f.bufB with
    | some failed, _, _, _ => unionStamp s f failed st stVa seq
    | none, false, _, _ =>
      unionAct s f (unionCheck f.hdr f.va hA hB vaA vaB op) (fun ok t =>
        if ok then putF t { g with begun := true, checked := true } else unionFail t g)
    | none, true, none, _ =>
      unionAct s f (unionRead h f.hdr hA vaA next) (fun r t => match r with | some es => putF t { g with bufA := some es } | none => unionFail t g)
    | none, true, some _, none =>
      unionAct s f (unionRead h f.hdr hB vaB next) (fun r t => match r with | some es => putF t { g with bufB := some es } | none => unionFail t g)
    | none, true, some as, some bs =>
      match unionNext as bs with
      | none => unionEnd s f
      | some c =>
        unionAct s f (unionPut h f.hdr op zp c as bs) (fun _ t =>
          putF t { g with op := .union hA hB vaA vaB op zp st (c + 1) stVa seq, bufA := restOf c as, bufB := restOf c bs })
  | _ => s

/-! ### Operations on fibres of remote devices (R144; log 14) -/

/-- The words of a scan of a remote fibre: an entry at or past `next`, or the terminator; entries of an FX64 fibre take two words. -/
def remoteEntry (s : State) (fx : Bool) (next left : Nat) : List W64 × Nat × Nat × State :=
  let w := takeFree s
  let v := takeFree w.2
  let c := next + wbits w.1 0 32
  let fmt := if fx then 11 else 0
  if w.1.getLsbD 32 || decide (noneIdx ≤ c) then (scanWords fmt (noneIdx, 0), next, 0, v.2)
  else (scanWords fmt (c, v.1.toNat), c + 1, left - 1, v.2)

/-- An operation that a remote device's home applies; what it finds there is free. -/
def remoteFibre (s : State) (f : FReq) : State :=
  match f.op with
  | .scan next left q dst pv pg buf =>
    if !buf.isEmpty || left = 0 then scanDeliver s f
    else
      match f.outcome with
      | none => let w := takeFree s; putF w.2 { f with outcome := some (w.1.getLsbD 0) }
      | some fx =>
        let r := remoteEntry s fx next left
        putF r.2.2.2 { f with op := .scan r.2.1 r.2.2.1 q dst pv pg r.1 }
  | .union _ _ _ _ _ _ st _ stVa seq =>
    match f.outcome with
    | none => let w := takeFree s; putF w.2 { f with begun := true, outcome := some (w.1.getLsbD 0) }
    | some failed => unionStamp s f failed st stVa seq
  | op =>
    if f.dest = .none then fibDone s f 0 .none
    else
      let w := remoteAnswer s op f.dest
      fibDone w.2.2 f w.1 w.2.1

/-- An operation applied by its kind. -/
def fibApply (s : State) (f : FReq) : State :=
  let h := fibHome s f.hdr
  if f.dev ≠ 0 then remoteFibre s f
  else
  match f.op with
  | .merge _ _ _ => mergeAt s f
  | .delete c => simpleAt s f (deleteAct h f.hdr f.va c)
  | .init cap maxc pool fmt op zp => simpleAt s f (initAct f.hdr cap maxc pool fmt op zp)
  | .pack => simpleAt s f (packAct h f.hdr f.va)
  | .len | .probe _ | .probev _ _ => probeAt s f
  | .scan _ _ _ _ _ _ _ => scanAt s f
  | .union _ _ _ _ _ _ _ _ _ _ => unionAt s f

/-- An operation of a kind that `p` selects, applied if its turn has come. -/
def fibEvent (s : State) (id : Nat) (p : FOp → Bool) : State :=
  match findF s id with
  | some f =>
    if p f.op && f.held == .no && fibTurn s f then
      let t := fibApply s f
      addTraffic t f.launch [{ pa := 0, len := 32 * (served t - served s), off := 0 }]
    else s
  | none => s

def isMerge (o : FOp) : Bool := match o with | .merge _ _ _ => true | _ => false
def isDelete (o : FOp) : Bool := match o with | .delete _ => true | _ => false
def isInit (o : FOp) : Bool := match o with | .init _ _ _ _ _ _ => true | _ => false
def isScan (o : FOp) : Bool := match o with | .scan _ _ _ _ _ _ _ => true | _ => false
def isRead' (o : FOp) : Bool := match o with | .len | .probe _ | .probev _ _ => true | _ => false

def execMergeAtHome (id : Nat) (s : State) : Out := event s (fun s => fibEvent s id isMerge)
def execDeleteAtHome (id : Nat) (s : State) : Out := event s (fun s => fibEvent s id isDelete)
def execFinitAtHome (id : Nat) (s : State) : Out := event s (fun s => fibEvent s id isInit)
def execFpackAtHome (id : Nat) (s : State) : Out := event s (fun s => fibEvent s id (· == .pack))
def execProbeAtHome (id : Nat) (s : State) : Out := event s (fun s => fibEvent s id isRead')
def execScanAtHome (id : Nat) (s : State) : Out := event s (fun s => fibEvent s id isScan)
def execFunionAtHome (id : Nat) (s : State) : Out := event s (fun s => fibEvent s id isUnion)

/-! ### Pools: stalls, timeouts, donation (R66-R68) -/

def stalledSince (f : FReq) : Option Nat := match f.held with | .stalled t => some t | _ => none
def parkedAt (f : FReq) : Bool := match f.held with | .parked _ => true | _ => false

/-- The stalled operation of a pool that stalled first. -/
def oldestStalled (s : State) (pool : Nat) : Option FReq :=
  s.freqs.foldl (fun o f =>
    match stalledSince f with
    | some t =>
      if poolOfHdr s f.hdr = pool ∧ o.all (fun g => decide (t < (stalledSince g).getD 0)) then some f else o
    | none => o) none

/-- STALLED_MERGE_RESUME: with the watermark's condition restored, the oldest stalled merge applies where it can. -/
def stalledResume (s : State) (pool : Nat) : State :=
  let p := getPool s pool
  if p.freecnt < p.wmark then s
  else
    match oldestStalled s pool with
    | some f => fibApply s f
    | none => s

/-- Whether an act fails for want of a pod. -/
def stalls {α : Type} (a : FM α) (s : State) : Bool :=
  match a.exec s with
  | .error (.stall, _) => true
  | _ => false

/-- Whether a stall still has no recovery: its pool is below the watermark, or has no pod for the allocation it needs (R67). -/
def stillStalled (s : State) (pool : Nat) (f : FReq) : Bool :=
  decide ((getPool s pool).freecnt < (getPool s pool).wmark) ||
  match f.op with
  | .merge op vt ((c, v) :: _) => stalls (mergeAct (fibHome s f.hdr) f.hdr f.va op vt c v) s
  | .union _ _ _ _ op zp _ _ _ _ =>
    let as := f.bufA.getD []
    let bs := f.bufB.getD []
    (unionNext as bs).any (fun c => stalls (unionPut (fibHome s f.hdr) f.hdr op zp c as bs) s)
  | _ => false

/-- POOL_TIMEOUT: the launch of the oldest stalled merge fails; its stalled merges to the pool are not applied. -/
def poolTimeout (s : State) (pool : Nat) : State :=
  match oldestStalled s pool with
  | some f =>
    match stalledSince f with
    | some t =>
      if t + (getPool s pool).timeout * 1000 ≤ s.time ∧ stillStalled s pool f then
        let s' := { s with freqs := s.freqs.filter (fun g => !(g.launch == f.launch && (stalledSince g).isSome && poolOfHdr s g.hdr == pool)) }
        if f.launch < 64 then failLaunch s' f.launch { code := 0x11, addr := w64 f.va, detail := w64 pool } else s'
      else s
    | none => s
  | none => s

/-- DONATE: pods `first` to `first + n - 1` appended to the free list in ascending order, none of them written (R66, R293,
R295). -/
def donate (s : State) (pool first n : Nat) : State :=
  if n = 0 then s
  else
    let p := getPool s pool
    let s := modPool s pool (fun q => { q with runs := q.runs ++ [(first, n)], freehead := if q.freecnt = 0 then first else q.freehead })
    setFree s pool (p.freecnt + n)

/-- RESET: the free list emptied, unless an operation on the pool is parked or stalled. -/
def poolReset (s : State) (pool : Nat) (v : W64) : State :=
  if v ≠ 1 || (getPool s pool).parked || s.freqs.any (fun f => f.held != .no && poolOfHdr s f.hdr == pool) then s
  else modPool (setFree s pool 0) pool (fun p => { p with freehead := noneIdx, runs := [] })

/-- FAULTCTL written 2: the parked operation applied once with fresh translation; where it must wait, for the walker or a migrating
sector, the operations behind it still wait for it (R68, R295). -/
def faultResume (s : State) (pool : Nat) : State :=
  if !(getPool s pool).parked then s
  else
    let s := modPool s pool (fun p => { p with parked := false })
    match s.freqs.find? (fun f => parkedAt f && poolOfHdr s f.hdr == pool) with
    | some f => let f := { f with held := .no, begun := true }; fibApply (putF s f) f
    | none => s

/-- FAULTCTL written 3: the launch fails. -/
def faultAbandon (s : State) (pool : Nat) : State :=
  let p := getPool s pool
  if !p.parked then s
  else
    let s := modPool s pool (fun p => { p with parked := false })
    match s.freqs.find? (fun f => parkedAt f && poolOfHdr s f.hdr == pool) with
    | some f => fibFail s f { code := 0x12, addr := w64 p.faultva, detail := w64 pool }
    | none => s

/-- A write of FAULTCTL by one of R396's writers. -/
def faultctl (s : State) (pool : Nat) (v : W64) : State :=
  if wbits v 0 2 = 2 then faultResume s pool else if wbits v 0 2 = 3 then faultAbandon s pool else s

/-- An act that only the writers of R396 can make. -/
def byDriver (drv : Bool) (s : State) (f : State → State) : Out := event s (fun s => if drv then f s else s)

def execStalledMergeResume (pool : Nat) (s : State) : Out := event s (fun s => stalledResume s pool)
def execPoolTimeout (pool : Nat) (s : State) : Out := event s (fun s => poolTimeout s pool)
def execDonate (pool : Nat) (v : W64) (drv : Bool) (s : State) : Out :=
  byDriver drv s (fun s => donate s pool (wbits v 0 32) (wbits v 32 32))
def execPoolReset (pool : Nat) (v : W64) (drv : Bool) (s : State) : Out := byDriver drv s (fun s => poolReset s pool v)
def execFaultctlResume (pool : Nat) (drv : Bool) (s : State) : Out := byDriver drv s (fun s => faultResume s pool)
def execFaultctlAbandon (pool : Nat) (drv : Bool) (s : State) : Out := byDriver drv s (fun s => faultAbandon s pool)

end Sys2Proof.Machine
end

