-- ==== Sys2Proof/Machine/Vector.lean ====
section
/-!
DEFINITION. Sys2Proof/Machine/Vector.lean: the vector and conversion members of majors 0x01-0x07 and 0x18
(R216-R236).
-/

namespace Sys2Proof.Machine

/-! ### Forms -/

/-- vd, vs1, the governing predicate. -/
def opsV1 (s : State) (f : VF) : List Opnd := [vdOp s f, srcV 1 f.vs1 f.w1, pmOp f.pm]
/-- vd, vs1, vs2, the governing predicate. -/
def opsV2 (s : State) (f : VF) : List Opnd := [vdOp s f, srcV 1 f.vs1 f.w1, srcV 2 f.vs2 f.w2, pmOp f.pm]

/-- A member whose lanes are rounded: the results of `g` over the source values written under predication (R218,
R219). -/
def roundMember (i : Instr) (f : VF) (ops : List Opnd) (g : Nat → Bool → List VReg → Nat → W32 → Rounded) (s : State) : Out :=
  let m := activeMask s f.pm
  perform s i { ops := ops } (fun t v => do
    let mode := roundMode (curCtx t) f.rnd3
    let r ← roundLanes t m mode (g mode (ftzOn (curCtx t)) (restVd s f v))
    let u ← setVec r.1 f.vd (mergeLanes m f.zm (oldVd s f v) (fun k => r.2.getD k 0))
    .ok (u, .seq))

/-- A member that raises flags and performs no rounding. -/
def flagMember (i : Instr) (f : VF) (ops : List Opnd) (g : Bool → List VReg → Nat → Rounded) (s : State) : Out :=
  let m := activeMask s f.pm
  perform s i { ops := ops } (fun t v => do
    let r ← flagLanes t m (g (ftzOn (curCtx t)) (restVd s f v))
    let u ← setVec r.1 f.vd (mergeLanes m f.zm (oldVd s f v) (fun k => r.2.getD k 0))
    .ok (u, .seq))

/-- A member that raises no flag: lanes of `g` written under predication. -/
def moveMember (i : Instr) (f : VF) (ops : List Opnd) (g : List VReg → Nat → W32) (s : State) : Out :=
  let m := activeMask s f.pm
  perform s i { ops := ops } (fun t v => do
    let u ← setVec t f.vd (mergeLanes m f.zm (oldVd s f v) (g (restVd s f v)))
    .ok (u, .seq))

/-- Lane `k` of the `j`-th source. -/
def ln (v : List VReg) (j k : Nat) : W32 := lane (vval v j) k

/-! ### Major 0x01 (R222) -/

/-- A two-operand member: FP32 by exact value, integers modulo 2^32. -/
def arith2 (i : Instr) (f : VF) (fp : Nat → FVal → FVal → FVal) (int : W32 → W32 → W32) (s : State) : Out :=
  if f.ty4 = 0 then
    roundMember i f (opsV2 s f)
      (fun mode ftz v k r => convert 0 mode ftz r (fp mode (fp32 ftz (ln v 0 k)) (fp32 ftz (ln v 1 k)))) s
  else moveMember i f (opsV2 s f) (fun v k => int (ln v 0 k) (ln v 1 k)) s

def execVadd (f : VF) (s : State) : Out := arith2 (.vadd f) f (fun mode a b => addVals mode [a, b]) (· + ·) s
def execVsub (f : VF) (s : State) : Out := arith2 (.vsub f) f (fun mode a b => addVals mode [a, b.neg]) (· - ·) s
def execVmul (f : VF) (s : State) : Out := arith2 (.vmul f) f (fun _ a b => mulVals a b) (· * ·) s

def execVfma (f : VF) (s : State) : Out :=
  roundMember (.vfma f) f [vdOp s f, srcV 1 f.vs1 f.w1, srcV 2 f.vs2 f.w2, srcV 3 f.vs3 f.w3, pmOp f.pm]
    (fun mode ftz v k r =>
      convert 0 mode ftz r (fmaVals mode (fp32 ftz (ln v 0 k)) (fp32 ftz (ln v 1 k)) (fp32 ftz (ln v 2 k)))) s

/-- VMIN and VMAX. -/
def pick2 (i : Instr) (f : VF) (max : Bool) (s : State) : Out :=
  if f.ty4 = 0 then
    flagMember i f (opsV2 s f) (fun ftz v k => pickFP ftz max 0 [(ln v 0 k).toNat, (ln v 1 k).toNat]) s
  else moveMember i f (opsV2 s f) (fun v k => pickInt f.ty4 max 0 [ln v 0 k, ln v 1 k]) s

def execVmin (f : VF) (s : State) : Out := pick2 (.vmin f) f false s
def execVmax (f : VF) (s : State) : Out := pick2 (.vmax f) f true s
def execVabs (f : VF) (s : State) : Out :=
  moveMember (.vabs f) f (opsV1 s f)
    (fun v k => let a := ln v 0 k; if f.ty4 = 0 then a &&& 0x7FFFFFFF else if a.msb then -a else a) s
def execVneg (f : VF) (s : State) : Out :=
  moveMember (.vneg f) f (opsV1 s f) (fun v k => let a := ln v 0 k; if f.ty4 = 0 then a ^^^ 0x80000000 else -a) s

/-! ### Major 0x02 (R223) -/

def bit2 (i : Instr) (f : VF) (op : W32 → W32 → W32) (s : State) : Out :=
  moveMember i f (opsV2 s f) (fun v k => op (ln v 0 k) (ln v 1 k)) s

def execVand (f : VF) (s : State) : Out := bit2 (.vand f) f (· &&& ·) s
def execVor (f : VF) (s : State) : Out := bit2 (.vor f) f (· ||| ·) s
def execVxor (f : VF) (s : State) : Out := bit2 (.vxor f) f (· ^^^ ·) s

def shl32 (a : W32) (n : Nat) : W32 := if 32 ≤ n then 0 else a <<< n
def shr32 (a : W32) (n : Nat) : W32 := if 32 ≤ n then 0 else a >>> n
def sra32 (a : W32) (n : Nat) : W32 := a.sshiftRight (min n 31)

/-- A shift by lane, or by imm13[5:0] where imm13[12] is set. -/
def shiftV (i : Instr) (f : VF) (op : W32 → Nat → W32) (s : State) : Out :=
  if f.imm13.getLsbD 12 then moveMember i f (opsV1 s f) (fun v k => op (ln v 0 k) (f.immBits 0 6)) s
  else moveMember i f (opsV2 s f) (fun v k => op (ln v 0 k) (ln v 1 k).toNat) s

def execVshl (f : VF) (s : State) : Out := shiftV (.vshl f) f shl32 s
def execVshr (f : VF) (s : State) : Out := shiftV (.vshr f) f shr32 s
def execVsra (f : VF) (s : State) : Out := shiftV (.vsra f) f sra32 s

/-! ### VCMP (R224) -/

/-- One lane of VCMP over FP32: the bit, and NV. -/
def cmpFP (ftz : Bool) (cond : Nat) (a b : W32) : Rounded :=
  let x := fp32 ftz a
  let y := fp32 ftz b
  let nan := x.isNaN || y.isNaN
  let sig := x.isSig || y.isSig
  let nv : Flags := if sig || (nan && decide (2 ≤ cond ∧ cond ≤ 5)) then flagNV else 0
  let c := cmpVal x y
  let r : Bool := match cond with
    | 0 => !nan && c == 0
    | 1 => nan || c != 0
    | 2 => !nan && decide (c < 0)
    | 3 => !nan && decide (c ≤ 0)
    | 4 => !nan && decide (0 < c)
    | 5 => !nan && decide (0 ≤ c)
    | 6 => !nan
    | _ => nan
  { bits := bit r, flags := nv }

/-- One lane of VCMP over integers. -/
def cmpInt (ty : BitVec 4) (cond : Nat) (a b : W32) : Bool :=
  let x := intLane ty a
  let y := intLane ty b
  match cond with
  | 0 => x == y
  | 1 => x != y
  | 2 => decide (x < y)
  | 3 => decide (x ≤ y)
  | 4 => decide (y < x)
  | _ => decide (y ≤ x)

def execVcmp (f : VF) (s : State) : Out :=
  let m := activeMask s f.pm
  perform s (.vcmp f) { ops := [dstP f.vd, srcV 1 f.vs1 f.w1, srcV 2 f.vs2 f.w2, pmOp f.pm] } (fun t v => do
    let cond := f.immBits 0 3
    let r ← flagLanes t m (fun k =>
      if f.ty4 = 0 then cmpFP (ftzOn (curCtx t)) cond (ln v 0 k) (ln v 1 k)
      else { bits := bit (cmpInt f.ty4 cond (ln v 0 k) (ln v 1 k)) })
    let u ← setPred r.1 f.vd.toNat
      (mergeBits m f.zm (pget (curStream t) f.vd.toNat) (fun k => r.2.getD k 0 == 1))
    .ok (u, .seq))

/-! ### Moves, selection, permutation (R225) -/

/-- VSEL writes every lane; the predicate selects. -/
def execVsel (f : VF) (s : State) : Out :=
  let m := activeMask s f.pm
  perform s (.vsel f) { ops := [dstV f.vd, srcV 1 f.vs1 f.w1, srcV 2 f.vs2 f.w2, pmOp f.pm] } (fun t v => do
    let u ← setVec t f.vd (ofLanes ((upFrom 0 64).map (fun k => if active m k then ln v 0 k else ln v 1 k)))
    .ok (u, .seq))

def execVmov (f : VF) (s : State) : Out := moveMember (.vmov f) f (opsV1 s f) (fun v k => ln v 0 k) s
def execVsplat (f : VF) (s : State) : Out :=
  moveMember (.vsplat f) f [vdOp s f, srcS 1 f.vs1 f.w1, pmOp f.pm] (fun v _ => (sval v 0).setWidth 32) s
def execVbcast (f : VF) (s : State) : Out := moveMember (.vbcast f) f (opsV1 s f) (fun v _ => ln v 0 (f.immBits 0 6)) s
def execVperm (f : VF) (s : State) : Out :=
  moveMember (.vperm f) f (opsV2 s f)
    (fun v k => let i := (ln v 1 k).toNat; if i < 64 then ln v 0 i else 0) s

/-- VINS keeps every other lane: vd is read. -/
def execVins (f : VF) (s : State) : Out :=
  perform s (.vins f) { ops := [bothV 0 f.vd false, srcS 1 f.vs1 f.w1] } (fun t v => do
    let u ← setVec t f.vd (setElem (vval v 0) 32 (f.immBits 0 6) ((sval v 1).setWidth 32 : W32).toNat)
    .ok (u, .seq))

def execVext (f : VF) (s : State) : Out :=
  perform s (.vext f) { ops := [dstS f.vd, srcV 1 f.vs1 f.w1] } (fun t v => do
    let x := ln v 0 (f.immBits 0 6)
    let u ← setReg t f.vd (if f.imm13.getLsbD 6 then sext64 x else zext64 x)
    .ok (u, .seq))

/-! ### Reduction, scan, histogram (R226-R228) -/

/-- The lanes of a register at the positions in `ks`. -/
def pickLanes (v : VReg) (ks : List Nat) : List W32 := ks.map (lane v)

def execVred (f : VF) (s : State) : Out :=
  let ks := activeLanes (activeMask s f.pm)
  let op := f.immBits 0 2
  perform s (.vred f) { ops := [dstS f.vd, srcV 1 f.vs1 f.w1, pmOp f.pm] } (fun t v => do
    let c := curCtx t
    let mode := roundMode c f.rnd3
    let r := reduceLanes f.ty4 op mode (ftzOn c) (laneGen c 0) (pickLanes (vval v 0) ks)
    let t ← raiseFlags t r.flags
    -- One rounding, with s[0]; over no lane there is none (log 12).
    let t := if reduceRounds f.ty4 op && !ks.isEmpty then stepIn t mode [0] else t
    let x : W32 := w32 r.bits
    let u ← setReg t f.vd (if f.ty4 = 9 then sext64 x else zext64 x)
    .ok (u, .seq))

/-- The lanes a prefix ending at lane k takes (R227). -/
def scanLanes (ks : List Nat) (k : Nat) (exclusive : Bool) : List Nat :=
  ks.filter (fun j => if exclusive then decide (j < k) else decide (j ≤ k))

def execVscan (f : VF) (s : State) : Out :=
  let ks := activeLanes (activeMask s f.pm)
  let op := f.immBits 0 2
  let ex := f.imm13.getLsbD 2
  let ops := if op = 0 then [vdOp s f, srcV 1 f.vs1 f.w1, srcS 2 f.vs2 f.w2, pmOp f.pm] else opsV1 s f
  let g := fun (mode : Nat) (ftz : Bool) (v : List VReg) (k : Nat) (r : W32) =>
    let carry : List W32 := if op = 0 then [(sval v 1).setWidth 32] else []
    reduceLanes f.ty4 op mode ftz r (carry ++ pickLanes (vval v 0) (scanLanes ks k ex))
  if reduceRounds f.ty4 op then roundMember (.vscan f) f ops g s
  else flagMember (.vscan f) f ops (fun ftz v k => g 0 ftz v k 0) s

/-- The total added to counter `i` by the active lanes, and whether any contributes (R228). -/
def histTotal (ks : List Nat) (idx wgt : Nat → Nat) (i : Nat) : Option Nat :=
  match ks.filter (fun k => idx k == i) with
  | [] => none
  | js => some (js.foldl (fun a k => a + wgt k) 0)

def execVhist (f : VF) (s : State) : Out :=
  let ks := activeLanes (activeMask s f.pm)
  let weighted := f.imm13.getLsbD 0
  let ops := if weighted then [srcV 1 f.vs1 f.w1, srcV 2 f.vs2 f.w2, pmOp f.pm] else [srcV 1 f.vs1 f.w1, pmOp f.pm]
  perform s (.vhist f) { cpOnly := true, ops := ops } (fun t v => do
    let base := clusterWin + clusterOf t.cur.core * 0x1000000 + 0x10000 + f.immBits 7 6 * 0x200
    let idx := fun k => (ln v 0 k).toNat
    let wgt := fun k => if weighted then (ln v 1 k).toNat else 1
    let u := (upFrom 0 64).foldl (fun u i =>
      match histTotal ks idx wgt i with
      | none => u
      | some n =>
        addReq u { id := 0, agent := curAgent u, slot := curSlot u, fir := curOrd u, launch := curLaunch u
                   kind := .atomic .add (w64 n) 0, todo := [{ pa := base + i * 8, len := 8, off := 0 }] }) t
    .ok (u, .seq))

/-! ### Major 0x06 (R230) -/

/-- A transcendental member: flags and generators now, the register delivered later. -/
def transMember (i : Instr) (f : VF) (op : Trans) (s : State) : Out :=
  let m := activeMask s f.pm
  perform s i { ops := opsV1 s f } (fun t v => do
    let mode := roundMode (curCtx t) f.rnd3
    let ftz := ftzOn (curCtx t)
    let u ← emptyVec t f.vd
    let r ← roundLanes u m mode (fun k r => transLane op mode ftz r (ln (restVd s f v) 0 k).toNat)
    let d := mergeLanes m f.zm (oldVd s f v) (fun k => r.2.getD k 0)
    .ok (deliver r.1 (.vector f.vd.toNat) d, .seq))

def execVexp2 (f : VF) (s : State) : Out := transMember (.vexp2 f) f .exp2 s
def execVrcp (f : VF) (s : State) : Out := transMember (.vrcp f) f .rcp s
def execVrsq (f : VF) (s : State) : Out := transMember (.vrsq f) f .rsq s
def execVlog2 (f : VF) (s : State) : Out := transMember (.vlog2 f) f .log2 s

/-! ### Predicates (R232) -/

def predP (i : Instr) (f : VF) (two : Bool) (op : W64 → W64 → W64) (s : State) : Out :=
  perform s i { ops := if two then [dstP f.vd, srcP 1 f.vs1, srcP 2 f.vs2] else [dstP f.vd, srcP 1 f.vs1] } (fun t v => do
    let u ← setPred t f.vd.toNat (op (sval v 0) (sval v 1))
    .ok (u, .seq))

def execPand (f : VF) (s : State) : Out := predP (.pand f) f true (· &&& ·) s
def execPor (f : VF) (s : State) : Out := predP (.por f) f true (· ||| ·) s
def execPnot (f : VF) (s : State) : Out := predP (.pnot f) f false (fun a _ => ~~~a) s

def predS (i : Instr) (f : VF) (op : W64 → W64) (s : State) : Out :=
  perform s i { ops := [dstS f.vd, srcP 1 f.vs1] } (fun t v => do
    let u ← setReg t f.vd (op (sval v 0))
    .ok (u, .seq))

def execPcnt (f : VF) (s : State) : Out := predS (.pcnt f) f (fun a => w64 (popNat 64 a.toNat)) s
/-- PFIRST: the index of the lowest one bit, 64 for none. -/
def lowestBit (a : W64) : Nat := ((upFrom 0 64).find? (fun k => a.getLsbD k)).getD 64
def execPfirst (f : VF) (s : State) : Out := predS (.pfirst f) f (fun a => w64 (lowestBit a)) s

/-! ### Conversion (R233-R236) -/

/-- Elements of part `dp` of width `w` replaced under predication (R233). -/
def putPart (old : VReg) (w dp : Nat) (m : BitVec 64) (zm : Bool) (res : Nat → Nat) : VReg :=
  let x := packNat w ((upFrom 0 64).map (fun k => if active m k then res k else if zm then 0 else elem old w (64 * dp + k)))
  setElem old (64 * w) dp x

def execVcvt (f : VF) (s : State) : Out :=
  let m := activeMask s f.pm
  let dst := f.ty4.toNat
  let src := f.immBits 0 4
  let dp := f.immBits 7 3
  let sp := f.immBits 4 3
  let reads := mergesVd s f || decide (fmtWidth dst < 32)
  let ops := [if reads then bothV 0 f.vd false else dstV f.vd, srcV 1 f.vs1 f.w1, pmOp f.pm]
  perform s (.vcvt f) { ops := ops } (fun t v => do
    let mode := roundMode (curCtx t) f.rnd3
    let ftz := ftzOn (curCtx t)
    let old := if reads then vval v 0 else 0
    let x := vval v (if reads then 1 else 0)
    let r ← roundLanes t m mode (fun k r =>
      let e := elem x (fmtWidth src) (64 * sp + k)
      convert dst mode ftz r (flushIn ftz src (readElem src e) e))
    let u ← setVec r.1 f.vd (putPart old (fmtWidth dst) dp m f.zm (fun k => (r.2.getD k 0).toNat))
    .ok (u, .seq))

def execVqmx (f : VF) (s : State) : Out :=
  let fmt := f.ty4.toNat
  let w := fmtWidth fmt
  let dp := f.immBits 7 3
  perform s (.vqmx f) { ops := [bothV 0 f.vd false, srcV 1 f.vs1 f.w1, bothV 3 f.vs3 f.w3] } (fun t v => do
    if f.vs3 = f.vd ∨ f.vs3 = f.vs1 then trapEx cOPERAND (zext64 f.vs3)
    let c := curCtx t
    let mode := roundMode c f.rnd3
    let blk := fun b => quantBlock fmt mode ((upFrom (32 * b) 32).map (laneGen c))
      ((upFrom (32 * b) 32).map (fun k => fp32 (ftzOn c) (ln v 1 k)))
    let b0 := blk 0
    let b1 := blk 1
    let t ← raiseFlags t (b0.2.2 ||| b1.2.2)
    let t := stepIn t mode (upFrom 0 64)
    let u ← setVec t f.vd (setElem (vval v 0) (64 * w) dp (packNat w (b0.2.1 ++ b1.2.1)))
    let u ← setVec u f.vs3 (setElem (setElem (vval v 2) 8 (2 * dp) b0.1) 8 (2 * dp + 1) b1.1)
    .ok (u, .seq))

def execVdqmx (f : VF) (s : State) : Out :=
  let fmt := f.ty4.toNat
  let sp := f.immBits 4 3
  roundMember (.vdqmx f) f (opsV2 s f)
    (fun mode ftz v k r =>
      convert 0 mode ftz r (mxValue fmt (elem (vval v 0) (fmtWidth fmt) (64 * sp + k)) (elem (vval v 1) 8 (2 * sp + k / 32)))) s

/-- Readers of cb wait while a CBLOAD is pending (R289). -/
def cbReady (s : State) : Ex Unit := if (curCtx s).cbBusy ≠ 0 then waitEx .interlock else .ok ()

/-- Entry `i` of a codebook (R78). -/
def cbEntry (cb : BitVec 256) (i : Nat) : Nat := wbits cb (16 * i) 16

def execVlut (f : VF) (s : State) : Out :=
  let m := activeMask s f.pm
  let sp := f.immBits 4 3
  perform s (.vlut f) { ops := opsV1 s f } (fun t v => do
    cbReady t
    let x := vval (restVd s f v) 0
    let u ← setVec t f.vd (mergeLanes m f.zm (oldVd s f v)
      (fun k => w32 (cbEntry (curCtx t).cb (elem x 4 (64 * sp + k)) * 2 ^ 16)))
    .ok (u, .seq))

end Sys2Proof.Machine
end

