-- ==== Sys2Proof/Machine/Matrix.lean ====
section
/-!
DEFINITION. Sys2Proof/Machine/Matrix.lean: the matrix engine: the instructions that enter tasks (R260-R269), the issue and
completion of tasks (R95, R96, R99-R101, R108-R111), self-tests (R112, R113).
-/

namespace Sys2Proof.Machine

/-! ### Fields (R260) -/

def eD (f : EF) : Nat := f.bits 21 5
def eS (f : EF) : Nat := f.bits 16 5
def eF (f : EF) : Nat := f.bits 12 4
def eK (f : EF) : Nat := f.bits 10 2
def eN64 (f : EF) : Bool := f.bits 11 1 == 1

/-! ### Operands in memory (R261) -/

/-- A tile operand of `n` bytes, in HBM or a scratchpad view; any other target faults with kind 6. -/
def tileSeg (s : State) (va : W64) (n : Nat) : Ex Seg := do
  let x ← xlate s .load va n false false
  match place x.pa with
  | .hbm | .spad _ _ => if x.dev = 0 then .ok (oneSeg x n) else trapEx cLOAD (faultVal 6 va.toNat)
  | _ => trapEx cLOAD (faultVal 6 va.toNat)

/-- A scale array of `n` bytes, where the format has one and an address names it. -/
def scaleSeg (s : State) (fmt : Nat) (va : W64) (n : Nat) : Ex (Option Seg) :=
  if isMx fmt && va != 0 then (xlate s .load va n false false).map (fun x => some (oneSeg x n)) else .ok none

/-- Alignment of a tile operand and of its scale array. -/
def operandsAligned (fmt : Nat) (a sc : W64) (size scsize : Nat) : Ex Unit := do
  aligned a size
  if isMx fmt && sc != 0 then aligned sc scsize

/-- An operand as a tile of the core, where it lies in the core's own scratchpad. -/
def segTiles (n : Nat) (g : Seg) : List Tile :=
  if g.dev = 0 ∧ coreOfPa g.pa = some n then [.mem g.pa g.len] else []

/-- Pieces of memory a task reads. -/
def taskSegs (k : TaskKind) : List Seg :=
  match k with
  | .mldb _ _ src sc _ => src :: sc.toList
  | .mldm _ src => [src]
  | .mma _ _ _ a sc | .mmaS _ _ _ _ a sc => a :: sc.toList
  | .tdclass (.mem pa len) => [{ pa := pa, len := len, off := 0 }]
  | _ => []

/-- A task of the issuing stream enters the table of core `n`; a full table holds the stream (R109). -/
def enterTask (s : State) (n : Nat) (k : TaskKind) (reads writes : List Tile) (d : Dest) : Ex State :=
  if tableFull s n then waitEx .interlock
  else
    let t : Task :=
      { id := s.nextId, who := s.cur, launch := curLaunch s, slot := curSlot s, fir := curOrd s, kind := k, reads := reads, writes := writes, dest := d }
    .ok (modCore { s with nextId := s.nextId + 1 } n (fun c => { c with tasks := c.tasks ++ [t] }))

/-! ### The instructions (R262-R269) -/

def matrixPlan (ops : List Opnd) : Plan := { cpOnly := true, ops := ops }

def execMldb (f : EF) (s : State) : Out :=
  perform s (.mldb f) (matrixPlan [addrS 1 f.rs1 f.w, addrS 2 f.rs2 f.w]) (fun s v => do
    let size := 128 * fmtWidth (eF f)
    operandsAligned (eF f) (sval v 0) (sval v 1) size 32
    let src ← tileSeg s (sval v 0) size
    let sc ← scaleSeg s (eF f) (sval v 1) 32
    if eF f = 6 then cbReady s
    let n := s.cur.core
    let s ← enterTask s n (.mldb (eS f) (eF f) src sc (curCtx s).cb) (segTiles n src ++ sc.toList.flatMap (segTiles n)) [.mslot (eS f)] .none
    .ok (s, .seq))

def execMldm (f : EF) (s : State) : Out :=
  perform s (.mldm f) (matrixPlan [addrS 1 f.rs1 f.w]) (fun s v => do
    aligned (sval v 0) 16
    let x ← xlate s .load (sval v 0) 16 false false
    let src := oneSeg x 16
    let s ← enterTask s s.cur.core (.mldm (eS f) src) (segTiles s.cur.core src) [.mslot (eS f)] .none
    .ok (s, .seq))

def execMma (f : EF) (s : State) : Out :=
  perform s (.mma f) (matrixPlan [addrS 1 f.rs1 f.w, addrS 2 f.rs2 f.w]) (fun s v => do
    let size := 128 * fmtWidth (eF f)
    operandsAligned (eF f) (sval v 0) (sval v 1) size 32
    let a ← tileSeg s (sval v 0) size
    let sc ← scaleSeg s (eF f) (sval v 1) 32
    let n := s.cur.core
    let s ← macroParity s n [64 + eS f, eD f]
    let s ← enterTask s n (.mma (eD f) (eS f) (eF f) a sc)
      (segTiles n a ++ sc.toList.flatMap (segTiles n) ++ [.mslot (eS f), .acc (eD f)]) [.acc (eD f)] .none
    .ok (s, .seq))

/-- The slots an MMA.S names. -/
def sparseSlots (sl : Nat) (wide : Bool) : List Nat := if wide && sl < 31 then [sl, sl + 1] else [sl]

/-- An earlier task, or an access of the core on its way, still writes a slot (R101). -/
def slotWritten (s : State) (n sl : Nat) : Bool :=
  tileHolds s (.stream s.cur) s.nextId false n (.mslot sl) ||
    s.reqs.any (fun r => agentCore r.agent == some n && r.kind.writes && r.todo.any (fun g => (coreTiles s n g).any (tilesMeet (.mslot sl))))

/-- R101's check of the masks. -/
def maskCheck (s : State) (n sl : Nat) (wide : Bool) : Ex Unit :=
  let pop := popNat 128 (slotMask s n sl)
  if pop ≠ (if wide then 64 else 32) ∨ (wide = true ∧ (sl % 2 = 1 ∨ slotMask s n (sl + 1) ≠ slotMask s n sl)) then
    trapEx cOPERAND (w64 pop)
  else .ok ()

def execMmaS (f : EF) (s : State) : Out :=
  perform s (.mmaS f) (matrixPlan [addrS 1 f.rs1 f.w, addrS 2 f.rs2 f.w]) (fun s v => do
    let size := 512 * fmtWidth (eF f)
    operandsAligned (eF f) (sval v 0) (sval v 1) size 128
    let a ← tileSeg s (sval v 0) size
    let sc ← scaleSeg s (eF f) (sval v 1) 128
    let n := s.cur.core
    let sls := sparseSlots (eS f) (eN64 f)
    if sls.any (slotWritten s n) then waitEx .interlock
    maskCheck s n (eS f) (eN64 f)
    let s ← macroParity s n (sls.map (64 + ·) ++ [eD f])
    let s ← enterTask s n (.mmaS (eD f) (eS f) (eF f) (eN64 f) a sc)
      (segTiles n a ++ sc.toList.flatMap (segTiles n) ++ sls.map .mslot ++ [.acc (eD f)]) [.acc (eD f)] .none
    .ok (s, .seq))

def execMclr (f : EF) (s : State) : Out :=
  perform s (.mclr f) (matrixPlan []) (fun s _ => do
    let s ← enterTask s s.cur.core (.mclr (eD f)) [] [.acc (eD f)] .none
    .ok (s, .seq))

def execMrd (f : EF) (s : State) : Out :=
  perform s (.mrd f) (matrixPlan [dstV f.rd]) (fun s _ => do
    let s ← macroParity s s.cur.core [eD f]
    let s ← emptyVec s f.rd
    let s ← enterTask s s.cur.core (.mrd (eD f) (eF f)) [.acc (eD f)] [] (.vector f.rd.toNat)
    .ok (s, .seq))

/-- The tile that TDCLASS and TDQUERY name: of the core by K, or the covered tile at an address, with its directory;
none where nothing covers it (R268). -/
def namedTile (s : State) (f : EF) (va : W64) : Ex (Option Covered) :=
  match eK f with
  | 0 => .ok (some (accTile s.cur.core (eD f)))
  | 1 => .ok (some (slotTile s s.cur.core (eS f)))
  | _ => do
    let x ← xlate s .load va 1 false false
    if x.dev ≠ 0 then .ok none
    else
      match place x.pa, covered s x.pa with
      | .spad _ _, some c | .hbm, some c => if x.pa = c.base then .ok (some c) else trapEx cMISALIGNED va
      | _, _ => .ok none

/-- A covered tile as a tile of a core's table, with that core. -/
def tableTile (c : Covered) : Option (Nat × Tile) :=
  match c.ref with
  | .acc n d => some (n, .acc d)
  | .slot n k => some (n, .mslot k)
  | .region n _ => some (n, .mem c.base c.bytes)
  | .page _ => none

def tdOps (f : EF) : List Opnd := if eK f = 2 then [addrS 1 f.rs1 f.w] else []

def execTdclass (f : EF) (s : State) : Out :=
  perform s (.tdclass f) (matrixPlan (tdOps f)) (fun s v => do
    match ← namedTile s f (sval v 0) with
    | none => .ok (s, .seq)
    | some c =>
      let s ← match tableTile c with
        | some (n, t) => enterTask s n (.tdclass t) [] [t] .none
        | none => enterTask s s.cur.core (.tdclass (.mem c.base c.bytes)) [] [] .none
      .ok (s, .seq))

/-- Earlier table tasks of the issuing context that write a tile: matrix tasks, its stores, its copies (R268, R109). -/
def writesAhead (s : State) (n : Nat) (t : Tile) : Bool :=
  (getCore s n).tasks.any (fun k => k.who == s.cur && k.writes.any (tilesMeet t)) ||
    s.reqs.any (fun r => r.agent == curAgent s && r.kind.writes && r.todo.any (fun g => (coreTiles s n g).any (tilesMeet t))) ||
    (getCore s s.cur.core).copies.any (fun e => copyOf s.cur e.2 && copyEntered e.2 && e.2.writes.any (tilesMeet t)) ||
    (spillSegs s s.cur).any (fun b => b.2.any (fun g => (coreTiles s n g).any (tilesMeet t)))

def execTdquery (f : EF) (s : State) : Out :=
  perform s (.tdquery f) (matrixPlan (dstS f.rd :: tdOps f)) (fun s v => do
    let c ← namedTile s f (sval v 0)
    if (c.bind tableTile).any (fun x => writesAhead s x.1 x.2) then waitEx .interlock
    let w := match c with
      | some c => dirWord (getDir s c.ref)
      | none => 4
    let t ← emptyReg s f.rd
    .ok (deliver t (scalarDest s f.rd) (BitVec.ofNat 2048 w), .seq))

def execMtest (f : EF) (s : State) : Out :=
  perform s (.mtest f) (matrixPlan [dstS f.rd]) (fun s _ => do
    let t ← emptyReg s f.rd
    let t ← enterTask t s.cur.core (.mtest (eS f)) [] [.mslot (eS f)] (scalarDest s f.rd)
    .ok (t, .seq))

/-! ### The sum (R95, R96, R100) -/

/-- C_new of R95 from C_old and the products. -/
def mmaElem (c : W32) (ps : List FVal) : W32 × Flags :=
  match addVals 0 (readFloat 0 c.toNat :: ps) with
  | .nan nv => (w32 (canonNaN 0), if nv then flagNV else 0)
  | .inf g => (w32 (infBits 0 g), 0)
  | .fin _ _ _ =>
    if (sumFin ps).1 = 0 then (c, 0)
    else
      let r := convert 0 0 false 0 (ofSum (sumFin (readFloat 0 c.toNat :: ps)) false)
      (w32 r.bits, r.flags)

/-- An operand's element by its format and scale code (R75, R77). -/
def operand (fmt x sc : Nat) : FVal := if isMx fmt then mxValue fmt x sc else readFloat fmt x

/-- Element `i` of width `w` of packed data. -/
def packedElem (data w i : Nat) : Nat := (data >>> (w * i)) % 2 ^ w

/-- Row `t` of a slot at column `j`, by the slot's own format and scales. -/
structure SlotData where
  fmt : Nat
  data : Nat
  scales : List Nat

def slotData (s : State) (n k : Nat) : SlotData :=
  { fmt := slotFmt s n k, data := memRead s (coreBase n + 0xA0000 + k * 2048) 2048, scales := slotScales s n k }

def slotElem (b : SlotData) (t j : Nat) : FVal :=
  operand b.fmt (packedElem b.data 16 (t * 32 + j) % 2 ^ fmtWidth b.fmt) (b.scales.getD j 0x7F)

/-- The whole product: C (1024 encodings), A's row values, B's columns. -/
def mmaTile (c : Nat) (row : Nat → List FVal) (col : Nat → List FVal) : List (W32 × Flags) :=
  let cols := (upFrom 0 32).map col
  (upFrom 0 32).flatMap (fun i =>
    let r := row i
    cols.zipIdx.map (fun p => mmaElem (w32 (packedElem c 32 (i * 32 + p.2))) ((r.zip p.1).map (fun q => mulVals q.1 q.2))))

/-- The accumulator's 4096 bytes as a number. -/
def accData (s : State) (n d : Nat) : Nat := memRead s (coreBase n + 0x80000 + d * 4096) 4096

/-- The positions of set bits of a mask, ascending. -/
def keptPositions (m : Nat) : List Nat := (upFrom 0 128).filter (fun p => m.testBit p)

/-! ### Rewrites (R108) -/

/-- The encoding of 1 in a format. -/
def oneOf (fmt : Nat) : Nat :=
  match fmt with
  | 1 => 0x3F80
  | 2 => 0x3C00
  | 3 => 0x38
  | 4 => 0x3C
  | _ => 0x2

/-- The entry an A tile is taken under: that of its directory where the widths agree (R106). -/
def aEntry (s : State) (fmt pa : Nat) : DirEntry :=
  match place pa, covered s pa with
  | .spad _ _, some c | .hbm, some c => if c.width = fmtWidth fmt then getDir s c.ref else .general
  | _, _ => .general

/-- The rewrite an MMA takes. `scs` are A's scale codes, empty for a format without scales. -/
def rewriteOf (s : State) (n d k fmt pa : Nat) (scs : List Nat) : Rewrite :=
  let a := aEntry s fmt pa
  let b := getDir s (.slot n k)
  let c := getDir s (.acc n d)
  if a.nf || b.nf || c.nf || scs.any (· == 0xFF) then .full
  else if a.cls = 1 ∨ (scs ≠ [] ∧ scs.all (· == 0)) ∨ b.cls = 1 then .elided
  else if a.cls = 3 ∧ a.side.toNat = oneOf fmt ∧ scs.all (· == 0x7F) then .accumulate
  else if b.cls = 3 ∧ b.side.toNat = oneOf (slotFmt s n k) ∧ (slotScales s n k).all (· == 0x7F) then .accumulate
  else if a.cls = 2 ∨ b.cls = 2 then .scaledSum
  else .full

/-- MMA.S is considered only for elision; tile t of A has the scales of column t of each row. Its result is that of R100 (log 28). -/
def rewriteSparse (s : State) (n d : Nat) (ks : List Nat) (fmt pa : Nat) (scs : List Nat) : Rewrite :=
  let as := (upFrom 0 4).map (fun t => aEntry s fmt (pa + t * 128 * fmtWidth fmt))
  let zero := fun (p : DirEntry × Nat) => p.1.cls == 1 || (!scs.isEmpty && (upFrom 0 32).all (fun i => scs.getD (i * 4 + p.2) 0x7F == 0))
  let bs := ks.map (fun k => getDir s (.slot n k))
  if as.any (·.nf) || bs.any (·.nf) || (getDir s (.acc n d)).nf || scs.any (· == 0xFF) then .full
  else if as.zipIdx.all zero || bs.any (fun b => b.cls == 1) then .elided
  else .full

def rewriteCounter (r : Rewrite) : Nat :=
  match r with
  | .full => 0
  | .elided => 1
  | .accumulate => 2
  | .scaledSum => 3

/-! ### Issue of a task (R109, R110) -/

/-- Condition 1 and 2 of R109 against earlier entries. -/
def taskFree (ts : List Task) (t : Task) : Bool :=
  !(ts.takeWhile (fun u => u.id != t.id)).any (fun u =>
    u.writes.any (fun x => t.reads.any (tilesMeet x)) || (u.reads ++ u.writes).any (fun x => t.writes.any (tilesMeet x)))

/-- Accesses that a task's reads come after: its stream's earlier accesses of the bytes, and earlier acquires (R137, R139, R146). -/
def taskOrdered (s : State) (t : Task) : Bool :=
  !firingBusy s t.who.core t.slot t.fir && !(taskSegs t.kind).any (pathDead s (some t.who.core)) &&
    !earlier s (.stream t.who) t.id (fun r => !(unperformed r).isEmpty && (r.acq || segsMeet (unperformed r) (taskSegs t.kind))) &&
    !(spillSegs s t.who).any (fun b => decide (b.1 < t.id) && segsMeet b.2 (taskSegs t.kind))

/-- The slots a product uses. -/
def productSlots (k : TaskKind) : List Nat :=
  match k with
  | .mma _ sl _ _ _ => [sl]
  | .mmaS _ sl _ wide _ _ => sparseSlots sl wide
  | _ => []

/-- A self-test is due on a macro before its next product (R112). -/
def testDue (c : Core) (sl : Nat) : Bool := c.interval != 0 && decide (c.interval ≤ tget 0 c.sinceTest sl)

/-- The launch of the firing that entered a task. -/
def taskLaunch (t : Task) : Option Nat := if t.launch < 64 then some t.launch else none

/-- The row buffers that a product wants: one for each A tile (R98). -/
def wantedBufs (k : TaskKind) : List RowBuf :=
  match k with
  | .mma _ _ fmt a sc => [{ pa := a.pa, fmt := fmt, scalePa := (sc.map (·.pa)).getD 0 }]
  | .mmaS _ _ fmt _ a sc => (upFrom 0 4).map (fun q => { pa := a.pa + q * (a.len / 4), fmt := fmt, scalePa := (sc.map (·.pa)).getD 0 })
  | _ => []

def sameBuf (a b : RowBuf) : Bool := a.pa == b.pa && a.fmt == b.fmt && a.scalePa == b.scalePa

/-- A buffer that an MMA which has not completed uses. -/
def bufPending (c : Core) (b : RowBuf) : Bool := b.users.any (fun u => c.tasks.any (fun t => t.id == u))

/-- Whether the buffers that a product wants are there, or can be made. -/
def bufsFree (c : Core) (t : Task) : Bool :=
  let ws := wantedBufs t.kind
  let kept := c.rowBufs.filter (fun b => bufPending c b || ws.any (sameBuf b))
  decide (kept.length + (ws.filter (fun w => !c.rowBufs.any (sameBuf w))).length ≤ 8)

/-- The pieces of the A tiles of a product that no buffer holds, and whether any is missing. -/
def missingTiles (c : Core) (a : Seg) (k : TaskKind) : List Seg :=
  ((wantedBufs k).filter (fun w => !c.rowBufs.any (sameBuf w))).map (fun w => { a with pa := w.pa, len := 128 * fmtWidth w.fmt })

/-- Whether a task can issue now. -/
def canIssueTask (s : State) (n : Nat) (t : Task) : Bool :=
  !clocksOff s && !t.issued && taskFree (getCore s n).tasks t && !s.reqs.any (accessBlocks s n t) &&
    !(getCore s n).ctxs.any (fun c => spillBlocks s n t c.2) && !(getCore s n).copies.any (fun e => copyBlocks t e.2) && taskOrdered s t && bufsFree (getCore s n) t &&
    !(productSlots t.kind).any (testDue (getCore s n))

/-- The context whose codebook a load takes: its firing's, or what it held when its task entered (log 29). -/
def taskCb (s : State) (t : Task) (cb : BitVec 256) : BitVec 256 :=
  match (getCtx s t.who.core t.who.ctx).firing with
  | some g => if g.slot = t.slot ∧ g.ord = t.fir then (getCtx s t.who.core t.who.ctx).cb else cb
  | none => cb

/-- Words of a packed number. -/
def wordsOf (n x : Nat) : List W32 := (upFrom 0 n).map (fun i => w32 (packedElem x 32 i))
/-- A number packed from words. -/
def ofWords (ws : List W32) : Nat := packNat 32 (ws.map BitVec.toNat)

/-- Poison in what a task reads (R381). -/
def taskPoison (s : State) (segs : List (Nat × Nat)) : Bool :=
  !s.dev.poison.isEmpty && segs.any (fun g => (poisonedAt s g.1 g.2).isSome)

/-- The bytes of a slot that a product reads: its elements and its tag's scales (R97). -/
def slotStretches (n k : Nat) : List (Nat × Nat) := [(coreBase n + 0xA0000 + k * 2048, 2048), (coreBase n + 0xB0200 + k * 0x40, 32)]

/-- Scale codes read, all 0x7F where no address names them, none for a format without scales. -/
def scaleCodes (s : State) (fmt n : Nat) (sc : Option Seg) : List Nat × State :=
  if !isMx fmt then ([], s)
  else
    match sc with
    | none => (List.replicate n 0x7F, s)
    | some g =>
      let r := readSeg s g
      ((upFrom 0 n).map (packedElem r.1 8), r.2)

/-- What a task reads of memory as it is carried out: a product reads the A tiles that no buffer holds, and its scales with them, and
an elided one none (R98, R108). -/
def taskTraffic (c : Core) (t : Task) : List Seg :=
  match t.kind with
  | .mma _ _ _ a sc | .mmaS _ _ _ _ a sc =>
    let miss := missingTiles c a t.kind
    (match t.rewrite with | .elided => [] | .full => miss | _ => [a]) ++ (if miss.isEmpty then [] else sc.toList)
  | k => taskSegs k

/-- A task's result and flags at issue: the task as it stands in the table after, and the state. DESIGN CHOICE: poison anywhere in the
panel tiles or the scale array of an MMA.S, which are read whole, leaves its destination unchanged, in elements outside the mask too
(log 88). -/
def runTask (s : State) (n : Nat) (t : Task) : Task × State :=
  let done := fun (ws : List W32) => { t with issued := true, result := ws }
  match t.kind with
  | .mldb _ fmt src sc cb =>
    if taskPoison s ((src :: sc.toList).map (fun g => (g.pa, g.len))) then ({ done [] with poisoned := true }, s)
    else
      let r := readSeg s src
      let scs := scaleCodes r.2 fmt 32 sc
      let w := fmtWidth fmt
      let xs := (upFrom 0 1024).map (fun i =>
        let x := packedElem r.1 w (i % 32 * 32 + i / 32)
        if fmt = 6 then cbEntry (taskCb s t cb) x else x)
      let codes := if scs.1.isEmpty then List.replicate 32 0x7F else scs.1
      (done (wordsOf 512 (packNat 16 xs) ++ wordsOf 8 (packNat 8 codes)), scs.2)
  | .mldm _ src =>
    if taskPoison s [(src.pa, src.len)] then ({ done [] with poisoned := true }, s)
    else
      let r := readSeg s src
      (done (wordsOf 4 r.1), r.2)
  | .mma d sl fmt a sc =>
    let miss := missingTiles (getCore s n) a t.kind
    let scs := ((scaleCodes s fmt 32 sc).1, if miss.isEmpty then s else (scaleCodes s fmt 32 sc).2)
    let rw := rewriteOf s n d sl fmt a.pa scs.1
    let s := countMatrix scs.2 n (rewriteCounter rw)
    if rw ≠ .elided ∧ taskPoison s ((a :: sc.toList).map (fun g => (g.pa, g.len)) ++
        (coreBase n + 0x80000 + d * 4096, 4096) :: slotStretches n sl) then
      ({ done [] with rewrite := rw, poisoned := true }, s)
    else
      let r := if rw = .elided then s else countPieces s (if rw = .full then miss else [a])
      let w := fmtWidth fmt
      let av := physRead s a.pa a.len
      let b := slotData s n sl
      let xs := mmaTile (accData s n d)
        (fun i => (upFrom 0 32).map (fun k => operand fmt (packedElem av w (i * 32 + k)) (scs.1.getD i 0x7F)))
        (fun j => (upFrom 0 32).map (fun k => slotElem b k j))
      ({ done (xs.map (·.1)) with rewrite := rw, flags := xs.foldl (fun f x => f ||| x.2) 0 }, r)
  | .mmaS d sl fmt wide a sc =>
    let ks := sparseSlots sl wide
    let miss := missingTiles (getCore s n) a t.kind
    let scs := ((scaleCodes s fmt 128 sc).1, if miss.isEmpty then s else (scaleCodes s fmt 128 sc).2)
    let rw := rewriteSparse s n d ks fmt a.pa scs.1
    let s := countMatrix scs.2 n (rewriteCounter rw)
    if rw ≠ .elided ∧ taskPoison s ((a :: sc.toList).map (fun g => (g.pa, g.len)) ++
        (coreBase n + 0x80000 + d * 4096, 4096) :: (coreBase n + 0xB0000 + sl * 16, 16) :: ks.flatMap (slotStretches n)) then
      ({ done [] with rewrite := rw, poisoned := true }, s)
    else
      let r := if rw = .elided then s else countPieces s miss
      let w := fmtWidth fmt
      let av := physRead s a.pa a.len
      let ps := (keptPositions (slotMask s n sl)).take (32 * ks.length)
      let bs := ks.map (slotData s n)
      let xs := mmaTile (accData s n d)
        (fun i => ps.map (fun p =>
          operand fmt (packedElem av w (p / 32 * 1024 + i * 32 + p % 32)) (scs.1.getD (i * 4 + p / 32) 0x7F)))
        (fun j => bs.flatMap (fun b => (upFrom 0 32).map (fun k => slotElem b k j)))
      ({ done (xs.map (·.1)) with rewrite := rw, flags := xs.foldl (fun f x => f ||| x.2) 0 }, r)
  | .mrd d rp => (done ((upFrom 0 64).map (fun k => w32 (packedElem (accData s n d) 32 (64 * rp + k)))), s)
  | .mclr _ | .tdclass _ | .mtest _ => (done [], s)

/-- A task of a core replaced by its order number. -/
def setTask (s : State) (n : Nat) (t : Task) : State :=
  modCore s n (fun c => { c with tasks := c.tasks.map (fun u => if u.id = t.id then t else u) })

/-- Products run in full count towards their macros' self-tests (R112), those run while INTERVAL is 0 too (log 79). -/
def countProducts (s : State) (n : Nat) (t : Task) : State :=
  if t.rewrite = .full then
    modCore s n (fun c => { c with sinceTest := (productSlots t.kind).foldl (fun m k => tset 0 m k (tget 0 m k + 1)) c.sinceTest })
  else s

/-- One buffer found or filled for a product, as the most recently used; the least recently used one without a pending MMA
makes room. -/
def useBuf (id : Nat) (c : Core) (w : RowBuf) : Core :=
  match c.rowBufs.find? (sameBuf w) with
  | some b => { c with rowBufs := { b with users := b.users.filter (fun u => c.tasks.any (fun t => t.id == u)) ++ [id] } :: c.rowBufs.filter (fun x => !sameBuf w x) }
  | none =>
    let rest := if c.rowBufs.length < 8 then c.rowBufs
      else match c.rowBufs.reverse.find? (fun b => !bufPending c b) with
        | some b => c.rowBufs.filter (fun x => !sameBuf b x)
        | none => c.rowBufs
    { c with rowBufs := { w with users := [id] } :: rest }

/-- The row buffers that a product run in full fills or finds filled (R98). -/
def useRowBuf (s : State) (n : Nat) (t : Task) : State :=
  if t.rewrite = .full ∧ !(wantedBufs t.kind).isEmpty then modCore s n (fun c => (wantedBufs t.kind).foldl (useBuf t.id) c) else s

/-- TILE_TASK_ISSUE. -/
def issueTask (s : State) (n id : Nat) : State :=
  match (getCore s n).tasks.find? (fun t => t.id == id) with
  | some t =>
    if canIssueTask s n t then
      let r := runTask s n t
      let u := useRowBuf (countProducts (setTask r.2 n r.1) n r.1) n r.1
      addTraffic u ((taskLaunch t).getD 64) (taskTraffic (getCore s n) r.1)
    else s
  | none => s

/-! ### Completion (R104, R109, R110) -/

/-- The firing of a task's context marked poisoned (R381). -/
def poisonFiring (s : State) (w : StreamId) (slot fir : Nat) : State :=
  modCtx s w.core w.ctx (fun c => { c with firing := c.firing.map (fun g =>
    if g.slot = slot ∧ g.ord = fir then { g with poisoned := true } else g) })

/-- A task can complete: issued, its self-test run, and products of one context in program order (R110). -/
def canComplete (s : State) (n : Nat) (t : Task) : Bool :=
  t.issued &&
    (match t.kind with | .mtest _ => !t.result.isEmpty | _ => true) &&
    !(isMma t.kind && (getCore s n).tasks.any (fun u =>
      isMma u.kind && decide (u.id < t.id) && u.who.core == t.who.core && u.who.ctx == t.who.ctx))

/-- What a completing task writes. -/
def taskEffect (s : State) (n : Nat) (t : Task) : State :=
  if t.poisoned then poisonFiring s t.who t.slot t.fir
  else
    match t.kind with
    | .mldb sl fmt _ _ _ =>
      let s := memWrite s (coreBase n + 0xA0000 + sl * 2048) 2048 (ofWords (t.result.take 512))
      let s := memWrite s (coreBase n + 0xB0200 + sl * 0x40) 32 (ofWords (t.result.drop 512))
      let s := memWrite s (coreBase n + 0xB0200 + sl * 0x40 + 0x20) 1 (if fmt = 6 then 1 else fmt)
      imageSlot (reclassify s (slotTile s n sl)) n sl
    | .mldm sl _ =>
      let s := memWrite s (coreBase n + 0xB0000 + sl * 16) 16 (ofWords t.result)
      imageSlot (reclassify s (slotTile s n sl)) n sl
    | .mma d _ _ _ _ | .mmaS d _ _ _ _ _ =>
      let s := memWrite s (coreBase n + 0x80000 + d * 4096) 4096 (ofWords t.result)
      let s := reclassify s (accTile n d)
      modCtx s t.who.core t.who.ctx (fun c => { c with fpflags := c.fpflags ||| t.flags })
    | .mclr d => setDir (memWrite s (coreBase n + 0x80000 + d * 4096) 4096 0) (.acc n d) .zero
    | .tdclass (.acc d) => reclassify s (accTile n d)
    | .tdclass (.mslot k) => reclassify s (slotTile s n k)
    | .tdclass (.mem pa _) => match covered s pa with | some c => reclassify s c | none => s
    | .mrd _ _ | .mtest _ => s

/-- The result of a task on its way to its register, under the task's own order number: the responses of the matrix engine return in
request order (R160, R149). -/
def taskDeliver (s : State) (t : Task) : State :=
  match t.dest with
  | .none => s
  | d => { s with reqs := s.reqs ++ [{ id := t.id, agent := .stream t.who, slot := t.slot, fir := t.fir, launch := t.launch, kind := .ready, todo := []
                                       data := ofLanes t.result, dest := d, unit := matrixUnit }] }

/-- A self-test or a classification writes no data. -/
def isSelfTest (k : TaskKind) : Bool :=
  match k with
  | .mtest _ | .tdclass _ => true
  | _ => false

/-- Whether a slot that a task is about to write is held by a migration of its record (R362, R113). -/
def recordHeld (s : State) (n : Nat) (t : Task) : Bool :=
  !isSelfTest t.kind && t.writes.any (fun x => match x with | .mslot k => imageHeld s n k | _ => false)

/-- TILE_TASK_COMPLETE. -/
def completeTask (s : State) (n id : Nat) : State :=
  match (getCore s n).tasks.find? (fun t => t.id == id) with
  | some t =>
    if canComplete s n t && !recordHeld s n t then
      let s := taskDeliver (taskEffect s n t) t
      let written := if t.poisoned || isSelfTest t.kind then [] else t.writes.filterMap (fun x => match x with | .acc d => some d | .mslot k => some (64 + k) | _ => none)
      let acc := ((written.find? (· < 64)).getD 99)
      modCore s n (fun c => { c with
        tasks := c.tasks.filter (fun u => u.id != id)
        parity := c.parity.filter (fun p => !written.contains p)
        recentAcc := (c.recentAcc ++ [acc]).drop (c.recentAcc.length - 15) })
    else s
  | none => s

/-! ### Self-tests (R112, R113) -/

/-- A slot reloaded from a macro record, its entry with it (R113, R104). -/
def reloadSlot (s : State) (e n k : Nat) : State :=
  let r := macroRecord (getLaunch s e) n k
  let s := addTraffic (countBursts s r 2176) e [{ pa := r, len := 2176, off := 0 }]
  let s := memWriteBytes s (coreBase n + 0xA0000 + k * 2048) (memBytes s r 2048)
  let s := memWriteBytes s (coreBase n + 0xB0000 + k * 16) (memBytes s (r + 0x800) 16)
  let s := memWriteBytes s (coreBase n + 0xB0200 + k * 0x40) (memBytes s (r + 0x840) 64)
  reclassify s (slotTile s n k)

/-- The launch a failing macro concerns: that of the first task on the slot, else the first that holds the core. -/
def slotLaunch (s : State) (n k : Nat) : Option Nat :=
  match (getCore s n).tasks.find? (fun t => (t.reads ++ t.writes).any (tilesMeet (.mslot k))) with
  | some t => taskLaunch t
  | none => (s.dev.launches.find? (fun e => holdsCore e.2 n)).map (·.1)

/-- A failed self-test (R113): the value MTEST gives. -/
def testFailed (s : State) (n k : Nat) : Nat × State :=
  let s := logError (countMatrix s n 5) 5 0 n 0 0 (w64 k)
  if (getCore s n).spares = 0 then
    let s := match slotLaunch s n k with
      | some e => failLaunch s e { code := 0x14, core := n, detail := w64 k }
      | none => s
    (2, fenceCore s n)
  else
    let s := modCore s n (fun c => { c with spares := c.spares - 1 })
    (1, match s.dev.launches.find? (fun e => holdsCore e.2 n) with
        | some e => reloadSlot s e.1 n k
        | none => s)

/-- SELF_TEST of the macro of a slot: an MTEST that has issued, or a test due before the next product. Either restarts the
INTERVAL count (log 79). -/
def selfTest (s : State) (n k : Nat) (pass : Bool) : State :=
  let waiting := (getCore s n).tasks.find? (fun t => t.issued && t.result.isEmpty && t.kind == .mtest k)
  if waiting.isNone && !testDue (getCore s n) k then s
  else
    let s := modCore (countMatrix s n 4) n (fun c => { c with sinceTest := tset 0 c.sinceTest k 0 })
    let r := if pass then (0, s) else testFailed s n k
    match waiting with
    | some t => setTask r.2 n { t with result := [w32 r.1] }
    | none => r.2

def execTileTaskIssue (core id : Nat) (s : State) : Out := event s (fun s => issueTask s core id)
def execTileTaskComplete (core id : Nat) (s : State) : Out := event s (fun s => completeTask s core id)
def execSelfTest (core slot : Nat) (pass : Bool) (s : State) : Out := event s (fun s => selfTest s core slot pass)

end Sys2Proof.Machine
end

