-- ==== Sys2Proof/Machine/Copy.lean ====
section
/-!
DEFINITION. Sys2Proof/Machine/Copy.lean: the copy engines (R271-R282, R341, R359): descriptors, sectors, arbitration,
faults, CPY, CPYSTAT, CPYCANCEL, SECTOR_ISSUE and the control word. Home.lean reads and writes a sector's lines.
-/

namespace Sys2Proof.Machine

/-! ### Descriptors (R271-R275) -/

namespace CopyDesc

def esz (d : CopyDesc) : Nat := wbits d.ctl 0 3
def sfmt (d : CopyDesc) : Nat := wbits d.ctl 3 4
def dfmt (d : CopyDesc) : Nat := wbits d.ctl 7 4
def prio (d : CopyDesc) : Nat := wbits d.ctl 11 2
def mx (d : CopyDesc) : Bool := d.ctl.getLsbD 16
def ch (d : CopyDesc) : Bool := d.ctl.getLsbD 17
def classify (d : CopyDesc) : Bool := d.ctl.getLsbD 18

/-- The levels in use, level 0 first (R273). -/
def used (d : CopyDesc) : List CopyLevel :=
  (d.levels.take (wbits d.ctl 13 3 + 1)).map (fun l =>
    { count := wbits l 0 16, sstride := toSigned 24 (wbits l 16 24), dstride := toSigned 24 (wbits l 40 24) })

/-- Elements of the copy. -/
def count (d : CopyDesc) : Nat := d.used.foldl (fun n l => n * l.count) 1

/-- Element width of ESZ (R272). -/
def eszBits (d : CopyDesc) : Nat := 4 * 2 ^ d.esz

/-- Whether the elements pass through a conversion (R274). -/
def converts (d : CopyDesc) : Bool := d.sfmt != 15 && d.dfmt != 15 && d.sfmt != d.dfmt

/-- Element width on the source and on the destination side (R274). -/
def srcBits (d : CopyDesc) : Nat := d.eszBits
def dstBits (d : CopyDesc) : Nat := if d.converts then fmtWidth d.dfmt else d.eszBits

/-- Whether a side carries block scales (R274). -/
def srcScaled (d : CopyDesc) : Bool := d.mx && (fmtMx d.sfmt || d.sfmt == 15)
def dstScaled (d : CopyDesc) : Bool := d.mx && (fmtMx d.dfmt || d.dfmt == 15)

/-- Offset of the scale array of a side of width `w` (R274). -/
def scaleOff (d : CopyDesc) (w : Nat) : Nat := ceilDiv (d.count * w) 512 * 64

/-- Elements of a sector; sectors of the copy (R276). -/
def perSector (d : CopyDesc) : Nat := 32768 / d.dstBits
def sectors (d : CopyDesc) : Nat := ceilDiv (d.count * d.dstBits) 32768

/-- A descriptor of its sixteen words. -/
def ofWords (ws : List W64) : CopyDesc :=
  { src := ws.getD 0 0, dst := ws.getD 1 0, stamp := ws.getD 2 0, ctl := ws.getD 3 0, seq := ws.getD 4 0
    rest := (ws.drop 5).take 3, levels := ws.drop 8 }

end CopyDesc

/-- A format a copy accepts (R72). -/
def copyFmt (c : Nat) : Bool := c ≤ 11 || c == 15

/-- Whether strides are dense (R274): level 0 at 1, each next level at the product of the counts below. -/
def denseFrom (acc : Nat) (ls : List (Nat × Int)) : Bool :=
  match ls with
  | [] => true
  | (c, st) :: r => st == (acc : Int) && denseFrom (acc * c) r

/-- A breach of R271-R274. -/
def descBreach (d : CopyDesc) : Bool :=
  let ls := d.used
  d.stamp.toNat % 8 != 0 || d.rest.any (· != 0) || wbits d.ctl 19 45 != 0 || decide (5 ≤ d.esz) ||
    !copyFmt d.sfmt || !copyFmt d.dfmt ||
    (if d.sfmt = 15 ∨ d.dfmt = 15 then
      (d.sfmt != 15 && fmtWidth d.sfmt != d.eszBits) || (d.dfmt != 15 && fmtWidth d.dfmt != d.eszBits)
     else fmtWidth d.sfmt != d.eszBits || (d.converts && (d.sfmt == 11 || d.dfmt == 11 || d.dfmt == 6))) ||
    (d.mx && (!(fmtMx d.sfmt || fmtMx d.dfmt) || d.count % 32 != 0 ||
      (d.srcScaled && !denseFrom 1 (ls.map (fun l => (l.count, l.sstride)))) ||
      (d.dstScaled && !d.ch && !denseFrom 1 (ls.map (fun l => (l.count, l.dstride)))) ||
      (d.ch && d.dfmt == 15))) ||
    (d.ch && wbits d.dst 4 60 != 0) || decide (0xFFFFFFFF < d.sectors)

/-- The channel destination of a CH copy of a firing (R275): the channel's number, its first uncommitted reserved
slot and how many there are, the original ones for a replay firing (R383); none for a port that is no output of the formats asked. -/
def copyChan (s : State) (n ctx : Nat) (d : CopyDesc) : Option (Nat × Nat × Nat) := do
  let f ← (getCtx s n ctx).firing
  let i ← getInst s n f.slot
  let k := wbits d.dst 0 4
  let p ← i.ports[k]?
  let r := f.ports.getD k {}
  let c ← getChan s p.core p.ch
  if p.output && d.dfmt == c.pfmt && (c.pfmt == 15 || d.eszBits == fmtWidth c.pfmt) then
    some (p.ch, match r.base with | some b => bump b r.taken | none => nextCommit s p.core p.ch c, r.res - r.taken)
  else none

/-- Bytes of a channel's slot that the elements of a copy fill. -/
def slotsNeeded (d : CopyDesc) (z : Nat) : Nat := ceilDiv (ceilDiv (d.count * d.dstBits) 8) z

/-! ### Elements (R273) -/

/-- The position of element `e` under one side's counts and strides. -/
def posOf (ls : List (Nat × Int)) (e : Nat) : Int :=
  match ls with
  | [] => 0
  | (c, st) :: r => ((e % c : Nat) : Int) * st + posOf r (e / c)

/-- The dimensions an element ends, as EOD bits (R273). -/
def endsFrom (l : Nat) (cs : List Nat) (e : Nat) : Nat :=
  match cs with
  | [] => 0
  | c :: r => if e % c + 1 = c then 2 ^ l + endsFrom (l + 1) r (e / c) else 0

/-- A run of half-bytes in one address space: its first, its length, its place in the stream of the sector's data. -/
structure HRun where
  nib : Nat
  len : Nat
  off : Nat
  deriving DecidableEq, Repr

/-- A run put after others (latest first), joined with the last one where it continues it. -/
def pushRun (rs : List HRun) (x : HRun) : List HRun :=
  match rs with
  | y :: r => if y.nib + y.len = x.nib ∧ y.off + y.len = x.off then { y with len := y.len + x.len } :: r else x :: rs
  | [] => [x]

/-- The runs of elements `e0` to `e0 + cnt - 1` of a memory side of width `w`. DESIGN CHOICE: a register view whose bytes a
sector covers in another than rising order is not written as a whole register (R275; log 81). -/
def sideRuns (base : W64) (w : Nat) (ls : List (Nat × Int)) (e0 cnt : Nat) : List HRun :=
  let h := w / 4
  ((upFrom 0 cnt).foldl (fun rs i =>
    let a := ((2 * base.toNat : Nat) : Int) + posOf ls (e0 + i) * h
    pushRun rs { nib := (a % ((2 ^ 65 : Nat) : Int)).toNat, len := h, off := h * i }) []).reverse

/-- The slot ring of a channel copy as this core addresses it: payload and side-band addresses of stream bytes. -/
def slotByteVa (s : State) (launch n : Nat) (r : Ring) (seq o : Nat) : Nat := slotVa s launch n (payloadPa r (seq + o / r.z)) + o % r.z

/-- The runs of the elements of a channel side: payload bytes in slot order, the last slot's rest written 0 (R275). -/
def slotRuns (s : State) (launch n : Nat) (r : Ring) (seq : Nat) (d : CopyDesc) (e0 cnt : Nat) : List HRun :=
  let w := d.dstBits
  let last := e0 + cnt = d.count
  let b0 := e0 * w / 8
  let b1 := if last then roundUp (ceilDiv (d.count * w) 8) r.z else (e0 + cnt) * w / 8
  ((upFrom 0 (b1 / r.z + 1 - b0 / r.z)).foldl (fun rs i =>
    let lo := max b0 ((b0 / r.z + i) * r.z)
    let hi := min b1 ((b0 / r.z + i + 1) * r.z)
    if lo < hi then pushRun rs { nib := 2 * slotByteVa s launch n r seq lo, len := 2 * (hi - lo), off := 2 * (lo - b0) } else rs) []).reverse

/-- Where the scales stand in a sector's data: past every element and a slot's padding. -/
def scaleStream : Nat := 2 ^ 18

/-- The runs of the scale bytes of a memory side for `cnt` elements from `e0` on. -/
def scaleRuns (base : W64) (off e0 cnt : Nat) : List HRun :=
  [{ nib := 2 * ((base.toNat + off + e0 / 32) % 2 ^ 64), len := 2 * (cnt / 32), off := scaleStream }]

/-- The runs of the scale bytes of a channel side, on the side bands of its slots (R121). -/
def bandRuns (s : State) (launch n : Nat) (r : Ring) (seq e0 cnt : Nat) : List HRun :=
  let per := slotElems r / 32
  ((upFrom 0 (cnt / 32)).foldl (fun rs i =>
    let j := e0 / 32 + i
    let pa := sidePa r (seq + j / per) + j % per
    pushRun rs { nib := 2 * slotVa s launch n pa, len := 2, off := scaleStream + 2 * i }) []).reverse

/-! ### Translating a sector (R275, R276) -/

/-- The number of bytes at a physical address that make one piece of an engine's access: of a 64-byte line, a vector register,
or an 8-byte word of another view (R46, R48). -/
def chunkLen (x : Xlated) (pa len : Nat) : Nat :=
  if x.dev ≠ 0 ∨ pa < hbmEnd then min len (64 - pa % 64)
  else
    match place pa with
    | .vector _ _ _ => min len (256 - pa % 256)
    | p => if isMemory p then min len (64 - pa % 64) else min len (8 - pa % 8)

/-- Pieces of a translated stretch, cut by `len` and each accepted by `check`; an address refused gives its kind and offset. -/
def piecesBy (cut : Nat → Nat → Nat) (check : Xlated → Nat → Option Nat) (x : Xlated) (fuel o len off : Nat) :
    Except (Nat × Nat) (List Seg) :=
  match fuel with
  | 0 => .ok []
  | k + 1 =>
    if len = 0 then .ok []
    else
      let n := cut (x.pa + o) len
      match check { x with pa := x.pa + o } n with
      | some kind => .error (kind, o)
      | none =>
        (piecesBy cut check x k (o + n) (len - n) (off + 8 * n)).map
          ({ pa := x.pa + o, len := n, off := off, dev := x.dev } :: ·)

/-- Pieces of an access of a queue's unit or of a host session. -/
def chunks (s : State) (a : Access) (x : Xlated) (fuel o len off : Nat) : Except (Nat × Nat) (List Seg) :=
  piecesBy (chunkLen x) (fun y n => checkTarget s a y n (n == 256)) x fuel o len off

/-- The bytes of a piece of a copy: a codebook register is one too. -/
def copyLen (x : Xlated) (pa len : Nat) : Nat :=
  match (if x.dev = 0 then place pa else .none) with
  | .cb _ _ => min len (32 - pa % 32)
  | _ => chunkLen x pa len

/-- Whether a piece that a copy writes lies in a register view and is no whole register (R275); an LC view's register is its word
(log 81). -/
def partRegister (x : Xlated) (n : Nat) : Bool :=
  match place x.pa with
  | .vector _ _ _ => n != 256
  | .cb _ _ => n != 32
  | .scalar _ _ _ | .preg _ _ _ | .lc _ _ _ => n != 8
  | _ => false

/-- The kind with which the target of a copy's piece refuses it: a whole vector register is one window write (R48, R275). -/
def copyRefused (s : State) (a : Access) (x : Xlated) (n : Nat) : Option Nat :=
  let view : Bool := match place x.pa with | .vector _ _ _ => true | _ => false
  match checkTarget s (if a = .store ∧ view then .lanes else a) x n (n == 256) with
  | some k => some k
  | none => if a = .store ∧ partRegister x n then some 6 else none

/-- Pieces of a copy's access. -/
def copyChunks (s : State) (a : Access) (x : Xlated) (len off : Nat) : Except (Nat × Nat) (List Seg) :=
  piecesBy (copyLen x) (copyRefused s a) x len 0 len off

/-- The address that a copy in slot `k` reaches: in the issuing context's space as at CPY, or the queue's (R271, R341). -/
def copyAddress (s : State) (eng k : Nat) (c : Copy) (va : Nat) (a : Access) : Except Nat Xlated × State :=
  let u : WalkUnit := .copy eng k
  if eng < 1024 then engineAddress s u c.core c.window c.asid c.root va a c.sup
  else if 2 ^ 48 ≤ va then (.error 3, s)
  else
    let die := eng - 1024
    match tlbFind (getDie s die).lpTlb c.asid va with
    | some e => (leafAddress e a va true false, s)
    | none =>
      let sp := tget {} s.dev.spaces c.asid
      let r : WalkResult :=
        match walkEnd s u c.asid va with
        | some w => { leaf := match w.leaf with | some e => .ok e | none => .error w.kind }
        | none => if sp.v then walk s (getDie s die).ptrs c.asid (sp.root * 65536) va else { leaf := .error 0 }
      let s := takeEnd (countWalk s r.reads) u c.asid va
      match r.leaf with
      | .error f => (.error f, s)
      | .ok e => (leafAddress e a va true false, modDie s die (fun d => { d with lpTlb := tlbAdd 256 d.lpTlb e }))

/-- Byte pieces of a run: a whole stretch of bytes, and a half-byte before and after it where the run has one. The
place in the data counts half-bytes by 4; 1 and 2 added to it mean the low or the high half alone. -/
def runPieces (r : HRun) : List (Nat × Nat × Nat) :=
  let head := if r.nib % 2 = 1 ∧ r.len ≠ 0 then 1 else 0
  let body := (r.len - head) / 2
  let tail := (r.len - head) % 2
  (if head = 1 then [(r.nib / 2, 1, 4 * r.off + 2)] else []) ++
    (if body ≠ 0 then [((r.nib + head) / 2, body, 4 * (r.off + head))] else []) ++
    (if tail = 1 then [((r.nib + head) / 2 + body, 1, 4 * (r.off + head + 2 * body) + 1)] else [])

/-- Byte pieces split where 64 KiB pages end. -/
def splitPage (p : Nat × Nat × Nat) : List (Nat × Nat × Nat) :=
  let room := 65536 - p.1 % 65536
  if p.2.1 ≤ room then [p] else [(p.1, room, p.2.2), (p.1 + room, p.2.1 - room, p.2.2 + 8 * room)]

/-- Every piece translated and accepted, or the kind and address of the first failure (R281). -/
def xlateCopy (s : State) (eng k : Nat) (c : Copy) (a : Access) (ps : List (Nat × Nat × Nat)) :
    Except W64 (List Seg) × State :=
  match ps with
  | [] => (.ok [], s)
  | p :: r =>
    match copyAddress s eng k c p.1 a with
    | (.error f, s) => (.error (faultVal f p.1), s)
    | (.ok x, s) =>
      match copyChunks s a x p.2.1 p.2.2 with
      | .error e => (.error (faultVal e.1 (p.1 + e.2)), s)
      | .ok ss =>
        match xlateCopy s eng k c a r with
        | (.error v, s) => (.error v, s)
        | (.ok rest, s) => (.ok (ss ++ rest), s)

def piecesOf (rs : List HRun) : List (Nat × Nat × Nat) := (rs.flatMap runPieces).flatMap splitPage

/-- First element and number of elements of a sector. -/
def sectorSpan (c : Copy) (k : Nat) : Nat × Nat :=
  let e0 := k * c.desc.perSector
  (e0, min c.desc.perSector (c.desc.count - e0))

/-- The ring a channel copy writes: that of the producer (R275). -/
def copyRing (s : State) (c : Copy) : Ring :=
  match c.chan.bind (fun x => getChan s c.core x.1) with
  | some h => prodRing h
  | none => { base := 0, z := 64, n := 2, fmt := 0 }

/-- The source and the destination runs of a sector. -/
def sectorRuns (s : State) (c : Copy) (k : Nat) : List HRun × List HRun :=
  match c.snap with
  | some (_, _, len) => ([], [{ nib := 2 * (c.desc.dst.toNat + 4096 * k), len := 2 * min 4096 (len - 4096 * k), off := 0 }])
  | none =>
  let d := c.desc
  let x := sectorSpan c k
  let ls := d.used
  let src := sideRuns d.src d.srcBits (ls.map (fun l => (l.count, l.sstride))) x.1 x.2 ++
    (if d.srcScaled then scaleRuns d.src (d.scaleOff d.srcBits) x.1 x.2 else [])
  let dst :=
    match c.chan with
    | some (_, seq, _) =>
      slotRuns s c.launch c.core (copyRing s c) seq d x.1 x.2 ++
        (if d.dstScaled then bandRuns s c.launch c.core (copyRing s c) seq x.1 x.2 else [])
    | none =>
      sideRuns d.dst d.dstBits (ls.map (fun l => (l.count, l.dstride))) x.1 x.2 ++
        (if d.dstScaled then scaleRuns d.dst (d.scaleOff d.dstBits) x.1 x.2 else [])
  (src, dst)

/-! ### A sector's data (R274) -/

/-- Element `i` of width `w` of a stream. -/
def streamElem (x w i : Nat) : Nat := (x >>> (w * i)) % 2 ^ w
/-- Scale `j` of a stream. -/
def streamScale (x j : Nat) : Nat := (x >>> (4 * scaleStream + 8 * j)) % 256

/-- The value of a source element (R274): a codebook entry, an MX element under its scale, or the element itself. -/
def copyValue (c : Copy) (x sc : Nat) : FVal :=
  let f := c.desc.sfmt
  if f = 6 then readFloat 1 (cbEntry c.cb x)
  else if c.desc.mx && fmtMx f then mxValue f x sc
  else readElem f x

/-- The destination's data of sector `k` from the source's. -/
def sectorData (c : Copy) (k x : Nat) : Nat :=
  let d := c.desc
  let cnt := (sectorSpan c k).2
  if c.snap.isSome then numOf ((c.data.drop (4096 * k)).take 4096)
  else if !d.converts then x
  else
    let v := fun i => copyValue c (streamElem x d.srcBits i) (streamScale x (i / 32))
    if d.mx && fmtMx d.dfmt then
      let qs := (upFrom 0 (cnt / 32)).map (fun j => quantBlock d.dfmt 0 (List.replicate 32 0) ((upFrom (32 * j) 32).map v))
      packNat d.dstBits (qs.flatMap (fun q => q.2.1)) + packNat 8 (qs.map (fun q => q.1)) * 2 ^ (4 * scaleStream)
    else packNat d.dstBits ((upFrom 0 cnt).map (fun i => (convert d.dfmt 0 false 0 (v i)).bits))

/-- Source pieces put into a sector's stream. -/
def gatherSrc (s : State) (x : Nat) (gs : List Seg) : Nat × State :=
  gs.foldl (fun a g =>
    let r := readRaw a.2 g
    let v := match g.off % 4 with
      | 1 => r.1 % 16
      | 2 => r.1 / 16 % 16
      | _ => r.1
    (a.1 ||| v <<< (4 * (g.off / 4)), r.2)) (x, countPieces s gs)

/-- The bytes of a destination piece: whole, or a half-byte put into the byte that stands there (R273). -/
def pieceData (s : State) (g : Seg) (x : Nat) : Nat :=
  let v := x >>> (4 * (g.off / 4))
  match g.off % 4 with
  | 1 => (physByte s g.pa).toNat / 16 * 16 + v % 16
  | 2 => (physByte s g.pa).toNat % 16 + v % 16 * 16
  | _ => v % 2 ^ (8 * g.len)

/-! ### Slots, faults, control (R277-R282, R341) -/

/-- Copy slots of an engine. -/
def copySlots (eng : Nat) : Nat := if eng < 1024 then 128 else 16

/-- The lowest slot whose copy has ended. -/
def freeCopySlot (s : State) (eng : Nat) : Option Nat :=
  (upFrom 0 (copySlots eng)).find? (fun k => !copyLive (getCopy s eng k))

/-- The note of a slot: KIND 15 in a header's places. -/
def noteOf (c : Chan) (seq : Nat) : Option W64 :=
  let h := tget 0 c.notes (seq % chN c)
  if hdrKind h = 15 ∧ wbits h 0 32 = seq % 2 ^ 32 then some h else none

/-- A copy's note of an uncommitted slot: its EOD bits, or that it is poisoned (R275, R381). -/
def noteSlot (c : Chan) (seq : Nat) (eod : Option Nat) (poison : Bool) : Chan :=
  let old := (noteOf c seq).getD 0
  { c with notes := tset 0 c.notes (seq % chN c) (header 0 (eod.getD (hdrEod old)) 15 seq (poison || hdrPoison old)) }

/-- The slots of a channel copy, by place: those its elements fill. -/
def copySlotCount (d : CopyDesc) (z : Nat) : Nat := slotsNeeded d z

/-- The EOD marks that a sector leaves in the slots whose last element it holds (R275). -/
def noteSector (s : State) (c : Copy) (k : Nat) : State :=
  match c.chan with
  | some (ch, seq, _) =>
    modChan s c.core ch (fun h =>
      let per := max 1 (chZ h * 8 / c.desc.dstBits)
      let x := sectorSpan c k
      (upFrom (x.1 / per) ((x.1 + x.2 - 1) / per + 1 - x.1 / per)).foldl (fun h q =>
        let e := min c.desc.count ((q + 1) * per) - 1
        if x.1 ≤ e ∧ e < x.1 + x.2 then noteSlot h (bump seq q) (some (endsFrom 0 (c.desc.used.map (·.count)) e % 256)) false else h) h)
  | none => s

/-- Poisoned bytes read by a channel copy: every slot it writes and that is not committed carries POISON (R381). -/
def poisonSlots (s : State) (c : Copy) : State :=
  match c.chan with
  | some (ch, seq, _) =>
    modChan s c.core ch (fun h =>
      (upFrom 0 (copySlotCount c.desc (chZ h))).foldl (fun h q =>
        if c.replay || decide (past (bump seq q) h.head < chN h) then noteSlot h (bump seq q) none true else h) h)
  | none => s

/-! ### What a copy reaches (R109, R118, R137) -/

/-- The pieces that addresses reach as translation stands, without a walk that is counted or a fault. -/
def peekPieces (s : State) (eng k : Nat) (c : Copy) (a : Access) (rs : List HRun) : List Seg :=
  (piecesOf rs).flatMap (fun p =>
    match (copyAddress s eng k c p.1 a).1 with
    | .error _ => []
    | .ok x => (copyChunks s a x p.2.1 p.2.2).toOption.getD [])

/-- The source and the destination pieces of a sector of the copy in slot `k` as translation stands. -/
def peekSector (s : State) (eng k : Nat) (c : Copy) (sec : Nat) : List Seg × List Seg :=
  let r := sectorRuns s c sec
  (peekPieces s eng k c .load r.1, peekPieces s eng k c .store r.2)

/-- The word of a copy's stamp that is still to come, as translation stands. -/
def peekStamp (s : State) (eng k : Nat) (c : Copy) : List Seg :=
  if copyLive c && c.stampva != 0 then peekPieces s eng k c .store [{ nib := 2 * c.stampva.toNat, len := 16, off := 0 }] else []

/-- Sectors of a copy that are still to issue. -/
def unissued (c : Copy) : List Nat := if copyLive c && !(c.cancel || c.failed) then upFrom c.next (c.nsec - c.next) else []

/-- Whether sectors of a copy that are still to issue read or write bytes of some pieces. -/
def unissuedMeet (s : State) (eng k : Nat) (c : Copy) (reads writes : Bool) (gs : List Seg) : Bool :=
  (unissued c).any (fun j =>
    let p := peekSector s eng k c j
    (reads && segsMeet p.1 gs) || (writes && segsMeet p.2 gs))

/-- The tiles of its core that a copy reads and writes (R109). -/
def copyTiles (s : State) (eng k : Nat) (c : Copy) : List Tile × List Tile :=
  if 1024 ≤ eng then ([], [])
  else (unissued c).foldl (fun a j =>
    let p := peekSector s eng k c j
    let add := fun (l : List Tile) (gs : List Seg) => (l ++ gs.flatMap (coreTiles s eng)).eraseDups
    (add a.1 p.1, add a.2 p.2)) ([], [])

/-- A new copy for a slot, with its descriptor checked: a breach fails it before any sector. The tiles it reads and writes are
those its addresses reach as it is accepted. -/
def newCopy (s : State) (eng k : Nat) (d : CopyDesc) (base : Copy) : Copy :=
  let chan := if d.ch && decide (eng < 1024) then copyChan s base.core base.ctx d else none
  let cause :=
    if descBreach d || (d.ch && chan.isNone) || (decide (1024 ≤ eng) && d.sfmt == 6) then 1
    else
      match chan.bind (fun x => (getChan s base.core x.1).map (fun h => decide (slotsNeeded d (chZ h) ≤ x.2.2))) with
      | some false => 5
      | _ => 0
  let c : Copy :=
    { base with
      gen := ((getCopy s eng k).gen + 1) % 2 ^ 32, prio := d.prio, state := 1, seq := d.seq, stampva := d.stamp, desc := d
      nsec := if cause = 0 then d.sectors else 0, cause := cause, failed := decide (cause ≠ 0)
      order := s.nextId, chan := if cause = 0 then chan else none, port := wbits d.dst 0 4 }
  let t := copyTiles s eng k c
  { c with reads := t.1, writes := t.2 }

/-- Whether the firing that issued a copy still runs. -/
def copyFiring (s : State) (c : Copy) : Bool :=
  match (getCtx s c.core c.ctx).firing with
  | some f => f.launch == c.launch && f.slot == c.slot && f.ord == c.fir
  | none => false

/-- COPY_FAULT pending for the context of a copy, or a report to the driver (R281, R341). -/
def reportCopy (s : State) (eng k : Nat) (v : W64) : State :=
  let c := getCopy s eng k
  if 1024 ≤ eng then driverEvent s 7 0 0 0xFFFFFFFF v (copyHandle c k)
  else if copyFiring s c && c.snap.isNone then
    modCtx s c.core c.ctx (fun x => { x with pending := x.pending ++ [{ cause := cCOPY, val := v, inst := copyHandle c k, slot := k }] })
  else driverEvent s 7 c.core c.ctx c.launch v (copyHandle c k)

/-- No walk of a copy's slot is left from the copy before it. -/
def dropMisses (s : State) (u : WalkUnit) : State :=
  if s.dev.walks.isEmpty && s.dev.walkEnds.isEmpty then s
  else modDev s (fun d => { d with
    walkEnds := d.walkEnds.filter (fun e => e.unit != u), walks := d.walks.map (fun w => { w with units := w.units.filter (· != u) }) })

/-- A copy accepted. One whose descriptor holds a format code that is not accepted fails with COPY_FAULT too (R73; log 82). -/
def startCopy (s : State) (eng k : Nat) (c : Copy) : State :=
  let s := dropMisses (setCopy { s with nextId := s.nextId + 1 } eng k c) (.copy eng k)
  let s := if eng < 1024 then dropBufs s eng c.writes else s
  if !copyFmt c.desc.sfmt || !copyFmt c.desc.dfmt then reportCopy s eng k 0 else s

/-- Whether a copy issues no further sector: all issued, cancelled or failed. -/
def copyEnding (c : Copy) : Bool := c.cancel || c.failed || decide (c.nsec ≤ c.next)

/-- The slots of an engine. -/
def engCopies (s : State) (eng : Nat) : Tbl Copy :=
  if eng < 1024 then (getCore s eng).copies else (getDie s (eng - 1024)).copies

/-- A copy as an access of the context that issued it: for every edge that ends at the request (R146). -/
def copyAccess (c : Copy) (k : ReqKind) : Req :=
  { id := c.order, agent := .stream { core := c.core, ctx := c.ctx, ap := false }, slot := c.slot, fir := c.fir, launch := c.launch
    kind := k, todo := [] }

/-- Whether a copy is an engine request of a context: neither a queue's nor a snapshot's. -/
def ofContext (eng : Nat) (c : Copy) : Bool := decide (eng < 1024) && c.snap.isNone

/-- The edges that end at a copy: its context's earlier acquires, and the instance's earlier firings (R139, R140, R146). -/
def copyOrdered (s : State) (eng : Nat) (c : Copy) : Bool :=
  !ofContext eng c || (edgesMet s (copyAccess c .load) && !earlierFiring s (copyAccess c .load))

/-- Whether a checkpoint copy may issue a sector under its rate coupling (R132, R276): at once when every record before its own
is drained. -/
def copyPaced (s : State) (c : Copy) : Bool :=
  match c.snap with
  | some (e, off, _) =>
    let x := (getLaunch s e).snap
    decide (off ≤ x.drained) || Config.drainPaced e x.drained s.tick
  | none => true

/-- A copy that can issue its next sector. -/
def sectorReady (s : State) (eng : Nat) (c : Copy) : Bool :=
  !clocksOff s && (c.state == 1 || c.state == 2) && !c.suspend && !copyEnding c && copyOrdered s eng c && copyPaced s c

/-- Sectors of an engine's copies that came before a sector: of copies accepted earlier, or earlier ones of its own copy (R133,
R137). -/
def earlierSectors (s : State) (r : Req) (eng : Nat) (c : Copy) : List Req :=
  s.reqs.filter (fun q =>
    match q.kind with
    | .sector e j _ | .regWrite e j _ =>
      e == eng && (let o := (getCopy s e j).order; decide (o < c.order) || (o == c.order && decide (q.id < r.id)))
    | _ => false)

/-- Whether earlier accesses of the engine to the bytes of a piece are still to come, its acceptance order being its program
order (R133, R137). -/
def engineHolds (s : State) (eng : Nat) (r : Req) (c : Copy) (writes : Bool) (g : Seg) : Bool :=
  (earlierSectors s r eng c).any (fun q => segsMeet q.todo [g] || segsMeet q.src [g]) ||
    (engCopies s eng).any (fun e => decide (e.2.order < c.order) &&
      (unissuedMeet s eng e.1 e.2 (writes || e.2.state == 1 || e.2.state == 2) true [g] || segsMeet (peekStamp s eng e.1 e.2) [g]))

/-- Whether a piece of a sector may be read or written now: with its engine's and its context's edges, and those every piece
waits for. -/
def sectorPiece (s : State) (eng : Nat) (r : Req) (c : Copy) (writes : Bool) (g : Seg) : Bool :=
  let k := if writes then r.kind else .load
  pieceOpen s { r with kind := k, id := c.order } g && sendReady s r.agent r.id g && !engineHolds s eng r c writes g &&
    (!ofContext eng c || sameLocation s (copyAccess c k) g)

/-- The 8:2:1 order of the shared classes (R276). -/
def wrrSeq : List Nat := [1, 1, 1, 1, 2, 1, 1, 1, 1, 2, 3]

def engTurn (s : State) (eng : Nat) : Nat × Tbl Nat :=
  if eng < 1024 then ((getCore s eng).copyTurn, (getCore s eng).copyLast)
  else ((getDie s (eng - 1024)).copyTurn, (getDie s (eng - 1024)).copyLast)
def setEngTurn (s : State) (eng turn : Nat) (last : Tbl Nat) : State :=
  if eng < 1024 then modCore s eng (fun c => { c with copyTurn := turn, copyLast := last })
  else modDie s (eng - 1024) (fun d => { d with copyTurn := turn, copyLast := last })

/-- Of copies, the one of least order above `o`, else of least order. -/
def nextOrder (o : Nat) (cs : List (Nat × Copy)) : Option (Nat × Copy) :=
  let least := fun (l : List (Nat × Copy)) => l.foldl (fun m x => match m with
    | some y => if x.2.order < y.2.order then some x else m
    | none => some x) none
  match least (cs.filter (fun x => decide (o < x.2.order))) with
  | some x => some x
  | none => least cs

/-- The copy whose sector an engine issues next, with the account after it (R276). -/
def pickCopy (s : State) (eng : Nat) : Option (Nat × Nat × Tbl Nat) :=
  let ready := (engCopies s eng).filter (fun e => sectorReady s eng e.2)
  let t := engTurn s eng
  let cls : Option (Nat × Nat) :=
    if ready.any (fun e => e.2.prio == 0) then some (0, t.1)
    else ((upFrom 0 11).find? (fun d => ready.any (fun e => e.2.prio == wrrSeq.getD ((t.1 + d) % 11) 0))).map
      (fun d => (wrrSeq.getD ((t.1 + d) % 11) 0, (t.1 + d + 1) % 11))
  match cls with
  | none => none
  | some (p, turn) =>
    (nextOrder (tget 0 t.2 p) (ready.filter (fun e => e.2.prio == p))).map
      (fun e => (e.1, turn, tset 0 t.2 p e.2.order))

/-- A fault of a copy (R281, R341): STATE 4, and COPY_FAULT pending for its context, or a report to the driver. -/
def faultCopy (s : State) (eng k : Nat) (v : W64) : State :=
  reportCopy (modCopy s eng k (fun c => { c with state := 4, fault := v })) eng k v

/-- A residue mismatch in the engine stops the copy before the sector, and fails its launch (R379). -/
def engineMismatch (s : State) (eng k : Nat) : State :=
  let c := getCopy s eng k
  let s := setCopy s eng k { c with failed := true, state := 2 }
  if c.launch < 64 then failLaunch s c.launch { code := 0x17, core := c.core, detail := copyHandle c k } else s

/-- The first address of a sector whose translation waits for a walker (R349). -/
def sectorWaits (s : State) (eng k : Nat) (c : Copy) (sec : Nat) : Option Nat :=
  if s.dev.walks.isEmpty && !s.dev.quiesce then none
  else
    let runs := sectorRuns s c sec
    ((piecesOf runs.1 ++ piecesOf runs.2).find? (fun p => copyWaits s eng k c p.1)).map (·.1)

/-- The pieces of a sector translated, its source before its destination, or its first failure. -/
def xlateSector (s : State) (eng k : Nat) (c : Copy) (sec : Nat) : Except W64 (List Seg × List Seg) × State :=
  let runs := sectorRuns s c sec
  match xlateCopy s eng k c .load (piecesOf runs.1) with
  | (.error v, s) => (.error v, s)
  | (.ok src, s) =>
    match xlateCopy s eng k c .store (piecesOf runs.2) with
    | (.error v, s) => (.error v, s)
    | (.ok dst, s) => (.ok (src, dst), s)

/-- A sector that the engine had begun to translate when a pre-emption asked its copy to stop: a failure is kept for the save
record, and reported to no one (R359). -/
def lateFault (s : State) (eng k : Nat) : State :=
  let c := getCopy s eng k
  if (sectorWaits s eng k c c.next).isSome then s
  else
    match xlateSector s eng k c c.next with
    | (.error v, s) => setCopy s eng k { c with fault := v, pfault := true }
    | (.ok _, s) => s

/-- SECTOR_ISSUE: the engine's next sector, if it is of this slot. -/
def sectorIssue (s : State) (eng k : Nat) : State :=
  let c := getCopy s eng k
  if c.suspend && (c.state == 1 || c.state == 2) && !copyEnding c && !c.pfault && !clocksOff s then lateFault s eng k
  else
    match pickCopy s eng with
    | some (j, turn, last) =>
      if j ≠ k then s
      else
        match sectorWaits s eng k c c.next with
        | some va => noteCopy s eng k c va
        | none =>
        let s := setEngTurn s eng turn last
        if c.residueBad then engineMismatch s eng k
        else
          match xlateSector s eng k c c.next with
          | (.error v, s) => faultCopy s eng k v
          | (.ok (src, dst), s) =>
            let s := addReq s { id := 0, agent := .copyEngine eng k, slot := c.slot, fir := c.fir, launch := c.launch, byLine := true
                                kind := .sector eng k c.next, todo := dst, src := src, drv := c.sup && c.snap.isNone }
            setCopy s eng k { c with
              state := 2, next := c.next + 1
              reads := (c.reads ++ src.flatMap (coreTiles s eng)).eraseDups, writes := (c.writes ++ dst.flatMap (coreTiles s eng)).eraseDups }
    | none => s

/-- A copy ended in a state. -/
def endCopy (s : State) (eng k st cause : Nat) : State :=
  modCopy s eng k (fun c => { c with state := st, cause := cause })

/-- CTRL := 2 in STATE 4 (R281): the faulting sector, or the stamp, is taken up afresh. -/
def copyResume (s : State) (eng k : Nat) : State :=
  if (getCopy s eng k).state = 4 then modCopy (withdrawFault s eng k) eng k (fun c => { c with state := 2, stampFault := false }) else s

/-- CTRL := 3 in STATE 4 (R281): the copy fails with CAUSE 2; one whose stamp faulted writes none. -/
def copyAbandon (s : State) (eng k : Nat) : State :=
  let c := getCopy s eng k
  if c.state ≠ 4 then s
  else if c.stampFault then endCopy (withdrawFault s eng k) eng k 7 2
  else modCopy (withdrawFault s eng k) eng k (fun c => { c with state := 2, failed := true, cause := 2 })

/-- A write of CTRL by a writer of R396. -/
def copyControl (s : State) (eng k v : Nat) (drv : Bool) : State :=
  if !drv then s
  else if v % 4 = 2 then copyResume s eng k
  else if v % 4 = 3 then copyAbandon s eng k
  else s

def execSectorIssue (eng slot : Nat) (s : State) : Out := event s (fun s => sectorIssue s eng slot)
def execCopyCtrlResume (eng slot : Nat) (drv : Bool) (s : State) : Out := event s (fun s => copyControl s eng slot 2 drv)
def execCopyCtrlAbandon (eng slot : Nat) (drv : Bool) (s : State) : Out := event s (fun s => copyControl s eng slot 3 drv)

/-! ### The instructions (R277, R279, R280) -/

def execCpy (f : EF) (s : State) : Out :=
  perform s (.cpy f) { cpOnly := true, ops := [dstS f.rd, addrS 1 f.rs1 f.w] } (fun s v => do
    let va := sval v 0
    aligned va 64
    let segs ← xlatePieces s .load 64 false false (pagePieces va 128 0)
    match freeCopySlot s s.cur.core with
    | none => waitEx .interlock
    | some k =>
      if !issueReady s .load false false segs then waitEx .interlock
      enterTable s segs
      checkPoison s va segs
      let r := readPieces s { atIssue s .load false false with todo := segs } segs
      let d := CopyDesc.ofWords ((upFrom 0 16).map (fun j => w64 (wbits r.1.data (64 * j) 64)))
      if d.sfmt = 6 then cbReady s
      let t ← emptyReg r.2 f.rd
      let base : Copy :=
        { ctx := s.cur.ctx, asid := curAsid s, root := curRoot s, sup := curSup s, core := s.cur.core, window := curWindow s
          cb := (curCtx s).cb, launch := curLaunch s, slot := curSlot s, fir := curOrd s
          replay := (curCtx s).firing.any (·.replay) }
      let c := newCopy t s.cur.core k d base
      if !(c.reads.isEmpty && c.writes.isEmpty) && tableFull t s.cur.core then waitEx .interlock
      let t := startCopy t s.cur.core k c
      .ok (deliverFrom t copyUnit (scalarDest s f.rd) ((copyHandle (getCopy t s.cur.core k) k).setWidth 2048), .seq))

/-- The slot a handle names, whether it still names the slot's copy (R279). -/
def handleSlot (s : State) (h : W64) : Ex (Nat × Bool) :=
  let k := wbits h 0 8
  if wbits h 40 24 ≠ 0 ∨ 127 < k then trapEx cOPERAND h
  else .ok (k, (getCopy s s.cur.core k).gen == wbits h 8 32)

def execCpystat (f : EF) (s : State) : Out :=
  perform s (.cpystat f) { cpOnly := true, ops := [dstS f.rd, srcS 1 f.rs1 f.w] } (fun s v => do
    let h ← handleSlot s (sval v 0)
    let c := getCopy s s.cur.core h.1
    let u ← setReg s f.rd (if h.2 then w64 (c.secdone * 2 ^ 32 + c.state) else 8)
    .ok (u, .seq))

/-- The engine is told once; the member completes when the copy has ended. -/
def execCpycancel (f : EF) (s : State) : Out :=
  perform s (.cpycancel f) { cpOnly := true, ops := [srcS 1 f.rs1 f.w] } (fun s v => do
    let h ← handleSlot s (sval v 0)
    let c := getCopy s s.cur.core h.1
    if !h.2 || !copyLive c then .ok (s, .seq)
    else if copyEnding c && c.state != 3 then waitEx .interlock
    else
      let s := withdrawFault s s.cur.core h.1
      .ok (modCopy s s.cur.core h.1 (fun c => { c with cancel := true, suspend := false, state := if c.state = 1 then 1 else 2 }), .hold .interlock))

end Sys2Proof.Machine
end

