-- ==== Sys2Proof/Machine/Channel.lean ====
section
/-!
DEFINITION. Sys2Proof/Machine/Channel.lean: the channel members (R283-R290), commits and releases (R118, R382), the
conversion at commit (R120, R121), the comparator of exit channels (R384), table tokens (R122), end-of-stream and
retirement (R34), the rate controllers (R125-R128).
-/

namespace Sys2Proof.Machine

/-! ### Ports of the issuing firing (R283) -/

/-- A port as a member sees it: number, port, reservation, channel. -/
structure PortView where
  k : Nat
  port : Port
  res : PortRes
  chan : Chan
  deriving DecidableEq, Repr

/-- PORT of word 1 [25:22]. -/
def portNo (f : EF) : Nat := f.bits 22 4

/-- The port a member names, of either direction or of the one it needs. -/
def portOf (s : State) (k : Nat) (dir : Option Bool) : Ex PortView :=
  match (curCtx s).firing.bind (fun f => (getInst s s.cur.core f.slot).bind (fun i => i.ports[k]?.map (fun p => (f, p)))) with
  | some (f, p) =>
    match getChan s p.core p.ch with
    | some c => if dir.all (· == p.output) then .ok { k := k, port := p, res := f.ports.getD k {}, chan := c } else trapEx cOPERAND (w64 k)
    | none => trapEx cOPERAND (w64 k)
  | none => trapEx cOPERAND (w64 k)

/-- Slots of the reservation not yet committed or released. -/
def PortView.left (v : PortView) : Nat := v.res.res - v.res.taken

/-- The sequence number of the next slot of the reservation: that of a replay firing is its original one (R383). -/
def PortView.next (s : State) (v : PortView) : Nat :=
  match v.res.base with
  | some b => bump b v.res.taken
  | none =>
    if v.port.output then nextCommit s v.port.core v.port.ch v.chan else nextTake s v.port.core v.port.ch v.chan v.port.cons

/-- The ring a port's slots lie in (R119, R283). -/
def PortView.ring (v : PortView) : Ring := if v.port.output then prodRing v.chan else ringOf v.chan v.port.cons

/-- The address of the reservation's next slot, or 0 (R286, R288). -/
def PortView.addr (s : State) (v : PortView) : Nat :=
  if v.left = 0 then 0 else slotVa s (curLaunch s) s.cur.core (payloadPa v.ring (v.next s))

/-- The issuing firing's reservation on a port changed. -/
def setRes (s : State) (k : Nat) (r : PortRes) : State :=
  modCurCtx s (fun c => { c with firing := c.firing.map (fun f => { f with ports := f.ports.set k r }) })

/-- Whether the issuing firing is poisoned (R381). -/
def firingPoisoned (s : State) : Bool := (curCtx s).firing.any (·.poisoned)

/-! ### Posting commits and releases (R118) -/

/-- A commit posted at a channel unit under a fresh order number. -/
def postCommit (s : State) (c : Commit) : State :=
  { modCore s c.core (fun k => { k with commits := k.commits ++ [{ c with id := s.nextId }] }) with nextId := s.nextId + 1 }

/-- A release posted at a channel unit. -/
def postRelease (s : State) (r : Release) : State :=
  { modCore s r.core (fun k => { k with releases := k.releases ++ [{ r with id := s.nextId }] }) with nextId := s.nextId + 1 }

/-- The next slots of an output port committed with a kind; `eods` gives each its EOD. A data slot of a poisoned
firing carries the mark. -/
def commitNext (s : State) (v : PortView) (kind : Nat) (eods : List Nat) : State :=
  let poison := firingPoisoned s && kind == 0
  let first := v.next s
  let s := eods.zipIdx.foldl (fun s e =>
    postCommit s { id := 0, core := v.port.core, ch := v.port.ch, kind := kind, eod := some e.1, poison := poison
                   ctx := s.cur.ctx, slot := curSlot s, fir := curFir s
                   seq := if v.res.base.isSome then some (bump first e.2) else none }) s
  let s := setRes s v.k { v.res with taken := v.res.taken + eods.length, eos := v.res.eos || kind == 1 }
  if poison && eods.length != 0 then
    modCurCtx s (fun c => { c with firing := c.firing.map (fun f => { f with marked := true }) })
  else s

def execChpush (f : EF) (s : State) : Out :=
  perform s (.chpush f) { cpOnly := true, ops := [srcS 1 f.rs1 f.w] } (fun s v => do
    let n := (sval v 0).toNat
    let p ← portOf s (portNo f) (some true)
    if p.res.eos then trapEx cOPERAND (w64 (portNo f))
    if p.left < n then trapEx cOPERAND (sval v 0)
    .ok (commitNext s p 0 ((upFrom 0 n).map (fun i => if i + 1 = n then f.bits 14 8 else 0)), .seq))

/-- End-of-stream committed on an output port of an instance (R34, R126). -/
def markPortEos (s : State) (n slot k : Nat) : State :=
  modInst s n slot (fun i => { i with ports := i.ports.modify k (fun p => { p with eos := true }) })

def execChmark (f : EF) (s : State) : Out :=
  perform s (.chmark f) { cpOnly := true } (fun s _ => do
    let kind := f.bits 20 2
    let p ← portOf s (portNo f) (some true)
    if p.left = 0 ∨ p.res.eos then trapEx cOPERAND (w64 (portNo f))
    let s := commitNext s p kind [0]
    .ok (if kind = 1 then markPortEos s s.cur.core (curSlot s) p.k else s, .seq))

/-- CHPOP; a replay firing's slots stay held, their original release being still posted (R383). -/
def execChpop (f : EF) (s : State) : Out :=
  perform s (.chpop f) { cpOnly := true, ops := [dstS f.rd, srcS 1 f.rs1 f.w] } (fun s v => do
    let n := (sval v 0).toNat
    let p ← portOf s (portNo f) (some false)
    if p.left < n then trapEx cOPERAND (sval v 0)
    let t ← emptyReg s f.rd
    let t := if n = 0 ∨ p.res.base.isSome then t
      else postRelease t { id := 0, core := p.port.core, ch := p.port.ch, cons := p.port.cons, n := n, agent := t.cur
                           slot := curSlot t, fir := curFir t }
    let r := { p.res with taken := p.res.taken + n }
    let t := setRes t p.k r
    .ok (deliver t (scalarDest s f.rd) (BitVec.ofNat 2048 ({ p with res := r }.addr t)), .seq))

/-- A header as a consumer's ring shows it. -/
def shownHeader (r : Ring) (h : W64) : W64 :=
  w64 (h.toNat % 2 ^ 45 + r.fmt % 16 * 2 ^ 45)

def execChpeek (f : EF) (s : State) : Out :=
  perform s (.chpeek f) { cpOnly := true, ops := [dstS f.rd, srcS 1 f.rs1 f.w] } (fun s v => do
    let i := (sval v 0).toNat % 2 ^ 32
    let p ← portOf s (portNo f) (some false)
    let t ← emptyReg s f.rd
    let q := p.next s
    let h : W64 :=
      if i < past (seenTo p.chan) q ∧ past (seenTo p.chan) q ≤ chN p.chan then shownHeader p.ring (hdrAt p.chan (bump q i))
      else BitVec.allOnes 64
    .ok (deliver t (scalarDest s f.rd) (h.setWidth 2048), .seq))

def execChstat (f : EF) (s : State) : Out :=
  perform s (.chstat f) { cpOnly := true, ops := [dstS f.rd] } (fun s _ => do
    let p ← portOf s (portNo f) none
    let x : Nat :=
      match f.bits 20 2 with
      | 0 => if p.port.output then freeSlots p.chan else past p.chan.head (tailOf p.chan p.port.cons)
      | 1 => p.addr s
      | 2 => p.left
      | _ => chanWord p.chan 0x58
    let u ← setReg s f.rd (w64 x)
    .ok (u, .seq))

/-- CBLOAD: one at a time, so that the last issued is the last to write cb (R289). -/
def execCbload (f : EF) (s : State) : Out :=
  perform s (.cbload f) { cpOnly := true, ops := [addrS 1 f.rs1 f.w] } (fun s v => do
    let va := sval v 0
    aligned va 32
    let x ← xlate s .load va 8 false false
    enterTable s [oneSeg x 32]
    checkPoison s va [oneSeg x 32]
    cbReady s
    let s := modCurCtx s (fun c => { c with cbBusy := 1 })
    .ok (send s { request s .load [oneSeg x 32] with dest := .codebook, size := 32, va := va.toNat }, .seq))

/-! ### What a commit waits for (R118) -/

/-- The payload and the side band of a slot. -/
def slotSegs (r : Ring) (seq : Nat) : List Seg :=
  { pa := payloadPa r seq, len := r.z, off := 0 } :: (if isMx r.fmt then [{ pa := sidePa r seq, len := sideBytes r, off := 0 }] else [])

/-- Whether a sector of a CH copy fills bytes of the slot `q` places after its first. -/
def fillsSlot (c : Copy) (z q k : Nat) : Bool :=
  let x := sectorSpan c k
  let w := c.desc.dstBits
  let hi := if x.1 + x.2 = c.desc.count then roundUp (ceilDiv (c.desc.count * w) 8) z else ceilDiv ((x.1 + x.2) * w) 8
  decide (x.1 * w / 8 < (q + 1) * z ∧ q * z < hi)

/-- Whether a CH copy still fills a slot of a channel: a sector that holds bytes of it is not performed (R118, R290). -/
def copyFills (s : State) (n : Nat) (e : Nat × Copy) (ch z seq : Nat) : Bool :=
  match e.2.chan with
  | some (k, first, m) =>
    k == ch && decide (past seq first < m) &&
      ((unissued e.2).any (fillsSlot e.2 z (past seq first)) ||
        s.reqs.any (fun r => match r.kind with
          | .sector g j q | .regWrite g j q => g == n && j == e.1 && fillsSlot e.2 z (past seq first) q
          | _ => false))
  | none => false

/-- Whether accesses of a context that entered before `id` touch bytes, as writes or as any access: a sector of a copy has its
copy's place, and spills and fills are among them (R158). -/
def ctxTouches (s : State) (n ctx id : Nat) (writes : Bool) (g : List Seg) : Bool :=
  s.reqs.any (fun q => decide (entryOf s q < id) &&
    (match q.agent with
     | .stream w => w.core == n && w.ctx == ctx && (if writes then q.kind.writes && segsMeet q.todo g else segsMeet (unperformed q) g)
     | .copyEngine e k =>
       e == n && (getCopy s e k).ctx == ctx && (getCopy s e k).snap.isNone && segsMeet (if writes then q.todo else q.src) g
     | _ => false)) ||
    (if writes then (getCtx s n ctx).spills.any (fun b => decide (b.id < id) && segsMeet b.segs g)
     else (spillSegs s { core := n, ctx := ctx, ap := false }).any (fun b => decide (b.1 < id) && segsMeet b.2 g))

/-- Whether two stretches of addresses meet. -/
def stretchesMeet (a n b m : Nat) : Bool := decide (a < b + m ∧ b < a + n)

/-- A stretch of virtual addresses where a context of a launch finds a slot's pieces. -/
def slotVas (s : State) (launch n : Nat) (r : Ring) (seq : Nat) : List (Nat × Nat) :=
  (slotSegs r seq).map (fun g => (slotVa s launch n g.pa, g.len))

/-- Fibre operations of a context that entered before `id`. -/
def ctxFibres (s : State) (n ctx id : Nat) : List FReq :=
  s.freqs.filter (fun f => decide (f.id < id) && f.core == n && (match f.agent with | .stream w => w.ctx == ctx | _ => false))

/-- Scans of a context that may still write a slot (R258): entries of at most 16 bytes, and the one that ends them. -/
def scanReaches (s : State) (n ctx id launch : Nat) (r : Ring) (seq : Nat) : Bool :=
  (ctxFibres s n ctx id).any (fun f =>
    match f.op with
    | .scan _ left 8 dst _ _ buf =>
      (slotVas s launch n r seq).any (fun x => stretchesMeet dst (8 * buf.length + (if left = 0 then 0 else 16 * (left + 1))) x.1 x.2)
    | _ => false)

/-- The pieces that a commit itself writes (R118, R120, R121). -/
def commitSegs (c : Commit) (h : Chan) (seq : Nat) : List Seg :=
  let p := prodRing h
  let d := delivRing h
  let heads := { pa := headerPa p seq, len := 8, off := 0 } :: (if hasDelivery h && c.kind != 3 then [{ pa := headerPa d seq, len := 8, off := 0 }] else [])
  let band := fun (r : Ring) => if isMx r.fmt then [{ pa := sidePa r seq, len := sideBytes r, off := 0 : Seg }] else []
  heads ++ band p ++ (if c.kind = 2 then [{ pa := payloadPa p seq, len := 4, off := 0 }] else []) ++
    (if c.kind = 0 && hasDelivery h then slotSegs d seq else [])

/-- Whether a fibre operation may reach bytes of a slot: its headers, and the pods of their pools (R286). -/
def fibreReads (s : State) (f : FReq) (gs : List Seg) (vas : List (Nat × Nat)) : Bool :=
  (fibHeaders f).any (fun h =>
    let p := getPool s (poolOfHdr s h.pa)
    segsMeet [h] gs || (h.dev == 0 && p.asid == f.asid && vas.any (fun x => stretchesMeet p.base (256 * p.npods) x.1 x.2)))

/-- Whether a fibre operation still writes bytes of a slot: those of its fibre, or a union's stamp (R118, R150). -/
def fibreWrites (s : State) (f : FReq) (gs : List Seg) (vas : List (Nat × Nat)) : Bool :=
  !isProbe f && (fibreReads s f gs vas || (match f.op with | .union _ _ _ _ _ _ st _ va _ => va != 0 && segsMeet [st] gs | _ => false))

/-- Whether a copy of a commit's context still writes bytes of its slot: those it fills or aims at, or its stamp (R118, R150). -/
def copyWrites (s : State) (c : Commit) (r : Ring) (seq : Nat) (e : Nat × Copy) : Bool :=
  e.2.ctx == c.ctx && decide (e.2.order < c.id) &&
    (copyFills s c.core e c.ch r.z seq ||
      (e.2.snap.isNone && (unissuedMeet s c.core e.1 e.2 false true (slotSegs r seq) || segsMeet (peekStamp s c.core e.1 e.2) (slotSegs r seq))))

/-- The pieces of the tokens that the comparison a commit calls for may read or mark: from where it stands to HEAD (R384). -/
def comparedSegs (s : State) (c : Commit) (h : Chan) : List Seg :=
  match h.shadow with
  | none => []
  | some (m, j) =>
    let one := fun (x : Chan) =>
      (upFrom 0 (past h.head h.compared + 1)).flatMap (fun i =>
        let seq := bump h.compared i
        { pa := headerPa (prodRing x) seq, len := 8, off := 0 } :: slotSegs (prodRing x) seq)
    if c.kind ≤ 3 then one h ++ ((getChan s m j).map one).getD [] else []

/-- Whether a commit's slot has all its writes, its own meet no migration, and all it reads and writes travels on planes that live
(R118, R362, R388). -/
def commitClear (s : State) (c : Commit) (h : Chan) (seq : Nat) : Bool :=
  let r := prodRing h
  let own := commitSegs c h seq ++ comparedSegs s c h
  !ctxTouches s c.core c.ctx c.id true (slotSegs r seq) && !(getCore s c.core).copies.any (copyWrites s c r seq) &&
    !scanReaches s c.core c.ctx c.id h.launch r seq &&
    !(ctxFibres s c.core c.ctx c.id).any (fun f => fibreWrites s f (slotSegs r seq) (slotVas s h.launch c.core r seq)) &&
    !own.any (writeHeld s) && !((if hasDelivery h then slotSegs r seq else []) ++ own).any (pathDead s (some c.core))

/-! ### Conversion (R120, R121) -/

/-- The exact value of element `i` of a slot: payload `x`, side band `sb`. -/
def slotValue (c : Chan) (x sb i : Nat) : FVal :=
  let w := fmtWidth c.pfmt
  let e := (x >>> (w * i)) % 2 ^ w
  if c.pfmt = 6 then readFloat 1 (cbEntry c.cbtab e)
  else if isMx c.pfmt then mxValue c.pfmt e ((sb >>> (8 * (i / 32))) % 256)
  else readElem c.pfmt e

/-- A slot's data written into the delivery ring. -/
def convertSlot (s : State) (c : Chan) (seq : Nat) : State :=
  let p := prodRing c
  let d := delivRing c
  let x := memRead s (payloadPa p seq) p.z
  let sb := if isMx p.fmt then memRead s (sidePa p seq) (sideBytes p) else 0
  let n := slotElems p
  let w := fmtWidth d.fmt
  if isMx d.fmt then
    let qs := (upFrom 0 (n / 32)).map (fun j => quantBlock d.fmt 0 (List.replicate 32 0) ((upFrom (32 * j) 32).map (slotValue c x sb)))
    let s := storeMem s (payloadPa d seq) d.z (packNat w (qs.flatMap (fun q => q.2.1)))
    storeMem s (sidePa d seq) (sideBytes d) (packNat 8 (qs.map (fun q => q.1)))
  else storeMem s (payloadPa d seq) d.z (packNat w ((upFrom 0 n).map (fun i => (convert d.fmt 0 false 0 (slotValue c x sb i)).bits)))

/-- The unused side-band bytes of a slot, written 0 at its commit (R121). -/
def clearBand (s : State) (r : Ring) (seq : Nat) : State :=
  let used := slotElems r / 32
  if isMx r.fmt && decide (used < sideBytes r) then storeMem s (sidePa r seq + used) (sideBytes r - used) 0 else s

/-- A header written: into the ring's array, the delivery ring's, and the unit's own copy. -/
def putHeader (s : State) (n k seq : Nat) (h : W64) : State :=
  match getChan s n k with
  | some c =>
    let s := setChan s n k (some { c with hdrs := tset 0 c.hdrs (seq % chN c) h })
    let s := countBursts (storeMem s (headerPa (prodRing c) seq) 8 h.toNat) (headerPa (prodRing c) seq) 8
    if hasDelivery c && hdrKind h != 3 then
      let d := delivRing c
      countBursts (storeMem s (headerPa d seq) 8 (shownHeader d h).toNat) (headerPa d seq) 8
    else s
  | none => s

/-! ### The comparator of an exit channel (R384) -/

/-- What is compared of two tokens beside KIND and EOD: payload and side band as far as they have a meaning. -/
def tokenBytes (s : State) (c : Chan) (seq : Nat) : List Nat :=
  let r := prodRing c
  match hdrKind (hdrAt c seq) with
  | 0 => [memRead s (payloadPa r seq) r.z, if isMx r.fmt then memRead s (sidePa r seq) (sideBytes r) else 0]
  | 2 => [memRead s (payloadPa r seq) 4]
  | 3 => [memRead s (payloadPa r seq) 32]
  | _ => []

/-- A core's part in a mismatch: at its second it is logged and fenced. -/
def mismatchOn (s : State) (n : Nat) : State :=
  let m := (getCore s n).mismatches + 1
  let s := modCore s n (fun c => { c with mismatches := m })
  if m = 2 then fenceCore (logError s 8 0 n 0 0 0) n else s

/-- The tokens at the comparator compared, as many as both rings hold, up to the first that differs. -/
def compareExit (fuel : Nat) (s : State) (n k m j : Nat) : State :=
  match fuel with
  | 0 => s
  | f + 1 =>
    match getChan s n k, getChan s m j with
    | some p, some q =>
      if p.compared = p.head ∨ q.compared = q.head then s
      else
        let seq := p.compared
        let a := hdrAt p seq
        let b := hdrAt q seq
        if hdrPoison a || hdrPoison b then s
        else if hdrKind a == hdrKind b && hdrEod a == hdrEod b && tokenBytes s p seq == tokenBytes s q seq then
          compareExit f (setChan (setChan s n k (some { p with compared := bump seq 1 })) m j (some { q with compared := bump seq 1 })) n k m j
        else
          let s := putHeader (putHeader s n k seq (a ||| 0x1000000000)) m j seq (b ||| 0x1000000000)
          let s := logError s 4 0 n 0 0 (w64 (seq + p.chan * 2 ^ 32 + m * 2 ^ 44))
          mismatchOn (mismatchOn s n) m
    | _, _ => s

/-- The comparison that a commit on a channel calls for. -/
def compareAt (s : State) (n k : Nat) : State :=
  match getChan s n k with
  | some c =>
    match c.shadow with
    | some (m, j) => if c.isShadow then compareExit (chN c) s m j n k else compareExit (chN c) s n k m j
    | none => s
  | none => s

/-! ### CHANNEL_COMMIT (R118) -/

def findCommit (s : State) (id : Nat) : Option Commit :=
  (s.cores.findSome? (fun e => e.2.commits.find? (fun c => c.id == id)))

/-- The header of a commit: EOD as a copy noted it, else as the commit gives it; POISON from either. -/
def commitHeader (c : Commit) (h : Chan) (seq : Nat) : W64 :=
  let note := noteOf h seq
  header h.pfmt ((note.map hdrEod).getD (c.eod.getD 0)) c.kind seq (c.kind == 0 && (c.poison || note.any hdrPoison))

/-- Whether a commit is of a data slot of a firing. -/
def commitOf (n ctx : Nat) (f : Firing) (c : Commit) : Bool :=
  c.core == n && c.ctx == ctx && c.slot == f.slot && c.fir == f.fir && c.seq.isSome == f.replay && c.kind == 0

/-- A commit as it takes effect: its slot carries the mark where its firing has been marked poisoned since it was posted, and the
firing has then committed such a slot (R381). -/
def commitMarked (s : State) (c : Commit) : Commit × State :=
  match (getCtx s c.core c.ctx).firing with
  | some f =>
    if f.poisoned && commitOf c.core c.ctx f c then
      ({ c with poison := true }, modCtx s c.core c.ctx (fun x => { x with firing := x.firing.map (fun f => { f with marked := true }) }))
    else (c, s)
  | none => (c, s)

/-- A commit's effect once its slot is complete. -/
def commitEffect (s : State) (c : Commit) (h : Chan) (seq : Nat) : State :=
  let r := prodRing h
  let s := modCore s c.core (fun k => { k with commits := k.commits.filter (fun x => x.id != c.id) })
  let s := if c.kind = 2 then storeMem s (payloadPa r seq) 4 c.marker else s
  let s := clearBand s r seq
  let s := if c.kind = 3 && hasDelivery h then
      setChan s c.core c.ch (some { h with cbtab := BitVec.ofNat 256 (memRead s (payloadPa r seq) 32) })
    else if c.kind = 0 && hasDelivery h then clearBand (convertSlot s h seq) (delivRing h) seq
    else s
  let s := putHeader s c.core c.ch seq (commitHeader c h seq)
  let s := modChan s c.core c.ch (fun x => { x with notes := tset 0 x.notes (seq % chN x) 0 })
  let s := if c.seq.isSome then s
    else modChan s c.core c.ch (fun x =>
      { x with
        head := bump x.head 1, reserved := x.reserved - 1, eosp := x.eosp || c.kind == 1
        reinjected := tset 0 x.reinjected seq 0 })
  compareAt s c.core c.ch

/-- CHANNEL_COMMIT: the first posted commit of its channel, its writes complete, its slot free. -/
def channelCommit (s : State) (id : Nat) : State :=
  match findCommit s id with
  | some c =>
    match getChan s c.core c.ch with
    | some h =>
      let seq := c.seq.getD h.head
      let first := ((getCore s c.core).commits.find? (fun x => x.ch == c.ch)).any (fun x => x.id == id)
      if first && commitClear s c h seq && (c.seq.isSome || decide (occupancy h < chN h)) then
        let m := commitMarked s c
        commitEffect m.2 m.1 h seq
      else s
    | none => modCore s c.core (fun k => { k with commits := k.commits.filter (fun x => x.id != id) })
  | none => s

/-! ### CHANNEL_RELEASE (R118, R382) -/

def findRelease (s : State) (id : Nat) : Option Release :=
  (s.cores.findSome? (fun e => e.2.releases.find? (fun c => c.id == id)))

/-- Every token of a span released by all consumers of a channel. -/
def spanReleased (c : Chan) (span : Nat × Nat) : Bool :=
  (upFrom 0 c.consumers.length).all (fun k => decide (past (tailOf c k) span.1 < 2 ^ 31 ∧ span.2 ≤ past (tailOf c k) span.1)) &&
    (!c.consumers.isEmpty || decide (past c.compared span.1 < 2 ^ 31 ∧ span.2 ≤ past c.compared span.1))

/-- Whether a firing's production lets its input slots go (R382). -/
def productionDone (s : State) (n slot fir : Nat) : Bool :=
  match getInst s n slot with
  | some i =>
    !i.replayable ||
      (match i.hist.find? (fun r => r.fir == fir) with
       | some r =>
         r.ended && (i.ports.zip (r.spans.zip r.made)).all (fun e =>
           !e.1.output || (match getChan s e.1.core e.1.ch with | some c => spanReleased c (e.2.1.1, e.2.2) | none => true))
       | none => true)
  | none => true

/-- Whether the context's reads of a released slot have completed, those of its matrix tasks, copies and fibre operations
among them (R118, R286). -/
def readsDone (s : State) (r : Release) (c : Chan) : Bool :=
  (upFrom 0 r.n).all (fun i =>
    let seq := bump (tailOf c r.cons) i
    let ring := ringOf c r.cons
    let g := slotSegs ring seq
    let n := r.agent.core
    !ctxTouches s n r.agent.ctx r.id false g &&
      !((getCore s n).tasks ++ (getCore s n).savedTasks).any (fun t => t.who.ctx == r.agent.ctx && decide (t.id < r.id) && segsMeet (taskSegs t.kind) g) &&
      !(ctxFibres s n r.agent.ctx r.id).any (fun f => fibreReads s f g (slotVas s c.launch n ring seq)) &&
      !(getCore s n).copies.any (fun e => e.2.ctx == r.agent.ctx && e.2.snap.isNone && decide (e.2.order < r.id) &&
        unissuedMeet s n e.1 e.2 true false g))

/-- The record of a replayable firing that has no release left is dropped. -/
def dropHist (s : State) (n slot fir : Nat) : State :=
  if s.cores.any (fun e => e.2.releases.any (fun r => r.agent.core == n && r.slot == slot && r.fir == fir)) then s
  else modInst s n slot (fun i => { i with hist := i.hist.filter (fun r => !(r.fir == fir && r.ended)) })

/-- CHANNEL_RELEASE: the first posted release of its consumer, its reads complete. -/
def channelRelease (s : State) (id : Nat) : State :=
  match findRelease s id with
  | some r =>
    match getChan s r.core r.ch with
    | some c =>
      let first := ((getCore s r.core).releases.find? (fun x => x.ch == r.ch && x.cons == r.cons)).any (fun x => x.id == id)
      if first && readsDone s r c && productionDone s r.agent.core r.slot r.fir then
        let s := modCore s r.core (fun k => { k with releases := k.releases.filter (fun x => x.id != id) })
        let s := modChan s r.core r.ch (fun c => { c with tails := tset 0 c.tails r.cons (bump (tailOf c r.cons) r.n) })
        dropHist s r.agent.core r.slot r.fir
      else s
    | none => modCore s r.core (fun k => { k with releases := k.releases.filter (fun x => x.id != id) })
  | none => s

def execChannelCommit (id : Nat) (s : State) : Out := event s (fun s => channelCommit s id)
def execChannelRelease (id : Nat) (s : State) : Out := event s (fun s => channelRelease s id)

/-! ### Tokens the unit takes itself (R122, R34) -/

/-- The unpoisoned token at the head of an input port outside any firing, no release being posted before it. -/
def headOf (s : State) (p : Port) : Option (Nat × W64) :=
  if p.output || pendReleases s p.core p.ch p.cons != 0 then none
  else (headToken s p).bind (fun t => if hdrPoison t.2 then none else some t)

/-- A consumer's TAIL advanced by one. -/
def takeOne (s : State) (p : Port) : State :=
  modChan s p.core p.ch (fun c => { c with tails := tset 0 c.tails p.cons (bump (tailOf c p.cons) 1) })

/-- An instance outside any firing and not retired, on a core that is not pre-empted and has its clocks (R132, R394). -/
def atRest (s : State) (n : Nat) (i : Inst) : Bool := (i.state == 1 || i.state == 2) && !coreStopped s i.launch n && !clocksOff s

/-- TABLE_TOKEN_TAKE (R122); a consumer of the delivery ring is not given the table (R120). -/
def tableTokenTake (s : State) (n slot k : Nat) : State :=
  match getInst s n slot with
  | some i =>
    match atRest s n i, i.ports[k]? with
    | true, some p =>
      match headOf s p, getChan s p.core p.ch with
      | some (seq, h), some c =>
        if hdrKind h ≠ 3 then s
        else
          let r := ringOf c p.cons
          let s := takeOne s p
          if r.fmt = c.pfmt then modInst s n slot (fun i => { i with cbimg := BitVec.ofNat 256 (memRead s (payloadPa r seq) 32) }) else s
      | _, _ => s
    | _, _ => s
  | none => s

/-- A token the unit writes itself on an output port: end-of-stream or a marker. -/
def unitToken (s : State) (p : Port) (kind marker slot : Nat) : State :=
  postCommit (modChan s p.core p.ch (fun c => { c with reserved := c.reserved + 1 }))
    { id := 0, core := p.core, ch := p.ch, kind := kind, eod := some 0, slot := slot, marker := marker }

/-- The input ports, the output ports of an instance. -/
def inputs (i : Inst) : List Port := i.ports.filter (fun p => !p.output)
def outputs (i : Inst) : List Port := i.ports.filter (fun p => p.output)

/-- EOS_FORWARD (R34). -/
def eosForward (s : State) (n slot : Nat) : State :=
  match getInst s n slot with
  | some i =>
    let ins := inputs i
    if atRest s n i && !ins.isEmpty && ins.all (fun p => match headOf s p with | some t => hdrKind t.2 == 1 | none => false) then
      let s := ins.foldl (fun s p =>
        modChan (takeOne s p) p.core p.ch (fun c => { c with eosc := Nat.lor c.eosc (2 ^ p.cons) })) s
      let s := (outputs i).foldl (fun s p => if p.eos then s else unitToken s p 1 0 slot) s
      modInst s n slot (fun i => { i with state := 5, ports := i.ports.map (fun p => { p with eos := true }) })
    else s
  | none => s

/-- The engine requests of an instance's firings (R34). -/
def instBusy (s : State) (n slot launch : Nat) : Bool :=
  s.freqs.any (fun f => f.core == n && f.slot == slot && f.launch == launch && !isProbe f) ||
    (getCore s n).copies.any (fun e => e.2.slot == slot && e.2.launch == launch && copyLive e.2 && e.2.snap.isNone) ||
    ((getCore s n).tasks ++ (getCore s n).savedTasks).any (fun t => t.slot == slot && t.launch == launch && isMma t.kind)

/-- INSTANCE_RETIRE: the retirement counted (R34, R36); a dormant instance is not among the live ones. -/
def instanceRetire (s : State) (n slot : Nat) : State :=
  match getInst s n slot with
  | some i =>
    if i.state = 5 ∧ !i.counted ∧ i.launch < 64 ∧ !coreStopped s i.launch n ∧ !instBusy s n slot i.launch then
      let s := modInst s n slot (fun i => { i with counted := true })
      if i.kind = .reserve ∧ !i.en then s else modLaunch s i.launch (fun l => { l with live := l.live - 1 })
    else s
  | none => s

def execTableTokenTake (core slot port : Nat) (s : State) : Out := event s (fun s => tableTokenTake s core slot port)
def execEosForward (core slot : Nat) (s : State) : Out := event s (fun s => eosForward s core slot)
def execInstanceRetire (core slot : Nat) (s : State) : Out := event s (fun s => instanceRetire s core slot)

/-! ### Rate controllers (R125-R128) -/

/-- One sample's arithmetic (R125). -/
def sampled (c : Chan) : Chan :=
  let o := occupancy c
  let e : Int := (c.sp : Int) - o
  let free := decide (0 < o ∧ o < chN c)
  let integ := if free then clampInt (c.integ + e) (-(c.imax : Int)) c.imax else c.integ
  let u := Int.fdiv ((c.kp : Int) * e + (c.ki : Int) * integ) (2 ^ c.gshift)
  { c with
    lasto := o, integ := integ, frozen := !free
    wp := (clampInt ((c.w0p : Int) + u) c.wmin c.wmax).toNat, wc := (clampInt ((c.w0c : Int) - u) c.wmin c.wmax).toNat }

/-- Every consumer has taken end-of-stream (R126). -/
def allEos (c : Chan) : Bool := !c.consumers.isEmpty && (upFrom 0 c.consumers.length).all (fun k => c.eosc.testBit k)

/-- A sample taken, and the next period begun under the parameters as they stand. -/
def nextSample (c : Chan) : Chan := { sampled c with cycles := c.cycles + 2 ^ c.log2t, period := c.log2t }

/-- RATE_SAMPLE: `cycles` is the CYCLE at which the next sample falls due. -/
def rateSample (s : State) (n k : Nat) : State :=
  match getChan s n k with
  | some c =>
    if c.cycles ≤ s.cycle && !allEos c && decide (c.launch < 64) && !coreStopped s c.launch n then setChan s n k (some (nextSample c)) else s
  | none => s

/-- `n` samples in a row. -/
def samples (n : Nat) (c : Chan) : Chan :=
  match n with
  | 0 => c
  | k + 1 => samples k (nextSample c)

/-- The samples that have fallen due by `now` taken: a stop of the controller loses none (R129). -/
def dueSamples (now : Nat) (c : Chan) : Chan :=
  if allEos c || decide (now < c.cycles) then c else samples ((now - c.cycles) / 2 ^ c.log2t + 1) c

/-- Rules 1 and 2 of R128 for a channel with largest consumption count `q`. -/
def stableChan (kp ki gshift p q : Nat) : Bool := decide (kp * (p + q) ≤ 2 ^ gshift) && decide (4 * ki ≤ kp)

/-- The consumption count of a channel's consumer, 1 for a sink. -/
def consCount (s : State) (c : Chan) (k : Nat) : Nat :=
  match c.consumers.getD k none with
  | some x => ((getInst s x.1 x.2.1).bind (fun i => i.ports[x.2.2.1]?.map (·.count))).getD 1
  | none => 1

/-- Rule 3 of R128 for an instance, whose channel (n, k) would have these gains. -/
def stableInst (s : State) (i : Inst) (n k kp gshift : Nat) : Bool :=
  decide (i.ports.foldl (fun a p =>
    let g := if p.core = n ∧ p.ch = k then (kp, gshift) else (match getChan s p.core p.ch with | some c => (c.kp, c.gshift) | none => (0, 15))
    a + g.1 * p.count * 2 ^ (15 - g.2)) 0 ≤ 2 ^ 15)

/-- Whether a channel's new parameters keep R123's limits and R128. -/
def paramsOk (s : State) (n k : Nat) (c : Chan) : Bool :=
  let q := (upFrom 0 c.consumers.length).foldl (fun m j => max m (consCount s c j)) 1
  let ends := (n, c.pslot) :: c.consumers.filterMap (fun x => x.map (fun y => (y.1, y.2.1)))
  decide (8 ≤ c.log2t ∧ c.log2t ≤ 16 ∧ c.sp ≤ chN c ∧ 1 ≤ c.wmin ∧ c.wmin ≤ c.wmax ∧ c.wmax ≤ 64) &&
    decide (c.wmin ≤ c.w0p ∧ c.w0p ≤ c.wmax ∧ c.wmin ≤ c.w0c ∧ c.w0c ≤ c.wmax) &&
    stableChan c.kp c.ki c.gshift c.prod q &&
    ends.all (fun e => match getInst s e.1 e.2 with | some i => stableInst s i n k c.kp c.gshift | none => true)

/-- The fields of the words at +0x40 and +0x48 (R123); a stored LOG2T of 0 stands for 16 (log 24). -/
def withParams (c : Chan) (word : Nat) (v : W64) : Chan :=
  if word = 0 then
    { c with kp := wbits v 48 16, ki := wbits v 32 16, gshift := wbits v 28 4
             log2t := if wbits v 24 4 = 0 then 16 else wbits v 24 4, imax := wbits v 0 24 }
  else { c with sp := wbits v 32 13, w0p := wbits v 24 8, w0c := wbits v 16 8, wmin := wbits v 8 8, wmax := wbits v 0 8 }

/-- RATE_PARAM_WRITE (R127): by the driver only, whole or not at all. -/
def rateParamWrite (s : State) (n k word : Nat) (v : W64) (drv : Bool) : State :=
  match getChan s n k with
  | some c =>
    if !drv then s
    else if paramsOk s n k (withParams c word v) then setChan s n k (some (withParams c word v))
    else setChan s n k (some { c with rej := true })
  | none => s

def execRateSample (core ch : Nat) (s : State) : Out := event s (fun s => rateSample s core ch)
def execRateParamWrite (core ch word : Nat) (v : W64) (drv : Bool) (s : State) : Out :=
  event s (fun s => rateParamWrite s core ch word v drv)

end Sys2Proof.Machine
end

