-- ==== Sys2Proof/Machine/Image.lean ====
section
/-!
DEFINITION. Sys2Proof/Machine/Image.lean: the configuration stream (R321, R322) and the checks that need nothing but the
stream (R323, R325, R327, R128, R119).
-/

namespace Sys2Proof.Machine

/-- A failed check (R327): where its element stands, code, kind, index. -/
structure CfgFail where
  off : Nat
  code : Nat
  kind : Nat := 0
  index : Nat := 0
  core : Nat := 0
  deriving DecidableEq, Repr

/-- The codes of R327. -/
def eBADELEM : Nat := 1
def eLEN : Nat := 2
def eORDER : Nat := 3
def eRANGE : Nat := 4
def eREF : Nat := 5
def eAREA : Nat := 6
def eCAPACITY : Nat := 7
def eSTABILITY : Nat := 8
def eROUTE : Nat := 9
def ePRIV : Nat := 10
def eINUSE : Nat := 11
def eNOCORE : Nat := 12

/-- An element of the stream. -/
structure CfgElem where
  off : Nat
  kind : Nat
  index : Nat
  words : List Nat
  deriving DecidableEq, Repr

namespace CfgElem

def w (e : CfgElem) (k : Nat) : Nat := e.words.getD k 0
/-- A 64-bit address in words k and k + 1. -/
def addr (e : CfgElem) (k : Nat) : Nat := e.w k + 2 ^ 32 * e.w (k + 1)
def f (e : CfgElem) (k lo len : Nat) : Nat := nbits (e.w k) lo len
def fail (e : CfgElem) (code : Nat) : CfgFail := { off := e.off, code := code, kind := e.kind, index := e.index }

end CfgElem

/-- LEN of a kind (R321). -/
def kindLen (kind : Nat) : Option Nat :=
  match kind with
  | 1 => some 16 | 2 => some 7 | 3 => some 6 | 4 => some 2 | 5 => some 5 | 6 => some 9 | 7 => some 2 | 8 => some 4
  | 9 => some 8 | 10 => some 2 | 11 => some 3 | 63 => some 1 | _ => none

/-- The elements of the first `n` words, up to END, or the failure that stops the reading. DESIGN CHOICE: where END is missing the
record names KIND 63, INDEX 0 and, where no header stands, CFGWORDS (log 92). -/
def splitStream (fuel : Nat) (ws : List Nat) (off n : Nat) : List CfgElem × Option CfgFail :=
  match fuel, ws with
  | 0, _ => ([], none)
  | _ + 1, [] => ([], some { off := off, code := eORDER, kind := 63 })
  | k + 1, h :: _ =>
    let e : CfgElem := { off := off, kind := nbits h 26 6, index := nbits h 0 16, words := ws.take (nbits h 16 10) }
    match kindLen e.kind with
    | none => ([], some (e.fail eBADELEM))
    | some len =>
      if nbits h 16 10 ≠ len ∨ n < off + len then ([], some (e.fail eLEN))
      else if e.kind = 63 then ([e], if off + 1 = n then none else some (e.fail eORDER))
      else
        let r := splitStream k (ws.drop len) (off + len) n
        (e :: r.1, r.2)

/-! ### One element at a time (R321, R322) -/

/-- Whether any bit outside the named ones of a word is set. -/
def reserved (x : Nat) (named : List (Nat × Nat)) : Bool := x != named.foldl (fun a f => a + nbits x f.1 f.2 * 2 ^ f.1) 0

/-- The codes an element alone fails with, given what stood before it. -/
def elemFails (img : Image) (prev : Nat) (drv : Bool) (e : CfgElem) : List Nat :=
  let bad := fun (b : Bool) (c : Nat) => if b then [c] else []
  match e.kind with
  | 1 =>
    bad (e.off != 0 || e.index != 0) eORDER ++
      bad (reserved (e.w 1) [(0, 17)] || reserved (e.w 2) [(0, 9)] || reserved (e.w 12) [(0, 9)] ||
        reserved (e.w 13) [(0, 7), (8, 7)] || e.w 14 != 0 || e.w 15 != 0) eBADELEM ++
      bad (e.f 1 0 16 == 0 || decide (4 < e.f 2 0 3) || e.f 12 0 9 == 0 || decide (256 < e.f 12 0 9) ||
        e.f 13 8 7 == 0 || decide (128 < e.f 13 8 7 + e.f 13 0 7) || e.addr 6 % 65536 != 0 || e.addr 10 % 16 != 0) eRANGE ++
      bad (e.addr 6 == 0 || e.addr 10 == 0) eAREA
  | 2 =>
    let ls := (upFrom 1 6).map (fun k => (e.f k 0 7, e.f k 7 25 + 1))
    bad (e.off != 16 || e.index != 0) eORDER ++
      bad (decide (64 < ls.foldl (fun a l => a + l.1) 0) || ls.any (fun l => decide (2 ^ l.1 < l.2 ∨ 2 ^ 24 < l.2))) eRANGE
  | 3 =>
    bad (decide (3 < e.index) || img.sections.any (fun x => x.index == e.index)) eORDER ++
      bad (e.index == 3 && e.addr 1 % 0x400000 != 0) eRANGE
  | 4 =>
    bad (e.index != img.channels.length) eORDER ++
      bad (reserved (e.w 1) [(0, 4), (4, 3), (8, 4)] || !copyFmt (e.f 1 8 4)) eBADELEM ++
      bad (e.f 1 0 4 == 0 || decide (12 < e.f 1 0 4)) eRANGE
  | 5 =>
    let wmin := e.f 4 8 8
    let wmax := e.f 4 0 8
    bad (img.rates.any (fun r => r.ch == e.index)) eORDER ++
      bad (reserved (e.w 3) [(0, 13)]) eBADELEM ++
      bad ((e.f 2 24 4 != 0 && decide (e.f 2 24 4 < 8)) || wmin == 0 || decide (64 < wmax) || decide (wmax < wmin) ||
        decide (e.f 4 24 8 < wmin ∨ wmax < e.f 4 24 8 ∨ e.f 4 16 8 < wmin ∨ wmax < e.f 4 16 8)) eRANGE
  | 6 =>
    let count := (upFrom 0 6).foldl (fun a k => if (e.f 5 0 6).testBit k then a * (img.levels.getD k (0, 1)).2 else a) 1
    bad (e.index != img.actors.length) eORDER ++
      bad (reserved (e.w 5) [(0, 6), (6, 7), (13, 1), (16, 8), (24, 1), (25, 1)] || reserved (e.w 8) [(0, 20)]) eBADELEM ++
      bad (e.addr 1 % 4 != 0 || e.addr 3 % 4 != 0 || e.f 5 6 7 == 0 || decide (64 < e.f 5 6 7) ||
        e.f 8 0 20 % 64 != 0 || decide (e.f 8 0 20 < 128) || decide (2 ^ 24 < count)) eRANGE ++
      bad ((e.f 5 25 1 == 1) && !drv) ePRIV
  | 7 =>
    let out := e.f 1 12 1 == 1
    let ports := match img.actors.getLast? with | some a => a.ports | none => []
    bad (!(prev == 6 || prev == 7) || e.index + 1 != img.actors.length || (!out && ports.any (·.output))) eORDER ++
      bad (reserved (e.w 1) [(0, 30)] || (if out then e.f 1 26 4 != 0 else !copyFmt (e.f 1 26 4))) eBADELEM ++
      bad (e.f 1 13 13 == 0 || decide (4096 < e.f 1 13 13) || decide (16 ≤ ports.length)) eRANGE
  | 8 => bad (e.index != img.sinks.length) eORDER
  | 9 =>
    bad (img.pools.any (fun p => p.index == e.index)) eORDER ++
      bad (reserved (e.w 7) [(0, 24)]) eBADELEM ++
      bad (decide (4095 < e.index) || e.addr 1 % 65536 != 0 || decide (e.w 3 < e.w 4 + e.w 5)) eRANGE
  | 10 =>
    bad (img.barriers.any (fun b => b.2.1 == e.index)) eORDER ++
      bad (reserved (e.w 1) [(0, 13)]) eBADELEM ++
      bad (decide (63 < e.index) || e.f 1 0 13 == 0 || decide (4096 < e.f 1 0 13)) eRANGE
  | 11 =>
    bad (decide (1 < e.index) || img.maps.any (fun m => m.index == e.index)) eORDER ++
      bad (e.addr 1 % 0x1000000 != 0) eRANGE
  | _ => bad (e.index != 0) eORDER

/-- A port put at the end of the last actor. -/
def addPort (as : List ImgActor) (p : ImgPort) : List ImgActor :=
  match as with
  | [] => []
  | [a] => [{ a with ports := a.ports ++ [p] }]
  | a :: r => a :: addPort r p

/-- An element's fields taken into the image. -/
def elemAdd (img : Image) (e : CfgElem) : Image :=
  match e.kind with
  | 1 =>
    { img with
      computeHint := e.f 1 16 1 == 1, watchdog := e.f 1 0 16, fpctl := e.f 2 0 9, seed := w32 (e.w 3), macrec := e.addr 4
      chanarea := e.addr 6, snaparea := e.addr 8, spillbase := e.addr 10, spillrec := e.f 12 0 9, spsize := e.f 13 8 7
      spbase := e.f 13 0 7 }
  | 2 => { img with levels := (upFrom 1 6).map (fun k => (e.f k 0 7, e.f k 7 25 + 1)) }
  | 3 =>
    { img with sections := img.sections ++
        [{ off := e.off, index := e.index, va := e.addr 1, size := e.w 3, stage := e.w 5 * 65536 }] }
  | 4 => { img with channels := img.channels ++ [{ off := e.off, pfmt := e.f 1 8 4, log2z := e.f 1 4 3 + 6, log2n := e.f 1 0 4 }] }
  | 5 =>
    { img with rates := img.rates ++
        [{ off := e.off, ch := e.index, kp := e.f 1 16 16, ki := e.f 1 0 16, gshift := e.f 2 28 4
           log2t := if e.f 2 24 4 = 0 then 16 else e.f 2 24 4, imax := e.f 2 0 24, sp := e.f 3 0 13
           w0p := e.f 4 24 8, w0c := e.f 4 16 8, wmin := e.f 4 8 8, wmax := e.f 4 0 8 }] }
  | 6 =>
    { img with actors := img.actors ++
        [{ off := e.off, entry := w64 (e.addr 1), aentry := w64 (e.addr 3), priv := e.f 5 25 1 == 1, dual := e.f 5 24 1 == 1
           reserve := e.f 5 16 8, repl := e.f 5 13 1 == 1, weight := e.f 5 6 7, span := e.f 5 0 6, stride := e.w 6
           offset := e.w 7, statesz := e.f 8 0 20, ports := [] }] }
  | 7 => { img with actors := addPort img.actors { off := e.off, cfmt := e.f 1 26 4, count := e.f 1 13 13, output := e.f 1 12 1 == 1, ch := e.f 1 0 12 } }
  | 8 => { img with sinks := img.sinks ++ [{ off := e.off, expect := e.f 1 12 20, ch := e.f 1 0 12, buffer := e.addr 2 }] }
  | 9 =>
    { img with pools := img.pools ++
        [{ off := e.off, index := e.index, base := e.addr 1, npods := e.w 3, donfirst := e.w 4, doncount := e.w 5
           wmark := e.w 6, scale := e.f 7 16 8, timeout := e.f 7 0 16 }] }
  | 10 => { img with barriers := img.barriers ++ [(e.off, e.index, e.f 1 0 13)] }
  | 11 => { img with maps := img.maps ++ [{ off := e.off, index := e.index, va := e.addr 1 }] }
  | _ => img

/-- Placement of LAUNCH and LEVELS: first and second. -/
def headOrder (es : List CfgElem) : List CfgFail :=
  match es with
  | a :: b :: _ => (if a.kind = 1 then [] else [a.fail eORDER]) ++ (if b.kind = 2 then [] else [b.fail eORDER])
  | [a] => [a.fail eORDER]
  | [] => []

/-- The elements read in order: the image and the failures of elements alone. -/
def readElems (drv : Bool) (es : List CfgElem) : Image × List CfgFail :=
  let r := es.foldl (fun (r : Image × List CfgFail × Nat) e =>
    (elemAdd r.1 e, r.2.1 ++ (elemFails r.1 r.2.2 drv e).map e.fail, e.kind)) ({}, [], 0)
  (r.1, r.2.1)

/-! ### Checks of the whole stream -/

/-- Extent of a level; instances of a span (R17, R18). -/
def extent (img : Image) (k : Nat) : Nat := (img.levels.getD k (0, 1)).2
def spanCount (img : Image) (span : Nat) : Nat :=
  (upFrom 0 6).foldl (fun a k => if span.testBit k then a * extent img k else a) 1

/-- The digit of a level in instance `n` of a span, the outermost level most significant. -/
def digitOf (img : Image) (span n k : Nat) : Nat :=
  n / spanCount img (span >>> (k + 1) <<< (k + 1)) % extent img k

/-- The work identifier of instance `n` of a span (R17, R18). -/
def widOf (img : Image) (span n : Nat) : Nat :=
  (upFrom 0 6).foldl (fun a k =>
    let used := (img.levels.take (k + 1)).foldl (fun b l => b + l.1) 0
    if span.testBit k then a + digitOf img span n k * 2 ^ (64 - used) else a) 0

/-- The consuming ports of a channel: actor number, port number, port. -/
def consPorts (img : Image) (ch : Nat) : List (Nat × Nat × ImgPort) :=
  img.actors.zipIdx.flatMap (fun a => (a.1.ports.zipIdx.filter (fun p => p.1.ch == ch && !p.1.output)).map (fun p => (a.2, p.2, p.1)))
/-- The producing ports of a channel. -/
def prodPorts (img : Image) (ch : Nat) : List (Nat × Nat × ImgPort) :=
  img.actors.zipIdx.flatMap (fun a => (a.1.ports.zipIdx.filter (fun p => p.1.ch == ch && p.1.output)).map (fun p => (a.2, p.2, p.1)))
def sinksOf (img : Image) (ch : Nat) : List (Nat × ImgSink) := (img.sinks.zipIdx.filter (fun x => x.1.ch == ch)).map (fun x => (x.2, x.1))

def actorAt (img : Image) (a : Nat) : ImgActor :=
  img.actors.getD a { off := 0, entry := 0, aentry := 0, priv := false, dual := false, reserve := 0, repl := false, weight := 1
                      span := 0, stride := 0, offset := 0, statesz := 128, ports := [] }

/-- Most consumers that one actor gives a replica of a producer of span `ps`: the ordinary instances that agree with
it, and the reserve instances with the identifiers they carry (R323). -/
def mostConsumers (img : Image) (ps : Nat) (q : ImgActor) : Nat :=
  let i := spanCount img q.span
  let key := fun r => (upFrom 0 6).map (fun k => if ps.testBit k then digitOf img q.span (r % i) k else 0)
  let keys := (upFrom 0 q.reserve).map key
  spanCount img (Nat.lor q.span ps - ps) + keys.foldl (fun m x => max m (keys.count x)) 0

/-- Actors reachable from a set along channels, `fuel` channels far. -/
def reachFrom (img : Image) (fuel : Nat) (as : List Nat) : List Nat :=
  match fuel with
  | 0 => as
  | k + 1 =>
    reachFrom img k ((as ++ as.flatMap (fun a => ((actorAt img a).ports.filter (·.output)).flatMap (fun p => (consPorts img p.ch).map (·.1)))).eraseDups)

/-- Whether a channel lies on a directed cycle of actors (R325). -/
def onCycle (img : Image) (ch : Nat) : Bool :=
  (prodPorts img ch).any (fun p => (reachFrom img img.actors.length ((consPorts img ch).map (·.1))).contains p.1)

/-- The delivery format of a channel: that of the consumers whose format differs, or its own. -/
def delivFmt (img : Image) (ch pfmt : Nat) : Nat :=
  match (consPorts img ch).find? (fun p => p.2.2.cfmt != pfmt) with
  | some p => p.2.2.cfmt
  | none => pfmt

/-- R119 for a channel: no failure, BADELEM or RANGE. -/
def formatFails (img : Image) (ch : Nat) (c : ImgChannel) : List Nat :=
  let fs := (((consPorts img ch).map (fun p => p.2.2.cfmt)).filter (· != c.pfmt)).eraseDups
  match fs with
  | [] => []
  | d :: r =>
    if !r.isEmpty || d == 6 || d == 11 || d == 15 || c.pfmt == 11 || c.pfmt == 15 then [eBADELEM]
    else
      let z := 2 ^ c.log2z * fmtWidth d / fmtWidth c.pfmt
      if z < 64 ∨ 8192 < z then [eRANGE] else []

/-- Largest consumption count of a channel, a sink counting 1 (R128). -/
def mostTaken (img : Image) (ch : Nat) : Nat :=
  ((consPorts img ch).map (fun p => p.2.2.count)).foldl max (if (sinksOf img ch).isEmpty then 0 else 1)

def rateOf (img : Image) (ch : Nat) : Option ImgRate := img.rates.find? (fun r => r.ch == ch)

/-- A channel's failures. Of a stream whose reading stopped (`cut`), only what no later element could mend. DESIGN CHOICE: one with
no consumer or more than eight breaks R114 and R323; RANGE is found first (log 92). -/
def chanFails (img : Image) (cut : Bool) (ch : Nat) (c : ImgChannel) : List Nat :=
  let ps := prodPorts img ch
  let cs := consPorts img ch
  (if (rateOf img ch).isNone && !cut then [eREF] else []) ++
    (match ps with
     | [] => if cut then formatFails img ch c else [eREF]
     | [p] =>
       let a := actorAt img p.1
       let n := cs.length + (sinksOf img ch).length
       formatFails img ch c ++ (if (n = 0 ∧ !cut) ∨ 8 < n then [eRANGE] else []) ++
         (if cs.any (fun q => Nat.lor (actorAt img q.1).span a.span != (actorAt img q.1).span) || (a.reserve != 0 && !cs.isEmpty) ||
            decide (8 < (sinksOf img ch).length + cs.foldl (fun m q => m + mostConsumers img a.span (actorAt img q.1)) 0) ||
            onCycle img ch then [eROUTE] else [])
     | _ => [eREF])

/-- A rate's failures: its channel, SP, rules 1 and 2 of R128. -/
def rateFails (img : Image) (cut : Bool) (r : ImgRate) : List Nat :=
  match img.channels[r.ch]? with
  | none => if cut then [] else [eREF]
  | some c =>
    (if 2 ^ c.log2n < r.sp then [eRANGE] else []) ++
      (match prodPorts img r.ch with
       | [p] => if stableChan r.kp r.ki r.gshift p.2.2.count (mostTaken img r.ch) then [] else [eSTABILITY]
       | _ => [])

/-- Rule 3 of R128 for an actor. -/
def actorStable (img : Image) (a : ImgActor) : Bool :=
  decide (a.ports.foldl (fun x p => match rateOf img p.ch with
    | some r => x + r.kp * p.count * 2 ^ (15 - r.gshift)
    | none => x) 0 ≤ 2 ^ 15)

/-- Whether two ranges of addresses meet. -/
def rangesMeet (a n b m : Nat) : Bool := decide (a < b + m ∧ b < a + n)
/-- Bytes a mapping covers (R297). -/
def mapBytes (m : ImgMap) : Nat := if m.index = 0 then 0x10000000 else 0x100000000

/-- The local window's base (R318). -/
def windowBase (img : Image) : Option Nat := (img.sections.find? (fun x => x.index == 3)).map (·.va)
/-- The sections of the local window: those that begin in it (R318). -/
def windowSections (img : Image) : List ImgSection :=
  match windowBase img with
  | some w => img.sections.filter (fun x => decide (w ≤ x.va ∧ x.va < w + 0x400000))
  | none => []

/-- Failures that need the whole stream, each at the element it names. Of a stream whose reading stopped (`cut`), those that
no later element could mend (log 40). -/
def wholeFails (img : Image) (cut : Bool) : List CfgFail :=
  let ports := img.actors.zipIdx.flatMap (fun a => a.1.ports.flatMap (fun p =>
    let at_ : CfgFail := { off := p.off, code := 0, kind := 7, index := a.2 }
    match img.channels[p.ch]? with
    | none => if cut then [] else [{ at_ with code := eREF }]
    | some c => if 2 ^ c.log2n < p.count then [{ at_ with code := eRANGE }] else []))
  let chans := img.channels.zipIdx.flatMap (fun c =>
    (chanFails img cut c.2 c.1).map (fun x => ({ off := c.1.off, code := x, kind := 4, index := c.2 } : CfgFail)))
  let rates := img.rates.flatMap (fun r => (rateFails img cut r).map (fun x => ({ off := r.off, code := x, kind := 5, index := r.ch } : CfgFail)))
  let actors := img.actors.zipIdx.flatMap (fun a =>
    if actorStable img a.1 then [] else [({ off := a.1.off, code := eSTABILITY, kind := 6, index := a.2 } : CfgFail)])
  let sinks := img.sinks.zipIdx.flatMap (fun x =>
    let at_ := fun c => ({ off := x.1.off, code := c, kind := 8, index := x.2 } : CfgFail)
    if img.channels[x.1.ch]?.isNone then (if cut then [] else [at_ eREF])
    else if x.1.buffer ≠ 0 ∧ (prodPorts img x.1.ch).any (fun p =>
        let a := actorAt img p.1
        (spanCount img a.span + a.reserve) * (if a.dual then 2 else 1) != 1) then [at_ eROUTE] else [])
  let secs := (windowSections img).flatMap (fun x =>
    let at_ := fun c => ({ off := x.off, code := c, kind := 3, index := x.index } : CfgFail)
    let o := x.va - (windowBase img).getD 0
    (if img.spbase * 4096 < o + x.size then [at_ eRANGE] else []) ++ (if x.stage = 0 then [at_ eAREA] else []))
  let maps := img.maps.flatMap (fun m =>
    if img.sections.any (fun x => rangesMeet m.va (mapBytes m) x.va (roundUp x.size 65536)) ||
        img.maps.any (fun y => y.index != m.index && rangesMeet m.va (mapBytes m) y.va (mapBytes y)) then
      [({ off := m.off, code := eRANGE, kind := 11, index := m.index } : CfgFail)] else [])
  ports ++ chans ++ rates ++ actors ++ sinks ++ secs ++ maps

/-- The failure recorded: the first in stream order; of one element, the first found (R327). -/
def firstFail (fs : List CfgFail) : Option CfgFail :=
  fs.foldl (fun m f => match m with
    | some g => if f.off < g.off then some f else m
    | none => some f) none

/-- The stream read and checked as far as it alone decides, and whether its reading stopped before its end. -/
def readImage (drv : Bool) (ws : List Nat) : Image × List CfgFail × Bool :=
  let p := splitStream (ws.length + 1) ws 0 ws.length
  let r := readElems drv p.1
  (r.1, headOrder p.1 ++ r.2 ++ p.2.toList ++ wholeFails r.1 p.2.isSome, p.2.isSome)

end Sys2Proof.Machine
end

