-- ==== Sys2Proof/Machine/Snapshot.lean ====
section
/-!
DEFINITION. Sys2Proof/Machine/Snapshot.lean: snapshots by markers (R130-R132), their request and completion (R393,
R394), the checkpoint egress (R395).
-/

namespace Sys2Proof.Machine

/-! ### Records (R130-R132, R395; the layout of a record is log 21) -/

/-- The 64 bytes that head a record. -/
def recordHead (kind n slot actor num port seq count : Nat) : List Byte :=
  [kind, n, slot, actor, num, port, seq, count].flatMap (bytesOf 8)

/-- A checkpoint copy of a record in a slot of a core's engine, at its offset in the snapshot's area. -/
def recordCopy (s : State) (n k e off : Nat) (bs : List Byte) : State :=
  let l := getLaunch s e
  let sp := tget {} s.dev.spaces l.asid
  let c : Copy :=
    { gen := ((getCopy s n k).gen + 1) % 2 ^ 32, prio := 3, state := 1, nsec := ceilDiv bs.length 4096, order := s.nextId
      asid := l.asid, root := sp.root * 65536, sup := true, core := n, launch := e, snap := some (e, off, bs.length)
      data := bs, desc := { dst := w64 (l.image.snaparea + off) } }
  dropMisses (setCopy { s with nextId := s.nextId + 1 } n k c) (.copy n k)

/-- A record cut, at the next free offset of its snapshot (R395): its copy starts in a free slot, or it waits for one. -/
def cutRecord (s : State) (n e : Nat) (bs : List Byte) : State :=
  let off := (getLaunch s e).snap.off
  let s := modLaunch s e (fun l => { l with snap := { l.snap with off := off + bs.length } })
  match (if (getCore s n).records.isEmpty then freeCopySlot s n else none) with
  | some k => recordCopy s n k e off bs
  | none => modCore s n (fun c => { c with records := c.records ++ [(e, off, bs)] })

/-- The record that waits longest takes a slot whose copy has ended. -/
def nextRecord (s : State) (n : Nat) : State :=
  match (getCore s n).records, freeCopySlot s n with
  | r :: rest, some k => recordCopy (modCore s n (fun c => { c with records := rest })) n k r.1 r.2.1 r.2.2
  | _, _ => s

/-- An instance's state block and codebook image recorded. -/
def recordState (s : State) (n slot : Nat) : State :=
  match getInst s n slot with
  | some i =>
    let bs := recordHead 0 n slot i.actor i.n 0 0 i.blockSize ++ memBytes s i.block i.blockSize ++ bytesOf 32 i.cbimg.toNat
    modInst (cutRecord s n i.launch bs) n slot (fun i => { i with recorded := true })
  | none => s

/-- A token as channel state: header, payload, side band. -/
def tokenState (s : State) (c : Chan) (r : Ring) (seq : Nat) : List Byte :=
  bytesOf 8 (shownHeader r (hdrAt c seq)).toNat ++ memBytes s (payloadPa r seq) r.z ++
    (if isMx r.fmt then memBytes s (sidePa r seq) (sideBytes r) else [])

/-- The tokens a firing of an unaligned instance takes from ports whose marker has not come (R131). -/
def recordTaken (s : State) (n slot : Nat) : State :=
  match getInst s n slot with
  | some i =>
    if !i.unaligned then s
    else
      i.ports.zipIdx.foldl (fun s x =>
        if x.1.output || x.1.arrived then s
        else
          match getChan s x.1.core x.1.ch with
          | some c =>
            let q := nextTake s x.1.core x.1.ch c x.1.cons
            let r := ringOf c x.1.cons
            cutRecord s n i.launch (recordHead 1 n slot i.actor i.n x.2 q x.1.count ++
              (upFrom 0 x.1.count).flatMap (fun j => tokenState s c r (bump q j)))
          | none => s) s
  | none => s

/-! ### Markers (R130, R131) -/

/-- The snapshot number a marker carries in its payload. -/
def markerNo (s : State) (c : Chan) (seq : Nat) : Nat := memRead s (payloadPa (prodRing c) seq) 4

/-- Whether marker `num` stands at the head of an input port. -/
def markerAt (s : State) (p : Port) (num : Nat) : Bool :=
  match headOf s p, getChan s p.core p.ch with
  | some (seq, h), some c => hdrKind h == 2 && markerNo s c seq == num
  | _, _ => false

/-- End-of-stream at the head of a port: nothing, and so no marker, comes after it. -/
def eosAt (s : State) (p : Port) : Bool := match headOf s p with | some t => hdrKind t.2 == 1 | none => false

/-- Marker `num` written on every output port that still carries tokens. -/
def markOutputs (s : State) (slot num : Nat) (i : Inst) : State :=
  (outputs i).foldl (fun s p => if p.eos then s else unitToken s p 2 num slot) s

/-- MARKER_INJECT: at a source, after its current firing. -/
def markerInject (s : State) (n slot : Nat) : State :=
  match getInst s n slot with
  | some i =>
    if i.inject && atRest s n i && (getLaunch s i.launch).snap.cur != 0 then
      modInst (recordState (markOutputs s slot (getLaunch s i.launch).snap.cur i) n slot) n slot (fun i => { i with inject := false })
    else s
  | none => s

/-- SNAPSHOT_ALIGN: an instance whose inputs are aligned, or one that has retired without the marker and records its state as it
stands (log 60). -/
def snapshotAlign (s : State) (n slot : Nat) : State :=
  match getInst s n slot with
  | some i =>
    let num := (getLaunch s i.launch).snap.cur
    let ins := inputs i
    if i.state = 5 then
      (if num ≠ 0 ∧ i.launch < 64 ∧ !i.recorded ∧ !coreStopped s i.launch n ∧ !clocksOff s then recordState s n slot else s)
    else if num ≠ 0 ∧ atRest s n i ∧ !i.recorded ∧ ins.any (fun p => markerAt s p num) ∧ ins.all (fun p => markerAt s p num || eosAt s p) then
      let s := ins.foldl (fun s p => if eosAt s p then s else takeOne s p) s
      markOutputs (recordState s n slot) slot num i
    else s
  | none => s

/-- Whether an input channel of an instance is full. -/
def inputFull (s : State) (i : Inst) : Bool :=
  (inputs i).any (fun p => match getChan s p.core p.ch with | some c => occupancy c == chN c | none => false)

/-- Whether a consumer of a channel is unaligned. -/
def unalAny (s : State) (c : Chan) : Bool :=
  c.consumers.any (fun x => x.any (fun y => (getInst s y.1 y.2.1).any (·.unaligned)))

/-- UNAL of an instance's input channels: set while a consumer of the channel is unaligned (R131). -/
def setUnal (s : State) (i : Inst) : State :=
  (inputs i).foldl (fun s p => modChan s p.core p.ch (fun c => { c with unal := unalAny s c })) s

/-- SNAPSHOT_UNALIGNED_SWITCH. -/
def unalignedSwitch (s : State) (n slot : Nat) : State :=
  match getInst s n slot with
  | some i =>
    let num := (getLaunch s i.launch).snap.cur
    let at_ := fun (p : Port) => !p.output && markerAt s p num
    if num ≠ 0 ∧ atRest s n i ∧ !i.recorded ∧ i.ports.any at_ ∧ inputFull s i then
      let ports := i.ports.map (fun p => { p with arrived := at_ p })
      let t := (i.ports.filter at_).foldl takeOne s
      let t := markOutputs (recordState t n slot) slot num i
      setUnal (modInst t n slot (fun i => { i with unaligned := true, ports := ports })) i
    else s
  | none => s

/-- UNALIGNED_MARKER_ARRIVE. -/
def unalignedArrive (s : State) (n slot k : Nat) : State :=
  match getInst s n slot with
  | some i =>
    match i.ports[k]? with
    | some p =>
      if i.unaligned && !coreStopped s i.launch n && !clocksOff s && !p.output && !p.arrived && markerAt s p (getLaunch s i.launch).snap.cur then
        let ports := i.ports.set k { p with arrived := true }
        let done := ports.all (fun q => q.output || q.arrived)
        let s := modInst (takeOne s p) n slot (fun i => { i with ports := ports, unaligned := !done })
        if done then setUnal s i else s
      else s
    | none => s
  | none => s

def execMarkerInject (core slot : Nat) (s : State) : Out := event s (fun s => markerInject s core slot)
def execSnapshotAlign (core slot : Nat) (s : State) : Out := event s (fun s => snapshotAlign s core slot)
def execSnapshotUnalignedSwitch (core slot : Nat) (s : State) : Out := event s (fun s => unalignedSwitch s core slot)
def execUnalignedMarkerArrive (core slot port : Nat) (s : State) : Out := event s (fun s => unalignedArrive s core slot port)

/-! ### Request and completion (R393, R394) -/

/-- Every instance of a launch changed. -/
def modInsts (s : State) (e : Nat) (f : Inst → Inst) : State :=
  let g := fun (t : Tbl (Option Inst)) => t.map (fun x => (x.1, x.2.map (fun i => if i.launch = e then f i else i)))
  { s with cores := s.cores.map (fun (x : Nat × Core) => (x.1, { x.2 with insts := g x.2.insts })) }

def getSession (s : State) (n : Nat) : Option Session := tget none s.mgmt.sessions n
def setSession (s : State) (n : Nat) (x : Option Session) : State :=
  modMgmt s (fun m => { m with sessions := tset none m.sessions n x })

/-- SNAPREQ: a write by the driver. -/
def snapreq (s : State) (e : Nat) (v : W64) (drv : Bool) : State :=
  let l := getLaunch s e
  if !drv ∨ wbits v 16 48 ≠ 0 ∨ l.image.snaparea = 0 ∨ l.lstate ≠ 2 ∨ l.snap.cur ≠ 0 then s
  else
    let ses := if (getSession s (wbits v 0 16)).isSome then wbits v 0 16 else 0
    let s := modLaunch s e (fun l => { l with snap := { cur := (l.snap.last + 1) % 2 ^ 32, last := l.snap.last, session := ses } })
    modInsts s e (fun i => { i with
      inject := i.ports.all (·.output) && i.state != 5, recorded := false, unaligned := false
      ports := i.ports.map (fun p => { p with arrived := false }) })

/-- An instance has done its part in a snapshot; no channel state comes to one that has retired. -/
def snapDone (i : Inst) : Bool := i.recorded && (!i.unaligned || i.state == 5)

/-- Unsent or unacknowledged SNAPDATA of a launch on the session it streams to. -/
def snapOwed (s : State) (e ses : Nat) : Bool :=
  match getSession s ses with
  | some x => !x.lost && x.snapdata.any (fun m => m.launch == e)
  | none => false

/-- The core of slot 0; the home die (R35). -/
def homeCore (l : Launch) : Nat := l.slots.headD 0
def homeDie (l : Launch) : Nat := dieOf (homeCore l)

/-- SNAPSHOT_COMPLETE: LAST and CUR are one release store of the launch processor (R393); it waits out a pre-emption and a power
transition (R394). -/
def snapshotComplete (s : State) (e : Nat) : State :=
  let l := getLaunch s e
  if l.snap.cur ≠ 0 ∧ !l.snap.broken ∧ l.lstate = 2 ∧ l.heldCores.isEmpty ∧ !clocksOff s ∧
      s.cores.all (fun x => x.2.insts.all (fun y => y.2.all (fun i => i.launch != e || snapDone i)) &&
        x.2.records.all (fun r => r.1 != e) && x.2.copies.all (fun y => !(copyLive y.2 && y.2.snap.any (fun z => z.1 == e)))) ∧
      !snapOwed s e l.snap.session ∧ !s.reqs.any (fun r => r.agent == .launchProc (homeDie l) && !r.todo.isEmpty) then
    modLaunch s e (fun l => { l with snap := { l.snap with last := l.snap.cur, cur := 0 } })
  else s

def execSnapreq (launch : Nat) (v : W64) (drv : Bool) (s : State) : Out := event s (fun s => snapreq s launch v drv)
def execSnapshotComplete (launch : Nat) (s : State) : Out := event s (fun s => snapshotComplete s launch)

/-! ### The egress (R395) -/

/-- SNAPDATA not yet sent. -/
def snapUnsent : Nat := 2 ^ 64

/-- One datagram of OP 10. -/
def snapOut (x : Session) (ses : Nat) (m : SnapMsg) : OutMsg := sealed x ses 10 m.seq (w64 m.off) 0 m.payload

/-- SNAPDATA sent while at most 64 stay unacknowledged. -/
def pumpSnap (fuel : Nat) (s : State) (ses : Nat) : State :=
  match fuel with
  | 0 => s
  | f + 1 =>
    match getSession s ses with
    | some x =>
      let sent := x.snapdata.filter (fun m => m.seq != snapUnsent)
      match x.snapdata.find? (fun m => m.seq == snapUnsent) with
      | some m =>
        if 64 ≤ sent.length ∨ x.lost then s
        else
          let m' := { m with seq := x.outSeq, sent := s.time }
          let x' := { x with
            outSeq := x.outSeq + 1, lastAck := if sent.isEmpty then s.time else x.lastAck
            snapdata := sent ++ [m'] ++ (x.snapdata.filter (fun y => y.seq == snapUnsent)).drop 1 }
          let s := setSession s ses (some x')
          pumpSnap f (sendOut s (snapOut x ses m')) ses
      | none => s
    | none => s

/-- The pieces of a record's bytes, up to 4096 each, from an offset on. -/
def snapPieces (fuel e off : Nat) (bs : List Byte) : List SnapMsg :=
  match fuel with
  | 0 => []
  | f + 1 =>
    if bs.isEmpty then []
    else { seq := snapUnsent, launch := e, off := off, sent := 0, payload := bs.take 4096 } :: snapPieces f e (off + 4096) (bs.drop 4096)

/-- A checkpoint copy that has been performed: its record goes to the session the snapshot names (R395). -/
def snapPerformed (s : State) (c : Copy) : State :=
  match c.snap with
  | some (e, off, len) =>
    let ses := (getLaunch s e).snap.session
    match getSession s ses with
    | some x =>
      if ses = 0 ∨ x.lost then modLaunch s e (fun l => { l with snap := { l.snap with drained := l.snap.drained + len } })
      else pumpSnap 64 (setSession s ses (some { x with snapdata := x.snapdata ++ snapPieces (len / 4096 + 1) e off c.data })) ses
    | none => modLaunch s e (fun l => { l with snap := { l.snap with drained := l.snap.drained + len } })
  | none => s

/-- SNAPDATA that a lost session has not acknowledged: what it carries stands in SNAPAREA, and that is what counts (R395). -/
def countLost (s : State) (ms : List SnapMsg) : State :=
  ms.foldl (fun s m => modLaunch s m.launch (fun l => { l with snap := { l.snap with drained := l.snap.drained + m.payload.length } })) s

/-- A host's acknowledgement: a reply of OP 10 with STATUS 0. -/
def snapAck (s : State) (ses seq status : Nat) : State :=
  match getSession s ses with
  | some x =>
    match x.snapdata.find? (fun m => m.seq == seq && seq != snapUnsent) with
    | some m =>
      if status ≠ 0 then s
      else
        let s := setSession s ses (some { x with snapdata := x.snapdata.erase m, lastAck := s.time })
        pumpSnap 64 (modLaunch s m.launch (fun l => { l with snap := { l.snap with drained := l.snap.drained + m.payload.length } })) ses
    | none => s
  | none => s

/-- SNAPDATA_RESEND: a datagram unacknowledged for 200 µs. -/
def snapResend (s : State) (ses seq : Nat) : State :=
  match getSession s ses with
  | some x =>
    match x.snapdata.find? (fun m => m.seq == seq && seq != snapUnsent) with
    | some m =>
      if m.sent + 200000 ≤ s.time ∧ !x.lost then
        let s := setSession s ses (some { x with snapdata := x.snapdata.map (fun y => if y.seq = seq then { y with sent := s.time } else y) })
        sendOut s (snapOut x ses m)
      else s
    | none => s
  | none => s

/-- SNAPDATA_SESSION_LOST: nothing acknowledged for 1 s. -/
def snapLost (s : State) (ses : Nat) : State :=
  match getSession s ses with
  | some x =>
    if x.snapdata.any (fun m => m.seq != snapUnsent) ∧ x.lastAck + 1000000000 ≤ s.time ∧ !x.lost then
      countLost (setSession s ses (some { x with lost := true, snapdata := [] })) x.snapdata
    else s
  | none => s

def execSnapdataResend (session seq : Nat) (s : State) : Out := event s (fun s => snapResend s session seq)
def execSnapdataSessionLost (session : Nat) (s : State) : Out := event s (fun s => snapLost s session)

end Sys2Proof.Machine
end

