-- ==== Sys2Proof/Machine/Sched.lean ====
section
/-!
DEFINITION. Sys2Proof/Machine/Sched.lean: starting a firing (R24, R25, R315, R316, R352), ending it (R208), the actor
scheduler (R28), YIELD (R209), re-injection (R383), enabling reserve instances (R31), the watchdog (R33).
-/

namespace Sys2Proof.Machine

/-! ### Contexts of a launch (R39) -/

/-- Whether a launch holds a core beside `e` (R39). -/
def sharedCore (s : State) (n e : Nat) : Bool := s.dev.launches.any (fun x => x.1 != e && holdsCore x.2 n)

/-- The contexts a launch holds on a core: all four, or 0-2 for a compute-bound and 3 for a memory-bound launch of a
pair. -/
def ctxsOf (s : State) (n e : Nat) : List Nat :=
  if !sharedCore s n e then [0, 1, 2, 3] else if (getLaunch s e).compute then [0, 1, 2] else [3]

/-- The free context of lowest number (R24 condition 5, R28). -/
def freeCtx (s : State) (n e : Nat) : Option Nat := (ctxsOf s n e).find? (fun c => (getCtx s n c).firing.isNone)

/-! ### Starting a firing (R25) -/

/-- The time up to which the watchdog periods have run: a power transition pauses them (R33). -/
def watchTime (s : State) : Nat := if s.mgmt.power.busy then s.mgmt.power.began else s.time

/-- The watchdog period of a launch starts again in full (R33). -/
def restartWatch (s : State) (e : Nat) : State :=
  modLaunch s e (fun l => { l with watch := some (watchTime s + l.image.watchdog * 1000000) })

/-- A replay's record, or what a firing's ports take now: per port the first sequence number and the count. -/
def portSpans (s : State) (i : Inst) : List (Nat × Nat) :=
  i.ports.map (fun p =>
    match getChan s p.core p.ch with
    | some c => (if p.output then nextCommit s p.core p.ch c else nextTake s p.core p.ch c p.cons, p.count)
    | none => (0, p.count))

/-- The slot address of a port's first reserved slot (R25, R317); 0 for a port the actor lacks. -/
def portAddr (s : State) (n : Nat) (i : Inst) (spans : List (Nat × Nat)) (k : Nat) : W64 :=
  match i.ports[k]? with
  | some p =>
    match getChan s p.core p.ch with
    | some c => w64 (slotVa s i.launch n (payloadPa (if p.output then prodRing c else ringOf c p.cons) (spans.getD k (0, 0)).1))
    | none => 0
  | none => 0

/-- A stream at firing start (R25, R165, R352). -/
def startStream (g : List W64) (entry root vec : W64) (priv : Bool) : Stream :=
  { run := .running, pc := entry, sreg := g.zipIdx.foldl (fun t e => tset 0 t (e.2 + 1) e.1) [], sfull := 0xFF
    mode := { sup := priv }, trap := { vec := vec }, ttroot := root }

/-- WINSPILL of a context (R315). -/
def spillAddr (l : Launch) (n c : Nat) : W64 :=
  w64 ((l.image.spillbase + (n * 4 + c) * l.image.spillrec * 0x90) % 2 ^ 48 / 16 * 16)

/-- A context at firing start. -/
def startCtx (l : Launch) (i : Inst) (n c fir : Nat) (f : Firing) : Ctx :=
  writeSeed { cb := i.cbimg, fpctl := BitVec.ofNat 9 l.image.fpctl, winspill := spillAddr l n c, wid := i.wid
              firecnt := w64 fir, firing := some f } l.image.seed

/-- A firing of an instance starts on a context; `replay` gives the record a replay firing runs again (R383). -/
def startFiring (s : State) (n slot c : Nat) (replay : Option FireRec) : State :=
  match getInst s n slot with
  | some i =>
    let l := getLaunch s i.launch
    let sp := tget {} s.dev.spaces l.asid
    if !sp.v || sp.tvec == 0 then failLaunch s i.launch { code := 6, core := n, detail := w64 l.asid }
    else
      let spans := match replay with | some r => r.spans | none => portSpans s i
      let fir := match replay with | some r => r.fir | none => i.firecnt
      let f : Firing :=
        { launch := i.launch, slot := slot, fir := fir, ord := i.ord, asid := l.asid, window := l.window, replay := replay.isSome
          ports := spans.map (fun x => { res := x.2, base := if replay.isSome then some x.1 else none }) }
      let g := [i.wid, w64 fir, w64 i.block] ++ (upFrom 0 4).map (portAddr s n i spans)
      let root := w64 (sp.root * 65536 + l.asid)
      let vec := w64 (sp.tvec * 4)
      let s := if replay.isSome then s else recordTaken s n slot
      let s := storeMem s i.block 96 (packNat 64 ((upFrom 4 12).map (fun k => (portAddr s n i spans k).toNat)))
      let s := if replay.isSome then s
        else (i.ports.filter (·.output)).foldl (fun s p => modChan s p.core p.ch (fun h => { h with reserved := h.reserved + p.count })) s
      let s := setCtx s n c (startCtx l i n c fir f)
      let s := setStream s { core := n, ctx := c, ap := false } (startStream g i.entry root vec i.priv)
      let s := setStream s { core := n, ctx := c, ap := true } (if i.aentry = 0 then {} else startStream g i.aentry root vec i.priv)
      modInst s n slot (fun i => { i with
        state := 4, ctx := c, ord := i.ord + 1
        hist := if i.replayable && replay.isNone then
            i.hist.filter (fun r => !(r.ended && (i.ports.all (·.output)) && productionDone s n slot r.fir)) ++ [{ fir := fir, spans := spans }]
          else i.hist })
  | none => s

/-! ### The actor scheduler (R28) -/

/-- The permitted instances of a launch on a core. -/
def permittedOf (s : State) (n e : Nat) : List (Nat × Inst) :=
  (getCore s n).insts.filterMap (fun x =>
    match x.2 with
    | some i => if i.launch == e && permitted24 s n x.1 then some (x.1, i) else none
    | none => none)

/-- Greatest credit, ties to the lowest slot, over slots in ascending order. -/
def pickInst (cs : List (Nat × Int)) : Option Nat :=
  (cs.foldl (fun m x => match m with
    | some y => if y.2 < x.2 then some x else m
    | none => some x) none).map (·.1)

/-- Whether a launch's instances on a core may start firings. -/
def launchRuns (s : State) (n e : Nat) : Bool :=
  let l := getLaunch s e
  l.lstate == 2 && !l.failed && !coreStopped s e n && !clocksOff s

/-- SCHEDULING_EVENT. -/
def schedulingEvent (s : State) (n e : Nat) : State :=
  let ps := permittedOf s n e
  match freeCtx s n e, ps with
  | some c, _ :: _ =>
    if !launchRuns s n e then s
    else
      let ws := ps.map (fun x => (x.1, (instWeight s x.2 : Int)))
      let total := ws.foldl (fun a x => a + x.2) 0
      let s := ws.foldl (fun s x => modInst s n x.1 (fun i => { i with credit := i.credit + x.2 })) s
      match pickInst (ps.map (fun x => (x.1, ((getInst s n x.1).map (·.credit)).getD 0))) with
      | some k => startFiring (modInst s n k (fun i => { i with credit := i.credit - total })) n k c none
      | none => s
  | _, _ => s

/-! ### Ending a firing (R208) -/

/-- What a port still holds reserved, committed or released, or returned after end-of-stream (R118, R285). -/
def endPort (s : State) (n c : Nat) (f : Firing) (k : Nat) : State :=
  match (getInst s n f.slot).bind (fun i => i.ports[k]?) with
  | some p =>
    let r := f.ports.getD k {}
    let left := r.res - r.taken
    if left = 0 then s
    else if p.output then
      if r.eos then (if f.replay then s else modChan s p.core p.ch (fun h => { h with reserved := h.reserved - left }))
      else
        (upFrom 0 left).foldl (fun s j =>
          postCommit s { id := 0, core := p.core, ch := p.ch, kind := 0, eod := none, poison := f.poisoned, ctx := c
                         slot := f.slot, fir := f.fir, seq := r.base.map (fun b => bump b (r.taken + j)) }) s
    else if f.replay then s
    else postRelease s { id := 0, core := p.core, ch := p.ch, cons := p.cons, n := left, agent := { core := n, ctx := c, ap := false }
                         slot := f.slot, fir := f.fir }
  | none => s

/-- Whether FIRE.END itself commits a data slot that carries the mark of a poisoned firing (R381). -/
def endMarks (s : State) (n : Nat) (f : Firing) : Bool :=
  match getInst s n f.slot with
  | some i => (i.ports.zip f.ports).any (fun e => e.1.output && !e.2.eos && decide (e.2.taken < e.2.res))
  | none => false

/-- Results still on their way to a context are dropped; the accesses are still performed. -/
def dropResults (s : State) (n c : Nat) : State :=
  let mine := fun (a : Agent) => match a with | .stream w => w.core == n && w.ctx == c | _ => false
  let s := { s with
    reqs := (s.reqs.map (fun r => if mine r.agent then { r with dest := .none } else r)).filter (fun r =>
      !(mine r.agent && (r.todo.isEmpty || r.kind == .monitor)))
    freqs := s.freqs.map (fun r => if mine r.agent then { r with dest := .none } else r) }
  modCore s n (fun k => { k with
    tasks := k.tasks.map (fun t => if t.who.ctx = c then { t with dest := .none } else t) })

/-- Spill records in flight at the end of a firing are left undefined. -/
def loseSpills (s : State) (n c : Nat) : State :=
  ((getCtx s n c).spills.flatMap (·.segs)).foldl (fun s g =>
    if g.dev ≠ 0 then s
    else
      let r := freeBytes s g.len
      storeMem r.2 g.pa g.len r.1) s

/-- A held write discarded: its piece has reached its target (R208, R360). -/
def discardHeld (s : State) (n : Nat) (h : HeldWrite) : State :=
  match findReq s h.id with
  | some r =>
    match r.todo.find? (fun g => regView (place g.pa) == some (n, h.ctx, h.reg)) with
    | some g => windowDone s r g
    | none => s
  | none => s

/-- The window writes held for a context's registers discarded, in arrival order. -/
def dropHeld (s : State) (n c : Nat) : State :=
  let hs := (getCore s n).heldWrites.filter (fun h => h.ctx == c)
  let s := modCore s n (fun k => { k with heldWrites := k.heldWrites.filter (fun h => h.ctx != c) })
  hs.foldl (fun s h => discardHeld s n h) s

/-- A context emptied of its firing. -/
def clearCtx (s : State) (n c : Nat) : State :=
  let s := dropHeld (dropResults (loseSpills s n c) n c) n c
  let s := setStream (setStream s { core := n, ctx := c, ap := false } {}) { core := n, ctx := c, ap := true } {}
  setCtx s n c {}

/-- COPY_FAULTs that a firing ends without having taken go to the driver (R281). -/
def reportFaults (s : State) (n c e : Nat) : State :=
  (getCtx s n c).pending.foldl (fun s t => driverEvent s 7 n c e t.val t.inst) s

/-- The data slots that a poisoned firing has posted and that are not committed yet carry its mark (R381). -/
def markCommits (s : State) (n c : Nat) (f : Firing) : State :=
  modCore s n (fun k => { k with commits := k.commits.map (fun x => if commitOf n c f x then { x with poison := true } else x) })

/-- FIRE.END of a CP stream. -/
def endFiring (s : State) (n c : Nat) : State :=
  match (getCtx s n c).firing with
  | some f =>
    let s := reportFaults s n c f.launch
    let posted := (getCore s n).commits.any (commitOf n c f)
    let s := if f.poisoned && !f.marked && !posted && !endMarks s n f then failLaunch s f.launch { code := 0x15, core := n } else s
    let s := if f.poisoned && posted then markCommits s n c f else s
    let s := (upFrom 0 f.ports.length).foldl (fun s k => endPort s n c f k) s
    let s := modInst s n f.slot (fun i =>
      let source := i.ports.all (·.output) && i.ports.all (·.eos)
      { i with
        state := if source then 5 else 2
        firecnt := if f.replay then i.firecnt else i.firecnt + 1
        hist := i.hist.map (fun r => if r.fir = f.fir then { r with ended := true, made := f.ports.map (fun p => if p.eos then p.taken else p.res) } else r) })
    restartWatch (clearCtx s n c) f.launch
  | none => clearCtx s n c

/-- FIRE.END (R208): an AP stream's ends that stream alone, with its monitor (R248). -/
def execFireEnd (f : R3F) (s : State) : Out :=
  perform s (.fireEnd f) {} (fun s _ =>
    if s.cur.ap then .ok (modCur s (fun x => { x with run := .ended, monitor := {} }), .none)
    else .ok (endFiring s s.cur.core s.cur.ctx, .none))

def execYield (f : R3F) (s : State) : Out :=
  perform s (.yield f) { cpOnly := true } (fun s _ => .ok (modCurCtx s (fun c => { c with yielded := (upFrom 0 4).filter (fun k => k != s.cur.ctx && contextReady s s.cur.core k) }), .seq))

def execSchedulingEvent (core launch : Nat) (s : State) : Out := event s (fun s => schedulingEvent s core launch)

/-! ### Re-injection (R383) -/

/-- The sequence number of the poisoned token that a consumer, or the comparator (8), takes next. -/
def poisonedHead (s : State) (n k cons : Nat) : Option Nat :=
  match getChan s n k with
  | some c =>
    let seq := if cons = 8 then c.compared else nextTake s n k c cons
    let seen := if cons = 8 then c.head else seenTo c
    if past seen seq ≠ 0 ∧ past seen seq ≤ chN c ∧
        hdrPoison (hdrAt c seq) ∧ hdrKind (hdrAt c seq) ≤ 3 then some seq else none
  | none => none

/-- The first poisoned token among the input slots that a firing record holds: its channel's record and its number. A slot
counts whose header carries the mark or whose payload holds poisoned bytes (R381, R383). -/
def poisonedInput (s : State) (i : Inst) (r : FireRec) : Option (Nat × Nat × Nat) :=
  (i.ports.zip r.spans).findSome? (fun e =>
    if e.1.output then none
    else
      match getChan s e.1.core e.1.ch with
      | some c =>
        ((upFrom 0 e.2.2).find? (fun j =>
          let seq := bump e.2.1 j
          hdrPoison (hdrAt c seq) || (poisonIn s (slotSegs (ringOf c e.1.cons) seq)).isSome)).map (fun j => (e.1.core, e.1.ch, bump e.2.1 j))
      | none => none)

/-- The re-injection of token `seq` of a channel, or of the first poisoned one among the inputs that its replay would take
(R383). -/
def reinject (fuel : Nat) (s : State) (n k seq : Nat) : State :=
  match fuel, getChan s n k with
  | f + 1, some c =>
    if (getCore s n).commits.any (fun x => x.ch == k && x.seq == some seq) then s
    else
      match getInst s n c.pslot with
      | some i =>
        let fail := failLaunch s c.launch { code := 0x15, core := n, detail := w64 seq }
        if !i.replayable ∨ 3 ≤ tget 0 c.reinjected seq then fail
        else
          match i.hist.find? (fun r => r.ended && (match r.spans[c.pport]? with
              | some x => decide (past seq x.1 < x.2)
              | none => false)) with
          | some r =>
            if i.state = 4 ∨ !launchRuns s n i.launch then s
            else
              (match poisonedInput s i r, freeCtx s n i.launch with
               | some p, _ => reinject f s p.1 p.2.1 p.2.2
               | none, some x =>
                 let s := setChan s n k (some { c with reinjected := tset 0 c.reinjected seq (tget 0 c.reinjected seq + 1) })
                 startFiring (logError s 7 0 n 0 0 (w64 seq)) n c.pslot x (some r)
               | none, none => s)
          | none => if i.state = 4 then s else fail
      | none => s
  | _, _ => s

/-- POISON_REINJECT. -/
def poisonReinject (s : State) (n k cons : Nat) : State :=
  match poisonedHead s n k cons with
  | some seq => reinject 4096 s n k seq
  | none => s

def execPoisonReinject (core ch cons : Nat) (s : State) : Out := event s (fun s => poisonReinject s core ch cons)

/-! ### IENABLE (R30, R31) -/

/-- A store to IENABLE. DESIGN CHOICE: one to a reserve instance that retired while dormant leaves EN 0 (R30, R34; log 83). -/
def ienable (s : State) (n slot : Nat) (v : W64) : State :=
  match getInst s n slot with
  | some i =>
    if v.getLsbD 0 && i.kind == .reserve && !i.en && i.state == 1 && decide (i.launch < 64) && !savedOn s i.launch n then
      modLaunch (setInst s n slot (some { i with en := true, state := 2 })) i.launch (fun l => { l with live := l.live + 1 })
    else s
  | none => s

def execIenable (core slot : Nat) (v : W64) (s : State) : Out := event s (fun s => ienable s core slot v)

/-! ### The watchdog (R33, R334) -/

/-- What a stream of a launch waits for, as a wait kind and what is waited on; none outside the listed waits. DESIGN CHOICE: a HALT
waits on nothing; its record gives the address after it (log 90). -/
def waitKind (s : State) (w : StreamId) : Option (Nat × W64) :=
  let x := getStream s w
  if x.run = .halted then some (5, x.pc)
  else
    match x.wait with
    | .none | .walk _ _ => none
    | .reg code _ => some (1, w64 code)
    | .queue q => some (2, w64 (32 + q))
    | .mwait _ _ _ => some (3, w64 x.monitor.va)
    | .barrier pa => some (4, w64 pa)
    | .interlock =>
      match s.freqs.find? (fun f => f.agent == .stream w && f.held != .no) with
      | some f => some (6, w64 f.va)
      | none =>
        match (getCore s w.core).copies.find? (fun e => copyOf w e.2 && e.2.state == 4) with
        | some e => some (7, e.2.fault)
        | none => none

/-- The contexts that run a launch's firings, as core and number. -/
def launchCtxs (s : State) (e : Nat) : List (Nat × Nat) :=
  s.cores.flatMap (fun x => (x.2.ctxs.filter (fun c => c.2.firing.any (fun f => f.launch == e))).map (fun c => (x.1, c.1)))

/-- The wait of a context: its CP stream's, or else its AP stream's. -/
def ctxWait (s : State) (n c : Nat) : Option (Nat × W64) :=
  match waitKind s { core := n, ctx := c, ap := false } with
  | some k => some k
  | none => waitKind s { core := n, ctx := c, ap := true }

/-- WATCHDOG: one report when the period has run out, with a record for each waiting context and one for each held core.
DESIGN CHOICE: where both streams of a context wait, its record gives the CP's wait; a context that waits on a core held by
LCORE has its record beside the core's (log 83). -/
def watchdog (s : State) (e : Nat) : State :=
  let l := getLaunch s e
  match l.watch with
  | some t =>
    if (l.lstate = 2 ∨ l.lstate = 6) ∧ t ≤ watchTime s then
      let s := modLaunch s e (fun l => { l with watch := none })
      let ws := (launchCtxs s e).filterMap (fun w => (ctxWait s w.1 w.2).map (fun k => (w, k)))
      if ws.isEmpty && l.heldCores.isEmpty then driverEvent s 5 0 0 e 0 0
      else
        let s := ws.foldl (fun s x => driverEvent s 5 x.1.1 x.1.2 e x.2.2 (w64 x.2.1)) s
        l.heldCores.foldl (fun s n => driverEvent s 5 n 0 e 0 8) s
    else s
  | none => s

def execWatchdog (launch : Nat) (s : State) : Out := event s (fun s => watchdog s launch)

end Sys2Proof.Machine
end

