-- ==== Sys2Proof/Machine/Launch.lean ====
section
/-!
DEFINITION. Sys2Proof/Machine/Launch.lean: placement (R20-R23, R323, R308), rings and state blocks (R114, R115, R397, R398),
the checks of R23 and R327 that need the machine, and the start of a launch.
-/

namespace Sys2Proof.Machine

/-! ### Addresses of a launch read by a launch processor (R352, R398) -/

/-- The leaf that maps a virtual address for a launch processor, from its cache or by a walk, which the cache keeps (R352). -/
def lpLeaf (s : State) (die asid va : Nat) : Option TlbEntry × State :=
  match tlbFind (getDie s die).lpTlb asid va with
  | some e => (some e, s)
  | none =>
    let sp := tget {} s.dev.spaces asid
    if !sp.v then (none, s)
    else
      let r := walk s (getDie s die).ptrs asid (sp.root * 65536) va
      let s := countWalk s r.reads
      match r.leaf with
      | .ok e => (some e, modDie s die (fun d => { d with lpTlb := tlbAdd 256 d.lpTlb e }))
      | .error _ => (none, s)

/-- The physical base of `n` bytes of HBM from `va`, mapped with RD and WR by contiguous pages (R398). -/
def contiguous (fuel : Nat) (s : State) (die asid va n : Nat) : Option Nat × State :=
  match fuel with
  | 0 => (none, s)
  | f + 1 =>
    match lpLeaf s die asid va with
    | (some e, s) =>
      let pa := leafBase e.pte + va % 2 ^ e.log2
      let room := 2 ^ e.log2 - va % 2 ^ e.log2
      if !pteRd e.pte || !pteWr e.pte || pteRem e.pte || decide (hbmEnd < pa + min n room) || decide (2 ^ 48 < va + n) then (none, s)
      else if n ≤ room then (some pa, s)
      else
        match contiguous f s die asid (va + room) (n - room) with
        | (some q, s) => (if q = pa + room then some pa else none, s)
        | (none, s) => (none, s)
    | (none, s) => (none, s)

def span (s : State) (die asid va n : Nat) : Option Nat × State := contiguous (n / 65536 + 2) s die asid va n

/-- `n` bytes read from a virtual address by a launch processor. -/
def lpRead (fuel : Nat) (s : State) (die asid va n : Nat) : Option (List Byte) × State :=
  match fuel, n with
  | 0, _ => (none, s)
  | _, 0 => (some [], s)
  | f + 1, n =>
    let k := min n (65536 - va % 65536)
    match lpXlate s die asid va .load k with
    | (.error _, s) => (none, s)
    | (.ok x, s) =>
      let r := readSeg s { pa := x.pa, len := k, off := 0, dev := x.dev }
      match lpRead f r.2 die asid (va + k) (n - k) with
      | (none, s) => (none, s)
      | (some bs, s) => (some (bytesOf k r.1 ++ bs), s)

def lpBytes (s : State) (die asid va n : Nat) : Option (List Byte) × State := lpRead (n / 65536 + 3) s die asid va n

/-! ### Placement (R20-R23) -/

/-- The slot list (R21). -/
def slotList (fence : BitVec 1024) (dual : Bool) : List Nat :=
  let free := (upFrom 0 1024).filter (fun n => !fence.getLsbD n)
  if !dual then free
  else
    let lo := free.filter (fun n => decide (n < 512))
    let hi := free.filter (fun n => decide (512 ≤ n))
    let h := min lo.length hi.length
    lo.take h ++ hi.take h

/-- An instance as placed: actor, number, whether a reserve or a shadow one, whether in the second half of the slot list,
core, work identifier. -/
structure Placed where
  actor : Nat
  n : Nat
  reserve : Bool
  shadow : Bool
  hi : Bool
  core : Nat
  wid : Nat
  deriving DecidableEq, Repr

/-- The instances of an actor: ordinary, reserve, then shadows (R22, R23, R29, R323). -/
def placeActor (img : Image) (slots : List Nat) (a : Nat) : List Placed :=
  let x := actorAt img a
  let i := spanCount img x.span
  let at_ := fun (n : Nat) (shadow : Bool) =>
    let p := (n * x.stride + x.offset + (if shadow then slots.length / 2 else 0)) % slots.length
    ({ actor := a, n := n, reserve := decide (i ≤ n), shadow := shadow, hi := decide (slots.length / 2 ≤ p), core := slots.getD p 0
       wid := widOf img x.span (if i ≤ n then (n - i) % i else n) } : Placed)
  let ns := upFrom 0 (i + x.reserve)
  ns.map (fun n => at_ n false) ++ (if x.dual then ns.map (fun n => at_ n true) else [])

def placeAll (img : Image) (slots : List Nat) : List Placed :=
  (upFrom 0 img.actors.length).flatMap (placeActor img slots)

/-- Instances with their instance slots: the free ones of their core in order (R23); 64 where none is left. -/
def seatAll (s : State) (ps : List Placed) (cnt : Tbl Nat) : List (Placed × Nat) :=
  match ps with
  | [] => []
  | p :: r =>
    let k := tget 0 cnt p.core
    let free := (upFrom 0 64).filter (fun j => (getInst s p.core j).all (fun i => decide (64 ≤ i.launch)))
    (p, free.getD k 64) :: seatAll s r (tset 0 cnt p.core (k + 1))

/-- A channel record to be: channel, output port, its producer and that one's slot, its number on the producer's core. -/
structure Rec where
  ch : Nat
  port : Nat
  prod : Placed
  pslot : Nat
  no : Nat
  deriving DecidableEq, Repr

/-- The channel records of a core, by producing slots, then ports (R323); 128 where no number is left. -/
def recsOf (s : State) (img : Image) (seats : List (Placed × Nat)) (n : Nat) : List Rec :=
  let free := (upFrom 0 128).filter (fun j => (getChan s n j).all (fun c => decide (64 ≤ c.launch)))
  let outs := (seats.filter (fun x => x.1.core == n)).flatMap (fun x =>
    ((actorAt img x.1.actor).ports.zipIdx.filter (fun p => p.1.output)).map (fun p => (x, p)))
  outs.zipIdx.map (fun o =>
    { ch := o.1.2.1.ch, port := o.1.2.2, prod := o.1.1.1, pslot := o.1.1.2, no := free.getD o.2 128 })

/-- The cores with instances, ascending. -/
def coresOf (seats : List (Placed × Nat)) : List Nat := (upFrom 0 1024).filter (fun n => seats.any (fun x => x.1.core == n))

/-! ### Consumers (R308, R323) -/

/-- A consumer of a replica: an instance's port with its format, or a sink. -/
inductive Cons where
  | inst (core slot port cfmt : Nat)
  | sink (no : Nat)
  deriving DecidableEq, Repr

/-- The bits of a work identifier that hold the levels of a span (R17). -/
def spanMask (img : Image) (sp : Nat) : Nat :=
  (upFrom 0 6).foldl (fun a k =>
    let used := (img.levels.take (k + 1)).foldl (fun b l => b + l.1) 0
    if sp.testBit k then a + (2 ^ (img.levels.getD k (0, 1)).1 - 1) * 2 ^ (64 - used) else a) 0

/-- The consuming ports and the sinks of a channel in stream order. -/
def consumerElems (img : Image) (ch : Nat) : List (Nat × (Nat × Nat × ImgPort ⊕ Nat)) :=
  let ports := (consPorts img ch).map (fun p => (p.2.2.off, Sum.inl p))
  let sinks := (sinksOf img ch).map (fun x => (x.2.off, Sum.inr x.1))
  sinks.foldl (fun l x => l.takeWhile (fun y => decide (y.1 < x.1)) ++ x :: l.dropWhile (fun y => decide (y.1 < x.1))) ports

/-- Whether an instance consumes the replicas of a producer: it agrees with it on every level the producer spans; within
DUAL subgraphs both lie in one half of the slot list, consumers outside read the primary, and a producer outside feeds both
halves (R323, R384; log 27). -/
def consumes (img : Image) (p q : Placed) : Bool :=
  let pd := (actorAt img p.actor).dual
  let qd := (actorAt img q.actor).dual
  Nat.land q.wid (spanMask img (actorAt img p.actor).span) == p.wid && (!pd || (if qd then p.hi == q.hi else !p.shadow))

/-- An exit channel: its producer lies in a DUAL subgraph, its consumers outside (R384). -/
def isExit (img : Image) (r : Rec) : Bool :=
  (actorAt img r.prod.actor).dual && (consPorts img r.ch).all (fun q => !(actorAt img q.1).dual)

/-- Instances in ascending number, a primary before its shadow (R308). -/
def byNumber (xs : List (Placed × Nat)) : List (Placed × Nat) :=
  xs.foldl (fun l x => l.takeWhile (fun y => decide (y.1.n ≤ x.1.n)) ++ x :: l.dropWhile (fun y => decide (y.1.n ≤ x.1.n))) []

/-- The consumers of a record, in their numbers' order (R308). Each SINK is replicated with the channel, but for the shadow
of an exit channel, which only the comparator consumes (R323, R384). -/
def consOf (img : Image) (seats : List (Placed × Nat)) (r : Rec) : List Cons :=
  (consumerElems img r.ch).flatMap (fun e =>
    match e.2 with
    | .inl q =>
      (byNumber (seats.filter (fun x => x.1.actor == q.1 && consumes img r.prod x.1))).map (fun x => .inst x.1.core x.2 q.2.1 q.2.2.cfmt)
    | .inr k => if r.prod.shadow && isExit img r then [] else [.sink k])

def consCores (cs : List Cons) : List Nat := cs.filterMap (fun c => match c with | .inst n _ _ _ => some n | .sink _ => none)

/-! ### Rings (R114, R115, R119, R397, R398) -/

/-- Where a ring lies: in a core's scratchpad, or (none) in HBM. -/
def ringCore (r : Rec) (cs : List Cons) : Option Nat :=
  let ns := consCores cs
  match ns with
  | [] => none
  | n :: _ =>
    if ns.length = cs.length ∧ ns.all (fun m => clusterOf m == clusterOf r.prod.core) then some (ns.foldl min n) else none

/-- A channel's producer ring and its delivery ring, if it has one, at base 0. -/
def ringsOf (img : Image) (ch : Nat) : List Ring :=
  match img.channels[ch]? with
  | some c =>
    let d := delivFmt img ch c.pfmt
    let p : Ring := { base := 0, z := 2 ^ c.log2z, n := 2 ^ c.log2n, fmt := c.pfmt }
    if d = c.pfmt then [p] else [p, { p with z := p.z * fmtWidth d / fmtWidth c.pfmt, fmt := d }]
  | none => []

/-- Bytes of the state blocks of a core (R397). -/
def blockBytes (img : Image) (seats : List (Placed × Nat)) (n : Nat) : Nat :=
  (seats.filter (fun x => x.1.core == n)).foldl (fun a x => a + (actorAt img x.1.actor).statesz) 0

/-- A layout in progress: the lowest ring of each scratchpad, the end of the rings in HBM, the bases of each record's
rings (offsets where they lie in HBM), the cores whose reservation is too small, each with the channel whose rings do not fit. -/
structure Layout where
  tops : Tbl Nat := []
  hbm : Nat := 0
  bases : List (Rec × List Nat) := []
  full : List (Nat × Nat) := []
  deriving DecidableEq, Repr

/-- One record's rings laid out. A ring in HBM takes the next offset of the channel area, which stands at `area`, whose address
is a multiple of N × Z (R115, R398). -/
def layRec (img : Image) (area : Nat) (seats : List (Placed × Nat)) (l : Layout) (r : Rec) : Layout :=
  match ringCore r (consOf img seats r) with
  | some m =>
    let floor := img.spbase * 4096 + blockBytes img seats m
    let go := (ringsOf img r.ch).foldl (fun (a : Nat × List Nat × Bool) g =>
      let align := g.n * g.z
      let base := (a.1 - ringBytesTotal g) / align * align
      (base, a.2.1 ++ [coreBase m + base], a.2.2 || decide (a.1 < floor + ringBytesTotal g ∨ base < floor)))
      (tget ((img.spbase + img.spsize) * 4096) l.tops m, [], false)
    { l with tops := tins (l.tops.filter (fun e => e.1 != m)) m go.1, bases := l.bases ++ [(r, go.2.1)]
             full := if go.2.2 then l.full ++ [(m, r.ch)] else l.full }
  | none =>
    let go := (ringsOf img r.ch).foldl (fun (a : Nat × List Nat) g =>
      let base := roundUp (area + a.1) (g.n * g.z) - area
      (base + ringBytesTotal g, a.2 ++ [base])) (l.hbm, [])
    { l with hbm := go.1, bases := l.bases ++ [(r, go.2)] }

/-! ### A launch's plan -/

/-- What a launch that passes its checks will hold. -/
structure Placement where
  img : Image
  slots : List Nat
  seats : List (Placed × Nat)
  lay : Layout
  chanPa : Nat := 0
  macrec : Nat := 0
  deriving DecidableEq, Repr

/-- The fence map of a generation (R20). -/
def fenceOf (s : State) (g : Nat) : BitVec 1024 :=
  let d := getDie s 0
  if g = s.dev.fenceGen then d.fenceMap else tget 0 d.oldMaps g

/-- The records of a placement, by producer core and number. -/
def placedRecs (s : State) (img : Image) (seats : List (Placed × Nat)) : List Rec :=
  (coresOf seats).flatMap (recsOf s img seats)

/-- A placement on the cores of a fence map, with the channel area at `area`. -/
def placement (s : State) (img : Image) (area : Nat) (fence : BitVec 1024) : Placement :=
  let slots := slotList fence (img.actors.any (·.dual))
  let seats := seatAll s (placeAll img slots) []
  { img := img, slots := slots, seats := seats, lay := (placedRecs s img seats).foldl (layRec img area seats) {} }

/-- CAPACITY at an actor, a channel: by the element that passes the limit (log 40). -/
def actorOver (img : Image) (core a : Nat) : CfgFail := { off := (actorAt img a).off, code := eCAPACITY, kind := 6, index := a, core := core }
def chanOver (img : Image) (core ch : Nat) : CfgFail :=
  { off := (img.channels[ch]?.map (·.off)).getD 0, code := eCAPACITY, kind := 4, index := ch, core := core }

/-- Where the limits of R23 are passed: by instances, by channel records, by rings, by the state blocks of a core. -/
def overs (p : Placement) : List CfgFail :=
  let top := (p.img.spbase + p.img.spsize) * 4096
  (p.seats.filter (fun x => decide (64 ≤ x.2))).map (fun x => actorOver p.img x.1.core x.1.actor) ++
    (p.lay.bases.filter (fun b => decide (128 ≤ b.1.no))).map (fun b => chanOver p.img b.1.prod.core b.1.ch) ++
    p.lay.full.map (fun x => chanOver p.img x.1 x.2) ++
    (coresOf p.seats).filterMap (fun n =>
      (p.seats.find? (fun x => x.1.core == n && decide (top < p.img.spbase * 4096 +
        blockBytes p.img (p.seats.filter (fun y => decide (y.2 ≤ x.2))) n))).map (fun x => actorOver p.img n x.1.actor))

/-- Whether a record's ring needs a mapping that the image lacks (R317). -/
def lacksMap (img : Image) (r : Rec) (cs : List Cons) : Bool :=
  match ringCore r cs with
  | some m =>
    let users := r.prod.core :: consCores cs
    (users.any (· == m) && (windowBase img).isNone) || (users.any (· != m) && !img.maps.any (fun x => x.index == 1))
  | none => false

/-- Bytes of the macro record (R113). -/
def macroBytes : Nat := 0x4400000

/-! ### Other launches -/

/-- Launches that run, end, or are pre-empted: placed and not ended. -/
def activeLaunches (s : State) : List (Nat × Launch) := s.dev.launches.filter (fun x => decide (2 ≤ x.2.lstate ∧ x.2.lstate ≤ 6))

/-- The scratchpad of a core that a launch loads or reserves (R318): offset and length. -/
def loadedRanges (img : Image) : List (Nat × Nat) :=
  (img.spbase * 4096, img.spsize * 4096) :: (windowSections img).map (fun x => (x.va - (windowBase img).getD 0, x.size))

/-- The first shared core on which a launch's sections overlap what an earlier one loads or reserves (R318), at those sections. -/
def overlaps (s : State) (e : Nat) (p : Placement) : List CfgFail :=
  let meets := fun (n : Nat) (b : ImgSection) => s.dev.launches.any (fun x => x.1 != e && holdsCore x.2 n &&
    (loadedRanges x.2.image).any (fun a => rangesMeet a.1 a.2 (b.va - (windowBase p.img).getD 0) b.size))
  (coresOf p.seats).flatMap (fun n => ((windowSections p.img).filter (meets n)).map (fun b =>
    { off := b.off, code := eCAPACITY, kind := 3, index := b.index, core := n }))

/-! ### The checks of R23 and R327 -/

/-- The words of a launch's stream. -/
def streamWords (s : State) (l : Launch) : Option (List Nat) × State :=
  let n := wbits (l.packet.getD 4 0) 0 32
  match lpBytes s 0 l.asid (l.packet.getD 1 0).toNat (4 * min n 65537) with
  | (some bs, s) => (some ((upFrom 0 (min n 65537)).map (fun k => numOf ((bs.drop (4 * k)).take 4))), s)
  | (none, s) => (none, s)

/-- INUSE failures: objects of another running launch, a barrier with arrivals (R293). DESIGN CHOICE: what a launch uses are the
objects that its own POOL and BARRIER elements name (log 92). -/
def inUse (s : State) (e : Nat) (p : Placement) : List CfgFail :=
  let k := clusterOf (p.slots.headD 0)
  let others := (activeLaunches s).filter (fun x => x.1 != e)
  (p.img.pools.filter (fun q => others.any (fun x => x.2.image.pools.any (fun y => y.index == q.index)))).map
      (fun q => { off := q.off, code := eINUSE, kind := 9, index := q.index }) ++
    (p.img.barriers.filter (fun b => decide ((tget {} (getCluster s k).barriers b.2.1).arrived ≠ 0) ||
        others.any (fun x => clusterOf (homeCore x.2) == k && x.2.image.barriers.any (fun y => y.2.1 == b.2.1)))).map
      (fun b => { off := b.1, code := eINUSE, kind := 10, index := b.2.1 })

/-- Failures that need the placement: a replica's consumers, and the mappings that its ring needs (R317) where the rings fit. -/
def placedFails (p : Placement) (fits : Bool) : List CfgFail :=
  let at_ := fun (r : Rec) c =>
    ({ off := (p.img.channels[r.ch]?.map (·.off)).getD 0, code := c, kind := 4, index := r.ch } : CfgFail)
  p.lay.bases.flatMap (fun b =>
    let cs := consOf p.img p.seats b.1
    (if 8 < cs.length then [at_ b.1 eROUTE] else []) ++ (if fits && lacksMap p.img b.1 cs then [at_ b.1 eAREA] else []))

/-- Sections of the window whose staged copy cannot be read. -/
def stagedFails (s : State) (die asid : Nat) (secs : List ImgSection) : List CfgFail × State :=
  secs.foldl (fun a x =>
    match lpBytes a.2 die asid x.stage (min x.size 0x80000) with
    | (some _, s) => (a.1, s)
    | (none, s) => (a.1 ++ [{ off := x.off, code := eAREA, kind := 3, index := x.index }], s)) ([], s)

/-- Where the channel area begins, if it is mapped. -/
def areaBase (s : State) (die asid : Nat) (img : Image) : Nat × State :=
  match lpLeaf s die asid img.chanarea with
  | (some e, s) => (leafBase e.pte + img.chanarea % 2 ^ e.log2, s)
  | (none, s) => (0, s)

/-- The physical bases of the channel area and of the macro record, where their spans are mapped (R398). -/
def spansOf (s : State) (die asid : Nat) (p : Placement) : Option (Nat × Nat) × State :=
  let rings := p.lay.hbm
  if p.img.macrec = 0 then
    let m := roundUp rings 65536
    let r := span s die asid p.img.chanarea (m + macroBytes)
    (r.1.map (fun a => (a, a + m)), r.2)
  else
    let a := if rings = 0 then (some 0, s) else span s die asid p.img.chanarea rings
    let m := span a.2 die asid p.img.macrec macroBytes
    (match a.1, m.1 with
     | some a, some m => some (a, m)
     | _, _ => none, m.2)

/-- Whether an element's failure leaves the replicas and rings of the stream undefined: a level, a channel, an actor, a port; not a
privilege, the gains of an actor, or the RATE that a channel lacks. -/
def shapeless (img : Image) (f : CfgFail) : Bool :=
  f.kind == 2 || f.kind == 7 || (f.kind == 6 && f.code != ePRIV && f.code != eSTABILITY) ||
    (f.kind == 4 && !(f.code == eREF && (prodPorts img f.index).length == 1))

/-- The first core on which a limit of R23 or R318 is passed, at the first element that passes it there. -/
def fullAt (s : State) (e : Nat) (p : Placement) : Option CfgFail :=
  let fs := overs p ++ overlaps s e p
  firstFail (fs.filter (fun f => fs.all (fun g => decide (f.core ≤ g.core))))

/-- A launch checked: its placement, or the error record it fails with, that of the first failing element in stream order
(R327). Limits, spans and mappings are judged where the stream's replicas and rings are defined, spans and mappings where the rings
fit too; CAPACITY stands at the element that passes a limit on the first such core (log 40). -/
def checkLaunch (s : State) (e : Nat) : (ErrorRec ⊕ Placement) × State :=
  let l := getLaunch s e
  let err := fun (f : CfgFail) => ({ code := f.code, kind := f.kind, index := f.index, wordoff := f.off, core := f.core } : ErrorRec)
  match streamWords s l with
  | (none, s) => (.inl { code := eAREA, kind := 1 }, s)
  | (some ws, s) =>
    let r := readImage l.drv ws
    let img := r.1
    let p0 := slotList (fenceOf s l.fgen) (img.actors.any (·.dual))
    let sp := tget {} s.dev.spaces l.asid
    let head := (if 65536 < ws.length then [{ off := 0, code := eRANGE, kind := 1 }] else []) ++
      (if p0.isEmpty then [{ off := 0, code := eNOCORE, kind := 1 }] else []) ++
      (if !sp.v || sp.tvec == 0 then [{ off := 0, code := eAREA, kind := 1 }] else [])
    let alone := head ++ r.2.1
    match firstFail (alone.filter (fun f => f.off == 0)) with
    | some f => (.inl (err f), s)
    | none =>
      let die := dieOf (p0.headD 0)
      let x := areaBase s die l.asid img
      let p := placement s img x.1 (fenceOf s l.fgen)
      let shaped := !r.2.2 && !alone.any (shapeless img)
      let full := if shaped then fullAt s e p else none
      let y := if shaped && full.isNone then spansOf x.2 die l.asid p else (some (0, 0), x.2)
      let z := stagedFails y.2 die l.asid (windowSections img)
      let fails := alone ++ (if y.1.isNone then [{ off := 0, code := eAREA, kind := 1 }] else []) ++
        (if shaped then placedFails p full.isNone else []) ++ full.toList ++ z.1 ++ inUse s e p
      match firstFail fails, y.1 with
      | some f, _ => (.inl (err f), z.2)
      | none, some (c, m) => (.inr { p with chanPa := c, macrec := m }, z.2)
      | none, none => (.inl { code := eAREA, kind := 1 }, z.2)

/-! ### What a launch that passes sets up -/

/-- The record of an instance's port: the producer core and number, and the consumer number. -/
def portRecord (p : Placement) (x : Placed × Nat) (k : Nat) (q : ImgPort) : Nat × Nat × Nat :=
  if q.output then
    match p.lay.bases.find? (fun b => b.1.prod == x.1 && b.1.port == k) with
    | some b => (x.1.core, b.1.no, 0)
    | none => (0, 128, 0)
  else
    match p.lay.bases.findSome? (fun b =>
      if b.1.ch = q.ch then
        ((consOf p.img p.seats b.1).findIdx? (fun c => match c with
          | .inst n j i _ => n == x.1.core && j == x.2 && i == k
          | .sink _ => false)).map (fun i => (b.1.prod.core, b.1.no, i))
      else none) with
    | some r => r
    | none => (0, 128, 0)

/-- Offset of an instance's state block in its core's scratchpad (R397). -/
def blockOff (p : Placement) (x : Placed × Nat) : Nat :=
  p.img.spbase * 4096 + blockBytes p.img (p.seats.filter (fun y => y.1.core == x.1.core && decide (y.2 < x.2))) x.1.core

/-- An instance at launch. -/
def newInst (e : Nat) (p : Placement) (x : Placed × Nat) : Inst :=
  let a := actorAt p.img x.1.actor
  { launch := e, actor := x.1.actor, n := x.1.n, kind := if x.1.reserve then .reserve else if x.1.shadow then .shadow else .ordinary
    en := !x.1.reserve, state := if x.1.reserve then 1 else 2, wid := w64 x.1.wid
    block := coreBase x.1.core + blockOff p x, blockSize := a.statesz, baseWeight := a.weight, priv := a.priv
    entry := a.entry, aentry := a.aentry, replayable := a.repl
    ports := a.ports.zipIdx.map (fun q =>
      let r := portRecord p x q.2 q.1
      { output := q.1.output, count := q.1.count, core := r.1, ch := r.2.1, cons := r.2.2 }) }

/-- The other record of an exit channel's pair (R384). -/
def pairOf (p : Placement) (r : Rec) : Option (Nat × Nat) :=
  if isExit p.img r then
    (p.lay.bases.find? (fun b => b.1.ch == r.ch && b.1.prod.n == r.prod.n && b.1.prod.shadow != r.prod.shadow)).map
      (fun b => (b.1.prod.core, b.1.no))
  else none

/-- A channel record at launch. -/
def newChan (s : State) (e : Nat) (p : Placement) (b : Rec × List Nat) : Chan :=
  let r := b.1
  let c := (p.img.channels[r.ch]?).getD { off := 0, pfmt := 15, log2z := 6, log2n := 1 }
  let g := (rateOf p.img r.ch).getD { off := 0, ch := 0, kp := 0, ki := 0, gshift := 0, log2t := 8, imax := 0, sp := 0, w0p := 1
                                      w0c := 1, wmin := 1, wmax := 64 }
  let cs := consOf p.img p.seats r
  let inHbm := (ringCore r cs).isNone
  let base := fun k => (b.2[k]?).map (fun x => if inHbm then p.chanPa + x else x)
  let d := delivFmt p.img r.ch c.pfmt
  { launch := e, chan := r.ch, base := (base 0).getD 0, dbase := (base 1).getD ((base 0).getD 0), cmask := 2 ^ cs.length - 1
    dfmt := d, pfmt := c.pfmt, log2n := c.log2n, log2z := c.log2z
    dlog2z := Nat.log2 (2 ^ c.log2z * fmtWidth d / fmtWidth c.pfmt)
    kp := g.kp, ki := g.ki, gshift := g.gshift, log2t := g.log2t, imax := g.imax, sp := g.sp, w0p := g.w0p, w0c := g.w0c
    wmin := g.wmin, wmax := g.wmax, wp := g.w0p, wc := g.w0c, cycles := s.cycle + 2 ^ g.log2t, period := g.log2t
    pslot := r.pslot, pport := r.port, prod := (((actorAt p.img r.prod.actor).ports[r.port]?).map (·.count)).getD 1
    consumers := cs.map (fun c => match c with | .inst n j k f => some (n, j, k, f) | .sink _ => none)
    sinks := cs.zipIdx.filterMap (fun x => match x.1 with | .sink k => some (x.2, k, 0, 0) | .inst _ _ _ _ => none)
    shadow := pairOf p r, isShadow := r.prod.shadow }

/-- The state block at launch: zero but for INST (R316). -/
def initBlock (s : State) (p : Placement) (x : Placed × Nat) : State :=
  let pa := coreBase x.1.core + blockOff p x
  let w := x.1.n + bit x.1.reserve * 2 ^ 32 + bit x.1.shadow * 2 ^ 33
  storeMem s pa (actorAt p.img x.1.actor).statesz (w * 2 ^ 768)

/-- The local-window sections copied into every core of a launch (R318). -/
def copySections (s : State) (asid : Nat) (p : Placement) : State :=
  (windowSections p.img).foldl (fun s x =>
    (coresOf p.seats).foldl (fun s n =>
      match lpBytes s (dieOf n) asid x.stage x.size with
      | (some bs, s) => storeMem s (coreBase n + (x.va - (windowBase p.img).getD 0)) x.size (numOf bs)
      | (none, s) => s) s) s

/-- The POOL directives (R293). -/
def applyPools (s : State) (asid : Nat) (img : Image) : State :=
  img.pools.foldl (fun s q =>
    let s := setPool s q.index { getPool s q.index with
      base := q.base, asid := asid, npods := q.npods, wmark := q.wmark, timeout := q.timeout, scale := BitVec.ofNat 8 q.scale
      freecnt := 0, freehead := noneIdx, runs := [] }
    donate s q.index q.donfirst q.doncount) s

/-- The BARRIER directives, on the cluster of slot 0 (R293). -/
def applyBarriers (s : State) (p : Placement) : State :=
  let k := clusterOf (p.slots.headD 0)
  p.img.barriers.foldl (fun s b => setBarrier s k b.2.1 { getBarrier s k b.2.1 with count := b.2.2 }) s

/-- Live instances (R36): all but dormant reserve ones. Sink replicas that still expect end-of-stream. -/
def liveCount (p : Placement) : Nat := (p.seats.filter (fun x => !x.1.reserve)).length
def sinkCount (p : Placement) : Nat :=
  (p.lay.bases.flatMap (fun b => (consOf p.img p.seats b.1).filter (fun c => match c with
    | .sink k => decide (((p.img.sinks[k]?).map (·.expect)).getD 0 ≠ 0)
    | .inst _ _ _ _ => false))).length

/-- A launch placed and running. -/
def startLaunch (s : State) (e : Nat) (p : Placement) : State :=
  let cores := coresOf p.seats
  let asid := (getLaunch s e).asid
  let s := modLaunch s e (fun l => { l with
    lstate := 2, image := p.img, slots := p.slots, cores := cores, window := windowBase p.img
    corewin := (p.img.maps.find? (fun m => m.index == 1)).map (·.va), macrec := p.macrec, chanPa := p.chanPa
    chanVa := p.img.chanarea, live := liveCount p, sinksLeft := sinkCount p, cwin := 0, mwin := 0
    windowAt := s.time + 1000000, thresh := s.dev.intensity })
  let s := { s with matrixBusy := tset 0 s.matrixBusy e 0, traffic := tset 0 s.traffic e 0 }
  let s := restartWatch s e
  let s := p.seats.foldl (fun s x => initBlock (setInst s x.1.core x.2 (some (newInst e p x))) p x) s
  let s := p.lay.bases.foldl (fun s b => setChan s b.1.prod.core b.1.no (some (newChan s e p b))) s
  let s := applyBarriers (applyPools (copySections s asid p) asid p.img) p
  cores.foldl (fun s n => (upFrom 0 32).foldl (fun s k => imageTo s e n k) s) s

/-! ### LAUNCH_START -/

/-- Whether a log entry stands before another in the order of the log. -/
def logBefore (s : State) (a b : Nat) : Bool := decide ((a + 64 - s.dev.logWr % 64) % 64 < (b + 64 - s.dev.logWr % 64) % 64)

/-- Whether a waiting launch may start (R19, R39): the first of those that wait; alone, or paired at its append with the
one that runs. -/
def mayStart (s : State) (e : Nat) : Bool :=
  let l := getLaunch s e
  let act := activeLaunches s
  l.lstate == 1 && s.dev.launches.all (fun x => x.1 == e || x.2.lstate != 1 || logBefore s e x.1) &&
    (act.isEmpty || (l.coloc && decide (act.length = 1) && act.all (fun x => x.2.lstate == 2 && x.2.compute != l.compute)))

/-- LAUNCH_START: the launch runs, or fails with its error record and goes on to its stamp. It waits while a sector of its macro
record is being copied, since the images of its slots are written there (R113, R362), while the walker of die 0 has its 64 walks
(R349), and while requests to some plane are held (R388). -/
def launchStart (s : State) (e : Nat) : State :=
  if !mayStart s e || s.mgmt.power.cur == 2 || (s.dev.quiesce && s.dev.dead != 0) ||
      decide (64 ≤ (s.dev.walks.filter (fun k => decide (k.cluster < 4))).length) then s
  else
    match checkLaunch s e with
    | (.inr p, t) => if redirectHeld s.dev p.macrec macroBytes then s else startLaunch t e p
    | (.inl r, s) => modLaunch (failLaunch s e r) e (fun l => { l with lstate := 6 })

def execLaunchStart (launch : Nat) (s : State) : Out := event s (fun s => launchStart s launch)

end Sys2Proof.Machine
end

