-- ==== Sys2Proof/Machine/System.lean ====
section
/-!
DEFINITION. Sys2Proof/Machine/System.lean: the system registers (R166-R169) and the system members (R210-R215).
-/

namespace Sys2Proof.Machine

/-- The word of CWP (R156). -/
def cwpWord (c : Cwp) : W64 := w64 (c.below * 2048 + c.depth * 8 + c.win)
/-- The word of MODE (R167). -/
def modeWord (m : Mode) : W64 := w64 (bit m.intrap * 4 + bit m.psup * 2 + bit m.sup)
/-- The word of CTXID (R167). -/
def ctxidWord (w : StreamId) : W64 := w64 (bit w.ap * 4096 + w.core % 1024 * 4 + w.ctx % 4)

/-- Bits `hi` down to `lo` of a word, the others 0. -/
def keepBits (v : W64) (lo hi : Nat) : W64 := w64 (wbits v lo (hi + 1 - lo) * 2 ^ lo)

/-- What a system register holds, by sel13 (R166). -/
def sysRead (s : State) (sel : Nat) : W64 :=
  let x := curStream s
  let c := curCtx s
  let k := getCore s s.cur.core
  match sel with
  | 0x000 => c.wid
  | 0x001 => c.firecnt
  | 0x002 => ctxidWord s.cur
  | 0x003 => cwpWord x.cwp
  | 0x004 => c.winspill
  | 0x005 => linkOf x
  | 0x008 => zext64 c.fpctl
  | 0x009 => zext64 c.fpflags
  | 0x00A => zext64 c.seed
  | 0x010 => w64 s.cycle
  | 0x011 => w64 s.time
  | 0x018 => w64 (k.tdbase * 4096)
  | 0x019 => w64 (k.tdsize * 4096 + k.tdesz)
  | 0x020 => modeWord x.mode
  | 0x021 => x.trap.cause
  | 0x022 => x.trap.pc
  | 0x023 => x.trap.val
  | 0x024 => x.trap.inst
  | 0x025 => x.trap.vec
  | 0x026 => x.sscra
  | 0x027 => x.sscrb
  | 0x028 => zext64 k.sphash
  | _ => x.ttroot

/-- MMAs of the context that have not completed (R88). -/
def mmaPending (s : State) : Bool :=
  (getCore s s.cur.core).tasks.any (fun t => t.who.core == s.cur.core && t.who.ctx == s.cur.ctx &&
    match t.kind with
    | .mma _ _ _ _ _ | .mmaS _ _ _ _ _ _ => true
    | _ => false)

def isFpflags (f : SysF) : Bool := f.sel13 == 9

def execMfsr (f : SysF) (s : State) : Out :=
  perform s (.mfsr f) { priv := decide (0x21 ≤ f.sel13.toNat), ops := [dstS f.rd] } (fun s _ => do
    if isFpflags f && mmaPending s then waitEx .interlock
    let s ← setReg s f.rd (sysRead s f.sel13.toNat)
    .ok (s, .seq))

/-- Read-only in either mode (R166). -/
def sysReadOnly (sel : Nat) : Bool := sel ≤ 3 || sel == 0x10 || sel == 0x11
/-- Written in supervisor mode only (R166). -/
def sysPrivWrite (sel : Nat) : Bool := sel == 4 || decide (0x20 ≤ sel)

/-- The scratchpad after a change of SPHASH: every row keeps its words in their banks, which the new masks present at
permuted offsets (R50, R51). -/
def rehash (s : State) (n : Nat) (new : BitVec 55) : State :=
  let old := (getCore s n).sphash
  let base := coreBase n
  let move := fun (pa : Nat) =>
    if base ≤ pa ∧ pa < base + 0x80000 then
      let o := pa - base
      let back := bankOf new (o / 256 * 256)
      base + o / 256 * 256 + (bankOf old o ^^^ back) * 8 + o % 8
    else pa
  let kept := s.mem.filter (fun c => !decide (base ≤ c.1 ∧ c.1 < base + 0x80000))
  let moved := s.mem.filter (fun c => decide (base ≤ c.1 ∧ c.1 < base + 0x80000))
  let s := { s with mem := moved.foldl (fun m c => Memory.set s.epoch m (move c.1) c.2) kept }
  modCore s n (fun c => { c with sphash := new })

/-- TDBASE and TDSIZE once the table is empty: the region as it now stands becomes GENERAL (R105). -/
def setRegion (s : State) (base size esz : Nat) (v : W64) : Ex State :=
  if 128 < base + size then trapEx cOPERAND v
  else if !tableEmpty s s.cur.core then waitEx .interlock
  else .ok (modCore s s.cur.core (fun c => { c with tdbase := base, tdsize := size, tdesz := esz, regDir := [] }))

/-- A write of a system register's writable fields (R211). -/
def sysWrite (s : State) (sel : Nat) (v : W64) : Ex State :=
  let k := getCore s s.cur.core
  let st := fun (f : Stream → Stream) => (Except.ok (modCur s f) : Ex State)
  match sel with
  | 0x004 => .ok (modCurCtx s (fun c => { c with winspill := keepBits v 4 47 }))
  | 0x005 => st (fun x => { x with link := tset 0 x.link x.cwp.win v })
  | 0x008 =>
    if 5 ≤ wbits v 0 3 then trapEx cOPERAND v
    else .ok (modCurCtx s (fun c => { c with fpctl := v.setWidth 9 }))
  | 0x009 => if mmaPending s then waitEx .interlock else .ok (modCurCtx s (fun c => { c with fpflags := v.setWidth 5 }))
  | 0x00A => .ok (modCurCtx s (fun c => writeSeed c (v.setWidth 32)))
  | 0x018 => setRegion s (wbits v 12 7) k.tdsize k.tdesz v
  | 0x019 => setRegion s k.tdbase (wbits v 12 8) (wbits v 0 2) v
  | 0x020 => st (fun x => { x with mode := { x.mode with intrap := v.getLsbD 2, psup := v.getLsbD 1 } })
  | 0x021 => st (fun x => { x with trap := { x.trap with cause := keepBits v 0 8 } })
  | 0x022 => st (fun x => { x with trap := { x.trap with pc := keepBits v 2 47 } })
  | 0x023 => st (fun x => { x with trap := { x.trap with val := v } })
  | 0x024 => st (fun x => { x with trap := { x.trap with inst := v } })
  | 0x025 => st (fun x => { x with trap := { x.trap with vec := keepBits v 2 47 } })
  | 0x026 => st (fun x => { x with sscra := v })
  | 0x027 => st (fun x => { x with sscrb := v })
  | 0x028 => .ok (rehash s s.cur.core (v.setWidth 55))
  | 0x029 => st (fun x => { x with ttroot := keepBits v 0 51 })
  | _ => .ok s

/-- The read of rs1 waits; no w bit governs it (R160, R211). -/
def execMtsr (f : SysF) (s : State) : Out :=
  let sel := f.sel13.toNat
  perform s (.mtsr f) { priv := sysPrivWrite sel, ops := [srcS 1 f.rs1 false] } (fun s v => do
    if sysReadOnly sel then trapEx cOPERAND (zext64 f.sel13)
    let s ← sysWrite s sel (sval v 0)
    .ok (s, .seq))

def execTrap (f : I12F) (s : State) : Out :=
  perform s (.trap f) {} (fun _ _ => trapEx cTRAP (zext64 f.imm12))

def execEret (f : R3F) (s : State) : Out :=
  perform s (.eret f) { priv := true } (fun s _ =>
    .ok (modCur s trapReturn, .transfer (curStream s).trap.pc))

def execNop (f : R3F) (s : State) : Out := perform s (.nop f) {} (fun s _ => .ok (s, .seq))

/-- HALT (R215): the stream goes past it and stops; event 0x06 reports it (R334). -/
def execHalt (f : R3F) (s : State) : Out :=
  perform s (.halt f) { priv := true } (fun s _ =>
    let pc := (curStream s).pc
    let stop := fun (x : Stream) => if x.run = .running then { x with run := .halted } else x
    let s := modStream (modStream s { s.cur with ap := false } stop) { s.cur with ap := true } stop
    .ok (driverEvent s 6 s.cur.core s.cur.ctx (curLaunch s) pc 0, .seq))

end Sys2Proof.Machine
end

