-- ==== Sys2Proof/Machine/Save.lean ====
section
/-!
DEFINITION. Sys2Proof/Machine/Save.lean: a core's save area (R355, R357, R359): what a pre-emption writes there, and what a resume
takes back from it (R358). Where R357 names a part and gives no inner layout, the layout is the model's (log 20).
-/

namespace Sys2Proof.Machine

/-! ### Bytes of an area -/

/-- A range of a core's window replaced: the rules of a write for poison, scrubber and monitors with it. -/
def putBytes (s : State) (pa : Nat) (bs : List Byte) : State :=
  hitMonitors (spoil { s with mem := Memory.put s.epoch s.mem pa bs } pa bs.length) pa bs.length

/-- A range of a save area written, each 4 KiB sector to the page that holds it (R362), with the entries of the tiles there (R104). -/
def putArea (s : State) (pa : Nat) (bs : List Byte) : State :=
  let one := fun (s : State) (a : Nat) (bs : List Byte) => touchTiles (putBytes s (homePa s a) bs) a bs.length
  if s.dev.migrations.any (fun m => m.2.act) then
    (upFrom 0 ((pa + bs.length - 1) / 4096 + 1 - pa / 4096)).foldl (fun s k =>
      let lo := max pa ((pa / 4096 + k) * 4096)
      let hi := min (pa + bs.length) ((pa / 4096 + k + 1) * 4096)
      one s lo ((bs.drop (lo - pa)).take (hi - lo))) s
  else one s pa bs

/-- A range of a core window copied into a save area. -/
def copyRange (s : State) (src dst n : Nat) : State := putArea s dst (Memory.slice s.epoch s.mem src n)

/-- `n` bytes of a save area, whichever page holds each sector (R362). -/
def areaBytes (s : State) (pa n : Nat) : List Byte :=
  if s.dev.migrations.any (fun m => m.2.act) then
    (upFrom 0 ((n + 4095) / 4096)).flatMap (fun k => Memory.slice s.epoch s.mem (homePa s (pa + 4096 * k)) (min 4096 (n - 4096 * k)))
  else Memory.slice s.epoch s.mem pa n

/-- `n` free words (log 26). -/
def freeWords (s : State) (n : Nat) : List Nat × State :=
  ((upFrom s.openCnt n).map (fun k => (Config.freeWord k).toNat), { s with openCnt := s.openCnt + n })

/-- A block of words at 8-byte steps. -/
def putWords (s : State) (pa : Nat) (ws : List Nat) : State := putArea s pa (ws.flatMap (bytesOf 8))

/-- A block of words that an act leaves undefined (log 26). -/
def putFree (s : State) (pa n : Nat) : State :=
  let r := freeWords s n
  putWords r.2 pa r.1

/-- Bytes as little-endian words. -/
def wordList (bs : List Byte) : List Nat :=
  match bs with
  | a :: b :: c :: d :: e :: f :: g :: h :: r => numOf [a, b, c, d, e, f, g, h] :: wordList r
  | [] => []
  | r => [numOf r]

/-- `n` words at a byte offset of an area's words. -/
def wordsAt (area : List Nat) (o n : Nat) : List Nat := (area.drop (o / 8)).take n

/-- The words of the views of `n` bytes at an address. -/
def viewWords (s : State) (pa n : Nat) : List Nat := (upFrom 0 (n / 8)).map (fun k => viewWord s (place (pa + 8 * k)) (pa + 8 * k))

/-- The area of a core (R355). -/
def areaOf (s : State) (n : Nat) : Nat := (getCore s n).psave * 2 ^ 20

/-- The contexts of a core that run a firing of a launch. -/
def ctxsIn (s : State) (e n : Nat) : List Nat := (upFrom 0 4).filter (fun c => (getCtx s n c).firing.any (fun f => f.launch == e))

/-! ### Channel records, instances (R123, R30, R124) -/

/-- A channel record with the words of its view put back, but for its counts and its codebook, which commits and releases move
while the core is stopped (R129, R290). -/
def chanFrom (w : List Nat) (c : Chan) : Chan :=
  let at_ := fun k lo len => nbits (w.getD k 0) lo len
  { c with
    base := w.getD 0 0, cmask := at_ 1 48 8, dfmt := at_ 1 44 4, pfmt := at_ 1 40 4, log2n := at_ 1 36 4, log2z := at_ 1 32 4
    dbase := w.getD 2 0
    kp := at_ 8 48 16, ki := at_ 8 32 16, gshift := at_ 8 28 4, log2t := if at_ 8 24 4 = 0 then 16 else at_ 8 24 4, imax := at_ 8 0 24
    sp := at_ 9 32 13, w0p := at_ 9 24 8, w0c := at_ 9 16 8, wmin := at_ 9 8 8, wmax := at_ 9 0 8
    integ := toSigned 32 (at_ 10 32 32), wp := at_ 10 24 8, wc := at_ 10 16 8, lasto := at_ 10 0 16
    rej := (w.getD 11 0).testBit 4, unal := (w.getD 11 0).testBit 3, frozen := (w.getD 11 0).testBit 0 }

/-- An instance's part of the area: its record's words, the codebook image, the credit. -/
def instSave (s : State) (n k : Nat) (i : Inst) : List Nat :=
  [instWord s n k i 0, instWord s n k i 8] ++ (upFrom 0 4).map (fun q => wbits i.cbimg (64 * q) 64) ++ [fromSigned 64 i.credit]

/-- An instance with its part put back; a permitted one waits for permission again. -/
def instFrom (w : List Nat) (i : Inst) : Inst :=
  let st := nbits (w.getD 1 0) 0 4
  { i with
    en := (w.getD 0 0).testBit 0, state := if st = 3 then 2 else st, ctx := nbits (w.getD 1 0) 16 8, firecnt := nbits (w.getD 1 0) 32 32
    cbimg := BitVec.ofNat 256 (packNat 64 ((w.drop 2).take 4)), credit := toSigned 64 (w.getD 6 0) }

/-! ### Copies (R359) -/

/-- A copy save record. -/
def copySave (c : Copy) : List Nat :=
  (upFrom 0 6).map (fun k => copyWord c (8 * k)) ++ [c.next, bit c.pfault, c.desc.src.toNat, c.desc.dst.toNat, c.desc.stamp.toNat,
    c.desc.ctl.toNat, c.desc.seq.toNat] ++ c.desc.rest.map BitVec.toNat ++ c.desc.levels.map BitVec.toNat

/-- A copy with its record put back: it goes on from its next sector, translated afresh. -/
def copyFrom (w : List Nat) (c : Copy) : Copy :=
  let next := w.getD 6 0
  { c with
    gen := nbits (w.getD 0 0) 8 32, prio := nbits (w.getD 0 0) 6 2, nsec := nbits (w.getD 1 0) 32 32, secdone := nbits (w.getD 1 0) 0 32
    fault := w64 (w.getD 2 0), cause := w.getD 3 0, seq := w64 (w.getD 4 0), stampva := w64 (w.getD 5 0)
    next := next, desc := CopyDesc.ofWords ((w.drop 8).take 16 |>.map w64), state := if next = 0 then 1 else 2
    pfault := false, suspend := false, stampFault := false }

/-! ### Contexts (R47, R164, R166) -/

/-- The system registers held per context, in sel13 order (R166). -/
def savedSels : List Nat :=
  [0x000, 0x001, 0x002, 0x003, 0x004, 0x005, 0x008, 0x009, 0x00A, 0x010, 0x011, 0x018, 0x019, 0x020, 0x021, 0x022, 0x023, 0x024, 0x025,
   0x026, 0x027, 0x028, 0x029]
def sysWords (s : State) (w : StreamId) : List Nat := savedSels.map (fun k => (sysRead { s with cur := w } k).toNat)

/-- A stream's system registers put back. -/
def streamFrom (w : List Nat) (x : Stream) : Stream :=
  let at_ := fun k => w64 (w.getD k 0)
  { x with
    cwp := { win := nbits (w.getD 3 0) 0 3, depth := nbits (w.getD 3 0) 3 8, below := nbits (w.getD 3 0) 11 4 }
    mode := { sup := (w.getD 13 0).testBit 0, psup := (w.getD 13 0).testBit 1, intrap := (w.getD 13 0).testBit 2 }
    trap := { cause := at_ 14, pc := at_ 15, val := at_ 16, inst := at_ 17, vec := at_ 18 }
    sscra := at_ 19, sscrb := at_ 20, ttroot := at_ 22 }

/-- A context's system registers put back. -/
def ctxFrom (w : List Nat) (c : Ctx) : Ctx :=
  { c with
    wid := w64 (w.getD 0 0), firecnt := w64 (w.getD 1 0), winspill := w64 (w.getD 4 0), fpctl := BitVec.ofNat 9 (w.getD 6 0)
    fpflags := BitVec.ofNat 5 (w.getD 7 0), seed := w32 (w.getD 8 0) }

/-- A stream's registers put back from the words of its scalar block and its vector registers. -/
def regsFrom (w : List Nat) (vs : List VReg) (vfull : Nat) (x : Stream) : Stream :=
  let at_ := fun o => w64 (w.getD (o / 8) 0)
  let tab := fun (n base : Nat) => (upFrom 0 n).foldl (fun t k => tset 0 t k (at_ (base + 8 * k))) ([] : Tbl W64)
  { x with
    sreg := (upFrom 1 135).foldl (fun t p => tset 0 t p (if p < 8 then at_ (8 * p) else at_ (0x100 + 8 * (p - 8)))) []
    sfull := BitVec.ofNat 136 (packNat 64 ((upFrom 0 3).map (fun k => (at_ (0x800 + 8 * k)).toNat))) ||| 1#136
    preg := (upFrom 1 7).foldl (fun t k => tset 0 t k (at_ (0x900 + 8 * k))) []
    lc := (upFrom 0 4).foldl (fun t k => tset 0 t k (w32 (at_ (0x940 + 8 * k)).toNat)) []
    link := tab 8 0x980
    vreg := vs.zipIdx.foldl (fun t v => tset 0 t v.2 v.1) []
    vfull := BitVec.ofNat 32 vfull }

/-- Words cut or filled up to a number of them. -/
def padded (m : Nat) (ws : List Nat) : List Nat := (ws ++ List.replicate m 0).take m

/-- Loop levels: their number, and four words for each of four. -/
def levelWords (ls : List Level) : List Nat :=
  ls.length :: padded 16 (ls.flatMap (fun l => [l.k, l.s.toNat, l.e.toNat, l.dtag * 2 + bit l.itag]))
def levelsFrom (w : List Nat) : List Level :=
  (upFrom 0 (min 4 (w.headD 0))).map (fun j =>
    let x := fun k => w.getD (1 + 4 * j + k) 0
    { k := x 0, s := w64 (x 1), e := w64 (x 2), dtag := x 3 / 2, itag := (x 3).testBit 0 })

/-- The state of a context for which R357 gives no inner layout: the boundary, loop levels, monitor, spill buffers, lane
generators. -/
def innerWords (s : State) (n c : Nat) : List Nat :=
  let x := viewStream s n c
  let k := getCtx s n c
  [x.pc.toNat] ++ levelWords x.levels ++
    [bit x.monitor.armed * 4 + bit x.monitor.placed * 2 + bit x.monitor.hit, x.monitor.pa, x.monitor.va, x.monitor.dev] ++
    padded 36 (k.spills.flatMap (fun b => b.regs.map BitVec.toNat ++ [b.full.toNat, b.link.toNat])) ++
    (upFrom 0 32).map (fun j => (laneGen k (2 * j)).toNat + 2 ^ 32 * (laneGen k (2 * j + 1)).toNat)

/-- A monitor put back: it stayed at its home, and what has hit it since counts (R248, R356). -/
def monitorFrom (w : List Nat) (m : Monitor) : Monitor :=
  let b := fun k => (w.getD 0 0).testBit k
  { armed := b 2, placed := b 1, hit := b 0 || m.hit, pa := w.getD 1 0, va := w.getD 2 0, dev := w.getD 3 0 }

/-- The boundary, loop levels and monitor of a CP stream put back, and the spill buffers and lane generators of its context. -/
def innerStream (w : List Nat) (x : Stream) : Stream :=
  { x with pc := w64 (w.headD 0), levels := levelsFrom (w.drop 1), monitor := monitorFrom (w.drop 18) x.monitor }
def innerCtx (w : List Nat) (c : Ctx) : Ctx :=
  let c := { c with spills := c.spills.zipIdx.map (fun b =>
    let x := (w.drop (22 + 18 * b.2)).take 18
    { b.1 with regs := (x.take 16).map w64, full := BitVec.ofNat 16 (x.getD 16 0), link := w64 (x.getD 17 0) }) }
  (upFrom 0 64).foldl (fun c k => setLaneGen c k (w32 (nbits (w.getD (58 + k / 2) 0) (32 * (k % 2)) 32))) c

/-- Words of an entry of a queue. -/
def queueEntryWords (q : Nat) : Nat := if q < 4 then 1 else 32

/-- The queues of a context: eight counts, then the entries. -/
def queueWords (k : Ctx) : List Nat :=
  (upFrom 0 8).map (fun q => (tget [] k.queues q).length) ++
    (upFrom 0 8).flatMap (fun q => (tget [] k.queues q).flatMap (fun v => (upFrom 0 (queueEntryWords q)).map (fun j => wbits v (64 * j) 64)))

/-- The queues put back. -/
def queuesFrom (w : List Nat) : Tbl (List VReg) :=
  ((upFrom 0 8).foldl (fun (r : Tbl (List VReg) × List Nat) q =>
    let n := w.getD q 0
    let z := queueEntryWords q
    (tset [] r.1 q ((upFrom 0 (min n (queueDepth q))).map (fun j => BitVec.ofNat 2048 (packNat 64 ((r.2.drop (j * z)).take z)))), r.2.drop (n * z)))
    (([], w.drop 8) : Tbl (List VReg) × List Nat)).1

/-- An AP stream's set (R165): its boundary, system and scalar registers, full bits, predicates, counters, links, and v0-v7. -/
def apWords (s : State) (n c : Nat) : List Nat :=
  let w : StreamId := { core := n, ctx := c, ap := true }
  let x := getStream s w
  [x.pc.toNat] ++ sysWords s w ++ (upFrom 0 136).map (fun p => (sget x p).toNat) ++ (upFrom 0 3).map (fun k => wbits x.sfull (64 * k) 64) ++
    (upFrom 0 8).map (fun p => (pget x p).toNat) ++ (upFrom 0 4).map (fun k => (tget 0 x.lc k).toNat) ++
    (upFrom 0 8).map (fun k => (tget 0 x.link k).toNat) ++ [x.vfull.toNat] ++
    (upFrom 0 8).flatMap (fun v => (upFrom 0 32).map (fun j => wbits (vget x v) (64 * j) 64))

/-- That set put back. -/
def apFrom (w : List Nat) (x : Stream) : Stream :=
  let at_ := fun (base k : Nat) => w64 (w.getD (1 + savedSels.length + base + k) 0)
  let tab := fun (n m base : Nat) => (upFrom n m).foldl (fun t k => tset 0 t k (at_ base k)) ([] : Tbl W64)
  let y := streamFrom (w.drop 1) x
  { y with
    pc := w64 (w.headD 0), sreg := tab 1 135 0
    sfull := BitVec.ofNat 136 (packNat 64 ((upFrom 0 3).map (fun k => (at_ 136 k).toNat))) ||| 1#136
    preg := tab 1 7 139, lc := (upFrom 0 4).foldl (fun t k => tset 0 t k (w32 (at_ 147 k).toNat)) [], link := tab 0 8 151
    vfull := BitVec.ofNat 32 (at_ 159 0).toNat
    vreg := (upFrom 0 8).foldl (fun t v =>
      tset 0 t v (BitVec.ofNat 2048 (packNat 64 ((upFrom 0 32).map (fun j => (at_ 160 (32 * v + j)).toNat))))) y.vreg }

/-- A held window write (R48): its context and register, and its data. -/
def heldBytes (h : HeldWrite) : List Byte := bytesOf 8 h.ctx ++ bytesOf 8 h.reg ++ bytesOf 256 h.data.toNat

/-- A tile as two words, and a waiting task as eight (R111). -/
def tileWords (t : Tile) : List Nat :=
  match t with
  | .acc d => [1, d]
  | .mslot k => [2, k]
  | .mem pa n => [n, pa]
def taskWords (t : Task) : List Nat :=
  let pad := fun (ws : List Nat) => ([t.who.ctx * 2 + bit t.who.ap] ++ ws ++ List.replicate 8 0).take 8
  match t.kind with
  | .mldb k fmt src sc _ => pad [1, k, fmt, src.pa, (sc.map (·.pa)).getD 0]
  | .mldm k src => pad [2, k, src.pa]
  | .mma d k fmt a sc => pad [3, d, k, fmt, a.pa, (sc.map (·.pa)).getD 0]
  | .mmaS d k fmt wide a sc => pad [4 + bit wide, d, k, fmt, a.pa, (sc.map (·.pa)).getD 0]
  | .mclr d => pad [6, d]
  | .mrd d r => pad [7, d, r]
  | .tdclass x => pad (8 :: tileWords x)
  | .mtest k => pad [9, k]

/-- One context written to its part of an area. -/
def saveCtx (s : State) (e n b c : Nat) : State :=
  let x := viewStream s n c
  let s := putWords s b (viewWords s (coreBase n + 0xB1000 + c * 0x1000) 0x1000)
  let s := (upFrom 0 32).foldl (fun s v => putArea s (b + 0x1000 + v * 256) (bytesOf 256 (vget x v).toNat)) s
  let s := putWords s (b + 0x3000) [x.vfull.toNat]
  let s := putWords s (b + 0x3040) (sysWords s { core := n, ctx := c, ap := false })
  let s := putWords s (b + 0x3100) (innerWords s n c)
  let s := putWords s (b + 0x3400) [if (ctxsIn s e n).contains c then 0x15 else 0]
  let s := putWords s (b + 0x4000) (queueWords (getCtx s n c))
  putWords s (b + 0x7000) (apWords s n c)

/-- A context of the launch taken back from its part of an area. -/
def restoreCtx (s : State) (area : List Nat) (n b c : Nat) : State :=
  let w := wordsAt area b 512
  let vs := (upFrom 0 32).map (fun v => BitVec.ofNat 2048 (packNat 64 (wordsAt area (b + 0x1000 + v * 256) 32)))
  let y := wordsAt area (b + 0x3040) savedSels.length
  let z := wordsAt area (b + 0x3100) 96
  let s := modStream s { core := n, ctx := c, ap := false } (fun x =>
    innerStream z (streamFrom y (regsFrom w vs ((wordsAt area (b + 0x3000) 1).headD 0) x)))
  let s := modStream s { core := n, ctx := c, ap := true } (fun x => if x.run == .idle then x else apFrom (wordsAt area (b + 0x7000) 512) x)
  modCtx s n c (fun k => innerCtx z (ctxFrom y { k with
    cb := BitVec.ofNat 256 (packNat 64 ((w.drop (0x960 / 8)).take 4)), queues := queuesFrom (wordsAt area (b + 0x4000) 1536) }))

/-! ### The matrix engine's part -/

/-- The entries of the directory view but for its counters (R107), then TDBASE and TDSIZE as R105 lays them out. -/
def directorySave (s : State) (n : Nat) : List Nat :=
  (upFrom 0 0x600).map (fun k => directoryWord s n (8 * k)) ++ [(getCore s n).tdbase * 4096, (getCore s n).tdsize * 4096 + (getCore s n).tdesz]

def dirFrom (w : Nat) : DirEntry := { nf := w.testBit 2, cls := BitVec.ofNat 2 w, side := w32 (w / 2 ^ 32) }

/-- The region and every entry put back; `rs` are the parts of the scratchpad that are put back. A tile of the region that lies in
none of them keeps the entry it has, and one that lies in them in part takes the bytes put back as stores (R104). -/
def restoreDirectory (s : State) (n : Nat) (w : List Nat) (rs : List (Nat × Nat)) : State :=
  let base := nbits (w.getD 0x600 0) 12 7
  let size := nbits (w.getD 0x601 0) 12 8
  let esz := nbits (w.getD 0x601 0) 0 2
  let z := tileBytes esz
  let at_ := fun (t : Nat) => base * 4096 + t * z
  let whole := fun (t : Nat) => rs.any (fun r => decide (r.1 ≤ at_ t ∧ at_ t + z ≤ r.1 + r.2))
  let k := getCore s n
  let same := k.tdbase == base && k.tdsize == size && k.tdesz == esz
  let ts := upFrom 0 (min 0x5C0 (size * 4096 / z))
  let tab := fun (d : DirEntry) (from_ k : Nat) => (upFrom 0 k).foldl (fun t j => tset d t j (dirFrom (w.getD (from_ + j) 0))) ([] : Tbl DirEntry)
  let s := modCore s n (fun c => { c with
    accDir := tab .general 0 32, slotDir := tab .zero 32 32
    regDir := ts.foldl (fun d t => tset .general d t (if whole t then dirFrom (w.getD (64 + t) 0) else if same then tget .general k.regDir t else .general)) []
    tdbase := base, tdsize := size, tdesz := esz, rowBufs := [] })
  (ts.filter (fun t => !whole t)).foldl (fun s t => rs.foldl (fun s r =>
    let lo := max r.1 (at_ t)
    let hi := min (r.1 + r.2) (at_ t + z)
    if lo < hi then touchTiles s (coreBase n + lo) (hi - lo) else s) s) s

/-! ### Saving and restoring a core -/

/-- Whether another launch is saved in the area of a core: its parts stay as they are (R39). -/
def areaShared (s : State) (e n : Nat) : Bool := s.dev.launches.any (fun x => x.1 != e && savedOn s x.1 n)

/-- The contexts of a core that are saved there once `e` is (R39). -/
def savedCtxs (s : State) (e n : Nat) : List Nat := (upFrom 0 4).filter (fun c => (ctxsIn s e n).contains c || ctxSaved s n c)

/-- Tasks in the order of a table. -/
def byId (ts : List Task) : List Task :=
  ts.foldl (fun l t => l.takeWhile (fun x => decide (x.id < t.id)) ++ t :: l.dropWhile (fun x => decide (x.id < t.id))) []

/-- The state of a launch on a core written to the core's area: its own records, and for every launch saved there the held writes and
the waiting tasks. -/
def saveCore (s : State) (e n : Nat) : State :=
  let a := areaOf s n
  let k := getCore s n
  let s := if areaShared s e n then s else putFree s a 0x10000
  let s := putWords s a [e]
  let s := (upFrom 0 128).foldl (fun s j =>
    match getChan s n j with
    | some c => if c.launch = e then putArea s (a + 0x40 + 4 * j) (bytesOf 4 (2 ^ c.period - c.cycles)) else s
    | none => s) s
  let s := (upFrom 0 128).foldl (fun s j =>
    match getChan s n j with
    | some c => if c.launch = e then putWords s (a + 0x1000 + j * 0x80) ((upFrom 0 16).map (fun o => chanWord c (8 * o))) else s
    | none => s) s
  let s := (upFrom 0 64).foldl (fun s j =>
    match getInst s n j with
    | some i => if i.launch = e then putWords s (a + 0x5000 + j * 0x80) (instSave s n j i) else s
    | none => s) s
  let held := savedCtxs s e n
  let s := putArea s (a + 0x7000) ((k.heldWrites.filter (fun h => held.contains h.ctx)).flatMap heldBytes)
  let s := putWords s (a + 0xB400) ((byId k.savedTasks).flatMap taskWords)
  let s := k.copies.foldl (fun s c =>
    if c.2.launch = e ∧ copyLive c.2 then putWords s (a + 0x10000 + c.1 * 0x100) ((copySave c.2 ++ List.replicate 32 0).take 32) else s) s
  let s := ((upFrom 0 4).filter (fun c => !ctxSaved s n c)).foldl (fun s c => saveCtx s e n (a + 0x18000 + c * 0x8000) c) s
  let s := copyRange s (coreBase n + 0xA0000) (a + 0x38000) 0x11000
  let s := copyRange s (coreBase n + 0x80000) (a + 0x50000) 0x20000
  let s := putWords s (a + 0x70000) (directorySave s n)
  countBursts (copyRange s (coreBase n) (a + 0x80000) 0x80000) a 0x100000

/-- The held writes of contexts with their data put back, in their order: the area's entries name their contexts. -/
def heldFrom (area : List Nat) (mine : List Nat) (hs : List HeldWrite) : List HeldWrite :=
  let at_ := fun (j : Nat) => wordsAt area (0x7000 + j * 0x110) 34
  let js := (upFrom 0 64).filter (fun j => mine.contains ((at_ j).headD 4))
  (hs.foldl (fun (r : List HeldWrite × List Nat) h =>
    match mine.contains h.ctx, r.2 with
    | true, j :: js => (r.1 ++ [{ h with data := BitVec.ofNat 2048 (packNat 64 ((at_ j).drop 2)) }], js)
    | _, js => (r.1 ++ [h], js)) ([], js)).1

/-- Stretches without a stretch. -/
def cutRange (a n : Nat) (rs : List (Nat × Nat)) : List (Nat × Nat) :=
  rs.flatMap (fun r =>
    if rangesMeet a n r.1 r.2 then
      (if r.1 < a then [(r.1, a - r.1)] else []) ++ (if a + n < r.1 + r.2 then [(a + n, r.1 + r.2 - (a + n))] else [])
    else [r])

/-- The parts of a scratchpad that a resume puts back: all of it but the rings there, into which other cores' tokens go on, or
what the launch loads and reserves where it shares the core (log 20). -/
def restoredRanges (s : State) (e n : Nat) : List (Nat × Nat) :=
  let all := if s.dev.launches.any (fun x => x.1 != e && holdsCore x.2 n) then loadedRanges (getLaunch s e).image else [(0, 0x80000)]
  (ringsIn s n).foldl (fun rs g => cutRange (g.1 - coreBase n) g.2 rs) all

/-- The state of a launch on a core taken back from the core's area, at cycle `now`. -/
def restoreCore (s : State) (e n : Nat) : State :=
  let a := areaOf s n
  let now := s.cycle
  let mine := ctxsIn s e n
  let s := countBursts s a 0x100000
  let area := wordList (areaBytes s a 0x80000)
  let s := modCore s n (fun k => { k with
    chans := k.chans.map (fun x => (x.1, x.2.map (fun c =>
      if c.launch = e then
        let c := chanFrom (wordsAt area (0x1000 + x.1 * 0x80) 16) c
        { c with cycles := now + (2 ^ c.period - nbits ((wordsAt area (0x40 + 4 * x.1) 1).headD 0) (32 * (x.1 % 2)) 32) }
      else c)))
    insts := k.insts.map (fun x => (x.1, x.2.map (fun i => if i.launch = e then instFrom (wordsAt area (0x5000 + x.1 * 0x80) 7) i else i)))
    copies := k.copies.map (fun x => (x.1, if x.2.launch = e ∧ copyLive x.2 then copyFrom (wordsAt area (0x10000 + x.1 * 0x100) 24) x.2 else x.2))
    heldWrites := heldFrom area mine k.heldWrites })
  let s := mine.foldl (fun s c => restoreCtx s area n (0x18000 + c * 0x8000) c) s
  let s := match mine with
    | [] => s
    | c :: _ =>
      let h := BitVec.ofNat 55 ((wordsAt area (0x18000 + c * 0x8000 + 0x3040) savedSels.length).getD 21 0)
      if h = (getCore s n).sphash then s else rehash s n h
  let s := putBytes s (coreBase n + 0xA0000) (areaBytes s (a + 0x38000) 0x10A00)
  let s := putBytes s (coreBase n + 0x80000) (areaBytes s (a + 0x50000) 0x20000)
  let pad := areaBytes s (a + 0x80000) 0x80000
  let rs := restoredRanges s e n
  let s := rs.foldl (fun s r => putBytes s (coreBase n + r.1) ((pad.drop r.1).take r.2)) s
  let s := restoreDirectory s n (wordsAt area 0x70000 0x602) rs
  (upFrom 0 32).foldl (fun s k => imageSlot s n k) s

end Sys2Proof.Machine
end

