-- ==== Sys2Proof/Machine/Ending.lean ====
section
/-!
DEFINITION. Sys2Proof/Machine/Ending.lean: the end of a launch but for its stamp (R36, R38, R360), pre-emption and
resume (R353, R355, R356, R358).
-/

namespace Sys2Proof.Machine

/-! ### What a launch still has under way -/

/-- Requests of a launch not yet performed, and its fibre operations. -/
def launchTraffic (s : State) (e : Nat) : Bool :=
  s.reqs.any (fun r => r.launch == e && !r.todo.isEmpty) || s.freqs.any (fun f => f.launch == e && f.held == .no)

/-- Firings, live copies, tasks, records and held fibre operations of a launch. -/
def launchWorks (s : State) (e : Nat) : Bool :=
  s.cores.any (fun x =>
    x.2.ctxs.any (fun c => c.2.firing.any (fun f => f.launch == e)) ||
      x.2.copies.any (fun c => c.2.launch == e && copyLive c.2) ||
      x.2.tasks.any (fun t => t.launch == e) || x.2.savedTasks.any (fun t => t.launch == e) || x.2.records.any (fun r => r.1 == e)) ||
    s.freqs.any (fun f => f.launch == e)

/-! ### Kill (R360, R282, R111, R290, R394) -/

/-- Every context of a launch emptied, with the window writes held for it. -/
def clearContexts (s : State) (e : Nat) : State :=
  s.cores.foldl (fun s x => x.2.ctxs.foldl (fun s c =>
    if c.2.firing.any (fun f => f.launch == e) then clearCtx s x.1 c.1 else s) s) s

/-- The launch's live copies end in STATE 7 with CAUSE 3; their issued sectors are dropped. -/
def killCopies (s : State) (e : Nat) : State :=
  let s := { s with reqs := s.reqs.filter (fun r => match r.kind with
    | .sector g k _ | .regWrite g k _ => (getCopy s g k).launch != e
    | _ => true) }
  { s with cores := s.cores.map (fun (x : Nat × Core) => (x.1, { x.2 with
      copies := x.2.copies.map (fun (c : Nat × Copy) => (c.1,
        if c.2.launch = e ∧ copyLive c.2 then { c.2 with state := 7, cause := 3 } else c.2))
      records := x.2.records.filter (fun r => r.1 != e) })) }

/-- Its tasks, and its commits and releases that have not taken effect, are dropped. -/
def killTables (s : State) (e : Nat) : State :=
  let of := fun (n k : Nat) => (getChan s n k).any (fun c => c.launch == e)
  { s with cores := s.cores.map (fun (x : Nat × Core) => (x.1, { x.2 with
      tasks := x.2.tasks.filter (fun t => t.launch != e), savedTasks := x.2.savedTasks.filter (fun t => t.launch != e)
      commits := x.2.commits.filter (fun c => !of c.core c.ch)
      releases := x.2.releases.filter (fun c => !of c.core c.ch) })) }

/-- Homes drop the launch's parked and stalled operations, and its scans and unions are aborted. -/
def killFibres (s : State) (e : Nat) : State :=
  let goes := fun (f : FReq) => f.launch == e && (f.held != .no || isScan f.op || isUnion f.op)
  let s := s.freqs.foldl (fun s f => if goes f && parkedAt f then modPool s (poolOfHdr s f.hdr) (fun p => { p with parked := false }) else s) s
  { s with freqs := s.freqs.filter (fun f => !goes f) }

/-- Its snapshot is abandoned (R394). -/
def killSnapshot (s : State) (e : Nat) : State :=
  let s := modInsts (modLaunch s e (fun l => { l with snap := { l.snap with cur := 0 } })) e (fun i => { i with inject := false })
  modMgmt s (fun m => { m with sessions := m.sessions.map (fun (x : Nat × Option Session) =>
    (x.1, x.2.map (fun y => { y with snapdata := y.snapdata.filter (fun d => d.launch != e) }))) })

/-- A launch stopped where it stands; its stamp follows once what it has sent is performed. -/
def abortLaunch (s : State) (e : Nat) : State :=
  let s := killSnapshot (killFibres (killTables (killCopies (clearContexts s e) e) e) e) e
  modLaunch s e (fun l => { l with lstate := 6, heldCores := [], toSave := [] })

/-- LCTL_KILL. -/
def killLaunch (s : State) (e : Nat) (drv : Bool) : State :=
  let l := getLaunch s e
  if drv ∧ 1 ≤ l.lstate ∧ l.lstate ≤ 5 then abortLaunch (failLaunch s e { code := 0x16 }) e else s

/-! ### Completion (R36, R38) -/

/-- The key of a launch's image in the class tables: its stream's address in its address space. -/
def imageKey (asid stream : Nat) : Nat := asid * 2 ^ 48 + stream

/-- The image's entry takes the majority class of the run, ties compute-bound (R38). -/
def classUpdate (s : State) (e : Nat) : State :=
  let l := getLaunch s e
  let k := imageKey l.asid (l.packet.getD 1 0).toNat
  (upFrom 0 4).foldl (fun s d => modDie s d (fun x => { x with classes := tset 0 x.classes k (if l.mwin ≤ l.cwin then 2 else 1) })) s

/-- Whether a launch has come to its end (R36). -/
def launchDone (l : Launch) : Bool :=
  l.lstate == 2 && !l.failed && l.snap.cur == 0 && (if l.image.sinks.isEmpty then l.live == 0 else l.sinksLeft == 0)

/-- LAUNCH_COMPLETION: a launch at its end, or a failed one, goes on to its stamp. -/
def launchCompletion (s : State) (e : Nat) : State :=
  let l := getLaunch s e
  if l.failed ∧ 2 ≤ l.lstate ∧ l.lstate ≤ 5 then abortLaunch s e
  else if launchDone l then modLaunch (classUpdate s e) e (fun l => { l with lstate := 6 })
  else s

/-- A window of `cycles` matrix cycles and `bytes` bytes is compute-bound under a threshold (R38). -/
def computeBound (thresh cycles bytes : Nat) : Bool := bytes == 0 || decide (thresh * bytes < cycles * 65536)

/-- INTENSITY_WINDOW: a window of a running launch that has come to its end is classified, and the next begins under the threshold
as it then stands (R38). -/
def intensityWindow (s : State) (e : Nat) : State :=
  let l := getLaunch s e
  if l.lstate ≠ 2 ∨ s.time < l.windowAt then s
  else
    let c := computeBound l.thresh (tget 0 s.matrixBusy e) (tget 0 s.traffic e)
    let s := { s with matrixBusy := tset 0 s.matrixBusy e 0, traffic := tset 0 s.traffic e 0 }
    modLaunch s e (fun l => { l with
      cwin := l.cwin + bit c, mwin := l.mwin + bit (!c), windowAt := l.windowAt + 1000000, thresh := s.dev.intensity })

/-- What an ended launch held is free for reuse (R36): its records stand as they are, and belong to no launch (log 75). -/
def freeLaunch (s : State) (e : Nat) : State :=
  let s := killTables (killFibres s e) e
  let s := { s with cores := s.cores.map (fun (x : Nat × Core) => (x.1, { x.2 with
    insts := x.2.insts.map (fun y => (y.1, y.2.map (fun i => if i.launch = e then { i with launch := e + 64 } else i)))
    chans := x.2.chans.map (fun y => (y.1, y.2.map (fun c => if c.launch = e then { c with launch := e + 64 } else c))) })) }
  modLaunch s e (fun l => { l with lstate := 7, watch := none, heldCores := [], toSave := [] })

/-- Whether a launch's stamp may be written: its traffic is drained, and unless it failed all its work done. DESIGN CHOICE: a
launch whose last sink has counted its end-of-stream starts no new firing, and its stamp waits for the firings still running, and
for the copies, tasks and held fibre operations it has issued (log 84). -/
def stampReady (s : State) (e : Nat) : Bool :=
  (getLaunch s e).lstate == 6 && !launchTraffic s e && ((getLaunch s e).failed || !launchWorks s e)

def execLctlKill (launch : Nat) (drv : Bool) (s : State) : Out := event s (fun s => killLaunch s launch drv)
def execLaunchCompletion (launch : Nat) (s : State) : Out := event s (fun s => launchCompletion s launch)
def execIntensityWindow (launch _cycles _bytes : Nat) (s : State) : Out := event s (fun s => intensityWindow s launch)

/-! ### Pre-emption (R353, R355, R356, R359) -/

/-- The launches that a control of `e` acts on: those of its pair in the same LSTATE (R353). -/
def pairLaunches (s : State) (e : Nat) : List Nat :=
  ((s.dev.launches.filter (fun x => x.2.lstate == (getLaunch s e).lstate)).map (·.1))

/-- Cycles left of a deadline, and the deadline that has them left; 0 stays over. -/
def pauseMwait (now : Nat) (x : Stream) : Stream :=
  match x.wait with
  | .mwait d p full => { x with wait := .mwait (if d = 0 then 0 else max 1 (d - now)) p full }
  | _ => x
def resumeMwait (now : Nat) (x : Stream) : Stream :=
  match x.wait with
  | .mwait d p full => { x with wait := .mwait (if d = 0 then 0 else d + now) p full }
  | .walk _ _ => { x with wait := .none }
  | _ => x

/-- Every stream of a launch's contexts on a core changed. -/
def modStreams (s : State) (e n : Nat) (f : Stream → Stream) : State :=
  (getCore s n).ctxs.foldl (fun s c =>
    if c.2.firing.any (fun g => g.launch == e) then
      modStream (modStream s { core := n, ctx := c.1, ap := false } f) { core := n, ctx := c.1, ap := true } f
    else s) s

/-- The copies of a launch on a core changed. -/
def modCopies (s : State) (e n : Nat) (f : Copy → Copy) : State :=
  modCore s n (fun k => { k with copies := k.copies.map (fun (c : Nat × Copy) => (c.1, if c.2.launch = e ∧ copyLive c.2 then f c.2 else c.2)) })

/-- The copies of a launch on a core are asked to stop; those with no sector under way stand at once (R356, R359). -/
def suspendCopies (s : State) (e n : Nat) : State :=
  let s := modCopies s e n (fun c => { c with suspend := true })
  (getCore s n).copies.foldl (fun s c => settleSuspend s n c.1) s

/-- The order number up to which waiting tasks of a launch stay in the table of a core: an access already issued that still owes
a register its value waits for them (R356). -/
def tasksNeeded (s : State) (e n : Nat) : Nat :=
  (s.reqs.filter (fun r => r.launch == e && agentCore r.agent == some n && r.dest != .none &&
    r.todo.any (fun g => tableHolds s r.agent (entryOf s r) r.kind.writes g))).foldl (fun m r => max m r.id) 0

/-- Waiting tasks of a launch leave the table of a core, in its order, to be saved (R111). -/
def removeTasks (s : State) (e n : Nat) : State :=
  let m := tasksNeeded s e n
  let out := (getCore s n).tasks.filter (fun t => !t.issued && t.launch == e && decide (m ≤ t.id))
  modCore s n (fun k => { k with tasks := k.tasks.filter (fun t => !out.contains t), savedTasks := k.savedTasks ++ out })

/-- Saved tasks of a launch enter the table again, each at its place in the table's order, before any new task (R111). -/
def reenterTasks (s : State) (e n : Nat) : State :=
  modCore s n (fun k => { k with
    tasks := byId (k.tasks ++ k.savedTasks.filter (fun t => t.launch == e)), savedTasks := k.savedTasks.filter (fun t => t.launch != e) })

/-- A launch stops on a core: MWAITs and controllers pause with the cycles they have left, waiting tasks leave the table, copies
stop at a sector boundary (R111, R129, R356). -/
def stopCore (s : State) (e n : Nat) : State :=
  let s := suspendCopies (removeTasks (modStreams s e n (fun x => pauseMwait s.cycle { x with early := [] })) e n) e n
  let now := s.cycle
  modCore s n (fun k => { k with chans := k.chans.map (fun (x : Nat × Option Chan) =>
    (x.1, x.2.map (fun c => if c.launch = e then { dueSamples now c with cycles := (dueSamples now c).cycles - now } else c))) })

/-- Whether a write of a launch goes on to its home on a core and could be performed now. -/
def writesOn (s : State) (e n : Nat) : Bool :=
  s.reqs.any (fun r => r.launch == e && r.kind.writes && r.todo.any (fun g =>
    g.dev == 0 && coreOfPa g.pa == some n && isMemory (place g.pa) && pieceReady s r g))

/-- Whether a core has come to rest for a launch: its long-latency producers, its fills and its tasks are done, its copies stand, and
what the launch has posted to the core's memory has gone on (R356). -/
def coreAtRest (s : State) (e n : Nat) : Bool :=
  !s.reqs.any (fun r => r.launch == e && (match r.kind with | .sector g _ _ | .regWrite g _ _ => g == n | _ => agentCore r.agent == some n && r.dest != .none)) &&
    !s.freqs.any (fun f => f.launch == e && f.core == n && isProbe f) &&
    !(getCore s n).tasks.any (fun t => t.launch == e) && !writesOn s e n &&
    !(getCore s n).copies.any (fun c => c.2.launch == e && copyLive c.2 && c.2.state != 3) &&
    !(getCore s n).ctxs.any (fun c => c.2.firing.any (fun g => g.launch == e) && (c.2.cbBusy != 0 || !c.2.fills.isEmpty))

/-- Whether a core's save area may not be written now: a sector of it is being copied (R362), or a plane is dead (R388). -/
def areaMoving (s : State) (n : Nat) : Bool := redirectHeld s.dev (areaOf s n) 0x100000 || (s.dev.quiesce && s.dev.dead != 0)

/-! ### The controls -/

/-- LCTL_PREEMPT: ignored while a core of the launch has no save area. -/
def preemptLaunch (s : State) (e : Nat) (drv : Bool) : State :=
  if !drv ∨ (getLaunch s e).lstate ≠ 2 then s
  else
    let es := pairLaunches s e
    if es.any (fun x => (getLaunch s x).cores.any (fun n => (getCore s n).psave == 0)) then s
    else
      es.foldl (fun s x =>
        let l := getLaunch s x
        let ns := l.cores.filter (fun n => !l.heldCores.contains n)
        let s := ns.foldl (fun s n => stopCore s x n) s
        modLaunch s x (fun l => { l with lstate := 3, toSave := ns ++ l.toSave.filter (fun n => !ns.contains n), watch := none })) s

/-- PREEMPT_COMPLETE: the cores of a launch that have come to rest are saved; LSTATE 4 once all are. -/
def preemptComplete (s : State) (e : Nat) : State :=
  let ready := (getLaunch s e).toSave.filter (fun n => coreAtRest s e n && !areaMoving s n)
  let s := ready.foldl (fun s n => saveCore s e n) s
  modLaunch s e (fun l =>
    let left := l.toSave.filter (fun n => !ready.contains n)
    { l with toSave := left, lstate := if l.lstate = 3 ∧ left.isEmpty then 4 else l.lstate })

/-- A launch that stopped on a core and has not been saved there goes on: its copies from their next sector, its controllers with
the cycles they had left. -/
def goOn (s : State) (e n : Nat) : State :=
  let s := modCopies s e n (fun c => { c with
    suspend := false, pfault := false, stampFault := c.stampFault && c.state != 3
    state := if c.state ≠ 3 then c.state else if c.next = 0 then 1 else 2 })
  let now := s.cycle
  modCore s n (fun k => { k with chans := k.chans.map (fun (x : Nat × Option Chan) =>
    (x.1, x.2.map (fun c => if c.launch = e then { c with cycles := c.cycles + now } else c))) })

/-- Whether a copy of a launch that failed at CPY still owes its COPY_FAULT (R73, R359). -/
def faultOwed (e : Nat) (c : Copy) : Bool :=
  c.launch == e && copyLive c && c.pfault && c.failed && c.cause == 1 && (!copyFmt c.desc.sfmt || !copyFmt c.desc.dfmt)

/-- A resume on a core (R358): its area taken back, faults that were withdrawn and find no sector to be found at again reported, the
saved tasks entered again, then every stream from its boundary. -/
def resumeCore (s : State) (e n : Nat) : State :=
  let owed := (getCore s n).copies.filter (fun c => faultOwed e c.2)
  let s := if savedOn s e n then restoreCore s e n else goOn s e n
  let s := owed.foldl (fun s c => reportCopy s n c.1 0) s
  reenterTasks (modStreams s e n (resumeMwait s.cycle)) e n

/-- A driver's write of LCTL 2: the launch and its pair are resuming (R353). -/
def requestResume (s : State) (e : Nat) (drv : Bool) : State :=
  if !drv ∨ (getLaunch s e).lstate ≠ 4 then s
  else (pairLaunches s e).foldl (fun s x => modLaunch s x (fun l => { l with lstate := 5 })) s

/-- Whether the save areas of a launch's cores can be read now (R388). -/
def areasRead (s : State) : Bool := !(s.dev.quiesce && s.dev.dead != 0)

/-- LCTL_RESUME: every core is restored, the held ones included, and the launch runs. DESIGN CHOICE: its 1 ms window ends 1 ms after
the resume, and counts what it counted before the pre-emption (R38; log 93). -/
def resumeLaunch (s : State) (e : Nat) (drv : Bool) : State :=
  if !drv ∨ ((getLaunch s e).lstate ≠ 4 ∧ (getLaunch s e).lstate ≠ 5) ∨ !areasRead s then s
  else
    (pairLaunches s e).foldl (fun s x =>
      let s := (getLaunch s x).cores.foldl (fun s n => resumeCore s x n) s
      restartWatch (modLaunch s x (fun l => { l with lstate := 2, heldCores := [], toSave := [], windowAt := s.time + 1000000 })) x) s

/-- A pre-empt on one core (R353). -/
def preemptCore (s : State) (e n : Nat) (drv : Bool) : State :=
  let l := getLaunch s e
  if !drv ∨ l.lstate ≠ 2 ∨ !l.cores.contains n ∨ l.heldCores.contains n ∨ (getCore s n).psave = 0 then s
  else modLaunch (stopCore s e n) e (fun l => { l with heldCores := l.heldCores ++ [n], toSave := l.toSave ++ [n] })

/-- A resume on one core; it restarts the watchdog period. While the whole launch is pre-empted the core is no longer held by
itself, and goes on with the launch (log 20). -/
def resumeOn (s : State) (e n : Nat) (drv : Bool) : State :=
  let l := getLaunch s e
  let free := fun (l : Launch) => { l with heldCores := l.heldCores.filter (· != n) }
  if !drv ∨ !l.heldCores.contains n then s
  else if 3 ≤ l.lstate ∧ l.lstate ≤ 5 then modLaunch s e free
  else restartWatch (modLaunch (resumeCore s e n) e (fun l => { free l with toSave := l.toSave.filter (· != n) })) e

def execLctlPreempt (launch : Nat) (drv : Bool) (s : State) : Out := event s (fun s => preemptLaunch s launch drv)
def execPreemptComplete (launch : Nat) (s : State) : Out := event s (fun s => preemptComplete s launch)
def execLctlResume (launch : Nat) (drv : Bool) (s : State) : Out := event s (fun s => resumeLaunch s launch drv)
def execLcorePreempt (launch core : Nat) (drv : Bool) (s : State) : Out := event s (fun s => preemptCore s launch core drv)
def execLcoreResume (launch core : Nat) (drv : Bool) (s : State) : Out := event s (fun s => resumeOn s launch core drv)

end Sys2Proof.Machine
end

