-- ==== Sys2Proof/Machine/DevCtl.lean ====
section
/-!
DEFINITION. Sys2Proof/Machine/DevCtl.lean: stores to the device-control range and to the register views of cores and
clusters (R396), and the events they are: hash rows and planes (R53-R58, R388), pools (R66), the tile page table (R106),
queues (R335), launch control (R353), invalidation (R350), migration (R361, R362), counters (R374, R378), power (R390).
-/

namespace Sys2Proof.Machine

/-- An aligned word with the bytes of a narrower store put into it. -/
def mergeWord (old pa n x : Nat) : W64 :=
  let sh := 8 * (pa % 8)
  w64 (old - (old &&& ((2 ^ (8 * n) - 1) <<< sh)) + ((x % 2 ^ (8 * n)) <<< sh))
/-- The bytes of a store at their place in the word, the others 0. -/
def placedWord (pa n x : Nat) : W64 := mergeWord 0 pa n x

/-! ### Placement: hash rows, pinning (R53-R56), planes (R58, R388) -/

/-- The cells that are not HBM's. -/
def offHbm (m : List Host.Cell) : List Host.Cell := m.filter (fun c => decide (hbmEnd ≤ c.1))

/-- HBM contents become undefined (R56, R391; log 23), and every HBM directory entry GENERAL (R106). -/
def loseHbm (s : State) : State :=
  let s := { s with mem := offHbm s.mem, epoch := s.epoch + 1 }
  modDev s (fun d => { d with
    hbmDir := [], poison := d.poison.filter (fun u => decide (hbmEnd ≤ u))
    scrubs := d.scrubs.map (fun e => if e.1 < hbmEnd then (e.1, true) else e) })

/-- HASH_ROW_WRITE: forced bits ignored; a changed row relocates every address. -/
def hashRowWrite (s : State) (i : Nat) (v : W64) : State :=
  let r := forceRow i v
  if 13 ≤ i ∨ r.toNat = hashRow s.dev i then s
  else loseHbm (modDev s (fun d => { d with hashRows := tset (1#64 <<< homeBit i) d.hashRows i r }))

/-- PINSIZE_WRITE: values above 80 are ignored. -/
def pinsizeWrite (s : State) (v : W64) : State :=
  let p := wbits v 0 7
  if 80 < p ∨ p = s.dev.pinsize then s else loseHbm (modDev s (fun d => { d with pinsize := p }))

/-- Whether a piece of an agent's request travels on one of the planes of a mask: one within its core's cluster uses none (R13). -/
def rides (s : State) (a : Agent) (mask : BitVec 8) (g : Seg) : Bool :=
  !(agentCore a).any (fun n => onCrossbar (clusterOf n) g) && mask.getLsbD (planeOf s.dev g.pa)

/-- Requests and fibre operations in flight on one of the planes of a mask, those whose response has not come among them. -/
def sentOn (s : State) (mask : BitVec 8) : List Nat :=
  (s.reqs.filter (fun r => (unanswered r ++ r.src).any (rides s r.agent mask))).map (·.id) ++
    (s.freqs.filter (fun f => rides s f.agent mask (headerSeg f))).map (·.id)

/-- The requests that stand at their sources because of a dead plane, noted before a bucket moves (R388). -/
def noteHeldBack (s : State) : State :=
  { s with heldBack := s.heldBack ++ (sentOn s s.dev.dead).filter (fun i => !s.unacked.contains i && !s.heldBack.contains i) }

/-- A plane row, its bits [5:0] forced to 0. -/
def planeRowWrite (s : State) (k : Nat) (v : W64) : State :=
  if s.dev.quiesce ∧ k < 6 then
    modDev (noteHeldBack s) (fun d => { d with planeRows := tset (planeRowDefault k) d.planeRows k (w64 (v.toNat / 64 * 64)) })
  else s

/-- A bucket's byte: the plane in [2:0]. -/
def bucketWrite (s : State) (b x : Nat) : State :=
  if s.dev.quiesce ∧ b < 64 then modDev (noteHeldBack s) (fun d => { d with buckets := tset (b % 8) d.buckets b (x % 8) }) else s

/-- PLANE_TABLE_WRITE: a store at an offset from the first plane row, while QUIESCE = 1 (R388). -/
def planeTableWrite (s : State) (off n x : Nat) : State :=
  if off < 0x30 then planeRowWrite s (off / 8) (w64 x)
  else if 0x40 ≤ off ∧ off < 0x80 then (upFrom 0 n).foldl (fun s i => bucketWrite s (off - 0x40 + i) (x / 256 ^ i % 256)) s
  else s

/-- PLANE_DEAD_SET: planes declared dead; what was sent on them is not acknowledged. -/
def planeDeadSet (s : State) (mask : BitVec 8) : State :=
  let new := mask &&& ~~~s.dev.dead
  if new = 0 then s
  else
    let ids := sentOn s new
    let s := modDev s (fun d => { d with dead := d.dead ||| new, deadNew := d.deadNew ||| new, quiesce := true })
    let live := fun (l : List Nat) => l.filter (fun i => s.reqs.any (fun r => r.id == i) || s.freqs.any (fun f => f.id == i))
    { s with unacked := live s.unacked ++ ids.filter (fun i => !s.unacked.contains i), heldBack := live s.heldBack }

/-- A bucket entry that names a dead plane. -/
def deadBucket (d : Dev) : Bool := (upFrom 0 64).any (fun b => d.dead.getLsbD (planeOfBucket d b))

/-- A request as its source sends it again: a home that has applied it returns the saved response; a load is performed afresh
(R389). -/
def reissued (s : State) (r : Req) : Req :=
  if !s.unacked.contains r.id then r
  else
    match s.replay.find? (fun e => e.agent == r.agent && e.id == r.id) with
    | some e => if r.dest = .none then { r with todo := [] } else { r with todo := [], data := e.response }
    | none => if r.kind = .load ∧ r.dest ≠ .none then { r with todo := r.path } else r

/-- Whether a request is the lost response of a read of a fibre, which is performed afresh (R389). -/
def probesAgain (s : State) (r : Req) : Bool := s.unacked.contains r.id && r.again.isSome

/-- QUIESCE_CLEAR: ignored while a bucket names a dead plane; logs each plane lost; the requests that were not acknowledged go
again, ahead of the held ones (R389). -/
def quiesceClear (s : State) : State :=
  if !s.dev.quiesce || deadBucket s.dev then s
  else
    let s := noteHeldBack s
    let s := (upFrom 0 8).foldl (fun s p => if s.dev.deadNew.getLsbD p then logError s 6 p 0 0 0 0 else s) s
    let s := { s with
      reqs := (s.reqs.filter (fun r => !probesAgain s r)).map (reissued s), freqs := s.freqs ++ (s.reqs.filter (probesAgain s)).filterMap (·.again) }
    modDev s (fun d => { d with quiesce := false, deadNew := 0 })

/-- A store to PLANECTL. -/
def planectlWrite (s : State) (v : W64) : State :=
  let s := if v.getLsbD 16 then quiesceClear s else s
  planeDeadSet s (BitVec.ofNat 8 (wbits v 8 8))

def execHashRowWrite (row : Nat) (v : W64) (drv : Bool) (s : State) : Out := byDriver drv s (fun s => hashRowWrite s row v)
def execPinsizeWrite (v : W64) (drv : Bool) (s : State) : Out := byDriver drv s (fun s => pinsizeWrite s v)
def execPlaneTableWrite (off : Nat) (v : W64) (drv : Bool) (s : State) : Out :=
  byDriver drv s (fun s => planeTableWrite s off 8 v.toNat)
def execPlaneDeadSet (mask : BitVec 8) (drv : Bool) (s : State) : Out := byDriver drv s (fun s => planeDeadSet s mask)
def execQuiesceClear (drv : Bool) (s : State) : Out := byDriver drv s quiesceClear

/-! ### Pools, the tile page table, macros, queues (R66, R106, R112, R335) -/

/-- A store of 4 or 8 bytes to a pool descriptor; the fields the home maintains keep their values. -/
def poolStore (s : State) (p off n x : Nat) : State :=
  let v := mergeWord (poolWord (getPool s p) off) off n x
  let w := placedWord off n x
  match off / 8 with
  | 0 => modPool s p (fun q => { q with base := wbits v 16 32 * 65536 })
  | 1 => modPool s p (fun q => { q with npods := wbits v 0 32 })
  | 2 => modPool s p (fun q => { q with wmark := wbits v 32 32 })
  | 3 => modPool s p (fun q => { q with timeout := wbits v 0 16, scale := BitVec.ofNat 8 (wbits v 16 8), asid := wbits v 24 16 })
  | 4 => if n = 8 then donate s p (wbits w 0 32) (wbits w 32 32) else s
  | 6 => faultctl s p w
  | 7 => poolReset s p w
  | _ => s

/-- TILE_PAGE_TABLE_WRITE: the entry, and every tile of its page GENERAL. -/
def tilePageWrite (s : State) (m : Nat) (v : W64) : State :=
  if 4096 ≤ m then s
  else
    let ppn := wbits v 16 24
    modDev s (fun d => { d with
      tilePages := tset {} d.tilePages m { v := v.getLsbD 63, esz := wbits v 40 2, ppn := ppn }
      hbmDir := d.hbmDir.filter (fun e => e.1 / 65536 != ppn) })

/-- A store to a queue table entry (R335); LOG2N outside 4 to 12 is ignored. -/
def queueStore (s : State) (q off : Nat) (v : W64) : State :=
  let put := fun (f : Queue → Queue) => modDev s (fun d => { d with queues := tset {} d.queues q (f (tget {} d.queues q)) })
  match off / 8 with
  | 0 => put (fun e => { e with base := wbits v 12 36 * 4096 })
  | 1 => put (fun e => { e with ctlb := wbits v 6 42 * 64 })
  | 2 => put (fun e => { e with
      asid := wbits v 16 16, log2n := if 4 ≤ wbits v 7 4 ∧ wbits v 7 4 ≤ 12 then wbits v 7 4 else e.log2n
      prio := wbits v 3 2, drv := v.getLsbD 2, en := v.getLsbD 1 })
  | _ => s

def execTilePageTableWrite (m : Nat) (v : W64) (drv : Bool) (s : State) : Out := byDriver drv s (fun s => tilePageWrite s m v)

/-! ### Launch control (R353) -/

/-- LCORE: a write with another bit set, or with operation 0 or 3, is ignored. -/
def lcoreWrite (s : State) (e : Nat) (v : W64) (drv : Bool) : State :=
  if v &&& ~~~0x33FF#64 ≠ 0 then s
  else
    match wbits v 12 2 with
    | 1 => preemptCore s e (wbits v 0 10) drv
    | 2 => resumeOn s e (wbits v 0 10) drv
    | _ => s

/-- A store to a word of a launch log entry. -/
def logStore (s : State) (e off : Nat) (v : W64) (drv : Bool) : State :=
  if off = 0x48 then
    match wbits v 0 2 with
    | 1 => preemptLaunch s e drv
    | 2 => requestResume s e drv
    | 3 => killLaunch s e drv
    | _ => s
  else if off = 0x50 then snapreq s e v drv
  else if off = 0x60 then lcoreWrite s e v drv
  else s

/-! ### Doorbells (R347) and invalidation (R350) -/

/-- DOORBELL: the value kept, the driver interrupted once. -/
def doorbellWrite (s : State) (n : Nat) (v : W64) : State :=
  if 1024 ≤ n then s else driverEvent (modCore s n (fun c => { c with doorbell := v })) 1 n 0 0 0 v

def execDoorbell (core : Nat) (v : W64) (drv : Bool) (s : State) : Out := byDriver drv s (fun s => doorbellWrite s core v)

/-- Whether an entry of a cache goes with an invalidation. -/
def tinvHits (t : Tinv) (asid vbase log2 : Nat) : Bool :=
  t.scope == 2 || (asid == t.asid && (t.scope == 1 || t.va / 2 ^ log2 * 2 ^ log2 == vbase))

def dropLeaves (t : Tinv) (l : List TlbEntry) : List TlbEntry := l.filter (fun e => !tinvHits t e.asid e.vbase e.log2)

/-- Whether an invalidation names the walk result that a unit has not taken yet. -/
def endHit (t : Tinv) (e : WalkEnd) : Bool :=
  match e.leaf with
  | some l => tinvHits t l.asid l.vbase l.log2
  | none => tinvHits t e.asid (e.va / 65536 * 65536) 16

/-- Every matching entry gone from every cache and table cache, with what units would take of it. -/
def dropEntries (s : State) (t : Tinv) : State :=
  let s := modDev s (fun d => { d with walkEnds := d.walkEnds.filter (fun e => !endHit t e) })
  { s with
    clusters := s.clusters.map (fun (x : Nat × Cluster) => (x.1, { x.2 with tlb := dropLeaves t x.2.tlb, fibTlb := dropLeaves t x.2.fibTlb }))
    hbm := s.hbm.map (fun (x : Nat × Stack) => (x.1, { x.2 with tlb := dropLeaves t x.2.tlb }))
    dies := s.dies.map (fun (x : Nat × Die) => (x.1, { x.2 with
      lpTlb := dropLeaves t x.2.lpTlb, ptrs := x.2.ptrs.filter (fun p => !tinvHits t p.asid p.vbase (levelLog (p.level + 1))) })) }

/-- An invalidation requested: from here on no access is translated through an entry it names, and every later one walks again
(log 32). Walks read their tables at their end, so one that runs has been restarted. -/
def requestTinv (s : State) (scope asid va : Nat) : State :=
  let t : Tinv := { scope := scope, asid := asid, va := va, upto := s.nextId }
  modDev (dropEntries s t) (fun d => { d with tinv := d.tinv ++ [t] })

/-- A store to TINVREQ. -/
def tinvStore (s : State) (v : W64) : State :=
  if wbits v 62 2 = 3 ∨ wbits v 48 14 ≠ 0 then s else requestTinv s (wbits v 62 2) (wbits v 0 16) (wbits v 16 32 * 65536)

/-- Whether an invalidation names the leaf page of an address, as the tables now map it. -/
def tinvNames (s : State) (t : Tinv) (asid va : Nat) : Bool :=
  let root := (tget {} s.dev.spaces asid).root * 65536
  let log2 := match (walk s [] asid root va).leaf with | .ok e => e.log2 | .error _ => 16
  tinvHits t asid (va / 2 ^ log2 * 2 ^ log2) log2

/-- The addresses of a fibre operation that were translated as it issued: its headers, a union's stamp. Its pods are translated as it
is applied, and a parked one's afresh (R68, R295). -/
def fibreVas (f : FReq) : List Nat :=
  match f.op with
  | .union _ _ vaA vaB _ _ _ _ stVa _ => [f.va, vaA, vaB] ++ (if stVa = 0 then [] else [stVa])
  | _ => [f.va]

/-- Accesses translated before a request arrived that have not been performed: those held at a window port among them, fibre
operations whose own addresses the request names, and the operands of matrix tasks, those that a pre-emption has saved too. -/
def tinvBusy (s : State) (t : Tinv) : Bool :=
  s.reqs.any (fun r => decide (r.id < t.upto) && !((unperformed r).isEmpty && r.src.isEmpty)) ||
    s.freqs.any (fun f => decide (f.id < t.upto) && (fibreVas f).any (tinvNames s t f.asid)) ||
    s.cores.any (fun c => (c.2.tasks ++ c.2.savedTasks).any (fun k => decide (k.id < t.upto) && !k.issued) ||
      c.2.ctxs.any (fun x => x.2.spills.any (fun b => decide (b.id < t.upto)) || x.2.fills.any (fun f => decide (f.id < t.upto))))

/-- INVALIDATION_COMPLETE: the accesses that the oldest request's entries translated have been performed. -/
def invalidationComplete (s : State) : State :=
  match s.dev.tinv with
  | t :: r => if tinvBusy s t then s else modDev s (fun d => { d with tinv := r, tinvdone := (d.tinvdone + 1) % 2 ^ 32 })
  | [] => s

def execTinvVa (asid va : Nat) (drv : Bool) (s : State) : Out := byDriver drv s (fun s => requestTinv s 0 (asid % 65536) (va % 2 ^ 48))
def execTinvAsid (asid : Nat) (drv : Bool) (s : State) : Out := byDriver drv s (fun s => requestTinv s 1 (asid % 65536) 0)
def execTinvAll (drv : Bool) (s : State) : Out := byDriver drv s (fun s => requestTinv s 2 0 0)
def execInvalidationComplete (s : State) : Out := event s invalidationComplete

/-! ### Page migration (R361, R362) -/

def modMigration (s : State) (m : Nat) (f : Migration → Migration) : State :=
  modDev s (fun d => { d with migrations := tset {} d.migrations m (f (tget {} d.migrations m)) })

/-- Whether a GO of a record is ignored. -/
def goIgnored (d : Dev) (m : Nat) : Bool :=
  let r := tget {} d.migrations m
  let taken := fun (p : Nat) => d.migrations.any (fun e => e.1 != m && e.2.act && (e.2.old == p || e.2.new == p))
  r.act || r.mold == r.mnew || decide (hbmEnd ≤ r.mold * 65536) || decide (hbmEnd ≤ r.mnew * 65536) ||
    taken r.mold || taken r.mnew || r.moldLate || r.mnewLate

/-- MIGRATION_GO. -/
def migrationGo (s : State) (m : Nat) : State :=
  if 4 ≤ m ∨ goIgnored s.dev m then s
  else modMigration s m (fun r => { r with ptr := 0, act := true, old := r.mold, new := r.mnew })

/-- MIGRATION_CLR: redirection ends. -/
def migrationClr (s : State) (m : Nat) : State := if 4 ≤ m then s else modMigration s m (fun r => { r with act := false })

/-- A store to a word of a migration record; GO and CLR act on the record as it stands. -/
def migrationStore (s : State) (m off : Nat) (v : W64) : State :=
  match off / 8 with
  | 0 => modMigration s m (fun r => { r with mold := wbits v 16 36, moldLate := r.act })
  | 1 => modMigration s m (fun r => { r with mnew := wbits v 16 36, mnewLate := r.act })
  | _ =>
    let act := (tget {} s.dev.migrations m).act
    if act && v.getLsbD 3 then migrationClr s m else if !act && v.getLsbD 0 then migrationGo s m else s

/-- MIGRATION_SECTOR_COPY: sector PTR of the old page copied to the new one, its poison with it; nothing is counted
(R374). -/
def migrationSector (s : State) (m : Nat) : State :=
  let r := tget {} s.dev.migrations m
  if !r.act || decide (16 ≤ r.ptr) then s
  else
    let a := r.old * 65536 + r.ptr * 4096
    let b := r.new * 65536 + r.ptr * 4096
    let s := { s with mem := Memory.put s.epoch s.mem b (Memory.slice s.epoch s.mem a 4096) }
    let s := modDev s (fun d => { d with
      poison := d.poison.filter (fun u => !decide (b ≤ u ∧ u < b + 4096)) ++
        (d.poison.filter (fun u => decide (a ≤ u ∧ u < a + 4096))).map (fun u => u - a + b)
      scrubs := spoilScrubs d.scrubs b 4096 })
    let s := touchTiles s b 4096
    modMigration s m (fun r => { r with ptr := r.ptr + 1 })

def execMigrationGo (m : Nat) (drv : Bool) (s : State) : Out := byDriver drv s (fun s => migrationGo s m)
def execMigrationClr (m : Nat) (drv : Bool) (s : State) : Out := byDriver drv s (fun s => migrationClr s m)
def execMigrationSectorCopy (m : Nat) (s : State) : Out := event s (fun s => migrationSector s m)

/-! ### Counters and injectors (R57, R374, R378, R387) -/

/-- A store to a counter of the device: zero clears it, any other value is ignored. -/
def counterStore (s : State) (r : DevReg) (v : W64) : State :=
  if v ≠ 0 then s
  else
    match r with
    | .corrected i => modDev s (fun d => { d with corrected := tset 0 d.corrected i 0 })
    | .pccount k i => modStack s k (fun x => { x with pccount := tset 0 x.pccount i 0 })
    | .splitcnt k => modStack s k (fun x => { x with splitcnt := 0 })
    | .refpost k => modStack s k (fun x => { x with refpostcnt := 0 })
    | _ => s

/-- A bank's conflict counter: zero clears it (R52). DESIGN CHOICE: an 8-byte store of zero does; a narrower one, which R238
accepts, changes nothing (log 56). -/
def conflictStore (s : State) (k i n x : Nat) : State :=
  if n = 8 ∧ x = 0 then modCore s (k * 64 + i / 32) (fun c => { c with conflicts := tset 0 c.conflicts (i % 32) s.tick }) else s

/-- A store to an injector: arming counts from the next flit; lanes 6 and 7 ignore the arm. -/
def injectorStore (s : State) (i off : Nat) (v : W64) : State :=
  modDev s (fun d =>
    let x := tget {} d.injectors i
    let y := if off / 8 = 0 then
        { x with delay := wbits v 18 24, lane := wbits v 15 3, mode := wbits v 1 2
                 arm := v.getLsbD 0 && decide (wbits v 15 3 < 6), seen := if v.getLsbD 0 && !x.arm then 0 else x.seen }
      else { x with n := wbits v 0 32 }
    { d with injectors := tset {} d.injectors i y })

/-- COUNTER_CLEAR: a store to the counter at an address. -/
def counterClear (s : State) (pa : Nat) (v : W64) : State :=
  match place pa with
  | .dev r => if pa % 8 = 0 then counterStore s r v else s
  | .conflict k i => if pa % 8 = 0 then conflictStore s k i 8 v.toNat else s
  | _ => s

def execCounterClear (addr : Nat) (v : W64) (s : State) : Out := event s (fun s => counterClear s addr v)

/-! ### Power (R390) -/

/-- A write of REQ. -/
def powerReq (s : State) (v : Nat) : State :=
  let p := s.mgmt.power
  if p.busy ∨ 3 ≤ v ∨ (v = 0 ∧ s.mgmt.boot.stage < 8) ∨
      (v = 2 ∧ s.dev.launches.any (fun e => [1, 2, 3, 5, 6].contains e.2.lstate)) then s
  else modMgmt s (fun m => { m with power := { m.power with req := v, busy := true, began := s.time } })

/-- A store to PWRCTL. -/
def pwrctlStore (s : State) (v : W64) : State :=
  let s := if v.getLsbD 11 then modMgmt s (fun m => { m with power := { m.power with thwarn := false } }) else s
  powerReq s (wbits v 0 2)

/-- The watchdog periods run on after a pause of some length (R33). -/
def watchesLater (ls : Tbl Launch) (n : Nat) : Tbl Launch :=
  ls.map (fun e => (e.1, { e.2 with watch := e.2.watch.map (· + n) }))

/-- POWER_TRANSITION_DONE: engines have finished their issued work, the clock changes and the watchdog periods run on. -/
def powerDone (s : State) : State :=
  let working := s.reqs.any (fun r => match r.kind with | .sector _ _ _ | .regWrite _ _ _ => true | _ => false) ||
    s.cores.any (fun c => c.2.tasks.any (·.issued))
  if !s.mgmt.power.busy || working then s
  else
    let s := modDev s (fun d => { d with launches := watchesLater d.launches (s.time - s.mgmt.power.began) })
    modMgmt s (fun m => { m with power := { m.power with cur := m.power.req, busy := false } })

def execPowerReqFull (drv : Bool) (s : State) : Out := byDriver drv s (fun s => powerReq s 0)
def execPowerReqHalf (drv : Bool) (s : State) : Out := byDriver drv s (fun s => powerReq s 1)
def execPowerReqIdle (drv : Bool) (s : State) : Out := byDriver drv s (fun s => powerReq s 2)
def execPowerTransitionDone (s : State) : Out := event s powerDone

/-! ### Stores by address -/

/-- A counter, which any store of zero clears (R57, R378). -/
def isCounter (r : DevReg) : Bool :=
  match r with
  | .corrected _ | .pccount _ _ | .splitcnt _ | .refpost _ => true
  | _ => false

/-- A store of `n` bytes to a device-control register. The counters apart, the registers of the range are written by the
writers of R396 alone; a store from another is discarded. -/
def devStore (s : State) (r : DevReg) (n x : Nat) (drv : Bool) : State :=
  if !drv && !isCounter r then s
  else
    let v := w64 x
    match r with
    | .planeRow k => planeRowWrite s k v
    | .bucket b => (upFrom 0 n).foldl (fun s i => bucketWrite s (b + i) (x / 256 ^ i % 256)) s
    | .planectl => planectlWrite s v
    | .hashRow i => hashRowWrite s i v
    | .pinsize => pinsizeWrite s v
    | .pool p o => poolStore s p o n x
    | .tilePage m => tilePageWrite s m v
    | .mtest k => modCore s k (fun c => { c with interval := wbits v 0 16 })
    | .queue q o => queueStore s q o v
    | .log e o => logStore s e o v drv
    | .intensity => modDev s (fun d => { d with intensity := wbits v 0 32 })
    | .lpCopy d k o => if o / 8 = 6 then copyControl s (1024 + d) k (wbits v 0 2) drv else s
    | .tinvreq => tinvStore s v
    | .doorbell k => doorbellWrite s k v
    | .migration m o => migrationStore s m o v
    | .psave k => modCore s k (fun c => { c with psave := wbits v 20 32 })
    | .injector i o => injectorStore s i o v
    | .pwrctl => pwrctlStore s v
    | .telemetry o => if o / 8 = 0x15 then modMgmt s (fun m => { m with power := { m.power with twarn := wbits v 0 16 } }) else s
    | .space a o =>
      modDev s (fun d =>
        let e := tget {} d.spaces a
        { d with spaces := tset {} d.spaces a (if o / 8 = 0 then { e with root := wbits v 16 36, v := v.getLsbD 0 } else { e with tvec := wbits v 2 46 }) })
    | .corrected _ | .pccount _ _ | .splitcnt _ | .refpost _ => counterStore s r v
    | .tinvdone | .bootstat | .errorRec _ _ | .raswidx | .event _ _ | .evtwidx | .thermstat | .none => s

/-- A store to a view of a core's or a cluster's window that is neither memory nor a register with a full/empty bit, or
to a device-control register (R48, R49, R123, R30, R278, R66, R52). -/
def viewStore (s : State) (pa n x : Nat) (drv : Bool) : State :=
  let p := place pa
  let v := mergeWord (viewWord s p pa) pa n x
  let idle := fun (k c : Nat) => (getCtx s k c).firing.isNone
  let onStream := fun (k c : Nat) (f : Stream → Stream) => if idle k c then modStream s { core := k, ctx := c, ap := false } f else s
  match p with
  | .scalarFull k c w => onStream k c (fun y =>
      { y with sfull := (y.sfull &&& ~~~((BitVec.allOnes 64).setWidth 136 <<< (64 * w))) ||| (v.setWidth 136 <<< (64 * w)) ||| 1#136 })
  | .preg k c i => onStream k c (fun y => pput y i v)
  | .lc k c i => onStream k c (fun y => { y with lc := tset 0 y.lc i (w32 (wbits v 0 32)) })
  | .cb k c => if idle k c then modCtx s k c (fun y =>
      let sh := pa % 32 / 8 * 64
      { y with cb := (y.cb &&& ~~~((BitVec.allOnes 64).setWidth 256 <<< sh)) ||| (v.setWidth 256 <<< sh) }) else s
  | .link k c w => onStream k c (fun y => { y with link := tset 0 y.link w v })
  | .vectorFull k c => onStream k c (fun y => { y with vfull := v.setWidth 32 })
  | .chanRec k c o =>
    if o / 8 = 8 then rateParamWrite s k c 0 v drv
    else if o / 8 = 9 then rateParamWrite s k c 1 v drv
    else if o / 8 = 11 ∧ drv ∧ (placedWord pa n x).getLsbD 4 then modChan s k c (fun y => { y with rej := false })
    else s
  | .instRec k c o => if o / 8 = 0 then ienable s k c (placedWord pa n x) else s
  | .copyRec k c o => if o / 8 = 6 then copyControl s k c (wbits (placedWord pa n x) 0 2) drv else s
  | .route _ _ => atomicStore s pa n x
  | .clusterPool k q o => if drv then poolStore s (clusterPoolId k q) o n x else s
  | .conflict k i => conflictStore s k i n x
  | .dev r => devStore s r n x drv
  | _ => s

/-- REGISTER_WRITE: a store to the register at an address, where its target accepts it. -/
def registerWrite (s : State) (pa n : Nat) (v : W64) (drv : Bool) : State :=
  match place pa with
  | .scalar _ _ _ | .vector _ _ _ => s
  | p => if isMemory p || (refuse .store p pa n false false false).isSome || decide (8 < n) then s else viewStore s pa n v.toNat drv

def execRegisterWrite (addr size : Nat) (v : W64) (drv : Bool) (s : State) : Out := event s (fun s => registerWrite s addr size v drv)

end Sys2Proof.Machine
end

