-- ==== Sys2Proof/Machine/Scalar.lean ====
section
/-!
DEFINITION. Sys2Proof/Machine/Scalar.lean: the integer, full/empty and immediate members (R186-R196).
-/

namespace Sys2Proof.Machine

/-! ### Results (R188-R191) -/

def shlOp (a : W64) (n : Nat) : W64 := if 64 ≤ n then 0 else a <<< n
def shrOp (a : W64) (n : Nat) : W64 := if 64 ≤ n then 0 else a >>> n
def sraOp (a : W64) (n : Nat) : W64 := if 64 ≤ n then a.sshiftRight 63 else a.sshiftRight n
def clzOp (a : W64) : W64 := if a = 0 then 64 else w64 (63 - Nat.log2 a.toNat)
def popcOp (a : W64) : W64 := w64 (popNat 64 a.toNat)
def mulhS (a b : W64) : W64 := w64i ((a.toInt * b.toInt) / (2 ^ 64 : Nat))
def mulhZ (a b : W64) : W64 := w64 (a.toNat * b.toNat / 2 ^ 64)
def divS (a b : W64) : W64 := w64i (a.toInt.tdiv b.toInt)
def divZ (a b : W64) : W64 := w64 (a.toNat / b.toNat)
def remS (a b : W64) : W64 := w64i (a.toInt.tmod b.toInt)
def remZ (a b : W64) : W64 := w64 (a.toNat % b.toNat)
def ltS (a b : W64) : Bool := decide (a.toInt < b.toInt)
def ltZ (a b : W64) : Bool := decide (a.toNat < b.toNat)
def flag (b : Bool) : W64 := if b then 1 else 0

/-! ### Forms -/

/-- rd := op(rs1, rs2). -/
def alu3 (i : Instr) (f : R3F) (op : W64 → W64 → W64) (s : State) : Out :=
  perform s i { ops := ops3 f } (fun s v => do
    let s ← setReg s f.rd (op (sval v 0) (sval v 1))
    .ok (s, .seq))

/-- rd := op(rs1). -/
def alu2 (i : Instr) (f : R3F) (op : W64 → W64) (s : State) : Out :=
  perform s i { ops := ops2 f } (fun s v => do
    let s ← setReg s f.rd (op (sval v 0))
    .ok (s, .seq))

/-- rd := op(rs1) with an immediate. -/
def aluI (i : Instr) (f : I12F) (op : W64 → W64) (s : State) : Out :=
  perform s i { ops := opsI f } (fun s v => do
    let s ← setReg s f.rd (op (sval v 0))
    .ok (s, .seq))

/-- DIV and REM (R189): the divisor is tested first; the result is delivered later. -/
def aluDiv (i : Instr) (f : R3F) (op : W64 → W64 → W64) (s : State) : Out :=
  perform s i { ops := ops3 f } (fun s v => do
    if sval v 1 = 0 then trapEx cDIV0 (sval v 0)
    let s ← emptyReg s f.rd
    .ok (deliver s (scalarDest s f.rd) ((op (sval v 0) (sval v 1)).setWidth 2048), .seq))

/-! ### Majors 0x01 and 0x02 (R188) -/

def execAdd (f : R3F) (s : State) : Out := alu3 (.add f) f (· + ·) s
def execSub (f : R3F) (s : State) : Out := alu3 (.sub f) f (· - ·) s
def execAnd (f : R3F) (s : State) : Out := alu3 (.and f) f (· &&& ·) s
def execAndn (f : R3F) (s : State) : Out := alu3 (.andn f) f (fun a b => a &&& ~~~b) s
def execOr (f : R3F) (s : State) : Out := alu3 (.or f) f (· ||| ·) s
def execXor (f : R3F) (s : State) : Out := alu3 (.xor f) f (· ^^^ ·) s
def execShl (f : R3F) (s : State) : Out := alu3 (.shl f) f (fun a b => shlOp a b.toNat) s
def execShr (f : R3F) (s : State) : Out := alu3 (.shr f) f (fun a b => shrOp a b.toNat) s
def execSra (f : R3F) (s : State) : Out := alu3 (.sra f) f (fun a b => sraOp a b.toNat) s
def execClz (f : R3F) (s : State) : Out := alu2 (.clz f) f clzOp s
def execPopc (f : R3F) (s : State) : Out := alu2 (.popc f) f popcOp s

/-! ### Major 0x03 (R189) -/

def execMul (f : R3F) (s : State) : Out := alu3 (.mul f) f (· * ·) s
def execMulhS64 (f : R3F) (s : State) : Out := alu3 (.mulhS64 f) f mulhS s
def execMulhZ64 (f : R3F) (s : State) : Out := alu3 (.mulhZ64 f) f mulhZ s
def execDivS64 (f : R3F) (s : State) : Out := aluDiv (.divS64 f) f divS s
def execDivZ64 (f : R3F) (s : State) : Out := aluDiv (.divZ64 f) f divZ s
def execRemS64 (f : R3F) (s : State) : Out := aluDiv (.remS64 f) f remS s
def execRemZ64 (f : R3F) (s : State) : Out := aluDiv (.remZ64 f) f remZ s

/-! ### Major 0x04 (R190) and LEA (R191) -/

def execMinS64 (f : R3F) (s : State) : Out := alu3 (.minS64 f) f (fun a b => if ltS a b then a else b) s
def execMinZ64 (f : R3F) (s : State) : Out := alu3 (.minZ64 f) f (fun a b => if ltZ a b then a else b) s
def execMaxS64 (f : R3F) (s : State) : Out := alu3 (.maxS64 f) f (fun a b => if ltS a b then b else a) s
def execMaxZ64 (f : R3F) (s : State) : Out := alu3 (.maxZ64 f) f (fun a b => if ltZ a b then b else a) s
def execSltS64 (f : R3F) (s : State) : Out := alu3 (.sltS64 f) f (fun a b => flag (ltS a b)) s
def execSltZ64 (f : R3F) (s : State) : Out := alu3 (.sltZ64 f) f (fun a b => flag (ltZ a b)) s
def execSltz (f : R3F) (s : State) : Out := alu2 (.sltz f) f (fun a => flag (ltS a 0)) s

/-- SEL reads rd in every case, without a w bit. -/
def execSel (f : R3F) (s : State) : Out :=
  perform s (.sel f) { ops := [bothS f.rd, srcS 1 f.rs1 f.w1, srcS 2 f.rs2 f.w2] } (fun s v => do
    let s ← setReg s f.rd (if sval v 1 ≠ 0 then sval v 2 else sval v 0)
    .ok (s, .seq))

def execLea (sc : BitVec 2) (f : R3F) (s : State) : Out :=
  alu3 (.lea sc f) f (fun a b => a + b <<< sc.toNat) s

/-! ### Full/empty members (R192) -/

/-- SETE and SETF: the bit of rd, once no producer and no fill is pending into it (R161). -/
def markReg (i : Instr) (f : R3F) (full : Bool) (after : State → Nat → State) (s : State) : Out :=
  perform s i { ops := [dstS f.rd] } (fun s _ => do
    let p := physScalar (curStream s).cwp.win f.rd.toNat
    if scalarPending s s.cur p then waitEx .interlock
    .ok (after (modCur s (fun x => smark x p full)) p, .seq))

def execSetf (f : R3F) (s : State) : Out := markReg (.setf f) f true (fun s _ => s) s

/-- TESTFE reads a bit, or whether a queue holds an entry; it pops nothing and never waits. DESIGN CHOICE: it writes rd at once
though an older producer of rd may be pending, whose result then stands there; the spec does not say which value stays (log 89). -/
def execTestfe (f : R3F) (s : State) : Out :=
  let o : Opnd := { pos := 1, code := f.rs1, cls := .scalar, role := .named }
  perform s (.testfe f) { ops := [dstS f.rd, o] } (fun s _ => do
    let full := match queueOf o with
      | some q => !(tget [] (curCtx s).queues q).isEmpty
      | none => sfullAt (curStream s) (physScalar (curStream s).cwp.win f.rs1.toNat)
    -- It never waits, not even for a producer pending into rd (R192).
    .ok (modCur s (fun x => sput x (physScalar x.cwp.win f.rd.toNat) (flag full)), .seq))

/-! ### Immediates (R194-R196) -/

def execAddi (f : I12F) (s : State) : Out := aluI (.addi f) f (fun a => a + sext64 f.imm12) s
def execAndi (f : I12F) (s : State) : Out := aluI (.andi f) f (fun a => a &&& zext64 f.imm12) s
def execOri (f : I12F) (s : State) : Out := aluI (.ori f) f (fun a => a ||| zext64 f.imm12) s
def execXori (f : I12F) (s : State) : Out := aluI (.xori f) f (fun a => a ^^^ zext64 f.imm12) s
/-- The count of an immediate shift (R179). -/
def shiftCount (f : I12F) : Nat := wbits f.imm12 0 6
def execShli (f : I12F) (s : State) : Out := aluI (.shli f) f (fun a => shlOp a (shiftCount f)) s
def execShri (f : I12F) (s : State) : Out := aluI (.shri f) f (fun a => shrOp a (shiftCount f)) s
def execSrai (f : I12F) (s : State) : Out := aluI (.srai f) f (fun a => sraOp a (shiftCount f)) s
def execSlti (f : I12F) (s : State) : Out := aluI (.slti f) f (fun a => flag (ltS a (sext64 f.imm12))) s

def execLui (f : U19F) (s : State) : Out :=
  perform s (.lui f) { ops := [dstS f.rd] } (fun s _ => do
    let s ← setReg s f.rd (sext64 f.imm19 * 4096)
    .ok (s, .seq))

def execLi (f : LF) (s : State) : Out :=
  perform s (.li f) { ops := [dstS f.rd] } (fun s _ => do
    let s ← setReg s f.rd (sext64 f.imm32)
    .ok (s, .seq))

def execLih (f : LF) (s : State) : Out :=
  perform s (.lih f) { ops := [bothS f.rd] } (fun s v => do
    let s ← setReg s f.rd (f.imm32 ++ (sval v 0).setWidth 32)
    .ok (s, .seq))

def execAddl (f : LF) (s : State) : Out :=
  perform s (.addl f) { ops := [dstS f.rd, srcS 1 f.rs1 f.w1] } (fun s v => do
    let s ← setReg s f.rd (sval v 0 + sext64 f.imm32)
    .ok (s, .seq))

end Sys2Proof.Machine
end

