-- ==== Sys2Proof/Machine/Home.lean ====
section
/-!
DEFINITION. Sys2Proof/Machine/Home.lean: writes at their home (R45, R46): stores, the window port with its held writes
(R48, R159, R193), sectors of copies (R274-R276, R381) and their stamps (R276, R280, R281), spills and fills (R157, R158).
-/

namespace Sys2Proof.Machine

/-! ### Register views (R48) -/

/-- Whether a piece goes through the window port of a core: any view past the scratchpad. -/
def windowPiece (g : Seg) : Bool := g.dev == 0 && (coreOfPa g.pa).isSome && decide (0x80000 ≤ g.pa % 0x400000)

/-- The CP stream of a context. -/
def cpOf (n c : Nat) : StreamId := { core := n, ctx := c, ap := false }

/-- Whether a register is full, g0 never: writes to it are discarded. -/
def regFull (s : State) (n c r : Nat) : Bool :=
  let x := getStream s (cpOf n c)
  if r = 0 then false else if r < 200 then sfullAt x r else vfullAt x (r - 200)

/-- Whether a producer or a fill is pending into a register. -/
def regPending (s : State) (n c r : Nat) : Bool :=
  if r < 200 then scalarPending s (cpOf n c) r else vectorPending s (cpOf n c) (r - 200)

/-- Whether the context of a register is pre-empted (R356). -/
def regStopped (s : State) (n c : Nat) : Bool := streamStopped s (cpOf n c)

/-- Whether an arriving write may write its register now, no earlier one being held for it. -/
def regOpen (s : State) (n c r : Nat) : Bool :=
  r == 0 || (!regFull s n c r && !regPending s n c r && !(getCore s n).heldWrites.any (fun h => h.ctx == c && h.reg == r))

/-- A register written by a window write, and full; its first read is an acquire, so no load read before it stands (R139). The
context's replay queue holds no producer of what it then reads (R380). -/
def putRegister (s : State) (n c r : Nat) (d : VReg) : State :=
  let s := modStream s (cpOf n c) (fun x =>
    let x := { x with early := [] }
    if r < 200 then sput x r (d.setWidth 64) else vput x (r - 200) d)
  if (getCtx s n c).producers.isEmpty || decide (r < 200) then s
  else modCtx s n c (fun x => { x with producers := x.producers.filter (· != r - 200) })

/-! ### Stores at their home -/

/-- The row buffers of the cores whose tiles a write meets: those of the tiles are filled again (R98). -/
def dropRows (s : State) (g : Seg) : State := (windowTiles s g.pa g.len).foldl (fun s t => dropBufs s t.1 [t.2]) s

/-- Whether a piece is written as memory with its entries: one of a remote device acts there (log 14). -/
def memoryPiece (g : Seg) : Bool := g.dev == 0 && isMemory (place g.pa)

/-- Pieces of a line written in order, each with its data: neighbouring pieces of memory as one, counted as one access. -/
def storePieces (s : State) (gs : List Seg) (f : Seg → Nat) (drv : Bool) : State :=
  let ms := gs.filter memoryPiece
  let s := ms.foldl (fun s g => dropRows (storeMem s g.pa g.len (f g)) g) s
  (gs.filter (fun g => g.dev == 0 && !isMemory (place g.pa))).foldl (fun s g => viewStore s g.pa g.len (f g) drv) (countPieces s ms)

/-- A piece of a store applied: memory with its entries, or a view. -/
def storePiece (s : State) (g : Seg) (x : Nat) (drv : Bool) : State := storePieces s [g] (fun _ => x) drv

/-- Pieces of a request's line with their data: neighbours in memory joined (R243). -/
def storeLine (s : State) (r : Req) (gs : List Seg) : State :=
  let ms := gs.filter memoryPiece
  storePieces (addTraffic s r.launch gs) (joinPieces ms ++ gs.filter (fun g => !memoryPiece g)) (dataAt r) r.drv

/-- The pieces of a plain store that its home applies next, past the first `k`. -/
def storeAt (s : State) (r : Req) (k : Nat) : State :=
  let gs := nextPieces s r (fun g => !windowPiece g && passes r.todo k g)
  if gs.isEmpty then s else dropPieces (storeLine s r gs) r gs

/-! ### Sectors of copies (R275, R276, R381) -/

/-- Half-bytes added to a set of stretches. -/
def coverAdd (l : List (Nat × Nat)) (a n : Nat) : List (Nat × Nat) :=
  let near := l.filter (fun x => decide (x.1 ≤ a + n ∧ a ≤ x.1 + x.2))
  let lo := near.foldl (fun m x => min m x.1) a
  let hi := near.foldl (fun m x => max m (x.1 + x.2)) (a + n)
  (lo, hi - lo) :: l.filter (fun x => !near.contains x)

/-- The stretch of half-bytes that a destination piece writes. -/
def pieceCover (g : Seg) : Nat × Nat :=
  match g.off % 4 with
  | 1 => (2 * g.pa, 1)
  | 2 => (2 * g.pa + 1, 1)
  | _ => (2 * g.pa, 2 * g.len)

/-- The tiles a CLASSIFY copy has written in full, classified exactly (R275). -/
def classifyFull (s : State) (eng k : Nat) (gs : List Seg) : State :=
  let c := getCopy s eng k
  if !c.desc.classify then s
  else
    let cov := gs.foldl (fun l g => if g.dev = 0 ∧ !(tilesOf s g.pa g.len).isEmpty then coverAdd l (pieceCover g).1 (pieceCover g).2 else l) c.cover
    let s := modCopy s eng k (fun c => { c with cover := cov })
    let full := fun (t : Covered) => cov.any (fun x => decide (x.1 ≤ 2 * t.base ∧ 2 * (t.base + t.bytes) ≤ x.1 + x.2))
    ((gs.flatMap (fun g => tilesOf s g.pa g.len)).eraseDups.filter full).foldl reclassify s

/-- A piece of a sector put at its home, a line of them being one access. -/
def sectorPut (s : State) (g : Seg) (x : Nat) (drv : Bool) : State :=
  if memoryPiece g then dropRows (storeMem s g.pa g.len x) g
  else if g.dev = 0 then viewStore s g.pa g.len x drv
  else s

/-- A sector whose source is poisoned: the copy ends in STATE 7 with CAUSE 6, a fault of a later sector with it, and the firing
that issued it is marked. -/
def sectorPoisoned (s : State) (r : Req) (eng k : Nat) : State :=
  let c := getCopy s eng k
  let s := dropReq s r.id
  let s := if c.state = 4 then withdrawFault s eng k else s
  let s := modCopy s eng k (fun c => { c with failed := true, cause := 6, state := if c.state = 4 then 2 else c.state })
  let s := if eng < 1024 ∧ copyFiring s c then
      modCtx s c.core c.ctx (fun x => { x with firing := x.firing.map (fun f => { f with poisoned := true }) })
    else s
  settleSuspend s eng k

/-- Pieces of a sector that lie in the line of one of them. -/
def sectorLine (gs : List Seg) (g : Seg) : List Seg := gs.filter (fun h => h.dev == g.dev && h.pa / 64 == g.pa / 64)

/-- The first line of a sector's pieces, past the first `j`, of which every piece may be read, or written. -/
def nextLine (s : State) (eng : Nat) (r : Req) (c : Copy) (writes : Bool) (gs : List Seg) (j : Nat) : List Seg :=
  match gs.find? (fun g => passes gs j g && (sectorLine gs g).all (sectorPiece s eng r c writes)) with
  | some g => sectorLine gs g
  | none => []

/-- A sector whose source is read: its data is formed, and its whole registers go on as window writes. -/
def formSector (s : State) (r : Req) (eng k sec : Nat) : State :=
  let data := sectorData (getCopy s eng k) sec r.read
  let reg := fun (g : Seg) => g.dev == 0 && (regView (place g.pa)).isSome
  let s := putReq s { r with formed := some data, todo := r.todo.filter (fun g => !reg g) }
  (r.todo.filter reg).foldl (fun s g =>
    addReq s { r with kind := .regWrite eng k sec, todo := [{ g with off := 0 }], src := [], data := BitVec.ofNat 2048 (pieceData s g data) }) s

/-- A line of a sector's source read; poisoned bytes end the copy, or mark the slots of a channel copy (R381). -/
def sectorRead (s : State) (r : Req) (eng k sec j : Nat) : State :=
  let c := getCopy s eng k
  let gs := nextLine s eng r c false r.src j
  if gs.isEmpty then s
  else
    let bad := (poisonIn s gs).isSome
    if bad && !c.desc.ch then sectorPoisoned (countPieces (addTraffic s c.launch gs) gs) r eng k
    else
      let s := if bad then poisonSlots s c else s
      let x := gatherSrc (addTraffic s c.launch gs) r.read gs
      let r := { r with read := x.1, src := r.src.filter (fun g => !gs.contains g) }
      if r.src.isEmpty then formSector x.2 r eng k sec else putReq x.2 r

/-- A sector all of whose pieces have been written, but for window writes under way. -/
def sectorWritten (s : State) (r : Req) (eng k sec : Nat) : State :=
  sectorDone (noteSector (noteRequest (dropReq s r.id) r [] 0) (getCopy s eng k) sec) eng k sec

/-- A line of a sector's destination written. -/
def sectorWrite (s : State) (r : Req) (eng k sec data j : Nat) : State :=
  let c := getCopy s eng k
  if r.todo.isEmpty then sectorWritten s r eng k sec
  else
    let gs := nextLine s eng r c true r.todo j
    if gs.isEmpty then s
    else
      let s := gs.foldl (fun s g => sectorPut s g (pieceData s g data) r.drv) (countPieces (addTraffic s c.launch gs) (gs.filter memoryPiece))
      let s := classifyFull s eng k gs
      let r := { r with todo := r.todo.filter (fun g => !gs.contains g) }
      if r.todo.isEmpty then sectorWritten s r eng k sec else putReq s r

/-- A sector of a copy: its source is read line by line, then its destination is written line by line, in any order of the lines
(R134, R148). -/
def sectorAt (s : State) (r : Req) (eng k sec j : Nat) : State :=
  match r.formed with
  | some data => sectorWrite s r eng k sec data j
  | none => if r.src.isEmpty then formSector s r eng k sec else sectorRead s r eng k sec j

/-- STORE_AT_HOME. -/
def storeAtHome (s : State) (id : Nat) : State :=
  match namedReq s id with
  | some (r, j) =>
    match r.kind with
    | .store => storeAt s r j
    | .sector eng k sec => sectorAt s r eng k sec j
    | _ => s
  | none => s

def execStoreAtHome (id : Nat) (s : State) : Out := event s (fun s => storeAtHome s id)

/-! ### The window port (R48, R193) -/

/-- Whether a request's piece is held at its port. -/
def heldPiece (s : State) (r : Req) (g : Seg) : Bool :=
  match regView (place g.pa) with
  | some (n, c, q) => (getCore s n).heldWrites.any (fun h => h.id == r.id && h.ctx == c && h.reg == q)
  | none => false

/-- A write of a register arriving at its window port: the register takes it when it is empty with nothing pending into it; else
the port holds it, up to 64 of them. -/
def portWrite (s : State) (r : Req) (g : Seg) (n c q : Nat) : State :=
  if regStopped s n c then s
  else if regOpen s n c q then windowDone (putRegister s n c q (BitVec.ofNat 2048 (dataAt r g))) r g
  else if 64 ≤ (getCore s n).heldWrites.length then s
  else modCore s n (fun k => { k with heldWrites := k.heldWrites ++ [{ ctx := c, reg := q, data := BitVec.ofNat 2048 (dataAt r g), id := r.id }] })

/-- WINDOW_WRITE: a line of a store, or a whole register, arriving at a window port. -/
def windowWrite (s : State) (id : Nat) : State :=
  match namedReq s id with
  | some (r, j) =>
    let ok := match r.kind with
      | .store => true
      | .regWrite eng k _ => r.todo.all (sectorPiece s eng r (getCopy s eng k) true)
      | _ => false
    if !ok then s
    else
      let gs := nextPieces s r (fun g => windowPiece g && !heldPiece s r g && passes r.todo j g)
      match gs with
      | g :: _ =>
        match regView (place g.pa) with
        | some (n, c, q) => portWrite s r g n c q
        | none => dropPieces (storeLine s r gs) r gs
      | [] => s
  | none => s

/-- HELD_WRITE_DELIVERY: a held write, the first for its register, fills it once it is empty. -/
def heldDelivery (s : State) (n i : Nat) : State :=
  let hs := (getCore s n).heldWrites
  match hs[i]? with
  | some h =>
    let first := !(hs.take i).any (fun x => x.ctx == h.ctx && x.reg == h.reg)
    if !first || regFull s n h.ctx h.reg || regPending s n h.ctx h.reg || regStopped s n h.ctx then s
    else
      let s := modCore s n (fun k => { k with heldWrites := k.heldWrites.eraseIdx i })
      let s := putRegister s n h.ctx h.reg h.data
      match findReq s h.id with
      | some r =>
        match r.todo.find? (fun g => regView (place g.pa) == some (n, h.ctx, h.reg)) with
        | some g => windowDone s r g
        | none => s
      | none => s
  | none => s

/-- A write held for a register that has just become empty is delivered in the same cycle (R193). -/
def deliverHeld (s : State) (n c r : Nat) : State :=
  match (getCore s n).heldWrites.findIdx? (fun h => h.ctx == c && h.reg == r) with
  | some i => heldDelivery s n i
  | none => s

/-- SETE (R192): a held write takes the emptied register at once. -/
def execSete (f : R3F) (s : State) : Out :=
  markReg (.sete f) f false (fun s p => if s.cur.ap then s else deliverHeld s s.cur.core s.cur.ctx p) s

def execWindowWrite (id : Nat) (s : State) : Out := event s (fun s => windowWrite s id)
def execHeldWriteDelivery (core idx : Nat) (s : State) : Out := event s (fun s => heldDelivery s core idx)

/-! ### The stamp of a copy (R276, R278, R280, R281) -/

/-- The state a copy ends in, and its cause. -/
def copyEnd (c : Copy) : Nat × Nat :=
  if c.cancel && decide (c.next < c.nsec) then (6, c.cause) else if c.failed then (7, c.cause) else (5, 0)

/-- A checkpoint copy that ends unperformed: its snapshot does not complete (R393). -/
def snapUnperformed (s : State) (c : Copy) : State :=
  match c.snap with
  | some (e, _, _) => modLaunch s e (fun l => { l with snap := { l.snap with broken := true } })
  | none => s

/-- A copy that has ended; the next snapshot record takes the slot it leaves, and its own, once performed, goes on its way. -/
def finishCopy (s : State) (eng k : Nat) : State :=
  let c := getCopy s eng k
  let s := endCopy s eng k (copyEnd c).1 (copyEnd c).2
  let s := if c.snap.isNone then s else if (copyEnd c).1 = 5 then snapPerformed s c else snapUnperformed s c
  if eng < 1024 then nextRecord s eng else s

/-- A stamp that fails translation, or that its target refuses, faults its copy (R281). -/
def stampFaults (s : State) (eng k : Nat) (v : W64) : State := modCopy (faultCopy s eng k v) eng k (fun c => { c with stampFault := true })

/-- Whether a stamp's word may be written: with the engine's edges, and into a register once it is open. -/
def stampOpen (s : State) (eng : Nat) (c : Copy) (r : Req) (g : Seg) : Bool :=
  sectorPiece s eng r c true g &&
    (match (if g.dev = 0 then regView (place g.pa) else none) with
     | some (n, m, q) => !regStopped s n m && regOpen s n m q
     | none => true)

/-- COPY_STAMP: the last write of a copy, once every sector is performed; a stamp that fails translation faults it. -/
def copyStamp (s : State) (eng k : Nat) : State :=
  let c := getCopy s eng k
  if !((c.state == 1 || c.state == 2) && copyEnding c && !sectorsInFlight s eng k && copyOrdered s eng c) || c.suspend || clocksOff s then s
  else if c.stampva = 0 then finishCopy s eng k
  else if copyWaits s eng k c c.stampva.toNat then noteCopy s eng k c c.stampva.toNat
  else
    match copyAddress s eng k c c.stampva.toNat .store with
    | (.error kind, s) => stampFaults s eng k (faultVal kind c.stampva.toNat)
    | (.ok x, s) =>
      match checkTarget s .store x 8 false with
      | some kind => stampFaults s eng k (faultVal kind c.stampva.toNat)
      | none =>
        let g : Seg := { pa := x.pa, len := 8, off := 0, dev := x.dev }
        let r : Req := { id := s.nextId, agent := .copyEngine eng k, kind := .store, todo := [g], drv := c.sup }
        if !stampOpen s eng c r g then s
        else
          let v := wbits c.seq 0 63 + (if (copyEnd c).1 = 5 then 0 else 2 ^ 63)
          let s := match (if x.dev = 0 then regView (place x.pa) else none) with
            | some (n, m, q) => putRegister s n m q (BitVec.ofNat 2048 v)
            | none => storePiece (addTraffic s c.launch [g]) g v c.sup
          finishCopy (noteApplied s (.copyEngine eng k) c.order (homeOf s g) 0) eng k

def execCopyStamp (eng slot : Nat) (s : State) : Out := event s (fun s => copyStamp s eng slot)

/-! ### Spills and fills (R157, R158) -/

/-- The bytes of a spill record: sixteen registers, the full bits, the link. -/
def spillBytes (b : SpillBuf) : Nat :=
  packNat 64 (b.regs.map BitVec.toNat) + 2 ^ 1024 * b.full.toNat + 2 ^ 1088 * b.link.toNat

/-- A spill buffer as a store of its context's CP stream, at its place among the context's accesses. -/
def spillReq (s : State) (n c : Nat) (b : SpillBuf) (gs : List Seg) : Req :=
  { launch := ((getCtx s n c).firing.map (·.launch)).getD 64, id := b.id, agent := .stream (cpOf n c), slot := b.slot, fir := b.fir, kind := .store, todo := gs, byLine := true
    data := BitVec.ofNat 2048 (spillBytes b), path := gs, drv := b.drv }

/-- SPILL_WRITE: the next line of a context's oldest buffer written to its record. What lies in register views goes on as a
window write of the same place in order, and the buffer is free once that is performed. -/
def spillWrite (s : State) (n c : Nat) : State :=
  match (getCtx s n c).spills with
  | [] => s
  | b :: rest =>
    if ctxSaved s n c then s
    else
    let views := b.segs.filter windowPiece
    let put := fun (s : State) (gs : List Seg) => modCtx s n c (fun x => { x with spills := { b with segs := gs } :: rest })
    if b.segs.isEmpty then (if s.reqs.any (fun q => q.id == b.id) then s else modCtx s n c (fun x => { x with spills := rest }))
    else if !views.isEmpty then
      put { s with reqs := s.reqs ++ [spillReq s n c b views] } (b.segs.filter (fun g => !windowPiece g))
    else
      let r := spillReq s n c b b.segs
      let gs := nextPieces s r (fun _ => true)
      let left := b.segs.filter (fun g => !gs.contains g)
      if gs.isEmpty then s
      else
        let s := noteRequest (storeLine s r gs) { r with path := [] } gs 0
        if left.isEmpty && !s.reqs.any (fun q => q.id == b.id) then modCtx s n c (fun x => { x with spills := rest }) else put s left

/-- FILL_ARRIVE: a register of a filled window, with its stored full bit. -/
def fillArrive (s : State) (n c reg : Nat) : State :=
  match (getCtx s n c).fills.find? (fun f => f.reg == reg) with
  | some f =>
    let g := (getCtx s n c).firing
    let r : Req := { id := f.id, agent := .stream (cpOf n c), slot := (g.map (·.slot)).getD 64, fir := (g.map (·.ord)).getD 0, kind := .load, todo := [] }
    if !(pieceReady s r f.val && pieceReady s r f.full) then s
    else
      let v := readRaw s f.val
      let b := readRaw v.2 f.full
      let s := addTraffic (countPieces b.2 [f.val, f.full]) ((g.map (·.launch)).getD 64) [f.val, f.full]
      let s := modStream s (cpOf n c) (fun x => smark (sput x reg (w64 v.1)) reg (b.1.testBit f.bit))
      modCtx s n c (fun x => { x with fills := x.fills.filter (fun g => g.reg != reg) })
  | none => s

def execSpillWrite (core ctx : Nat) (s : State) : Out := event s (fun s => spillWrite s core ctx)
def execFillArrive (core ctx reg : Nat) (s : State) : Out := event s (fun s => fillArrive s core ctx reg)

end Sys2Proof.Machine
end

