-- ==== Sys2Proof/Machine/Queue.lean ====
section
/-!
DEFINITION. Sys2Proof/Machine/Queue.lean: work queues (R335-R343): what a launch processor can take, its serving order,
the four packets, the stop of a queue.
-/

namespace Sys2Proof.Machine

/-! ### Accesses of a launch processor (R338, R352) -/

/-- A word loaded by a launch processor. -/
def lpLoad (s : State) (die asid va : Nat) : Except Nat Nat × State :=
  match lpXlate s die asid va .load 8 with
  | (.error k, s) => (.error k, s)
  | (.ok x, s) =>
    let r := readSeg s { pa := x.pa, len := 8, off := 0, dev := x.dev }
    (.ok r.1, r.2)

/-- The pieces of an access of `n` bytes by a launch processor, or the virtual address of the first failure. DESIGN CHOICE: where
the bytes cross into a page that fails, it is the address at which that page begins (R35; log 84). -/
def lpPieces (fuel : Nat) (s : State) (die asid va n off : Nat) (a : Access) : Except Nat (List Seg) × State :=
  match fuel with
  | 0 => (.ok [], s)
  | f + 1 =>
    if n = 0 then (.ok [], s)
    else
      let k := min n (65536 - va % 65536)
      match lpXlate s die asid va a (min k 8) with
      | (.error _, s) => (.error va, s)
      | (.ok x, s) =>
        match chunks s a x k 0 k off with
        | .error e => (.error (va + e.2), s)
        | .ok gs =>
          match lpPieces f s die asid (va + k) (n - k) (off + 8 * k) a with
          | (.ok hs, s) => (.ok (gs ++ hs), s)
          | (.error v, s) => (.error v, s)

/-- An access of a launch processor as its home sees it. -/
def lpReq (s : State) (die : Nat) (k : ReqKind) (rel : Bool) : Req :=
  { id := s.nextId, agent := .launchProc die, kind := k, todo := [], rel := rel }

/-- Whether the pieces of such an access may be performed now: on live planes, past no page's migration, in the turn of the
tiles they meet, and a release after every earlier access of the launch processor (R139, R109, R362, R388). -/
def lpOpen (s : State) (die : Nat) (k : ReqKind) (rel : Bool) (gs : List Seg) : Bool := gs.all (pieceReady s (lpReq s die k rel))

/-- The first of some addresses that waits for the die's walker joins its walk there (R349). -/
def lpNote (s : State) (die asid : Nat) (vas : List Nat) : State :=
  match vas.find? (lpWaits s die asid) with
  | some va => noteUnit s (.launchProc die) die asid va
  | none => s

/-- Whether `n` bytes at a virtual address may be accessed now, as far as they translate. -/
def lpOpenAt (s : State) (die asid va n : Nat) (a : Access) (k : ReqKind) (rel : Bool) : Bool :=
  !lpWaits s die asid va && !lpWaits s die asid (va + n - 1) &&
  match (lpPieces 3 s die asid va n 0 a).1 with
  | .ok gs => lpOpen s die k rel gs
  | .error _ => true

/-- Pieces stored by a launch processor for a launch, 64 for none: registers go on as window writes. -/
def lpPutPieces (s : State) (die launch : Nat) (gs : List Seg) (x : Nat) (rel : Bool) : State :=
  let view := fun (g : Seg) => g.dev == 0 && (regView (place g.pa)).isSome
  let s := storePieces (addTraffic s launch gs) (gs.filter (fun g => !view g)) (fun g => nbits x g.off (8 * g.len)) false
  (gs.filter view).foldl (fun s g =>
    addReq s { lpReq s die .store rel with launch := launch, todo := [{ g with off := 0 }], data := BitVec.ofNat 2048 (nbits x g.off (8 * g.len)) }) s

/-- A word stored by a launch processor at a translated address. -/
def lpPut (s : State) (die : Nat) (x : Xlated) (v : Nat) (rel : Bool := false) : State :=
  lpPutPieces s die 64 [{ pa := x.pa, len := 8, off := 0, dev := x.dev }] v rel

/-- A word stored by a launch processor at a virtual address, where it translates. -/
def lpStore (s : State) (die asid va v : Nat) (rel : Bool := false) : State :=
  match lpXlate s die asid va .store 8 with
  | (.error _, s) => s
  | (.ok x, s) => lpPut s die x v rel

/-! ### The head of a queue (R336-R338) -/

def getQueue (s : State) (q : Nat) : Queue := tget {} s.dev.queues q

/-- The packet a queue stands at: its index and its eight words, where the queue is served, not stopped, and the slot is valid for
the index. Its reads are counted as served (R374). -/
def queueHead (s : State) (die q : Nat) : Option (Nat × List Nat) × State :=
  let e := getQueue s q
  if !e.en || s.mgmt.power.cur == 2 then (none, s)
  else
    let i := lpLoad s die e.asid (e.ctlb + 8)
    let st := lpLoad i.2 die e.asid (e.ctlb + 16)
    match i.1, st.1 with
    | .ok i, .ok 0 =>
      match lpBytes st.2 die e.asid (e.base + i % 2 ^ e.log2n * 64) 64 with
      | (some bs, s) =>
        let ws := (upFrom 0 8).map (fun k => numOf ((bs.drop (8 * k)).take 8))
        let h := ws.headD 0
        (if h % 256 ≠ 0 ∧ h / 2 ^ 32 = i % 2 ^ 32 then some (i, ws) else none, s)
      | (none, s) => (none, s)
    | _, _ => (none, st.2)

def packetKind (ws : List Nat) : Nat := ws.headD 0 % 256

/-! ### What is wrong with a packet (R339, R342) -/

/-- Whether bytes that no packet names are set. -/
def strayBytes (ws : List Nat) : Bool :=
  let w := fun k => ws.getD k 0
  (w 0 / 256) % 2 ^ 24 != 0 ||
  match packetKind ws with
  | 1 => w 4 / 2 ^ 32 != 0 || (ws.drop 5).any (· != 0)
  | 2 => (ws.drop 2).any (· != 0)
  | 3 | 4 => w 3 / 256 != 0 || (ws.drop 4).any (· != 0)
  | _ => false

/-- The addresses of a packet: the address, its alignment, and the access it is for. -/
def packetAddrs (ws : List Nat) : List (Nat × Nat × Access) :=
  let w := fun k => ws.getD k 0
  match packetKind ws with
  | 1 => [(w 1, 64, .load), (w 2, 8, .store)]
  | 2 => [(w 1, 64, .load)]
  | 3 => [(w 1, 8, .load)]
  | 4 => [(w 1, 8, .store)]
  | _ => []

/-- Whether some address of a packet fails translation. -/
def addrsFail (s : State) (die asid : Nat) (l : List (Nat × Nat × Access)) : Bool × State :=
  l.foldl (fun r a =>
    match lpXlate r.2 die asid a.1 a.2.2 8 with
    | (.error _, s) => (true, s)
    | (.ok _, s) => (r.1, s)) (false, s)

/-- ERR of a packet that cannot be acted on, 0 for one that can: its kind, bytes no packet names and COND, alignment,
translation, in this order (log 33). -/
def packetErr (s : State) (die asid : Nat) (ws : List Nat) : Nat × State :=
  if 5 ≤ packetKind ws then (1, s)
  else if strayBytes ws || (packetKind ws == 3 && decide (2 ≤ ws.getD 3 0 % 4)) then (2, s)
  else if (packetAddrs ws).any (fun a => a.1 % a.2.1 != 0) then (5, s)
  else
    let r := addrsFail s die asid (packetAddrs ws)
    (if r.1 then 3 else 0, r.2)

/-! ### Taking turns (R338, R340, R343, R353) -/

/-- What a WAIT-STAMP stands at: not met, met, or failed with FAILSTOP. -/
inductive WaitMet where
  | no | yes | failed
  deriving DecidableEq, Repr

def waitStamp (s : State) (die asid : Nat) (ws : List Nat) : WaitMet × State :=
  match lpLoad s die asid (ws.getD 1 0) with
  | (.ok v, s) =>
    if 2 ^ 63 ≤ v ∧ (ws.getD 3 0).testBit 2 then (.failed, s)
    else
      let x := v % 2 ^ 63
      let y := ws.getD 2 0 % 2 ^ 63
      (if (if ws.getD 3 0 % 4 = 0 then x == y else decide (y ≤ x)) then .yes else .no, s)
  | (.error _, s) => (.no, s)

/-- Whether the log's next entry is free (R353). -/
def logFree (s : State) : Bool :=
  let l := getLaunch s (s.dev.logWr % 64)
  l.lstate == 0 || l.lstate == 7

/-- Whether a launch processor can take the packet at the head of a queue. -/
def takeable (s : State) (die q : Nat) : Bool :=
  match (queueHead s die q).1 with
  | some (_, ws) =>
    match packetKind ws with
    | 1 => logFree s
    | 2 => (freeCopySlot s (1024 + die)).isSome
    | 3 => (packetErr s die (getQueue s q).asid ws).1 != 0 || (waitStamp s die (getQueue s q).asid ws).1 != .no
    | _ => true
  | none => false

/-- The queue a launch processor takes from next: lowest PRIO, then in turn from after the one last served there. -/
def nextQueue (s : State) (die : Nat) : Option Nat :=
  let ready := (s.dev.queues.filter (fun e => takeable s die e.1)).map (fun e => (e.1, e.2.prio))
  match (upFrom 0 4).find? (fun p => ready.any (fun e => e.2 == p)) with
  | some p =>
    let qs := (ready.filter (fun e => e.2 == p)).map (·.1)
    -- Stored one up, so that 0 tells that none has been served.
    let last := tget 0 (getDie s die).served p
    match qs.find? (fun q => decide (last ≤ q)) with
    | some q => some q
    | none => qs.head?
  | none => none

/-! ### Acting on a packet -/

/-- The queue stopped at a packet (R342). -/
def queueStop (s : State) (die q i err : Nat) : State :=
  let e := getQueue s q
  let s := lpStore s die e.asid (e.ctlb + 16) (256 + err)
  let s := lpStore s die e.asid (e.ctlb + 24) i
  driverEvent s 9 0 0 q 0 (w64 i)

/-- The class of an image in a die's table, or by its header's hint, whose read counts (R38, R374). -/
def launchClass (s : State) (die asid stream : Nat) : Bool × State :=
  match tget 0 (getDie s die).classes (imageKey asid stream) with
  | 0 => match lpBytes s die asid (stream + 4) 4 with
    | (some bs, s) => ((numOf bs).testBit 16, s)
    | (none, s) => (false, s)
  | c => (c == 2, s)

/-- A launch appended to the log (R19, R39, R340). -/
def appendLaunch (s : State) (die q : Nat) (ws : List Nat) : State :=
  let e := getQueue s q
  let cls := launchClass s die e.asid (ws.getD 1 0)
  let compute := cls.1
  let s := cls.2
  let act := activeLaunches s
  let pair := decide (act.length = 1) && act.all (fun x => x.2.lstate == 2 && x.2.compute != compute) &&
    s.dev.launches.all (fun x => x.2.lstate != 1)
  let l : Launch :=
    { packet := ws.map w64, lstate := 1, coloc := pair, fgen := s.dev.fenceGen, asid := e.asid, drv := e.drv
      stampVa := ws.getD 2 0, compute := compute }
  let s := setLaunch s (s.dev.logWr % 64) l
  modDev s (fun d => { d with logWr := (d.logWr + 1) % 2 ^ 64 })

/-- A COPY packet's copy on the engine of the launch processor (R341). -/
def packetCopy (s : State) (die q i : Nat) (ws : List Nat) : State :=
  let e := getQueue s q
  match freeCopySlot s (1024 + die), lpBytes s die e.asid (ws.getD 1 0) 128 with
  | some k, (some bs, s) =>
    let d := CopyDesc.ofWords ((upFrom 0 16).map (fun j => w64 (numOf ((bs.drop (8 * j)).take 8))))
    startCopy s (1024 + die) k (newCopy s (1024 + die) k d { asid := e.asid, sup := e.drv })
  | _, (none, s) => queueStop s die q i 3
  | none, (some _, s) => s

/-- A SIGNAL's store and its datagrams (R340). -/
def packetSignal (s : State) (die q : Nat) (ws : List Nat) : State :=
  let e := getQueue s q
  let s := lpStore s die e.asid (ws.getD 1 0) (ws.getD 2 0) true
  if (ws.getD 3 0).testBit 0 then
    notifyAll s (fun x => x.asid == e.asid && x.mask.testBit 0) (w64 (ws.getD 1 0)) (bytesOf 8 (ws.getD 2 0))
  else s

/-- The taker's act on a packet that can be acted on. -/
def packetAct (s : State) (die q i : Nat) (ws : List Nat) : State :=
  match packetKind ws with
  | 1 => appendLaunch s die q ws
  | 2 => packetCopy s die q i ws
  | 3 =>
    let r := waitStamp s die (getQueue s q).asid ws
    if r.1 = .failed then queueStop r.2 die q i 4 else r.2
  | _ => packetSignal s die q ws

/-- Whether the accesses that taking a packet makes may be performed now: RDIDX, STATUS and ERRIDX, the slot, and what the packet
has read or stored. -/
def packetOpen (s : State) (die q i : Nat) (ws : List Nat) : Bool :=
  let e := getQueue s q
  let at_ := lpOpenAt s die e.asid
  at_ (e.ctlb + 8) 24 .store .store false && at_ (e.base + i % 2 ^ e.log2n * 64) 64 .load .load false &&
    match packetKind ws with
    | 2 => at_ (ws.getD 1 0) 128 .load .load false
    | 3 => at_ (ws.getD 1 0) 8 .load .load false
    | 4 => at_ (ws.getD 1 0) 8 .store .store true
    | _ => true

/-- The addresses of those accesses, by their ends. -/
def packetVas (s : State) (q i : Nat) (ws : List Nat) : List Nat :=
  let e := getQueue s q
  let slot := e.base + i % 2 ^ e.log2n * 64
  [e.ctlb + 8, e.ctlb + 31, slot, slot + 63] ++ (match packetKind ws with
    | 2 => [ws.getD 1 0, ws.getD 1 0 + 127]
    | 3 | 4 => [ws.getD 1 0, ws.getD 1 0 + 7]
    | _ => [])

/-- RDIDX advanced past a packet, and the packet acted on, or its queue stopped (R338, R342). -/
def takeHead (s : State) (die q i : Nat) (ws : List Nat) : State :=
  let e := getQueue s q
  match lpXlate s die e.asid (e.ctlb + 8) .atomic 8 with
  | (.error _, s) => s
  | (.ok x, s) =>
    let s := lpPut s die x ((i + 1) % 2 ^ 64)
    let s := modDie s die (fun d => { d with served := tset 0 d.served e.prio (q + 1) })
    let err := packetErr s die e.asid ws
    if err.1 = 0 then packetAct err.2 die q i ws else queueStop err.2 die q i err.1

/-- A visit of a launch processor to a queue (R338): the packet there is taken where the queue is next in the serving order and the
packet is of one of `kinds`. A visit that finds nothing to take is a poll, whose reads count (R374; log 35); one whose accesses
wait for a walker joins its walk (R349). -/
def takePacket (s : State) (die q : Nat) (kinds : Nat → Bool) : State :=
  if 4 ≤ die then s
  else
    match queueHead s die q with
    | (none, t) => t
    | (some (i, ws), t) =>
      if !kinds (packetKind ws) then s
      else if takeable s die q then
        if nextQueue s die ≠ some q then t
        else if packetOpen s die q i ws then takeHead t die q i ws
        else lpNote s die (getQueue s q).asid (packetVas s q i ws)
      else if packetKind ws = 3 then (waitStamp t die (getQueue s q).asid ws).2
      else t

def execLaunchPacket (die queue : Nat) (s : State) : Out := event s (fun s => takePacket s die queue (· == 1))
def execCopyPacket (die queue : Nat) (s : State) : Out := event s (fun s => takePacket s die queue (· == 2))
def execWaitStampPacket (die queue : Nat) (s : State) : Out := event s (fun s => takePacket s die queue (· == 3))
def execSignalPacket (die queue : Nat) (s : State) : Out := event s (fun s => takePacket s die queue (· == 4))
def execUnallocatedKindPacket (die queue : Nat) (s : State) : Out :=
  event s (fun s => takePacket s die queue (fun k => decide (5 ≤ k)))

end Sys2Proof.Machine
end

