-- ==== Sys2Proof/Machine/Stamps.lean ====
section
/-!
DEFINITION. Sys2Proof/Machine/Stamps.lean: sinks (R35) and launch stamps (R36, R360).
-/

namespace Sys2Proof.Machine

/-! ### Sinks (R35) -/

/-- A sink as the consumer end of a channel. -/
def sinkPort (n k cons : Nat) : Port := { output := false, count := 1, core := n, ch := k, cons := cons }

/-- The sink at a consumer number: its number in the image, data slots and end-of-stream tokens counted. -/
def sinkAt (c : Chan) (cons : Nat) : Option (Nat × Nat × Nat) := (c.sinks.find? (fun x => x.1 == cons)).map (·.2)

def setSink (c : Chan) (cons : Nat) (x : Nat × Nat × Nat) : Chan :=
  { c with sinks := c.sinks.map (fun y => if y.1 = cons then (cons, x) else y) }

/-- The place of data slot `j` of a sink in its buffer, as pieces, or the address of the first failure; none where nothing is
stored. -/
def sinkPieces (s : State) (n buffer j : Nat) (c : Chan) : Option (Except Nat (List Seg) × State) :=
  if buffer = 0 then none
  else some (lpPieces 3 s (dieOf n) (getLaunch s c.launch).asid (buffer + j * (prodRing c).z) (prodRing c).z 0 .store)

/-- The ends of that place. -/
def sinkVas (buffer j : Nat) (c : Chan) : List Nat :=
  if buffer = 0 then [] else [buffer + j * (prodRing c).z, buffer + (j + 1) * (prodRing c).z - 1]

/-- Whether a sink's store waits: for the walker, for its home, or for a plane of the slot it reads. -/
def sinkWaits (s : State) (n buffer j seq : Nat) (c : Chan) : Bool :=
  (sinkVas buffer j c).any (lpWaits s (dieOf n) (getLaunch s c.launch).asid) ||
  match sinkPieces s n buffer j c with
  | some (.ok gs, _) =>
    !lpOpen s (dieOf n) .store false gs || !lpOpen s (dieOf n) .load false [{ pa := payloadPa (prodRing c) seq, len := (prodRing c).z, off := 0 }]
  | _ => false

/-- A data slot stored whole at its place in the sink's buffer; a store that fails ends the launch. -/
def sinkStore (s : State) (n buffer j seq : Nat) (c : Chan) : State :=
  match sinkPieces s n buffer j c with
  | none => s
  | some (.error v, s) => failLaunch s c.launch { code := 6, addr := w64 v }
  | some (.ok gs, s) =>
    let r := prodRing c
    let x := memRead s (payloadPa r seq) r.z
    let slot : Seg := { pa := payloadPa r seq, len := r.z, off := 0 }
    lpPutPieces (countPieces (addTraffic s c.launch [slot]) [slot]) (dieOf n) c.launch gs x false

/-- Whether a sink acts: its launch runs on the producer's core, the token is no poisoned one. -/
def sinkToken (s : State) (n k cons : Nat) : Option (Chan × Nat × W64 × (Nat × Nat × Nat)) :=
  match getChan s n k with
  | some c =>
    match sinkAt c cons, headOf s (sinkPort n k cons) with
    | some x, some (seq, h) => if (getLaunch s c.launch).lstate = 2 ∧ !coreStopped s c.launch n then some (c, seq, h, x) else none
    | _, _ => none
  | none => none

/-- SINK_DATA_SLOT: the next token that is no end-of-stream; only data slots are counted and stored. -/
def sinkDataSlot (s : State) (n k cons : Nat) : State :=
  match sinkToken s n k cons with
  | some (c, seq, h, x) =>
    let buffer := ((getLaunch s c.launch).image.sinks[x.1]?.map (·.buffer)).getD 0
    if hdrKind h = 1 then s
    else if hdrKind h = 0 ∧ sinkWaits s n buffer x.2.1 seq c then
      lpNote s (dieOf n) (getLaunch s c.launch).asid (sinkVas buffer x.2.1 c)
    else
      let s := if hdrKind h = 0 then
          let s := sinkStore s n buffer x.2.1 seq c
          modChan s n k (fun c => setSink c cons (x.1, x.2.1 + 1, x.2.2))
        else s
      takeOne s (sinkPort n k cons)
  | none => s

/-- SINK_END_OF_STREAM: one more token counted; at the expected count the sink is complete. -/
def sinkEndOfStream (s : State) (n k cons : Nat) : State :=
  match sinkToken s n k cons with
  | some (c, _, h, x) =>
    if hdrKind h ≠ 1 then s
    else
      let s := modChan (takeOne s (sinkPort n k cons)) n k (fun c =>
        { setSink c cons (x.1, x.2.1, x.2.2 + 1) with eosc := Nat.lor c.eosc (2 ^ cons) })
      let want := ((getLaunch s c.launch).image.sinks[x.1]?.map (·.expect)).getD 0
      if x.2.2 + 1 = want then modLaunch s c.launch (fun l => { l with sinksLeft := l.sinksLeft - 1 }) else s
  | none => s

def execSinkDataSlot (core ch cons : Nat) (s : State) : Out := event s (fun s => sinkDataSlot s core ch cons)
def execSinkEndOfStream (core ch cons : Nat) (s : State) : Out := event s (fun s => sinkEndOfStream s core ch cons)

/-! ### The launch stamp (R36, R360) -/

/-- Value of a launch's stamp. -/
def stampValue (l : Launch) : Nat := wbits (l.packet.getD 3 0) 0 63 + (if l.failed then 2 ^ 63 else 0)

/-- The stamp written as the launch's last act, or event 0x0B where its address does not translate; the launch has then
ended, and what it held is free. -/
def writeStamp (s : State) (e : Nat) : State :=
  let l := getLaunch s e
  let die := homeDie l
  let va := w64 l.stampVa
  if lpWaits s die l.asid l.stampVa then noteUnit s (.launchProc die) die l.asid l.stampVa
  else
    match lpXlate s die l.asid l.stampVa .store 8 with
    | (.error k, s) => freeLaunch (driverEvent s 0xB 0 0 e va (faultVal k l.stampVa)) e
    | (.ok x, t) =>
      if !lpOpen t die .store true [{ pa := x.pa, len := 8, off := 0, dev := x.dev }] then s
      else
        let t := lpPut t die x (stampValue l) true
        let t := if l.failed then driverEvent t 0xA 0 0 e va (w64 l.err.code) else t
        freeLaunch t e

/-- COMPLETION_STAMP: of a launch that has completed or failed; a killed one has its own event. -/
def completionStamp (s : State) (e : Nat) (killed : Bool) : State :=
  let l := getLaunch s e
  if stampReady s e && ((l.failed && l.err.code == 0x16) == killed) then writeStamp s e else s

def execCompletionStamp (launch : Nat) (s : State) : Out := event s (fun s => completionStamp s launch false)
def execKillStamp (launch : Nat) (s : State) : Out := event s (fun s => completionStamp s launch true)

end Sys2Proof.Machine
end

