-- ==== Sys2Proof/Machine/Ras.lean ====
section
/-!
DEFINITION. Sys2Proof/Machine/Ras.lean: refresh (R71), the scrubber (R381, R385), link retry and error injection
(R145, R386, R387), sensors and telemetry (R391, R392).
-/

namespace Sys2Proof.Machine

/-! ### Refresh (R71) -/

/-- A saturating 64-bit count of one more. -/
def satInc (n : Nat) : Nat := min (2 ^ 64 - 1) (n + 1)

/-- REFRESH: a command postponed; or, at the limit, one that takes precedence and splits a copy burst. -/
def refresh (s : State) (k : Nat) (splits : Bool) : State :=
  if 8 ≤ k then s
  else modStack s k (fun x => if splits then { x with splitcnt := satInc x.splitcnt } else { x with refpostcnt := satInc x.refpostcnt })

def execRefresh (stack : Nat) (splits : Bool) (s : State) : Out := event s (fun s => refresh s stack splits)

/-! ### The scrubber (R381, R385) -/

/-- A unit or word that the scrubber reads: HBM of 32 bytes, SRAM of 8. -/
def scrubUnit (pa : Nat) : Bool := isMemory (place pa) && unitBase pa == pa

/-- An uncorrectable error: its unit is poisoned, and logged under its stack or core. -/
def poisonUnit (s : State) (pa : Nat) : State :=
  if s.dev.poison.contains pa then s
  else
    let s := modDev s (fun d => { d with poison := d.poison ++ [pa] })
    let unit := if pa < hbmEnd then (stackOf s.dev pa).1 else 0
    logError s 3 unit ((coreOfPa pa).getD 0) 0 (w64 pa) 0

/-- SCRUB_READ: what the scrubber finds in the unit is the environment's (log 19). -/
def scrubRead (s : State) (pa : Nat) (found : EccResult) : State :=
  if !scrubUnit pa then s
  else
    match found with
    | .clean => s
    | .corrected =>
      if s.dev.scrubs.any (fun e => e.1 == pa) then s
      else modDev (countCorrected s (if pa < hbmEnd then 1 else 0)) (fun d => { d with scrubs := d.scrubs ++ [(pa, false)] })
    | .uncorrectable => poisonUnit s pa

/-- SCRUB_WRITEBACK: applied, which changes no value, or dropped after a write, when the scrubber rereads. -/
def scrubWriteback (s : State) (pa : Nat) : State :=
  match s.dev.scrubs.find? (fun e => e.1 == pa) with
  | some (_, true) =>
    modDev (countCorrected s 4) (fun d => { d with scrubs := d.scrubs.map (fun e => if e.1 = pa then (pa, false) else e) })
  | some (_, false) => modDev s (fun d => { d with scrubs := d.scrubs.filter (fun e => e.1 != pa) })
  | none => s

def execScrubRead (addr : Nat) (found : EccResult) (s : State) : Out := event s (fun s => scrubRead s addr found)
def execScrubWriteback (addr : Nat) (s : State) : Out := event s (fun s => scrubWriteback s addr)

/-! ### Links (R145, R386, R387) -/

/-- The injector after a flit on a lane, and whether it acts on that flit. -/
def injectFlit (x : Injector) (lane : Nat) : Injector × Bool :=
  if !x.arm || x.lane != lane then (x, false)
  else if x.seen + 1 < x.n then ({ x with seen := x.seen + 1 }, false)
  else ({ x with seen := x.seen + 1, arm := false }, true)

/-- A flit that failed: it is replayed, and after 16 failed replays in a row its plane is lost. -/
def flitFailed (s : State) (g : Nat) : State :=
  let k := tget {} s.dev.links g
  let s := modDev s (fun d => { d with links := tset {} d.links g { k with replays := if k.replays = 16 then 0 else k.replays + 1 } })
  if k.replays = 16 then planeDeadSet s (1#8 <<< (g % 8)) else countCorrected s 3

/-- A delay of an injector holds a lane group's flits (R387). -/
def holdFlits (s : State) (g cycles : Nat) : State :=
  modDev s (fun d => { d with links := tset {} d.links g { tget {} d.links g with heldUntil := s.cycle + cycles } })

/-! #### Requests of a remote device (R144, R15, R371) -/

/-- The stretch that a remote device's request names, with the access it makes of it. -/
def remoteStretch (o : RemoteOp) : Option (Access × Nat × Nat) :=
  match o with
  | .none | .hit _ => none
  | .store pa bs => some (.store, pa, bs.length)
  | .load pa n _ => some (.load, pa, n)
  | .atomic _ pa n _ _ _ => some (.atomic, pa, n)
  | .fibre hdr _ _ => some (.fibre, hdr, 64)
  | .barrier pa _ _ _ => some (.barrier, pa, 8)

/-- The address a request travels by: its target's, or the monitored word's for a hit. -/
def remotePa (s : State) (o : RemoteOp) : Nat :=
  match o with
  | .hit w => (getStream s w).monitor.pa
  | o => ((remoteStretch o).map (·.2.1)).getD 0

/-- Whether the home of a remote request accepts it: within one line, of a shape its target takes, of a stack in service. -/
def remoteFits (s : State) (o : RemoteOp) : Bool :=
  match remoteStretch o with
  | none => true
  | some (a, pa, n) =>
    let shape := match a with
      | .atomic => (n == 4 || n == 8) && pa % n == 0
      | .fibre | .barrier => pa % 64 == 0
      | _ => decide (1 ≤ n ∧ pa % 64 + n ≤ 64)
    shape && (refuse a (place pa) pa n (a == .fibre) false true).isNone && !stackOut s pa

/-- A request of a remote device put in flight to its home here. -/
def remoteReq (s : State) (dev : Nat) (k : ReqKind) (pa n data : Nat) (dest : Dest) : State :=
  let g : Seg := { pa := pa, len := n, off := 0 }
  addReq s { id := 0, agent := .remote dev, kind := k, todo := [g], path := [g], data := BitVec.ofNat 2048 data, dest := dest }

/-- What a barrier object answers a remote member: 0 BAR.INIT, 1 BAR.ARR, else BAR.WAIT's read. A member that traps answers
2^63 and what its trap tells: TRAPVAL, and 2^62 for the wrong phase (R250). -/
def barrierAnswer (x : Barrier) (member : Nat) (v : W64) : Barrier × Nat :=
  match member with
  | 0 =>
    if v.toNat < 1 ∨ 4096 < v.toNat then (x, 2 ^ 63 + v.toNat % 2 ^ 62)
    else match barInitOn x v.toNat with
      | .ok y => (y, 0)
      | .error a => (x, 2 ^ 63 + a)
  | 1 =>
    if 1 < v.toNat then (x, 2 ^ 63 + v.toNat % 2 ^ 62)
    else if x.count = 0 then (x, 2 ^ 63)
    else if v.toNat ≠ bit x.phase then (x, 2 ^ 63 + 2 ^ 62 + bit x.phase)
    else (arrive x, x.arrived)
  | _ => (x, bit x.phase)

/-- A barrier member of a remote device acts at its object; its answer is the response. -/
def remoteBarrier (s : State) (dev pa member : Nat) (v : W64) (tag : Nat) : State :=
  match place pa with
  | .barrier k b _ =>
    let r := barrierAnswer (getBarrier s k b) member v
    let s := modDev (setBarrier s k b r.1) (fun d => { d with responses := d.responses ++ [(dev, tag, BitVec.ofNat 2048 r.2)] })
    (takeId (noteApplied s (.remote dev) s.nextId (.cluster k) (BitVec.ofNat 2048 r.2))).2
  | _ => s

/-- A request of a remote device arriving at this one (R144). -/
def remoteArrives (s : State) (dev : Nat) (o : RemoteOp) : State :=
  match o with
  | .none => s
  | .store pa bs => remoteReq s dev .store pa bs.length (numOf bs) .none
  | .load pa n tag => remoteReq s dev .load pa n 0 (.link dev tag)
  | .atomic op pa n b e tag => remoteReq s dev (.atomic op b e) pa n 0 (.link dev tag)
  | .fibre hdr op tag => addFReq s { id := 0, agent := .remote dev, core := 0, launch := 64, asid := 0, hdr := hdr, va := hdr, op := op, dest := .link dev tag }
  | .barrier pa member v tag => remoteBarrier s dev pa member v tag
  | .hit w =>
    modStream s w (fun x =>
      if x.monitor.armed && x.monitor.placed && x.monitor.dev == dev + 1 then { x with monitor := { x.monitor with hit := true } } else x)

/-- Whether a request must still wait at this device's end of the link: a barrier member behind an access of its device to the
object (R137). -/
def remoteWaits (s : State) (dev : Nat) (o : RemoteOp) : Bool :=
  match o with
  | .barrier pa _ _ _ => s.reqs.any (fun q => q.agent == .remote dev && segsMeet q.todo [{ pa := pa, len := 64, off := 0 }])
  | _ => false

/-- A flit received in sequence; its device is reachable (log 14). A lane group carries requests of its own plane alone (R15). -/
def flitGood (s : State) (f : Flit) : State :=
  let s := modDev s (fun d =>
    let k := tget {} d.links f.group
    { d with
      links := tset {} d.links f.group { k with replays := 0, expected := k.expected + 1 }
      reachable := if 8 ≤ f.group || d.reachable.contains f.dev then d.reachable else d.reachable ++ [f.dev] })
  if f.group < 8 ∧ planeOf s.dev (remotePa s f.request) = f.group ∧ remoteFits s f.request then remoteArrives s f.dev f.request else s

/-- LINK_FLIT: groups 0 to 7 are the Rolest lane groups, 8 + 8d + p the link of plane p from die d. Nothing travels on a dead
plane. A flit out of sequence is dropped, and so does not count toward the replays of the one awaited (R145, R386). One that an
injector breaks or deletes, or that fails its CRC, is resent; one
that an injector delays, and every later flit of its lane group, comes by a LINK_FLIT once the delay is over (R387). -/
def linkFlit (s : State) (f : Flit) : State :=
  if 40 ≤ f.group ∨ 6 ≤ f.lane ∨ 512 ≤ f.dev ∨ s.cycle < (tget {} s.dev.links f.group).heldUntil ∨ s.dev.dead.getLsbD (f.group % 8) ∨ remoteWaits s f.dev f.request then s
  else
    let x := injectFlit (tget {} s.dev.injectors f.group) f.lane
    let s := modDev s (fun d => { d with injectors := tset {} d.injectors f.group x.1 })
    if x.2 && x.1.mode == 3 && x.1.delay != 0 then holdFlits s f.group x.1.delay
    else if f.seq ≠ (tget {} s.dev.links f.group).expected then s
    else if (x.2 && (x.1.mode == 1 || x.1.mode == 2)) || !f.crcOk then flitFailed s f.group
    else flitGood s f

def execLinkFlit (f : Flit) (s : State) : Out := event s (fun s => linkFlit s f)

/-! ### Sensors and telemetry (R391, R392) -/

/-- A sensor's limit in 1/16 °C: compute dies 110, the IOD 105, stacks 95. -/
def sensorLimit (k : Nat) : Option Nat :=
  if k < 4 then some 1760 else if k = 4 then some 1680 else if 8 ≤ k ∧ k < 16 then some 1520 else none

/-- A sample above TWARN sets THWARN and interrupts the driver once, until THWARN is cleared. -/
def warnSample (s : State) (k x : Nat) : State :=
  let p := s.mgmt.power
  if p.thwarn || decide (x ≤ p.twarn) then s
  else driverEvent (modMgmt s (fun m => { m with power := { m.power with thwarn := true } })) 8 0 0 k 0 (w64 x)

/-- An attempt record appended to the flash's ring of eight (R372). -/
def appendAttempt (s : State) (counter cause stage : Nat) : State :=
  let a : Attempt := { counter := counter, cause := cause, stage := stage, time := s.time }
  modMgmt s (fun m => { m with flash := { m.flash with attempts := (m.flash.attempts ++ [a]).drop (m.flash.attempts.length - 7) } })

/-- An attempt that ends at a cause code: its record, and nothing more of the start sequence (R363, R372). -/
def failStart (s : State) (cause : Nat) : State :=
  let s := appendAttempt s s.mgmt.flash.counter cause s.mgmt.boot.stage
  modMgmt s (fun m => { m with boot := { m.boot with finished := true, cause := cause, fails := min 3 m.flash.counter } })

/-- A thermal trip: the clocks stop, THERMSTAT, the NOTIFY to every driver session, and the end of an unfinished
start. -/
def trip (s : State) (k x : Nat) : State :=
  let t := w64 (k + x % 65536 * 65536)
  let s := modMgmt s (fun m => { m with power := { m.power with thermstat := t, tripped := true } })
  let a := takeFree s
  let s := notifyAll a.2 (fun y => y.driver) a.1 (bytesOf 8 (0xFFFFFFFF00000000 ||| t.toNat))
  let b := s.mgmt.boot
  if 1 ≤ b.stage ∧ !b.finished ∧ !b.cleared ∧ !b.sprout then failStart s 9 else s

/-- SENSOR_SAMPLE: the sensors are sampled after a trip too, which stops no management core; a device that has tripped trips no
second time (R391; log 64). -/
def sensorSample (s : State) (k x : Nat) : State :=
  match sensorLimit k with
  | some limit =>
    let s := warnSample s k (x % 65536)
    if limit < x % 65536 && !s.mgmt.power.tripped then trip s k (x % 65536) else s
  | none => s

/-- The sensor whose temperature a telemetry word holds. -/
def telemetrySensor (i : Nat) : Option Nat := if i < 5 then some i else if 8 ≤ i ∧ i < 16 then some i else none

/-- TELEMETRY_REFRESH: words 0 to 20 as measured, temperatures of 16 bits; each is written by itself, after a trip too, when HQT goes on
serving the block (R391, R392). -/
def telemetryRefresh (s : State) (words : List Nat) : State :=
  let put := fun (s : State) (e : Nat × Nat) =>
    let temp := (telemetrySensor e.1).isSome
    let used := temp || decide (16 ≤ e.1 ∧ e.1 < 21)
    if used then
      modMgmt s (fun m => { m with power := { m.power with
        telemetry := tset 0 m.power.telemetry e.1 (if temp then w64 (e.2 % 65536) else w64 e.2) } })
    else s
  ((upFrom 0 21).zip words).foldl put s

def execSensorSample (sensor sample : Nat) (s : State) : Out := .next (sensorSample s sensor sample)
def execTelemetryRefresh (words : List Nat) (s : State) : Out := .next (telemetryRefresh s words)

end Sys2Proof.Machine
end

