-- ==== Sys2Proof/Machine/Boot.lean ====
section
/-!
DEFINITION. Sys2Proof/Machine/Boot.lean: the start sequence (R363-R373), power loss, attestation (R368).
-/

namespace Sys2Proof.Machine

/-! ### Power-up and power loss -/

/-- The machine after its power went, or after a reset without power loss: the flash stays, with the model's own fields; HBM
contents are undefined (log 23). -/
def losePower (s : State) (unpowered : Bool) : State :=
  { State.reset with
    mgmt := { flash := s.mgmt.flash, unpowered := unpowered, kems := s.mgmt.kems, outbox := s.mgmt.outbox }
    turns := s.turns, agenda := s.agenda, drain := s.drain, ahead := s.ahead, tick := s.tick
    epoch := s.epoch + 1, openCnt := s.openCnt, nextId := s.nextId }

/-- Whether nothing has run since the machine's reset. -/
def freshlyReset (s : State) : Bool := s.mgmt.boot == {} && !s.mgmt.power.tripped

def modFlash (s : State) (f : Flash → Flash) : State := modMgmt s (fun m => { m with flash := f m.flash })
def modBoot (s : State) (f : Boot → Boot) : State := modMgmt s (fun m => { m with boot := f m.boot })

/-! ### What the steps verify (R365-R368) -/

/-- A digest as the 32 bytes that are signed or hashed on. -/
def digestBytes (x : List Byte) : List Byte := bytesOf 32 (Config.sha3_256 x)

/-- One step of the measurement chain (R368). -/
def measure (m x : List Byte) : List Byte := digestBytes (m ++ digestBytes x)

/-- The first 64 bytes of the first-stage header, and the LENGTH bytes of the image after it (R365; their layout: log 18). -/
def headBytes (f : FlashImage) : List Byte := Config.headerBytes f.magic f.svn f.length
def codeBytes (f : FlashImage) : List Byte := (Config.imageBytes f.code f.recordKeys).take f.length

/-- The first-stage image as it is measured: its header with key and signature, and its code (R365, R368). -/
def firstStage (f : FlashImage) : List Byte := headBytes f ++ f.key ++ f.sig ++ codeBytes f

/-- The cause that verifying the first-stage image ends at, 0 where it is accepted (R365, R366, R372). -/
def firmwareCause (f : Flash) (reads : Bool) : Nat :=
  let i := f.contents
  if !reads then 4
  else if Config.sha3_256 i.key ≠ Config.horpolKeyHash then 2
  else if !Config.mldsaVerify i.key (digestBytes (headBytes i ++ codeBytes i)) i.sig then 1
  else if i.svn.toNat < f.minsvn then 3
  else 0

/-- Whether a configuration record verifies: under a key of the first-stage image, the operator record under the Horpol
key (R365, R333). -/
def recordVerified (f : FlashImage) (r : ConfigRec) : Bool :=
  (if r.content.operators.isSome then Config.sha3_256 r.key == Config.horpolKeyHash else f.recordKeys.contains r.key) &&
    Config.mldsaVerify r.key (digestBytes (Config.recordBytes r.content)) r.sig

/-- The identity's seed (R367), where the response is reconstructed. -/
def rebuildIdentity (f : Flash) : Option Nat :=
  (Config.pufResponse f.helper).map (fun r =>
    Config.sha3_256 (([0x59, 0x41, 0x4C, 0x52, 0x4F, 0x54, 0x48, 0x2D, 0x49, 0x44] : List Byte) ++ r))

/-! ### The steps (R363) -/

/-- Step 1 before the counter moves: an attempt that was interrupted gets its record (R372). -/
def noteInterrupted (s : State) : State :=
  let f := s.mgmt.flash
  let newest := (f.attempts.getLast?.map (·.counter)).getD 0
  if newest < f.counter then
    let t := takeFree s
    let a : Attempt := { counter := f.counter, cause := 0xA, stage := 0xF, time := t.1.toNat }
    modFlash t.2 (fun f => { f with attempts := (f.attempts ++ [a]).drop (f.attempts.length - 7) })
  else s

/-- Cause of the newest failed attempt on record, 0 if none. -/
def lastCause (f : Flash) : Nat := ((f.attempts.reverse.find? (fun a => a.cause != 0)).map (·.cause)).getD 0

/-- Sprout mode (R373): the identity rebuilt, Ethernet port 0 up, and no later step. -/
def enterSprout (s : State) : State :=
  let id := rebuildIdentity s.mgmt.flash
  modMgmt (modBoot s (fun b => { b with stage := 1, sprout := true, fails := 3, cause := lastCause s.mgmt.flash, finished := true }))
    (fun m => { m with identity := id, portsUp := 1 })

/-- Cores of a cluster in the fence map. -/
def clusterCores (k : Nat) : BitVec 1024 := ((BitVec.allOnes 64).setWidth 1024) <<< (64 * k)

/-- What the records say. -/
def contents (s : State) : List RecordContent := s.mgmt.flash.contents.records.map (·.content)

/-- Macros of a core out of service by the records (R9). -/
def macrosOutOf (s : State) (n : Nat) : Nat := (contents s).foldl (fun m r => m + tget 0 r.macrosOut n) 0

/-- Step 4: the INTERVALs (R112), the spare macros left (R9, R112), and the fence map, to which every unqualified cluster's cores
belong (R371). DESIGN CHOICE: records that put more than a core's two spares out of service, of which the spec says nothing, leave
SPARES at 0 and its slots as they are (log 91). -/
def applyRecords (s : State) : State :=
  let put := fun (s : State) (n : Nat) (f : Core → Core) => if n < 1024 then modCore s n f else s
  let s := (contents s).foldl (fun s r => r.intervals.foldl (fun s e => put s e.1 (fun c => { c with interval := e.2 % 65536 })) s) s
  let s := (contents s).foldl (fun s r => r.macrosOut.foldl (fun s e => put s e.1 (fun c => { c with spares := c.spares - e.2 })) s) s
  advanceFence s (fun _ => BitVec.allOnes 1024)

/-- Step 5, both Ethernet ports up and HQT open, and the beginning of step 6. -/
def beginUnits (s : State) : State :=
  modMgmt (modBoot s (fun b => { b with stage := 6 })) (fun m => { m with portsUp := 3 })

/-- Step 4: the records read, verified, measured and applied; then the later images are measured (R365, R368). -/
def startRecords (s : State) (env : StartEnv) : State :=
  let f := s.mgmt.flash.contents
  let s := modBoot s (fun b => { b with stage := 4 })
  if !env.recordsRead then failStart s 4
  else if f.records.all (recordVerified f) then
    let m := f.records.foldl (fun m r => measure m (Config.recordBytes r.content)) s.mgmt.measurement
    beginUnits (applyRecords (modMgmt s (fun g => { g with measurement := f.later.foldl measure m })))
  else failStart s 6

/-- Steps 3 to 6, once the first-stage image is accepted. -/
def startFirmware (s : State) (env : StartEnv) : State :=
  let f := s.mgmt.flash
  let s := modBoot s (fun b => { b with stage := 3 })
  if !env.helperReads then failStart s 4
  else
    match rebuildIdentity f with
    | none => failStart s 5
    | some seed =>
      startRecords (modMgmt s (fun g => { g with identity := some seed, measurement := measure (List.replicate 32 0) (firstStage f.contents) })) env

/-- Steps 1 to 6. A start is cold where the module has been without power (R370). -/
def startDevice (s : State) (env : StartEnv) : State :=
  let s := modBoot s (fun b => { b with cold := s.mgmt.unpowered })
  let s := noteInterrupted (modMgmt s (fun m => { m with unpowered := false }))
  let f := s.mgmt.flash
  if 3 ≤ f.counter then enterSprout s
  else
    let s := modFlash s (fun f => { f with counter := f.counter + 1 })
    let s := modBoot s (fun b => { b with stage := 2, fails := f.counter, cause := lastCause f })
    let bad := firmwareCause f env.imageReads
    if bad ≠ 0 then failStart s bad else startFirmware s env

/-- POWER_UP: power-up, or a reset of a machine that runs. Steps 1 to 5 are one act (log 36). -/
def powerUp (s : State) (env : StartEnv) : State :=
  startDevice (if freshlyReset s then s else losePower s false) env

def execPowerUp (env : StartEnv) (s : State) : Out := .next (powerUp s env)

/-- POWER_LOSS. -/
def execPowerLoss (s : State) : Out := .next (losePower s true)

/-! ### Clusters and stacks (R369-R371) -/

/-- Whether step 6 is in progress. -/
def starting (s : State) : Bool := (s.mgmt.boot.stage == 6 || s.mgmt.boot.stage == 7) && !s.mgmt.boot.finished

/-- Whether a cluster is marked out of service in the records. -/
def clusterOut (s : State) (k : Nat) : Bool := (contents s).any (fun r => r.clustersOut.getLsbD k)

/-- Cores that the records keep in the fence map. -/
def recordMap (s : State) : BitVec 1024 := (contents s).foldl (fun m r => m ||| r.fenceMap) 0

/-- Whether both stacks of some pair are in service. -/
def pairUp (b : Boot) : Bool := (upFrom 0 4).any (fun p => b.stacksUp.getLsbD (2 * p) && b.stacksUp.getLsbD (2 * p + 1))

/-- Stage 7 (R371, R372): the attempt's record with cause 0, and the counter cleared. -/
def reduceService (s : State) : State :=
  let s := modBoot s (fun b => { b with stage := 7, fails := 0, cleared := true })
  modFlash (appendAttempt s s.mgmt.flash.counter 0 7) (fun f => { f with counter := 0 })

/-- Stage 8: MINSVN follows the image's SVN (R366). -/
def fullService (s : State) : State :=
  modFlash (modBoot s (fun b => { b with stage := 8 })) (fun f => { f with minsvn := max f.minsvn f.contents.svn.toNat })

/-- Where the start sequence stands after a unit's turn: causes 7 and 8 where no unit of a kind is left. -/
def nextStage (s : State) : State :=
  let b := s.mgmt.boot
  if b.stage = 6 ∧ b.nextPair = 4 ∧ !pairUp b then failStart s 7
  else if b.stage = 6 ∧ b.nextCluster = 16 ∧ b.clusters = 0 then failStart s 8
  else
    let s := if b.stage = 6 ∧ b.clusters ≠ 0 ∧ pairUp b then reduceService s else s
    if s.mgmt.boot.stage = 7 ∧ b.nextPair = 4 ∧ b.nextCluster = 16 then fullService s else s

/-- A cluster qualified: out of reset, its cores placed at the next generation, but for those the records fence. -/
def qualify (s : State) (k : Nat) : State :=
  let s := modCluster s k (fun c => { c with outOfReset := true })
  let s := modBoot s (fun b => { b with clusters := b.clusters ||| (1#16 <<< k) })
  let keep := recordMap s
  advanceFence s (fun m => m &&& ~~~(clusterCores k &&& ~~~keep))

/-- MTEST of every macro of a cluster in service, as MTESTRUN counts it (R107, R112, R369; log 79). -/
def clusterTests (s : State) (k : Nat) : State :=
  (upFrom (64 * k) 64).foldl (fun s n =>
    modCore s n (fun c => { c with meCount := tset 0 c.meCount 4 ((tget 0 c.meCount 4 + (34 - macrosOutOf s n)) % 2 ^ 64) })) s

/-- CLUSTER_START: its turn in order; whether its self-tests pass is the environment's (log 19). One that the records put out of
service stays in reset. -/
def clusterStart (s : State) (k : Nat) (pass : Bool) : State :=
  if !starting s || s.mgmt.boot.nextCluster != k || decide (16 ≤ k) then s
  else
    let s := modBoot s (fun b => { b with nextCluster := k + 1 })
    nextStage (if clusterOut s k then s else if pass then qualify (clusterTests s k) k else clusterTests s k)

/-- The digest of a training record over its bytes and its temperature. -/
def trainDigest (bytes : List Byte) (t : Int) : Nat := Config.sha3_256 (bytes ++ bytesOf 2 (fromSigned 16 t))

/-- Whether the records put a stack out of service (R9). -/
def stackOutOf (s : State) (k : Nat) : Bool := (contents s).any (fun r => r.stacksOut.getLsbD k)

/-- Whether a stack is restored from its record: temperatures are in 1/16 °C (R370). -/
def restores (s : State) (k : Nat) (t : Training) : Bool :=
  !s.mgmt.boot.cold &&
  match s.mgmt.flash.training.find? (fun e => e.1 == k) with
  | some (_, r) => r.failedStack.isNone && r.digest == trainDigest r.bytes r.temperature && decide ((t.temperature - r.temperature).natAbs ≤ 240)
  | none => false

/-- A training record put in the place of a stack's. -/
def putTraining (s : State) (k : Nat) (r : TrainRec) : State :=
  modFlash s (fun f => { f with training := tins (f.training.filter (fun e => e.1 != k)) k r })

/-- One stack restored, trained in full, or left out of service, as one is that the records put out of it. -/
def stackStart (s : State) (k : Nat) (t : Training) : State :=
  let up := fun (s : State) => modBoot (modStack s k (fun x => { x with inService := true })) (fun b => { b with stacksUp := b.stacksUp ||| (1#8 <<< k) })
  if stackOutOf s k then s
  else if restores s k t then up s
  else
    let w := takeFree s
    let bytes := bytesOf 8 w.1.toNat
    if t.trains then putTraining (up w.2) k { bytes := bytes, temperature := t.temperature, digest := trainDigest bytes t.temperature }
    else putTraining s k { bytes := [], temperature := t.temperature, digest := trainDigest [] t.temperature, failedStack := some k }

/-- STACK_PAIR_START. -/
def stackPairStart (s : State) (p : Nat) (lo hi : Training) : State :=
  if !starting s || s.mgmt.boot.nextPair != p || decide (4 ≤ p) then s
  else
    let s := modBoot s (fun b => { b with nextPair := p + 1 })
    nextStage (stackStart (stackStart s (2 * p) lo) (2 * p + 1) hi)

def execClusterStart (k : Nat) (pass : Bool) (s : State) : Out := event s (fun s => clusterStart s k pass)
def execStackPairStart (p : Nat) (lo hi : Training) (s : State) : Out := event s (fun s => stackPairStart s p lo hi)

/-! ### Attestation (R368) -/

/-- The signed part of a report. -/
def reportHead (s : State) (nonce : List Byte) : List Byte :=
  let f := s.mgmt.flash
  nonce ++ s.mgmt.measurement ++ bytesOf 4 f.minsvn ++ bytesOf 4 f.contents.svn.toNat ++ bytesOf 8 (bootWord s.mgmt.boot)

/-- ATTESTATION_REPORT: asked by a driver session with a nonce of 32 bytes (how it is asked and carried: log 37). -/
def attestationReport (s : State) (n : Nat) (nonce : List Byte) : State :=
  match tget none s.mgmt.sessions n, s.mgmt.identity with
  | some x, some seed =>
    if !x.driver || nonce.length != 32 || s.mgmt.boot.sprout then s
    else
      let h := reportHead s nonce
      let r := h ++ Config.mldsaPublic seed ++ Config.mldsaSign seed (digestBytes h)
      sendOut s (sealed x n 0 0 0 0 r)
  | _, _ => s

/-- Served by the management cores, which stay up. -/
def execAttestationReport (session : Nat) (nonce : List Byte) (s : State) : Out := .next (attestationReport s session nonce)

end Sys2Proof.Machine
end

