-- ==== Sys2Proof/Machine/Hqt.lean ====
section
/-!
DEFINITION. Sys2Proof/Machine/Hqt.lean: the host transport (R330-R333, R373, R390): opening sessions, the order of a
session's requests, the operations and their targets.
-/

namespace Sys2Proof.Machine

/-! ### Datagrams (R331) -/

/-- The bytes a request's tag covers: STATUS is in replies only. One of another VER is dropped before its tag is looked at. -/
def datagramBytes (d : Datagram) : List Byte := tagBytes d.op.toNat d.session.toNat d.seq.toNat d.addr d.len.toNat 0 d.payload

/-- Whether an Ethernet port is up (R330, R363, R373). -/
def portUp (s : State) (p : Nat) : Bool := s.mgmt.portsUp.getLsbD p

/-- Whether HQT is open: from step 5 on, or in Sprout mode, unless the attempt has ended at a cause code other than a
thermal trip's (R363, R373). -/
def hqtOpen (s : State) : Bool :=
  let b := s.mgmt.boot
  b.sprout || (decide (5 ≤ b.stage) && (!b.finished || s.mgmt.power.tripped))

/-- A reply to a request of session record `x`. -/
def reply (s : State) (x : Session) (d : Datagram) (status : W64) (payload : List Byte) : State :=
  sendOut s (sealed x d.session.toNat d.op.toNat d.seq.toNat d.addr status payload)

/-- What performing a request gives: STATUS and payload. -/
abbrev Reply := W64 × List Byte

/-- STATUS of a request refused in IDLE (R390), of a HELLO too many and of a WATCH or GRANT refused (R333). -/
def stIDLE : W64 := 0xFFFF0001
def stFULL : W64 := 0xFFFF0002
def stREFUSED : W64 := 0xFFFF0003

/-! ### Targets (R331, R332, R371, R373, R390) -/

/-- An address of session `n`: from 2^48 on a driver names a physical address, all else is translated in the session's
ASID from its entry's root, by the walk it waited on or one whose reads are counted (R331, R349, R352, R374; log 38). -/
def hqtXlate (s : State) (n : Nat) (x : Session) (va : Nat) (a : Access) : Except Nat Xlated × State :=
  if 2 ^ 48 ≤ va then (if x.driver then .ok { pa := va } else .error 3, s)
  else
    let sp := tget {} s.dev.spaces x.asid
    let leaf : Except Nat TlbEntry :=
      match walkEnd s (.session n) x.asid va with
      | some w => match w.leaf with | some e => .ok e | none => .error w.kind
      | none => if !sp.v then .error 0 else (walk s (getDie s 0).ptrs x.asid (sp.root * 65536) va).leaf
    (leaf >>= (fun e => leafAddress e a va x.driver false),
     takeEnd (countWalk s (unitReads s (.session n) [] (getDie s 0).ptrs x.asid va)) (.session n) x.asid va)

/-- Whether an address of a session waits for the walker (R349; log 38). -/
def hqtWaits (s : State) (n : Nat) (x : Session) (va : Nat) : Bool := unitWaits s (.session n) [] 0 x.asid va

/-- The pieces of a request and whether they may be performed now. -/
inductive Ready where
  | no
  | status (v : W64)
  | yes (gs : List Seg)
  deriving DecidableEq, Repr

/-- The pieces of a request of `len` bytes, or the STATUS of its first failure; none while a page's walk is still to come. -/
def hqtPieces (fuel : Nat) (s : State) (n : Nat) (x : Session) (a : Access) (va len off : Nat) : Ready × State :=
  match fuel with
  | 0 => (.yes [], s)
  | f + 1 =>
    if len = 0 then (.yes [], s)
    else if hqtWaits s n x va then (.no, s)
    else
      let k := min len (65536 - va % 65536)
      match hqtXlate s n x va a with
      | (.error e, s) => (.status (faultVal e va), s)
      | (.ok y, s) =>
        match chunks s a y k 0 k off with
        | .error e => (.status (faultVal e.1 (va + e.2)), s)
        | .ok gs =>
          match hqtPieces f s n x a (va + k) (len - k) (off + 8 * k) with
          | (.yes hs, s) => (.yes (gs ++ hs), s)
          | r => r

/-- Whether a piece's target is HBM, a core window or a cluster window. -/
def hqtFar (g : Seg) : Bool :=
  g.dev != 0 || (match place g.pa with
    | .dev _ | .none => false
    | _ => true)

/-- A request of a session as its home sees it. -/
def hqtReq (s : State) (n : Nat) (x : Session) (k : ReqKind) (gs : List Seg) : Req :=
  { id := s.nextId, agent := .session n, kind := k, todo := gs, drv := x.driver }

/-- Whether a piece's register can take a write now (R48). -/
def registerOpen (s : State) (g : Seg) : Bool :=
  match (if g.dev = 0 then regView (place g.pa) else none) with
  | some (c, t, r) => regOpen s c t r && !regStopped s c t
  | none => true

/-- Translation, the target's state, and the order at the home, of a request; with the state that its table walks leave. -/
def hqtReady (s : State) (n : Nat) (x : Session) (k : ReqKind) (a : Access) (va len : Nat) : Ready × State :=
  match hqtPieces 3 s n x a va len 0 with
  | (.yes gs, s) =>
    let far := gs.any hqtFar
    if far && s.mgmt.power.tripped then (.no, s)
    else if far && s.mgmt.power.cur == 2 then (.status stIDLE, s)
    else if gs.all (fun g => pieceReady s (hqtReq s n x k gs) g && (a == .load || registerOpen s g)) then (.yes gs, s)
    else (.no, s)
  | r => r

/-! ### The operations (R332) -/

/-- READ: the bytes in order. -/
def hqtRead (s : State) (n : Nat) (x : Session) (d : Datagram) : Option (State × Reply) :=
  match hqtReady s n x .load .load d.addr.toNat d.len.toNat with
  | (.no, _) => none
  | (.status v, s) => some (s, v, [])
  | (.yes gs, s) =>
    let r := gs.foldl (fun (a : List Byte × State) g =>
      let y := readSeg a.2 g
      (a.1 ++ bytesOf g.len y.1, y.2)) ([], s)
    some (r.2, 0, r.1)

/-- A piece of a write. -/
def hqtStore (s : State) (x : Session) (data : Nat) (g : Seg) : State :=
  let v := nbits data g.off (8 * g.len)
  match (if g.dev = 0 then regView (place g.pa) else none) with
  | some (c, t, r) => putRegister s c t r (BitVec.ofNat 2048 v)
  | none => storePiece s { g with off := 0 } v x.driver

/-- WRITE. -/
def hqtWrite (s : State) (n : Nat) (x : Session) (d : Datagram) : Option (State × Reply) :=
  match hqtReady s n x .store .store d.addr.toNat d.payload.length with
  | (.no, _) => none
  | (.status v, s) => some (s, v, [])
  | (.yes gs, s) =>
    let s := gs.foldl (fun s g => hqtStore s x (numOf d.payload) g) s
    some ((takeId (noteRequest s (hqtReq s n x .store gs) [] 0)).2, 0, [])

/-- FADD and CAS: an atomic at the home of an aligned 8-byte location, with its operands from the payload. -/
def hqtAtomic (s : State) (n : Nat) (x : Session) (d : Datagram) (op : AmoOp) : Option (State × Reply) :=
  let va := d.addr.toNat
  let e := numOf (d.payload.take 8)
  let b := if op = .cas then numOf (d.payload.drop 8) else e
  if va % 8 ≠ 0 ∨ d.payload.length ≠ (if op = .cas then 16 else 8) then some (s, faultVal 6 va, [])
  else
    match hqtReady s n x (.atomic op (w64 b) (w64 e)) .atomic va 8 with
    | (.no, _) => none
    | (.status v, s) => some (s, v, [])
    | (.yes gs, s) =>
      match gs with
      | g :: _ =>
        let y := readSeg s g
        let s := if g.dev = 0 then atomicStore y.2 g.pa 8 (amoNew op 64 y.1 b e) else y.2
        some ((takeId (noteApplied s (.session n) s.nextId (homeOf s g) (BitVec.ofNat 2048 y.1))).2, 0, bytesOf 8 y.1)
      | [] => none

/-- CLOSE: the session and its unused grants; what SNAPDATA it has not acknowledged stands in SNAPAREA (R395). -/
def hqtClose (s : State) (n : Nat) : State :=
  let s := dropMisses (countLost s (((getSession s n).map (·.snapdata)).getD [])) (.session n)
  modMgmt s (fun m => { m with
    sessions := tset none m.sessions n none
    grants := m.grants.filter (fun g => match g.2 with | some y => y.issuer != n | none => true) })

/-- WATCH: the notice mask replaced (R333). -/
def hqtWatch (s : State) (n : Nat) (x : Session) (d : Datagram) : State × Reply :=
  let v := numOf d.payload
  if d.payload.length ≠ 8 ∨ 2 ^ 16 ≤ v ∨ (!x.driver ∧ 2 ≤ v) then (s, stREFUSED, [])
  else
    match getSession s n with
    | some y => (setSession s n (some { y with mask := v }), 0, [])
    | none => (s, 0, [])

/-- GRANT: ASID, priority and key hash; the reply carries the grant's number (R333; its layout: log 39). -/
def hqtGrant (s : State) (n : Nat) (x : Session) (d : Datagram) : State × Reply :=
  if !x.driver ∨ d.payload.length ≠ 35 then (s, stREFUSED, [])
  else
    let g : Grant := { asid := numOf (d.payload.take 2), prio := numOf ((d.payload.drop 2).take 1) % 8
                       hash := numOf (d.payload.drop 3), issuer := n }
    let k := s.mgmt.nextGrant
    (modMgmt s (fun m => { m with grants := tset none m.grants k (some g), nextGrant := k + 1 }), 0, bytesOf 4 k)

/-! ### Sprout mode (R373) -/

/-- Whether every byte of a range lies in the flash's firmware and record areas. -/
def inFlash (a n : Nat) : Bool := (upFrom a n).all Config.flashAddr

/-- A word of an attempt record: its counter, cause, STAGE and TIME (R372); one not written yet reads 0. -/
def attemptWord (f : Flash) (i : Nat) : Nat :=
  match f.attempts[i / 4]? with
  | some a => match i % 4 with | 0 => a.counter | 1 => a.cause | 2 => a.stage | _ => a.time
  | none => 0

/-- A READ in Sprout mode: BOOTSTAT, or words of the attempt records (R373; their addresses: log 34). -/
def sproutRead (s : State) (d : Datagram) : State × Reply :=
  let a := d.addr.toNat
  let n := d.len.toNat
  let ws := (upFrom 0 (n / 8)).map (fun k => Config.attemptAddr (a + 8 * k))
  if devBase + 0x1A00000 ≤ a ∧ a + n ≤ devBase + 0x1A00008 then (s, 0, bytesOf n (physRead s a n))
  else if n ≠ 0 ∧ n % 8 = 0 ∧ ws.all Option.isSome then (s, 0, ws.flatMap (fun w => bytesOf 8 (attemptWord s.mgmt.flash (w.getD 0))))
  else (s, faultVal 5 a, [])

/-- A WRITE in Sprout mode: the start counter, a word that a zero clears (log 34), or bytes of the flash's areas. -/
def sproutWrite (s : State) (d : Datagram) : State × Reply :=
  let a := d.addr.toNat
  if a = Config.counterAddr ∧ d.payload.length = 8 then
    (if numOf d.payload = 0 then modFlash s (fun f => { f with counter := 0 }) else s, 0, [])
  else if d.payload ≠ [] ∧ a ≠ Config.counterAddr ∧ inFlash a d.payload.length then
    let cells := (upFrom a d.payload.length).zip d.payload
    (modFlash s (fun f =>
      let m := cells.foldl (fun m c => Memory.ins (m.filter (fun y => y.1 != c.1)) c.1 c.2) f.cells
      { f with cells := m, contents := Config.flashRead m f.contents }), 0, [])
  else (s, faultVal 5 a, [])

/-! ### A session's requests in order (R332) -/

/-- A request performed, or none while its home holds it. -/
def hqtPerform (s : State) (n : Nat) (x : Session) (d : Datagram) : Option (State × Reply) :=
  let sprout := s.mgmt.boot.sprout
  match d.op.toNat with
  | 1 => if sprout then some (sproutRead s d) else hqtRead s n x d
  | 2 => if sprout then some (sproutWrite s d) else hqtWrite s n x d
  | 3 => if sprout then some (s, faultVal 5 d.addr.toNat, []) else hqtAtomic s n x d .add
  | 4 => if sprout then some (s, faultVal 5 d.addr.toNat, []) else hqtAtomic s n x d .cas
  | 6 => some (hqtClose s n, 0, [])
  | 8 => some (hqtWatch s n x d)
  | _ => some (hqtGrant s n x d)

/-- A request that waits for the walker notes its miss there: of its first page whose walk is still to come (R349). -/
def hqtNote (s : State) (n : Nat) (x : Session) (d : Datagram) : State :=
  let len := if d.op = 3 ∨ d.op = 4 then 8 else d.len.toNat
  let va := d.addr.toNat
  if s.mgmt.boot.sprout ∨ 4 < d.op.toNat then s
  else
    match ((upFrom (va / 65536) ((va + len - 1) / 65536 + 1 - va / 65536)).map (fun p => max va (p * 65536))).find? (hqtWaits s n x) with
    | some a => noteUnit s (.session n) 0 x.asid a
    | none => s

/-- The reply kept for a repeated SEQ: the last 256. -/
def saveReply (s : State) (n : Nat) (d : Datagram) (r : Reply) : State :=
  match getSession s n with
  | some x =>
    setSession s n (some { x with
      seq := x.seq + 1, early := x.early.filter (fun e => e.seq.toNat != x.seq)
      saved := (x.saved ++ [(d.seq.toNat, r.1.toNat, r.2)]).drop (x.saved.length - 255) })
  | none => s

/-- The requests of a session applied in SEQ order, as far as they have arrived and can be performed. -/
def hqtPump (fuel : Nat) (s : State) (n : Nat) : State :=
  match fuel with
  | 0 => s
  | f + 1 =>
    match getSession s n with
    | some x =>
      match x.early.find? (fun d => d.seq.toNat == x.seq) with
      | some d =>
        match hqtPerform s n x d with
        | some (s, r) => hqtPump f (reply (saveReply s n d r) x d r.1 r.2) n
        | none => hqtNote s n x d
      | none => s
    | none => s

/-- Whether a datagram is one that its OP and LEN admit. -/
def datagramShape (d : Datagram) (op : Nat) : Bool :=
  d.ver == 1 && d.op.toNat == op && decide (d.len.toNat ≤ 4096) &&
    (if op = 1 then d.payload.isEmpty else d.payload.length == d.len.toNat)

/-- A request arriving: dropped where its shape or its tag fails; answered again where it has been applied; else applied
in its turn. -/
def hqtArrive (s : State) (d : Datagram) (op : Nat) : State :=
  let n := d.session.toNat
  if !hqtOpen s || !portUp s d.port || !datagramShape d op then s
  else
    match getSession s n with
    | some x =>
      if Config.kmac128 x.key (datagramBytes d) ≠ d.tag then modMgmt s (fun m => { m with badTags := m.badTags + 1 })
      else if d.seq.toNat < x.seq then
        match x.saved.find? (fun r => r.1 == d.seq.toNat) with
        | some r => reply s x d (w64 r.2.1) r.2.2
        | none => s
      else
        let early := if x.early.any (fun e => e.seq == d.seq) then x.early else x.early ++ [d]
        hqtPump (early.length) (setSession s n (some { x with early := early })) n
    | none => modMgmt s (fun m => { m with badTags := m.badTags + 1 })

def execRead (d : Datagram) (s : State) : Out := .next (hqtArrive s d 1)
def execWrite (d : Datagram) (s : State) : Out := .next (hqtArrive s d 2)
def execFadd (d : Datagram) (s : State) : Out := .next (hqtArrive s d 3)
def execCas (d : Datagram) (s : State) : Out := .next (hqtArrive s d 4)
def execClose (d : Datagram) (s : State) : Out := .next (hqtArrive s d 6)
def execWatch (d : Datagram) (s : State) : Out := .next (hqtArrive s d 8)
def execGrant (d : Datagram) (s : State) : Out := .next (hqtArrive s d 9)

/-- SNAPDATA_ACK: a host's reply of OP 10, under the session's tag like every datagram; one whose tag fails, or of no session, is
dropped and counted (R332, R395). -/
def snapdataAck (s : State) (session seq : Nat) (a : Ack) : State :=
  if !hqtOpen s then s
  else
    match getSession s session with
    | some x =>
      if !portUp s x.port then s
      else if Config.kmac128 x.key (tagBytes 10 session seq a.addr 0 a.status []) ≠ a.tag then modMgmt s (fun m => { m with badTags := m.badTags + 1 })
      else snapAck s session seq a.status
    | none => modMgmt s (fun m => { m with badTags := m.badTags + 1 })

def execSnapdataAck (session seq : Nat) (ack : Ack) (s : State) : Out := .next (snapdataAck s session seq ack)

/-! ### Opening sessions (R333) -/

/-- The payload of a HELLO before its signature (layout: log 39). -/
def helloSigned (h : Hello) : List Byte :=
  bytesOf 1 (bit h.driver) ++ bytesOf 2 h.asid.toNat ++ bytesOf 1 h.prio.toNat ++ h.nonce ++ h.ek ++
    (if h.driver then [] else bytesOf 4 h.grant.toNat) ++ h.key

/-- The hashes of the operator record, where it verifies under the Horpol key. -/
def operatorHashes (f : FlashImage) : List Nat :=
  match f.records.find? (fun r => r.content.operators.isSome) with
  | some r => if recordVerified f r then (r.content.operators.getD []).take 8 else []
  | none => []

/-- Whether a HELLO is accepted: its authority, and its signature. -/
def helloAccepted (s : State) (h : Hello) : Bool :=
  let hash := Config.sha3_256 h.key
  h.nonce.length == 32 && Config.mldsaVerify h.key (helloSigned h) h.sig &&
  (if h.driver then (operatorHashes s.mgmt.flash.contents).contains hash
   else
    !s.mgmt.boot.sprout && (match tget none s.mgmt.grants h.grant.toNat with
      | some g => g.hash == hash && g.asid == h.asid.toNat && g.prio == h.prio.toNat
      | none => false))

/-- A HELLO's reply: of SESSION 0, without a tag, on the port the request came by and at the PFC priority it asks for. -/
def helloReply (s : State) (h : Hello) (status : W64) (payload : List Byte) : State :=
  sendOut s { port := h.port, prio := h.prio.toNat, session := 0, op := 7, seq := 0, addr := 0, status := status, payload := payload }

/-- The session opened: its key from the shared secret and both nonces, the reply signed by the device's identity. -/
def openSession (s : State) (h : Hello) (seed : Nat) : State :=
  let k := s.mgmt.kems
  let n := s.mgmt.nextSession
  let kem := Config.mlkem h.ek k
  let nonce := Config.deviceNonce k
  let key := Config.sha3_256 (bytesOf 32 kem.1 ++ h.nonce ++ nonce)
  let body := bytesOf 4 n ++ nonce ++ kem.2
  let sig := Config.mldsaSign seed (helloSigned h ++ h.sig ++ body)
  let x : Session := { port := h.port, driver := h.driver, asid := h.asid.toNat, prio := h.prio.toNat, key := key, lastAck := s.time }
  let s := modMgmt s (fun m => { m with
    kems := k + 1, nextSession := n + 1, sessions := tset none m.sessions n (some x)
    grants := if h.driver then m.grants else tset none m.grants h.grant.toNat none })
  helloReply s h 0 (body ++ sig)

/-- HELLO. -/
def helloArrive (s : State) (h : Hello) : State :=
  match s.mgmt.identity with
  | some seed =>
    if !hqtOpen s || !portUp s h.port then s
    else if !helloAccepted s h then modMgmt s (fun m => { m with refusedHellos := m.refusedHellos + 1 })
    else if 256 ≤ s.mgmt.sessions.length then helloReply s h stFULL []
    else openSession s h seed
  | none => s

def execHello (h : Hello) (s : State) : Out := .next (helloArrive s h)

/-- OTHER_FRAME (R330): neither HQT nor management traffic, or with stacked tags; counted and dropped. -/
def execOtherFrame (_tags : Nat) (s : State) : Out :=
  .next (if hqtOpen s then modMgmt s (fun m => { m with dropped := m.dropped + 1 }) else s)

end Sys2Proof.Machine
end

