-- ==== Sys2Proof/Machine/Dispatch.lean ====
section
/-!
DEFINITION. Sys2Proof/Machine/Dispatch.lean: one arm per constructor of Instr, each a direct call of its meaning.
-/

namespace Sys2Proof.Machine

def exec (i : Instr) (s : State) : Host.Outcome State Fault Refusal :=
  match i with
  | .add f => Sys2Proof.Machine.execAdd f s
  | .sub f => Sys2Proof.Machine.execSub f s
  | .and f => Sys2Proof.Machine.execAnd f s
  | .andn f => Sys2Proof.Machine.execAndn f s
  | .or f => Sys2Proof.Machine.execOr f s
  | .xor f => Sys2Proof.Machine.execXor f s
  | .shl f => Sys2Proof.Machine.execShl f s
  | .shr f => Sys2Proof.Machine.execShr f s
  | .sra f => Sys2Proof.Machine.execSra f s
  | .clz f => Sys2Proof.Machine.execClz f s
  | .popc f => Sys2Proof.Machine.execPopc f s
  | .mul f => Sys2Proof.Machine.execMul f s
  | .mulhS64 f => Sys2Proof.Machine.execMulhS64 f s
  | .mulhZ64 f => Sys2Proof.Machine.execMulhZ64 f s
  | .divS64 f => Sys2Proof.Machine.execDivS64 f s
  | .divZ64 f => Sys2Proof.Machine.execDivZ64 f s
  | .remS64 f => Sys2Proof.Machine.execRemS64 f s
  | .remZ64 f => Sys2Proof.Machine.execRemZ64 f s
  | .minS64 f => Sys2Proof.Machine.execMinS64 f s
  | .minZ64 f => Sys2Proof.Machine.execMinZ64 f s
  | .maxS64 f => Sys2Proof.Machine.execMaxS64 f s
  | .maxZ64 f => Sys2Proof.Machine.execMaxZ64 f s
  | .sltS64 f => Sys2Proof.Machine.execSltS64 f s
  | .sltZ64 f => Sys2Proof.Machine.execSltZ64 f s
  | .sltz f => Sys2Proof.Machine.execSltz f s
  | .sel f => Sys2Proof.Machine.execSel f s
  | .lea sc f => Sys2Proof.Machine.execLea sc f s
  | .sete f => Sys2Proof.Machine.execSete f s
  | .setf f => Sys2Proof.Machine.execSetf f s
  | .testfe f => Sys2Proof.Machine.execTestfe f s
  | .addi f => Sys2Proof.Machine.execAddi f s
  | .andi f => Sys2Proof.Machine.execAndi f s
  | .ori f => Sys2Proof.Machine.execOri f s
  | .xori f => Sys2Proof.Machine.execXori f s
  | .shli f => Sys2Proof.Machine.execShli f s
  | .shri f => Sys2Proof.Machine.execShri f s
  | .srai f => Sys2Proof.Machine.execSrai f s
  | .slti f => Sys2Proof.Machine.execSlti f s
  | .lui f => Sys2Proof.Machine.execLui f s
  | .bc f => Sys2Proof.Machine.execBc f s
  | .loop f => Sys2Proof.Machine.execLoop f s
  | .jmp f => Sys2Proof.Machine.execJmp f s
  | .call f => Sys2Proof.Machine.execCall f s
  | .jmpr f => Sys2Proof.Machine.execJmpr f s
  | .callr f => Sys2Proof.Machine.execCallr f s
  | .ret f => Sys2Proof.Machine.execRet f s
  | .fireEnd f => Sys2Proof.Machine.execFireEnd f s
  | .yield f => Sys2Proof.Machine.execYield f s
  | .ld8 f => Sys2Proof.Machine.execLd8 f s
  | .ld16 f => Sys2Proof.Machine.execLd16 f s
  | .ld32 f => Sys2Proof.Machine.execLd32 f s
  | .ld64 f => Sys2Proof.Machine.execLd64 f s
  | .st8 f => Sys2Proof.Machine.execSt8 f s
  | .st16 f => Sys2Proof.Machine.execSt16 f s
  | .st32 f => Sys2Proof.Machine.execSt32 f s
  | .st64 f => Sys2Proof.Machine.execSt64 f s
  | .amoadd f => Sys2Proof.Machine.execAmoadd f s
  | .amominS f => Sys2Proof.Machine.execAmominS f s
  | .amominZ f => Sys2Proof.Machine.execAmominZ f s
  | .amomaxS f => Sys2Proof.Machine.execAmomaxS f s
  | .amomaxZ f => Sys2Proof.Machine.execAmomaxZ f s
  | .amoand f => Sys2Proof.Machine.execAmoand f s
  | .amoor f => Sys2Proof.Machine.execAmoor f s
  | .amoxchg f => Sys2Proof.Machine.execAmoxchg f s
  | .amosnap f => Sys2Proof.Machine.execAmosnap f s
  | .amocas f => Sys2Proof.Machine.execAmocas f s
  | .fenceCore f => Sys2Proof.Machine.execFenceCore f s
  | .fenceCluster f => Sys2Proof.Machine.execFenceCluster f s
  | .fenceDevice f => Sys2Proof.Machine.execFenceDevice f s
  | .fenceDomain f => Sys2Proof.Machine.execFenceDomain f s
  | .fenceEng f => Sys2Proof.Machine.execFenceEng f s
  | .marm f => Sys2Proof.Machine.execMarm f s
  | .mwait f => Sys2Proof.Machine.execMwait f s
  | .mwaitAcq f => Sys2Proof.Machine.execMwaitAcq f s
  | .finit f => Sys2Proof.Machine.execFinit f s
  | .flen f => Sys2Proof.Machine.execFlen f s
  | .fprobe f => Sys2Proof.Machine.execFprobe f s
  | .fdel f => Sys2Proof.Machine.execFdel f s
  | .fpack f => Sys2Proof.Machine.execFpack f s
  | .fins f => Sys2Proof.Machine.execFins f s
  | .fcmb op f => Sys2Proof.Machine.execFcmb op f s
  | .mfsr f => Sys2Proof.Machine.execMfsr f s
  | .mtsr f => Sys2Proof.Machine.execMtsr f s
  | .nop f => Sys2Proof.Machine.execNop f s
  | .eret f => Sys2Proof.Machine.execEret f s
  | .wdrain f => Sys2Proof.Machine.execWdrain f s
  | .halt f => Sys2Proof.Machine.execHalt f s
  | .trap f => Sys2Proof.Machine.execTrap f s
  | .barInit f => Sys2Proof.Machine.execBarInit f s
  | .barArr f => Sys2Proof.Machine.execBarArr f s
  | .barWait f => Sys2Proof.Machine.execBarWait f s
  | .li f => Sys2Proof.Machine.execLi f s
  | .lih f => Sys2Proof.Machine.execLih f s
  | .addl f => Sys2Proof.Machine.execAddl f s
  | .loopi f => Sys2Proof.Machine.execLoopi f s
  | .vadd f => Sys2Proof.Machine.execVadd f s
  | .vsub f => Sys2Proof.Machine.execVsub f s
  | .vmul f => Sys2Proof.Machine.execVmul f s
  | .vfma f => Sys2Proof.Machine.execVfma f s
  | .vmin f => Sys2Proof.Machine.execVmin f s
  | .vmax f => Sys2Proof.Machine.execVmax f s
  | .vabs f => Sys2Proof.Machine.execVabs f s
  | .vneg f => Sys2Proof.Machine.execVneg f s
  | .vand f => Sys2Proof.Machine.execVand f s
  | .vor f => Sys2Proof.Machine.execVor f s
  | .vxor f => Sys2Proof.Machine.execVxor f s
  | .vshl f => Sys2Proof.Machine.execVshl f s
  | .vshr f => Sys2Proof.Machine.execVshr f s
  | .vsra f => Sys2Proof.Machine.execVsra f s
  | .vcmp f => Sys2Proof.Machine.execVcmp f s
  | .vsel f => Sys2Proof.Machine.execVsel f s
  | .vmov f => Sys2Proof.Machine.execVmov f s
  | .vsplat f => Sys2Proof.Machine.execVsplat f s
  | .vbcast f => Sys2Proof.Machine.execVbcast f s
  | .vperm f => Sys2Proof.Machine.execVperm f s
  | .vins f => Sys2Proof.Machine.execVins f s
  | .vext f => Sys2Proof.Machine.execVext f s
  | .vred f => Sys2Proof.Machine.execVred f s
  | .vscan f => Sys2Proof.Machine.execVscan f s
  | .vhist f => Sys2Proof.Machine.execVhist f s
  | .vexp2 f => Sys2Proof.Machine.execVexp2 f s
  | .vrcp f => Sys2Proof.Machine.execVrcp f s
  | .vrsq f => Sys2Proof.Machine.execVrsq f s
  | .vlog2 f => Sys2Proof.Machine.execVlog2 f s
  | .pand f => Sys2Proof.Machine.execPand f s
  | .por f => Sys2Proof.Machine.execPor f s
  | .pnot f => Sys2Proof.Machine.execPnot f s
  | .pcnt f => Sys2Proof.Machine.execPcnt f s
  | .pfirst f => Sys2Proof.Machine.execPfirst f s
  | .ldv f => Sys2Proof.Machine.execLdv f s
  | .stv f => Sys2Proof.Machine.execStv f s
  | .ldvs f => Sys2Proof.Machine.execLdvs f s
  | .gather f => Sys2Proof.Machine.execGather f s
  | .scatter f => Sys2Proof.Machine.execScatter f s
  | .qpush f => Sys2Proof.Machine.execQpush f s
  | .vcvt f => Sys2Proof.Machine.execVcvt f s
  | .vqmx f => Sys2Proof.Machine.execVqmx f s
  | .vdqmx f => Sys2Proof.Machine.execVdqmx f s
  | .vlut f => Sys2Proof.Machine.execVlut f s
  | .mldb f => Sys2Proof.Machine.execMldb f s
  | .mldm f => Sys2Proof.Machine.execMldm f s
  | .mma f => Sys2Proof.Machine.execMma f s
  | .mmaS f => Sys2Proof.Machine.execMmaS f s
  | .mclr f => Sys2Proof.Machine.execMclr f s
  | .mrd f => Sys2Proof.Machine.execMrd f s
  | .tdclass f => Sys2Proof.Machine.execTdclass f s
  | .tdquery f => Sys2Proof.Machine.execTdquery f s
  | .mtest f => Sys2Proof.Machine.execMtest f s
  | .cpy f => Sys2Proof.Machine.execCpy f s
  | .cpystat f => Sys2Proof.Machine.execCpystat f s
  | .cpycancel f => Sys2Proof.Machine.execCpycancel f s
  | .chpush f => Sys2Proof.Machine.execChpush f s
  | .chpop f => Sys2Proof.Machine.execChpop f s
  | .chpeek f => Sys2Proof.Machine.execChpeek f s
  | .chmark f => Sys2Proof.Machine.execChmark f s
  | .chstat f => Sys2Proof.Machine.execChstat f s
  | .cbload f => Sys2Proof.Machine.execCbload f s
  | .fmrgv f => Sys2Proof.Machine.execFmrgv f s
  | .fscan f => Sys2Proof.Machine.execFscan f s
  | .fprobev f => Sys2Proof.Machine.execFprobev f s
  | .funion f => Sys2Proof.Machine.execFunion f s
  | .asyncTrap who => Sys2Proof.Machine.execAsyncTrap who s
  | .registerFill id => Sys2Proof.Machine.execRegisterFill id s
  | .heldWriteDelivery core idx => Sys2Proof.Machine.execHeldWriteDelivery core idx s
  | .windowWrite id => Sys2Proof.Machine.execWindowWrite id s
  | .spillWrite core ctx => Sys2Proof.Machine.execSpillWrite core ctx s
  | .fillArrive core ctx reg => Sys2Proof.Machine.execFillArrive core ctx reg s
  | .storeAtHome id => Sys2Proof.Machine.execStoreAtHome id s
  | .loadAtHome id => Sys2Proof.Machine.execLoadAtHome id s
  | .atomicAtHome id => Sys2Proof.Machine.execAtomicAtHome id s
  | .monitorRegister id => Sys2Proof.Machine.execMonitorRegister id s
  | .mwaitTimeout who => Sys2Proof.Machine.execMwaitTimeout who s
  | .fenceAck who path => Sys2Proof.Machine.execFenceAck who path s
  | .mergeAtHome id => Sys2Proof.Machine.execMergeAtHome id s
  | .deleteAtHome id => Sys2Proof.Machine.execDeleteAtHome id s
  | .finitAtHome id => Sys2Proof.Machine.execFinitAtHome id s
  | .fpackAtHome id => Sys2Proof.Machine.execFpackAtHome id s
  | .probeAtHome id => Sys2Proof.Machine.execProbeAtHome id s
  | .scanAtHome id => Sys2Proof.Machine.execScanAtHome id s
  | .funionAtHome id => Sys2Proof.Machine.execFunionAtHome id s
  | .stalledMergeResume pool => Sys2Proof.Machine.execStalledMergeResume pool s
  | .poolTimeout pool => Sys2Proof.Machine.execPoolTimeout pool s
  | .donate pool v drv => Sys2Proof.Machine.execDonate pool v drv s
  | .poolReset pool v drv => Sys2Proof.Machine.execPoolReset pool v drv s
  | .faultctlResume pool drv => Sys2Proof.Machine.execFaultctlResume pool drv s
  | .faultctlAbandon pool drv => Sys2Proof.Machine.execFaultctlAbandon pool drv s
  | .schedulingEvent core launch => Sys2Proof.Machine.execSchedulingEvent core launch s
  | .channelCommit id => Sys2Proof.Machine.execChannelCommit id s
  | .channelRelease id => Sys2Proof.Machine.execChannelRelease id s
  | .tableTokenTake core slot port => Sys2Proof.Machine.execTableTokenTake core slot port s
  | .eosForward core slot => Sys2Proof.Machine.execEosForward core slot s
  | .instanceRetire core slot => Sys2Proof.Machine.execInstanceRetire core slot s
  | .poisonReinject core ch cons => Sys2Proof.Machine.execPoisonReinject core ch cons s
  | .rateSample core ch => Sys2Proof.Machine.execRateSample core ch s
  | .rateParamWrite core ch word v drv => Sys2Proof.Machine.execRateParamWrite core ch word v drv s
  | .sinkDataSlot core ch cons => Sys2Proof.Machine.execSinkDataSlot core ch cons s
  | .sinkEndOfStream core ch cons => Sys2Proof.Machine.execSinkEndOfStream core ch cons s
  | .markerInject core slot => Sys2Proof.Machine.execMarkerInject core slot s
  | .snapshotAlign core slot => Sys2Proof.Machine.execSnapshotAlign core slot s
  | .snapshotUnalignedSwitch core slot => Sys2Proof.Machine.execSnapshotUnalignedSwitch core slot s
  | .unalignedMarkerArrive core slot port => Sys2Proof.Machine.execUnalignedMarkerArrive core slot port s
  | .snapreq launch v drv => Sys2Proof.Machine.execSnapreq launch v drv s
  | .snapshotComplete launch => Sys2Proof.Machine.execSnapshotComplete launch s
  | .snapdataResend session seq => Sys2Proof.Machine.execSnapdataResend session seq s
  | .snapdataSessionLost session => Sys2Proof.Machine.execSnapdataSessionLost session s
  | .snapdataAck session seq ack => Sys2Proof.Machine.execSnapdataAck session seq ack s
  | .watchdog launch => Sys2Proof.Machine.execWatchdog launch s
  | .launchPacket die queue => Sys2Proof.Machine.execLaunchPacket die queue s
  | .copyPacket die queue => Sys2Proof.Machine.execCopyPacket die queue s
  | .waitStampPacket die queue => Sys2Proof.Machine.execWaitStampPacket die queue s
  | .signalPacket die queue => Sys2Proof.Machine.execSignalPacket die queue s
  | .launchStart launch => Sys2Proof.Machine.execLaunchStart launch s
  | .launchCompletion launch => Sys2Proof.Machine.execLaunchCompletion launch s
  | .completionStamp launch => Sys2Proof.Machine.execCompletionStamp launch s
  | .intensityWindow launch cycles bytes => Sys2Proof.Machine.execIntensityWindow launch cycles bytes s
  | .tileTaskIssue core id => Sys2Proof.Machine.execTileTaskIssue core id s
  | .tileTaskComplete core id => Sys2Proof.Machine.execTileTaskComplete core id s
  | .selfTest core slot pass => Sys2Proof.Machine.execSelfTest core slot pass s
  | .sectorIssue eng slot => Sys2Proof.Machine.execSectorIssue eng slot s
  | .copyStamp eng slot => Sys2Proof.Machine.execCopyStamp eng slot s
  | .copyCtrlResume eng slot drv => Sys2Proof.Machine.execCopyCtrlResume eng slot drv s
  | .copyCtrlAbandon eng slot drv => Sys2Proof.Machine.execCopyCtrlAbandon eng slot drv s
  | .ienable core slot v => Sys2Proof.Machine.execIenable core slot v s
  | .lctlPreempt launch drv => Sys2Proof.Machine.execLctlPreempt launch drv s
  | .preemptComplete launch => Sys2Proof.Machine.execPreemptComplete launch s
  | .lctlResume launch drv => Sys2Proof.Machine.execLctlResume launch drv s
  | .lctlKill launch drv => Sys2Proof.Machine.execLctlKill launch drv s
  | .killStamp launch => Sys2Proof.Machine.execKillStamp launch s
  | .lcorePreempt launch core drv => Sys2Proof.Machine.execLcorePreempt launch core drv s
  | .lcoreResume launch core drv => Sys2Proof.Machine.execLcoreResume launch core drv s
  | .doorbell core v drv => Sys2Proof.Machine.execDoorbell core v drv s
  | .tinvVa asid va drv => Sys2Proof.Machine.execTinvVa asid va drv s
  | .tinvAsid asid drv => Sys2Proof.Machine.execTinvAsid asid drv s
  | .tinvAll drv => Sys2Proof.Machine.execTinvAll drv s
  | .invalidationComplete => Sys2Proof.Machine.execInvalidationComplete s
  | .translationWalk id => Sys2Proof.Machine.execTranslationWalk id s
  | .tilePageTableWrite m v drv => Sys2Proof.Machine.execTilePageTableWrite m v drv s
  | .hashRowWrite row v drv => Sys2Proof.Machine.execHashRowWrite row v drv s
  | .pinsizeWrite v drv => Sys2Proof.Machine.execPinsizeWrite v drv s
  | .planeTableWrite off v drv => Sys2Proof.Machine.execPlaneTableWrite off v drv s
  | .planeDeadSet mask drv => Sys2Proof.Machine.execPlaneDeadSet mask drv s
  | .quiesceClear drv => Sys2Proof.Machine.execQuiesceClear drv s
  | .linkFlit f => Sys2Proof.Machine.execLinkFlit f s
  | .migrationGo m drv => Sys2Proof.Machine.execMigrationGo m drv s
  | .migrationSectorCopy m => Sys2Proof.Machine.execMigrationSectorCopy m s
  | .migrationClr m drv => Sys2Proof.Machine.execMigrationClr m drv s
  | .counterClear addr v => Sys2Proof.Machine.execCounterClear addr v s
  | .refresh stack splits => Sys2Proof.Machine.execRefresh stack splits s
  | .scrubRead addr found => Sys2Proof.Machine.execScrubRead addr found s
  | .scrubWriteback addr => Sys2Proof.Machine.execScrubWriteback addr s
  | .powerReqFull drv => Sys2Proof.Machine.execPowerReqFull drv s
  | .powerReqHalf drv => Sys2Proof.Machine.execPowerReqHalf drv s
  | .powerReqIdle drv => Sys2Proof.Machine.execPowerReqIdle drv s
  | .powerTransitionDone => Sys2Proof.Machine.execPowerTransitionDone s
  | .sensorSample sensor sample => Sys2Proof.Machine.execSensorSample sensor sample s
  | .telemetryRefresh words => Sys2Proof.Machine.execTelemetryRefresh words s
  | .powerUp env => Sys2Proof.Machine.execPowerUp env s
  | .clusterStart k pass => Sys2Proof.Machine.execClusterStart k pass s
  | .stackPairStart p lo hi => Sys2Proof.Machine.execStackPairStart p lo hi s
  | .attestationReport session nonce => Sys2Proof.Machine.execAttestationReport session nonce s
  | .read d => Sys2Proof.Machine.execRead d s
  | .write d => Sys2Proof.Machine.execWrite d s
  | .fadd d => Sys2Proof.Machine.execFadd d s
  | .cas d => Sys2Proof.Machine.execCas d s
  | .close d => Sys2Proof.Machine.execClose d s
  | .hello h => Sys2Proof.Machine.execHello h s
  | .watch d => Sys2Proof.Machine.execWatch d s
  | .grant d => Sys2Proof.Machine.execGrant d s
  | .otherFrame tags => Sys2Proof.Machine.execOtherFrame tags s
  | .registerWrite addr size v drv => Sys2Proof.Machine.execRegisterWrite addr size v drv s
  | .powerLoss => Sys2Proof.Machine.execPowerLoss s
  | .unallocatedKindPacket die queue => Sys2Proof.Machine.execUnallocatedKindPacket die queue s

end Sys2Proof.Machine
end

