-- ==== Sys2Proof/Machine/Issue.lean ====
section
/-!
DEFINITION. Sys2Proof/Machine/Issue.lean: the issue of one instruction by one stream (R170, R174, R346, R399), and the
order in which the device's other agents act where State's agenda says nothing (log 2).
-/

namespace Sys2Proof.Machine

/-! ### Issue -/

/-- TRAPINST of words that are no instruction (R169). -/
def rawInst (w0 w1 : W32) : W64 := w1 ++ w0

/-- What follows an instruction `i` run from `s`: a load takes what was read early for it (R138), the instruction's words are gone,
and its stream reads ahead (R399). -/
def afterIssue (s : State) (w : StreamId) (pc : Nat) (i : Instr) (o : Out) : Out :=
  match o with
  | .next t => .next (readAhead (dropWords (useEarly s t w i) w pc (instrSize i)) w)
  | r => r

/-- The instruction at a stream's pc: fetched, decoded, executed (R174). -/
def issueAt (s : State) (w : StreamId) : Out :=
  let pc := (getStream s w).pc.toNat
  match fetchInstr s with
  | .error (.trap c v) => .next (takeTrap s c v 0)
  | .error (.wait k) => .next (noteWait s k)
  | .ok (w0, w1, s) =>
    match decodeWords w0 w1 with
    | .ok i => afterIssue s w pc i (exec i s)
    | .error _ => .next (dropWords (takeTrap s cILLEGAL 0 (rawInst w0 w1)) w pc (sizeOf0 w0))

/-- Whether a pending asynchronous trap goes before a stream's next instruction (R346). -/
def asyncDue (s : State) (w : StreamId) : Bool :=
  !w.ap && !(getCtx s w.core w.ctx).pending.isEmpty && !(getStream s w).mode.intrap

/-- An issue turn of a stream. -/
def issueTurn (s : State) (w : StreamId) : Out :=
  let s := countTurn { s with cur := w } w
  if asyncDue s w then .next (asyncTrap s w) else issueAt s w

/-- The next issue turn, where a stream can take one. -/
def issueNext (s : State) : Out :=
  match nextStream s with
  | (some w, s) => issueTurn s w
  | (none, s) => .next s

/-! ### The device's own order of events (log 2) -/

/-- An event of the device's own, as what it does to the machine. -/
abbrev Act := State → Out

/-- Events of requests in flight. -/
def reqEvents (s : State) : List Act :=
  s.reqs.flatMap (fun r =>
    (match r.kind with
     | .load => [execLoadAtHome r.id]
     | .store => [execStoreAtHome r.id, execWindowWrite r.id]
     | .sector _ _ _ => [execStoreAtHome r.id]
     | .regWrite _ _ _ => [execWindowWrite r.id]
     | .atomic _ _ _ => [execAtomicAtHome r.id]
     | .monitor => [execMonitorRegister r.id]
     | .ready => []) ++ (if r.dest == .none then [] else [execRegisterFill r.id]))

/-- Events of fibre operations in flight. -/
def fibreEvents (s : State) : List Act :=
  s.freqs.flatMap (fun f =>
    (match f.op with
     | .merge _ _ _ => [execMergeAtHome f.id]
     | .delete _ => [execDeleteAtHome f.id]
     | .init _ _ _ _ _ _ => [execFinitAtHome f.id]
     | .pack => [execFpackAtHome f.id]
     | .len | .probe _ | .probev _ _ => [execProbeAtHome f.id]
     | .scan _ _ _ _ _ _ _ => [execScanAtHome f.id]
     | .union _ _ _ _ _ _ _ _ _ _ => [execFunionAtHome f.id])) ++
  (s.dev.pools.map (·.1) ++ s.clusters.flatMap (fun k => k.2.pools.map (fun p => clusterPoolId k.1 p.1))).flatMap
    (fun p => [execStalledMergeResume p, execPoolTimeout p])

/-- The timeouts that end an MWAIT (R37, R248). -/
def timeoutEvents (s : State) : List Act :=
  s.cores.flatMap (fun c =>
    (c.2.cps.map (fun x => ((⟨c.1, x.1, false⟩ : StreamId), x.2)) ++ c.2.aps.map (fun x => ((⟨c.1, x.1, true⟩ : StreamId), x.2))).flatMap (fun x =>
      match x.2.wait with | .mwait _ _ _ => [execMwaitTimeout x.1] | _ => []))

/-- Events of a core's streams and contexts. -/
def streamEvents (n : Nat) (c : Core) : List Act :=
  c.ctxs.flatMap (fun x =>
    (if x.2.pending.isEmpty then [] else [execAsyncTrap (cpOf n x.1)]) ++
      (if x.2.spills.isEmpty then [] else [execSpillWrite n x.1]) ++ x.2.fills.map (fun f => execFillArrive n x.1 f.reg)) ++
  (c.cps.map (fun x => ((⟨n, x.1, false⟩ : StreamId), x.2)) ++ c.aps.map (fun x => ((⟨n, x.1, true⟩ : StreamId), x.2))).flatMap (fun x =>
    match x.2.fence with | some f => f.paths.map (fun p => execFenceAck x.1 p) | none => []) ++
  (upFrom 0 c.heldWrites.length).map (fun i => execHeldWriteDelivery n i)

/-- Events of a core's engines. -/
def engineEvents (n : Nat) (c : Core) : List Act :=
  c.tasks.flatMap (fun t => [execTileTaskIssue n t.id, execTileTaskComplete n t.id]) ++
  c.tasks.flatMap (fun t => match t.kind with
    | .mtest k | .mma _ k _ _ _ | .mmaS _ k _ _ _ _ => [execSelfTest n k true]
    | _ => []) ++
  c.copies.flatMap (fun x => if copyLive x.2 then [execSectorIssue n x.1, execCopyStamp n x.1] else [])

/-- Events of a core's channel unit and scheduler. -/
def actorEvents (n : Nat) (c : Core) : List Act :=
  c.commits.map (fun x => execChannelCommit x.id) ++ c.releases.map (fun x => execChannelRelease x.id) ++
  c.insts.flatMap (fun x => match x.2 with
    | some i =>
      [execMarkerInject n x.1, execSnapshotAlign n x.1, execSnapshotUnalignedSwitch n x.1, execEosForward n x.1, execInstanceRetire n x.1] ++
        (upFrom 0 i.ports.length).flatMap (fun k => [execUnalignedMarkerArrive n x.1 k, execTableTokenTake n x.1 k])
    | none => []) ++
  c.chans.flatMap (fun x => match x.2 with
    | some h =>
      h.sinks.flatMap (fun k => [execSinkDataSlot n x.1 k.1, execSinkEndOfStream n x.1 k.1]) ++
        (upFrom 0 h.consumers.length ++ if h.shadow.isSome then [8] else []).map (fun k => execPoisonReinject n x.1 k) ++
        [execRateSample n x.1]
    | none => []) ++
  ((c.insts.filterMap (fun x => x.2.map (·.launch))).eraseDups).map (fun e => execSchedulingEvent n e)

/-- Events of launches and queues. -/
def launchEvents (s : State) : List Act :=
  s.dev.launches.flatMap (fun e =>
    [execSnapshotComplete e.1, execLaunchStart e.1, execPreemptComplete e.1, execLaunchCompletion e.1, execCompletionStamp e.1,
     execKillStamp e.1, execWatchdog e.1, execIntensityWindow e.1 0 0] ++ if e.2.lstate == 5 then [execLctlResume e.1 true] else []) ++
  s.dies.flatMap (fun d => d.2.copies.flatMap (fun x =>
    if copyLive x.2 then [execSectorIssue (1024 + d.1) x.1, execCopyStamp (1024 + d.1) x.1] else [])) ++
  (upFrom 0 4).flatMap (fun d => match nextQueue s d with
    | some q => [execLaunchPacket d q, execCopyPacket d q, execWaitStampPacket d q, execSignalPacket d q, execUnallocatedKindPacket d q]
    | none => [])

/-- A datagram held for its turn, presented again. -/
def againDatagram (d : Datagram) : List Act :=
  match d.op.toNat with
  | 1 => [execRead d]
  | 2 => [execWrite d]
  | 3 => [execFadd d]
  | 4 => [execCas d]
  | _ => []

/-- Events of the management complex and of the device's shared units. -/
def deviceEvents (s : State) : List Act :=
  s.dev.walks.map (fun k => execTranslationWalk k.id) ++
  (if s.dev.tinv.isEmpty then [] else [execInvalidationComplete]) ++
  (if s.mgmt.power.busy then [execPowerTransitionDone] else []) ++
  s.dev.migrations.filterMap (fun m => if m.2.act then some (execMigrationSectorCopy m.1) else none) ++
  s.dev.scrubs.map (fun e => execScrubWriteback e.1) ++
  s.mgmt.sessions.flatMap (fun x => match x.2 with
    | some y =>
      (y.early.filter (fun d => d.seq.toNat == y.seq)).flatMap againDatagram ++
        y.snapdata.map (fun m => execSnapdataResend x.1 m.seq) ++ [execSnapdataSessionLost x.1]
    | none => [])

/-- The events that could happen, in the order in which the model offers them a turn: an MWAIT's timeout first, which no other
traffic can put off (R37). -/
def candidates (s : State) : List Act :=
  timeoutEvents s ++ deviceEvents s ++ reqEvents s ++ s.cores.flatMap (fun c => streamEvents c.1 c.2 ++ engineEvents c.1 c.2) ++ fibreEvents s ++
    s.cores.flatMap (fun c => actorEvents c.1 c.2) ++ launchEvents s

/-- Whether an event changes the state now. -/
def happens (s : State) (e : Act) : Bool :=
  match e s with
  | .next t => !decide (t = s)
  | _ => false

/-- The next of the device's own events, where one can happen. -/
def nextInternal (s : State) : Out :=
  match (candidates s).find? (happens s) with
  | some e => e s
  | none => .next s

/-! ### One step (log 1, log 2) -/

/-- The agenda's next event; else, in turn, an event of the device's own and an issue turn. Only events stand on an
agenda: anything else is dropped. -/
def stepOf (s : State) : Out :=
  match s.agenda with
  | e :: r => if e.isEvent then exec e { s with agenda := r } else .next { s with agenda := r }
  | [] => if s.drain then nextInternal { s with drain := false } else issueNext { s with drain := true }

/-- A machine that fetches its next instruction at a place of core 0's scratchpad: CP context 0 runs a firing whose
local window holds it, in its turn (log 4). -/
def placeWords (s : State) (bs : List Byte) : State :=
  let base := 0x40000000
  let w : StreamId := { core := 0, ctx := 0, ap := false }
  let s := modCtx s 0 0 (fun c =>
    { c with firing := some ((c.firing.getD { launch := 64, slot := 64, fir := 0, asid := 0, window := none }) ), pending := [] })
  let s := modCtx s 0 0 (fun c => { c with firing := c.firing.map (fun f => { f with window := some base }) })
  let s := modStream s w (fun x => { x with run := .running, pc := w64 base, wait := .none, fetched := [], walkFault := none })
  let s := { s with mem := Memory.put s.epoch s.mem (coreBase 0) bs, turns := [w], agenda := [], drain := false }
  modMgmt s (fun m => { m with power := { m.power with busy := false, cur := 1, tripped := false } })

end Sys2Proof.Machine
end

