-- ==== Sys2Proof/Machine/Step.lean ====
section
/-!
DEFINITION. Sys2Proof/Machine/Step.lean: one step: the clock moves, and an event or an instruction follows.
-/

namespace Sys2Proof.Machine

/-- One step of the machine. -/
def step (s : State) : Host.Outcome State Fault Refusal := stepOf (tickClock s)

/-- The instruction of the table whose bits are `w`, words little-endian and the bits above `nbits` zero, placed
where the next step fetches. -/
def State.withFetchWord (s : State) (nbits w : Nat) : State := placeWords s (bytesOf 8 (w % 2 ^ nbits))

end Sys2Proof.Machine
end

