-- ==== Sys2Proof/Safety.lean ====
section
/-!
DEFINITION. Sys2Proof/Safety.lean: the terms in which claims are stated: when an instruction's operands are ready, what
it looks like once completed, what a run keeps.
-/

namespace Sys2Proof.Claims

open Sys2Proof.Machine

/-! ### Operands that are ready (R153, R160-R165, R174, R379, R380) -/

/-- Physical number of a scalar register code in the issuing stream's window (R155). -/
def phys (s : State) (c : BitVec 6) : Nat := physScalar (curStream s).cwp.win c.toNat

/-- The value a source operand supplies without waiting: the oldest entry of the queue its code names, a register that
is full, a predicate. -/
def supply (s : State) (o : Opnd) : Option VReg :=
  match queueOf o with
  | some q => (tget [] (curCtx s).queues q).head?
  | none =>
    match o.cls with
    | .scalar => if sfullAt (curStream s) (phys s o.code) then some ((sget (curStream s) (phys s o.code)).setWidth 2048) else none
    | .vector => if vfullAt (curStream s) o.code.toNat then some (vget (curStream s) o.code.toNat) else none
    | .pred => some ((pget (curStream s) o.code.toNat).setWidth 2048)

/-- An instruction that passes the checks of R174 and whose sources supply the values `vs`: its stream and its mode may
run it, no operand code is reserved, every source is there, no predicate it names is still to be written, no register or
queue entry it reads fails parity or carries a residue that differs. -/
structure OpsReady (s : State) (p : Plan) (vs : List VReg) : Prop where
  cp : p.cpOnly = true → s.cur.ap = false
  ap : p.apOnly = true → s.cur.ap = true
  priv : p.priv = true → (curStream s).mode.sup = true
  codes : ∀ o ∈ p.ops, reservedCode s.cur.ap o = false
  values : (p.ops.filter isRead).map (supply s) = vs.map some
  preds : ∀ o ∈ p.ops, o.cls = .pred → predPending s s.cur o.code.toNat = false
  parity : ∀ o ∈ p.ops, parityBad (curStream s) (curCtx s) o = false
  residue : ∀ o ∈ p.ops, (isRead o || o.addr || o.data) = true → residueBad (curStream s) o = false

/-! ### Instructions that complete -/

/-- The state after an instruction whose effect has given `t`: the queues it read have lost their oldest entry (R163),
and its stream stands where `f` says (R205, R206). -/
def completed (i : Instr) (p : Plan) (t : State) (f : Flow) : State :=
  modCur (popRead t p f) (fun x => flowStream x (instrSize i) f)

/-- Nothing is on its way to a scalar register of the issuing stream (R161). -/
def FreeS (s : State) (c : BitVec 6) : Prop := scalarPending s s.cur (phys s c) = false
/-- Nothing is on its way to a vector register of the issuing stream. -/
def FreeV (s : State) (c : BitVec 6) : Prop := vectorPending s s.cur c.toNat = false

/-- A scalar register written and full; g0 discards the value (R155, R160). -/
def wrote (s : State) (c : BitVec 6) (v : W64) : State := modCur s (fun x => sput x (phys s c) v)
/-- A scalar register marked empty, its producer under way. -/
def emptied (s : State) (c : BitVec 6) : State := modCur s (fun x => smark x (phys s c) false)
/-- A vector register written and full, its instruction in the context's replay queue (R380). -/
def wroteV (s : State) (c : BitVec 6) (v : VReg) : State :=
  noteProducer (modCur s (fun x => vput x c.toNat v)) s.cur (64 * bit s.cur.ap + c.toNat)
/-- A vector register marked empty. -/
def emptiedV (s : State) (c : BitVec 6) : State := modCur s (fun x => vmark x c.toNat false)

end Sys2Proof.Claims
end

