-- ==== Sys2Proof/Certificates/Slice0/Obligations.lean ====
section
/-!
DEFINITION. Sys2Proof/Certificates/Slice0/Obligations.lean: the statements about the model, each with the rules of the
spec it formalises. The tables of results stand in Sys2Proof.Claims.
-/

open Sys2Proof Sys2Proof.Machine Sys2Proof.Claims

namespace Sys2Proof.Claims

/-! ### Tables of results: integer members -/

/-- Members of two sources with their results (R188-R191): a, b are Reg(rs1), Reg(rs2). -/
def intRows (sc : BitVec 2) (f : R3F) (a b : W64) : List (Instr × W64) :=
  [(.add f, a + b), (.sub f, a - b), (.and f, a &&& b), (.andn f, a &&& ~~~b), (.or f, a ||| b), (.xor f, a ^^^ b),
   (.shl f, if 64 ≤ b.toNat then 0 else a <<< b.toNat), (.shr f, if 64 ≤ b.toNat then 0 else a >>> b.toNat),
   (.sra f, a.sshiftRight (min b.toNat 63)),
   (.mul f, a * b), (.mulhS64 f, BitVec.ofInt 64 (a.toInt * b.toInt / 2 ^ 64)), (.mulhZ64 f, BitVec.ofNat 64 (a.toNat * b.toNat / 2 ^ 64)),
   (.minS64 f, if a.toInt ≤ b.toInt then a else b), (.minZ64 f, if a.toNat ≤ b.toNat then a else b),
   (.maxS64 f, if a.toInt ≤ b.toInt then b else a), (.maxZ64 f, if a.toNat ≤ b.toNat then b else a),
   (.sltS64 f, if a.toInt < b.toInt then 1 else 0), (.sltZ64 f, if a.toNat < b.toNat then 1 else 0),
   (.lea sc f, a + b * BitVec.ofNat 64 (2 ^ sc.toNat))]

/-- Members with a 12-bit immediate (R194, R195). -/
def immRows (f : I12F) (a : W64) : List (Instr × W64) :=
  [(.addi f, a + f.imm12.signExtend 64), (.andi f, a &&& f.imm12.setWidth 64), (.ori f, a ||| f.imm12.setWidth 64),
   (.xori f, a ^^^ f.imm12.setWidth 64), (.shli f, a <<< (f.imm12.toNat % 64)), (.shri f, a >>> (f.imm12.toNat % 64)),
   (.srai f, a.sshiftRight (f.imm12.toNat % 64)), (.slti f, if a.toInt < f.imm12.toInt then 1 else 0)]

/-- DIV and REM with their results for a divisor that is not 0 (R189). -/
def divRows (f : R3F) (a b : W64) : List (Instr × W64) :=
  [(.divS64 f, BitVec.ofInt 64 (a.toInt.tdiv b.toInt)), (.divZ64 f, BitVec.ofNat 64 (a.toNat / b.toNat)),
   (.remS64 f, BitVec.ofInt 64 (a.toInt.tmod b.toInt)), (.remZ64 f, BitVec.ofNat 64 (a.toNat % b.toNat))]

end Sys2Proof.Claims

/-! ### Integer members -/

/-- R188-R191: a member of two sources writes its result to rd, the stream goes on, and nothing else changes. -/
def Obligations.IntegerResults : Prop :=
  ∀ (s : State) (sc : BitVec 2) (f : R3F) (vs : List VReg),
    OpsReady s { ops := ops3 f } vs → FreeS s f.rd →
    ∀ row ∈ intRows sc f (sval vs 0) (sval vs 1),
      exec row.1 s = .next (completed row.1 { ops := ops3 f } (wrote s f.rd row.2) .seq)

/-- R188, R190: CLZ counts the zero bits above the highest one bit, 64 for 0; POPC counts the one bits; SLTZ tests the
sign. -/
def Sys2Proof.Claims.CountResults : Prop :=
  ∀ (s : State) (f : R3F) (vs : List VReg), OpsReady s { ops := ops2 f } vs → FreeS s f.rd →
    (∀ n : Nat, n ≤ 64 → (sval vs 0).toNat < 2 ^ (64 - n) → (n = 64 ∨ 2 ^ (63 - n) ≤ (sval vs 0).toNat) →
      exec (.clz f) s = .next (completed (.clz f) { ops := ops2 f } (wrote s f.rd (BitVec.ofNat 64 n)) .seq)) ∧
    exec (.popc f) s = .next (completed (.popc f) { ops := ops2 f }
      (wrote s f.rd (BitVec.ofNat 64 ((List.range 64).filter (fun k => (sval vs 0).getLsbD k)).length)) .seq) ∧
    exec (.sltz f) s = .next (completed (.sltz f) { ops := ops2 f }
      (wrote s f.rd (if (sval vs 0).msb then 1 else 0)) .seq)

/-- R189: DIV and REM mark rd empty and deliver the quotient or the remainder; a divisor of 0 traps DIV_ZERO with the
dividend, rd untouched. -/
def Sys2Proof.Claims.DivideResults : Prop :=
  ∀ (s : State) (f : R3F) (vs : List VReg), OpsReady s { ops := ops3 f } vs →
    ∀ row ∈ divRows f (sval vs 0) (sval vs 1),
      (sval vs 1 ≠ 0 → FreeS s f.rd →
        exec row.1 s = .next (completed row.1 { ops := ops3 f }
          (deliver (emptied s f.rd) (.scalar (phys s f.rd)) (row.2.setWidth 2048)) .seq)) ∧
      (sval vs 1 = 0 → exec row.1 s = .next (takeTrap s cDIV0 (sval vs 0) (instrWords row.1)))

/-- R194-R196: members with an immediate of the first word. -/
def Sys2Proof.Claims.ImmediateResults : Prop :=
  ∀ (s : State) (f : I12F) (vs : List VReg), OpsReady s { ops := opsI f } vs → FreeS s f.rd →
    ∀ row ∈ immRows f (sval vs 0),
      exec row.1 s = .next (completed row.1 { ops := opsI f } (wrote s f.rd row.2) .seq)

/-- R195, R196: LUI, LI, LIH and ADDL. LIH reads rd, keeps its low half and replaces its high half. -/
def Sys2Proof.Claims.WideImmediateResults : Prop :=
  ∀ (s : State) (vs : List VReg),
    (∀ f : U19F, OpsReady s { ops := [dstS f.rd] } vs → FreeS s f.rd →
      exec (.lui f) s = .next (completed (.lui f) { ops := [dstS f.rd] } (wrote s f.rd (f.imm19.signExtend 64 <<< 12)) .seq)) ∧
    (∀ f : LF, OpsReady s { ops := [dstS f.rd] } vs → FreeS s f.rd →
      exec (.li f) s = .next (completed (.li f) { ops := [dstS f.rd] } (wrote s f.rd (f.imm32.signExtend 64)) .seq)) ∧
    (∀ f : LF, OpsReady s { ops := [bothS f.rd] } vs → FreeS s f.rd →
      exec (.lih f) s = .next (completed (.lih f) { ops := [bothS f.rd] }
        (wrote s f.rd (BitVec.ofNat 64 ((sval vs 0).toNat % 2 ^ 32 + f.imm32.toNat * 2 ^ 32))) .seq)) ∧
    (∀ f : LF, OpsReady s { ops := [dstS f.rd, srcS 1 f.rs1 f.w1] } vs → FreeS s f.rd →
      exec (.addl f) s = .next (completed (.addl f) { ops := [dstS f.rd, srcS 1 f.rs1 f.w1] }
        (wrote s f.rd (sval vs 0 + f.imm32.signExtend 64)) .seq))

/-- R194-R196: the members with an immediate, of one word and of two. -/
def Obligations.ImmediateMembers : Prop := ImmediateResults ∧ WideImmediateResults

/-- R190: SEL reads rd in every case and keeps it where Reg(rs1) is 0. -/
def Sys2Proof.Claims.SelectResult : Prop :=
  ∀ (s : State) (f : R3F) (vs : List VReg),
    OpsReady s { ops := [bothS f.rd, srcS 1 f.rs1 f.w1, srcS 2 f.rs2 f.w2] } vs → FreeS s f.rd →
    exec (.sel f) s = .next (completed (.sel f) { ops := [bothS f.rd, srcS 1 f.rs1 f.w1, srcS 2 f.rs2 f.w2] }
      (wrote s f.rd (if sval vs 1 ≠ 0 then sval vs 2 else sval vs 0)) .seq)

/-- R188-R190: CLZ, POPC, SLTZ, SEL, and DIV and REM with their trap on a zero divisor. -/
def Obligations.CountSelectDivide : Prop := CountResults ∧ SelectResult ∧ DivideResults

/-- R192, R193: SETE and SETF change only the full bit of rd, once nothing is pending into it; a write that the port holds for
the register SETE empties is delivered at once, the first one held. TESTFE reads a full bit, or whether a queue holds an
entry, pops nothing and never waits. -/
def Sys2Proof.Claims.FullEmptyMembers : Prop :=
  ∀ (s : State) (f : R3F) (vs : List VReg),
    (FreeS s f.rd → OpsReady s { ops := [dstS f.rd] } vs →
      ((s.cur.ap = true ∨ ∀ h ∈ (getCore s s.cur.core).heldWrites, ¬ (h.ctx = s.cur.ctx ∧ h.reg = phys s f.rd)) →
        exec (.sete f) s = .next (completed (.sete f) { ops := [dstS f.rd] } (modCur s (fun x => smark x (phys s f.rd) false)) .seq)) ∧
      (∀ pre h post, s.cur.ap = false → (getCore s s.cur.core).heldWrites = pre ++ h :: post → h.ctx = s.cur.ctx →
        h.reg = phys s f.rd → (∀ k ∈ pre, ¬ (k.ctx = s.cur.ctx ∧ k.reg = phys s f.rd)) → phys s f.rd ≠ 0 → phys s f.rd < 136 →
        streamStopped s s.cur = false →
        ∃ t, exec (.sete f) s = .next t ∧ sfullAt (curStream t) (phys s f.rd) = true ∧
          sget (curStream t) (phys s f.rd) = h.data.setWidth 64 ∧ (getCore t s.cur.core).heldWrites = pre ++ post) ∧
      exec (.setf f) s = .next (completed (.setf f) { ops := [dstS f.rd] } (modCur s (fun x => smark x (phys s f.rd) true)) .seq)) ∧
    (OpsReady s { ops := [dstS f.rd, { pos := 1, code := f.rs1, cls := .scalar, role := .named }] } vs →
      (f.rs1.toNat < 32 →
        exec (.testfe f) s = .next (completed (.testfe f) {} (wrote s f.rd (if sfullAt (curStream s) (phys s f.rs1) then 1 else 0)) .seq)) ∧
      (∀ q, q < 4 → f.rs1.toNat = 32 + q →
        exec (.testfe f) s = .next (completed (.testfe f) {} (wrote s f.rd (if tget [] (curCtx s).queues q = [] then 0 else 1)) .seq)))

/-! ### Reading registers (R153, R160, R163, R174) -/

namespace Sys2Proof.Claims

/-- Every member of `intRows` and `divRows`: rd, rs1 and rs2 of the R3 format. -/
def threeRegister (sc : BitVec 2) (f : R3F) : List Instr :=
  (intRows sc f 0 0).map (·.1) ++ (divRows f 0 0).map (·.1)

end Sys2Proof.Claims

/-- R160, R174: a first source in an empty register traps REG_EMPTY with its code and position where w1 is set, and
waits for the register, with nothing changed, where w1 is clear. -/
def Sys2Proof.Claims.EmptySource : Prop :=
  ∀ (s : State) (sc : BitVec 2) (f : R3F), ∀ i ∈ threeRegister sc f,
    (∀ o ∈ ops3 f, reservedCode s.cur.ap o = false) → f.rs1.toNat < 32 → sfullAt (curStream s) (phys s f.rs1) = false →
    (f.w1 = true → exec i s = .next (takeTrap s cEMPTY (BitVec.ofNat 64 (f.rs1.toNat + 256)) (instrWords i))) ∧
    (f.w1 = false → exec i s = .next (modCur s (fun x => { x with wait := .reg f.rs1.toNat false })))

/-- R163, R160: a source that names an empty queue waits for it, or traps REG_EMPTY where w1 is set. -/
def Sys2Proof.Claims.EmptyQueue : Prop :=
  ∀ (s : State) (sc : BitVec 2) (f : R3F) (q : Nat), ∀ i ∈ threeRegister sc f,
    (∀ o ∈ ops3 f, reservedCode s.cur.ap o = false) → q < 4 → f.rs1.toNat = 32 + q → tget [] (curCtx s).queues q = [] →
    f.rs2.toNat < 32 →
    (f.w1 = true → exec i s = .next (takeTrap s cEMPTY (BitVec.ofNat 64 (f.rs1.toNat + 256)) (instrWords i))) ∧
    (f.w1 = false → exec i s = .next (modCur s (fun x => { x with wait := .queue q })))

/-- R163, R160: the same of a second source that names an empty queue, behind a first source that is full. -/
def Sys2Proof.Claims.EmptySecondQueue : Prop :=
  ∀ (s : State) (sc : BitVec 2) (f : R3F) (q : Nat), ∀ i ∈ threeRegister sc f,
    (∀ o ∈ ops3 f, reservedCode s.cur.ap o = false) → q < 4 → f.rs2.toNat = 32 + q → tget [] (curCtx s).queues q = [] →
    f.rs1.toNat < 32 → sfullAt (curStream s) (phys s f.rs1) = true →
    (f.w2 = true → exec i s = .next (takeTrap s cEMPTY (BitVec.ofNat 64 (f.rs2.toNat + 512)) (instrWords i))) ∧
    (f.w2 = false → exec i s = .next (modCur s (fun x => { x with wait := .queue q })))

/-- R153, R174: the first operand in position order whose code is reserved for its use traps RESERVED_REGISTER, with the
code and the position in TRAPVAL, before any source is read. -/
def Sys2Proof.Claims.ReservedRegister : Prop :=
  ∀ (s : State) (sc : BitVec 2) (f : R3F), ∀ i ∈ threeRegister sc f,
    (32 ≤ f.rd.toNat → exec i s = .next (takeTrap s cRESERVED (BitVec.ofNat 64 f.rd.toNat) (instrWords i))) ∧
    (f.rd.toNat < 32 → 36 ≤ f.rs1.toNat →
      exec i s = .next (takeTrap s cRESERVED (BitVec.ofNat 64 (f.rs1.toNat + 64)) (instrWords i))) ∧
    (f.rd.toNat < 32 → s.cur.ap = true → 32 ≤ f.rs1.toNat →
      exec i s = .next (takeTrap s cRESERVED (BitVec.ofNat 64 (f.rs1.toNat + 64)) (instrWords i))) ∧
    (f.rd.toNat < 32 → f.rs1.toNat < 32 → s.cur.ap = true → 32 ≤ f.rs2.toNat →
      exec i s = .next (takeTrap s cRESERVED (BitVec.ofNat 64 (f.rs2.toNat + 128)) (instrWords i))) ∧
    (f.rd.toNat < 32 → (f.rs1.toNat < 32 ∨ (s.cur.ap = false ∧ f.rs1.toNat < 36)) → 36 ≤ f.rs2.toNat →
      exec i s = .next (takeTrap s cRESERVED (BitVec.ofNat 64 (f.rs2.toNat + 128)) (instrWords i)))

/-- R153, R160, R163, R174: a reserved code traps first; an empty source, register or queue, waits or traps by its w bit. -/
def Obligations.OperandChecks : Prop := EmptySource ∧ EmptyQueue ∧ EmptySecondQueue ∧ ReservedRegister

/-- R155, R160: what a scalar write does to the register file: the register takes the value and is full, every other
register keeps its value and its full bit, and g0 reads 0 and stays full whatever is written. -/
def Sys2Proof.Claims.RegisterFile : Prop :=
  ∀ (x : Stream) (p q : Nat) (v : W64), p < 136 → q < 136 →
    sget (sput x p v) q = (if q = 0 then 0 else if q = p then v else sget x q) ∧
    sfullAt (sput x p v) q = (if q = p then true else sfullAt x q) ∧
    sfullAt (smark x p false) q = (if q = 0 then true else if q = p then false else sfullAt x q) ∧
    sget (smark x p false) q = sget x q

/-- R155, R156: the o registers of a frame are the i registers of the frame it calls, and the windows of eight frames
in a row share no other register. -/
def Sys2Proof.Claims.WindowOverlap : Prop :=
  ∀ win k : Nat, win < 8 → k < 8 →
    physScalar win (8 + k) = physScalar ((win + 1) % 8) (24 + k) ∧
    (∀ win' c c' : Nat, win' < 8 → 8 ≤ c → c < 24 → 8 ≤ c' → c' < 24 → physScalar win c = physScalar win' c' → win = win' ∧ c = c')

/-- R155, R156, R160, R192: the full/empty members, what a write does to the register file, and the windows' overlap. The model's
choices here: TESTFE writes rd at once, whatever is pending into it (log 89). -/
def Obligations.RegisterState : Prop := FullEmptyMembers ∧ RegisterFile ∧ WindowOverlap

/-! ### Control transfer (R197-R207) -/

namespace Sys2Proof.Claims

/-- The conditions of BC (R197). -/
def bcTaken (cond : Nat) (x : W64) : Prop :=
  match cond with
  | 0 => x.toInt = 0
  | 1 => x.toInt ≠ 0
  | 2 => x.toInt < 0
  | 3 => 0 ≤ x.toInt
  | 4 => 0 < x.toInt
  | _ => x.toInt ≤ 0

/-- The address of the instruction being run. -/
def pcOf (s : State) : W64 := (curStream s).pc

end Sys2Proof.Claims

/-- R197, R198: a branch transfers by its offset in words where its condition holds and goes on where it does not; JMP
transfers; JMPR transfers to Reg(rs1), or traps MISALIGNED. -/
def Sys2Proof.Claims.Branches : Prop :=
  ∀ (s : State) (vs : List VReg),
    (∀ f : BcF, f.cond.toNat ≤ 5 → OpsReady s { ops := [srcS 1 f.rs1 f.w1] } vs →
      (bcTaken f.cond.toNat (sval vs 0) →
        exec (.bc f) s = .next (completed (.bc f) { ops := [srcS 1 f.rs1 f.w1] } s (.transfer (pcOf s + f.off15.signExtend 64 * 4)))) ∧
      (¬ bcTaken f.cond.toNat (sval vs 0) →
        exec (.bc f) s = .next (completed (.bc f) { ops := [srcS 1 f.rs1 f.w1] } s .seq))) ∧
    (∀ f : J25F, OpsReady s {} vs →
      exec (.jmp f) s = .next (completed (.jmp f) {} s (.transfer (pcOf s + f.off25.signExtend 64 * 4)))) ∧
    (∀ f : R3F, OpsReady s { ops := [addrS 1 f.rs1 f.w1] } vs →
      ((sval vs 0).toNat % 4 = 0 → exec (.jmpr f) s = .next (completed (.jmpr f) { ops := [addrS 1 f.rs1 f.w1] } s (.transfer (sval vs 0)))) ∧
      ((sval vs 0).toNat % 4 ≠ 0 → exec (.jmpr f) s = .next (takeTrap s cMISALIGNED (sval vs 0) (instrWords (.jmpr f)))))

namespace Sys2Proof.Claims

/-- The stream of a CALL without a spill: one frame deeper, the new window's registers empty, its LINK set (R157, R199). -/
def calledStream (x : Stream) : Stream :=
  let win := (x.cwp.depth + 1) % 8
  { emptyWindow x win with
    cwp := { win := win, depth := x.cwp.depth + 1, below := x.cwp.below + 1 }, link := tset 0 x.link win (x.pc + 4) }

/-- The stream of a RET without a fill: one frame shallower, the levels of the frame left closed (R157, R200). -/
def returnedStream (x : Stream) : Stream :=
  { closeWhere x (fun l => l.dtag == x.cwp.depth) with
    cwp := { win := (x.cwp.depth + 7) % 8, depth := x.cwp.depth - 1, below := x.cwp.below - 1 } }

end Sys2Proof.Claims

/-- R157, R199: a call to a frame whose window is free goes one frame deeper with the return address in LINK; it traps
ILLEGAL_OPERAND at DEPTH 255, and CALLR traps MISALIGNED first, however many frames are resident. -/
def Sys2Proof.Claims.Calls : Prop :=
  ∀ (s : State) (vs : List VReg),
    let fits := windowPending s s.cur (((curStream s).cwp.depth + 1) % 8) true = false ∧ (curStream s).cwp.below < 7 ∧
      (curStream s).cwp.depth < 255
    (∀ f : J25F, OpsReady s { cpOnly := true } vs →
      (fits →
        exec (.call f) s = .next (completed (.call f) { cpOnly := true } (modCur s calledStream) (.call (pcOf s + f.off25.signExtend 64 * 4)))) ∧
      ((curStream s).cwp.depth = 255 → exec (.call f) s = .next (takeTrap s cOPERAND 0 (instrWords (.call f))))) ∧
    (∀ f : R3F, OpsReady s { cpOnly := true, ops := [addrS 1 f.rs1 f.w1] } vs →
      ((sval vs 0).toNat % 4 = 0 → fits →
        exec (.callr f) s = .next (completed (.callr f) { cpOnly := true, ops := [addrS 1 f.rs1 f.w1] } (modCur s calledStream) (.call (sval vs 0)))) ∧
      ((sval vs 0).toNat % 4 = 0 → (curStream s).cwp.depth = 255 →
        exec (.callr f) s = .next (takeTrap s cOPERAND 0 (instrWords (.callr f)))) ∧
      ((sval vs 0).toNat % 4 ≠ 0 → exec (.callr f) s = .next (takeTrap s cMISALIGNED (sval vs 0) (instrWords (.callr f)))))

/-- R157, R200: a return from a frame whose caller is resident transfers to LINK one frame shallower; it traps MISALIGNED
for a LINK that is no instruction address, then ILLEGAL_OPERAND at DEPTH 0. -/
def Sys2Proof.Claims.Returns : Prop :=
  ∀ (s : State) (f : R3F), OpsReady s { cpOnly := true } [] →
    ((linkOf (curStream s)).toNat % 4 = 0 → 0 < (curStream s).cwp.depth → 1 < (curStream s).cwp.below →
      exec (.ret f) s = .next (completed (.ret f) { cpOnly := true } (modCur s returnedStream) (.transfer (linkOf (curStream s))))) ∧
    ((linkOf (curStream s)).toNat % 4 ≠ 0 →
      exec (.ret f) s = .next (takeTrap s cMISALIGNED (linkOf (curStream s)) (instrWords (.ret f)))) ∧
    ((linkOf (curStream s)).toNat % 4 = 0 → (curStream s).cwp.depth = 0 →
      exec (.ret f) s = .next (takeTrap s cOPERAND 0 (instrWords (.ret f))))

/-- R157, R197-R200: branches, jumps, calls and returns. -/
def Obligations.ControlTransfer : Prop := Branches ∧ Calls ∧ Returns

/-- R157, R158, R379: a call with seven frames resident puts the lowest one into a spill buffer: the sixteen registers of its
window with their full bits, and its LINK, 0 for the frame of DEPTH -1 that the first spill puts into record 0, on their way to
its record, with the mode they are written in; the frame stays seven deep. A register to be spilled whose
residue is not its value's traps RESIDUE_ERROR as store data. -/
def Sys2Proof.Claims.SpillingCall : Prop :=
  ∀ (s : State) (i : Instr) (p : Plan) (vs : List VReg) (segs : List Seg) (d : Nat),
    ((∃ f, i = .call f ∧ p = { cpOnly := true }) ∨
      (∃ f, i = .callr f ∧ p = { cpOnly := true, ops := [addrS 1 f.rs1 f.w1] } ∧ (sval vs 0).toNat % 4 = 0)) →
    OpsReady s p vs → (curStream s).cwp.depth = d → 6 ≤ d → d < 255 → (curStream s).cwp.below = 7 →
    recordSegs s .store (d - 6) = .ok segs → windowPending s s.cur ((d - 6 + 7) % 8) true = false →
    windowPending s s.cur ((d + 1) % 8) true = false → (curCtx s).spills.length < 2 → tableRoom s s.cur.core segs = true →
    let w := 8 + 16 * ((d - 6 + 7) % 8)
    (∀ j, j < 16 → tget 15 (curStream s).residue (w + j) ≠ 15 → (∀ k, k < j → tget 15 (curStream s).residue (w + k) = 15) →
      exec i s = .next (takeTrap s cRESIDUE (BitVec.ofNat 64 (tget 15 (curStream s).residue (w + j) +
        (sget (curStream s) (w + j)).toNat % 15 * 16 + 256)) (instrWords i))) ∧
    ((∀ k, k < 16 → tget 15 (curStream s).residue (w + k) = 15) →
    ∃ t b, exec i s = .next t ∧ (curCtx t).spills = (curCtx s).spills ++ [b] ∧
      b.segs = segs.flatMap (fun g => cutPiece g 18) ∧
      b.full = (curStream s).sfull.extractLsb' (8 + 16 * ((d - 6 + 7) % 8)) 16 ∧ b.regs.length = 16 ∧
      (∀ k, k < 16 → b.regs[k]? = some (sget (curStream s) (8 + 16 * ((d - 6 + 7) % 8) + k))) ∧
      b.link = (if d = 6 then 0 else tget 0 (curStream s).link ((d - 6 + 7) % 8)) ∧ b.drv = curSup s ∧
      (curStream t).cwp = { win := (d + 1) % 8, depth := d + 1, below := 7 } ∧ t.mem = s.mem)

/-- R203, R204: LOOP and LOOPI open a level at the next instruction with the count of iterations; a count of 0 skips the
body as an instruction whose next address is its end. -/
def Sys2Proof.Claims.LoopsOpen : Prop :=
  ∀ (s : State) (vs : List VReg), (curStream s).levels.length < 4 →
    (∀ f : LpF, OpsReady s { ops := [srcS 1 f.rs1 f.w1] } vs → f.off16 ≠ 0 →
      let e := pcOf s + 4 + f.off16.setWidth 64 * 4
      (∀ l ∈ (curStream s).levels, levelCurrent (curStream s) l = true → e.toNat ≤ l.e.toNat) →
      ((sval vs 0).toNat % 2 ^ 32 = 0 → exec (.loop f) s = .next (completed (.loop f) { ops := [srcS 1 f.rs1 f.w1] } s (.skip e))) ∧
      ((sval vs 0).toNat % 2 ^ 32 ≠ 0 → ∃ t k, exec (.loop f) s = .next t ∧ k < 4 ∧
        (curStream t).levels = { k := k, s := pcOf s + 4, e := e, dtag := (curStream s).cwp.depth, itag := (curStream s).mode.intrap } :: (curStream s).levels ∧
        tget 0 (curStream t).lc k = (sval vs 0).setWidth 32 ∧ (curStream t).pc = pcOf s + 4)) ∧
    (∀ (f : LxF) (n : Nat), OpsReady s { ops := [srcS 1 f.rs1 f.w1, srcS 2 f.rs2 f.w2] } vs → f.off16 ≠ 0 → f.simm16 ≠ 0 →
      let e := pcOf s + 8 + f.off16.setWidth 64 * 4
      (∀ l ∈ (curStream s).levels, levelCurrent (curStream s) l = true → e.toNat ≤ l.e.toNat) →
      n < 2 ^ 32 →
      -- n is the least count with which start + n × step reaches stop, 0 where it stands there or beyond
      (if 0 < f.simm16.toInt then (sval vs 1).toInt ≤ (sval vs 0).toInt + n * f.simm16.toInt ∧
          (n = 0 ∨ (sval vs 0).toInt + (n - 1) * f.simm16.toInt < (sval vs 1).toInt)
        else (sval vs 0).toInt + n * f.simm16.toInt ≤ (sval vs 1).toInt ∧
          (n = 0 ∨ (sval vs 1).toInt < (sval vs 0).toInt + (n - 1) * f.simm16.toInt)) →
      (n = 0 → exec (.loopi f) s = .next (completed (.loopi f) { ops := [srcS 1 f.rs1 f.w1, srcS 2 f.rs2 f.w2] } s (.skip e))) ∧
      (n ≠ 0 → ∃ t k, exec (.loopi f) s = .next t ∧ k < 4 ∧
        (curStream t).levels = { k := k, s := pcOf s + 8, e := e, dtag := (curStream s).cwp.depth, itag := (curStream s).mode.intrap } :: (curStream s).levels ∧
        tget 0 (curStream t).lc k = BitVec.ofNat 32 n ∧ (curStream t).pc = pcOf s + 8))

/-- R205: the end test at an instruction that ends in the body of the innermost level: the count falls by one, and the
stream goes back to the body's start, or past it with the level closed. -/
def Sys2Proof.Claims.LoopEnds : Prop :=
  ∀ (x : Stream) (n : Nat) (l : Level) (r : List Level),
    x.levels = l :: r → levelCurrent x l = true → x.pc.toNat < l.e.toNat → l.e.toNat ≤ (x.pc + BitVec.ofNat 64 n).toNat →
    (∀ m ∈ r, m.k ≠ l.k) →
    (tget 0 x.lc l.k ≠ 1 → (advance x n).pc = l.s ∧ tget 0 (advance x n).lc l.k = tget 0 x.lc l.k - 1 ∧ (advance x n).levels = x.levels) ∧
    (tget 0 x.lc l.k = 1 → (∀ m ∈ r, levelCurrent x m = true → ¬ (x.pc.toNat < m.e.toNat ∧ m.e.toNat ≤ (x.pc + BitVec.ofNat 64 n).toNat)) →
      (advance x n).pc = x.pc + BitVec.ofNat 64 n ∧ tget 0 (advance x n).lc l.k = 0 ∧ (advance x n).levels = r)

/-- R203, R204: the limits of LOOP and LOOPI, each trapping ILLEGAL_OPERAND with its number before a level opens, also for a count
of 0: an empty body (5), a step of 0 (3), a count above 2^32 - 1 (4), a fifth level (1), an end past the end of a current
level (2). -/
def Sys2Proof.Claims.LoopLimits : Prop :=
  ∀ (s : State) (vs : List VReg),
    (∀ f : LpF, OpsReady s { ops := [srcS 1 f.rs1 f.w1] } vs →
      let e := pcOf s + 4 + f.off16.setWidth 64 * 4
      let traps := fun k : W64 => exec (.loop f) s = .next (takeTrap s cOPERAND k (instrWords (.loop f)))
      (f.off16 = 0 → traps 5) ∧
      (f.off16 ≠ 0 → 4 ≤ (curStream s).levels.length → traps 1) ∧
      (f.off16 ≠ 0 → (curStream s).levels.length < 4 →
        (∃ l ∈ (curStream s).levels, levelCurrent (curStream s) l = true ∧ l.e.toNat < e.toNat) → traps 2)) ∧
    (∀ f : LxF, OpsReady s { ops := [srcS 1 f.rs1 f.w1, srcS 2 f.rs2 f.w2] } vs →
      let e := pcOf s + 8 + f.off16.setWidth 64 * 4
      let traps := fun k : W64 => exec (.loopi f) s = .next (takeTrap s cOPERAND k (instrWords (.loopi f)))
      -- 2^32 - 1 iterations do not reach stop
      let many := if 0 < f.simm16.toInt then (sval vs 0).toInt + (2 ^ 32 - 1) * f.simm16.toInt < (sval vs 1).toInt
        else (sval vs 1).toInt < (sval vs 0).toInt + (2 ^ 32 - 1) * f.simm16.toInt
      (f.off16 = 0 → traps 5) ∧
      (f.off16 ≠ 0 → f.simm16 = 0 → traps 3) ∧
      (f.off16 ≠ 0 → f.simm16 ≠ 0 → many → traps 4) ∧
      (f.off16 ≠ 0 → f.simm16 ≠ 0 → ¬ many → 4 ≤ (curStream s).levels.length → traps 1) ∧
      (f.off16 ≠ 0 → f.simm16 ≠ 0 → ¬ many → (curStream s).levels.length < 4 →
        (∃ l ∈ (curStream s).levels, levelCurrent (curStream s) l = true ∧ l.e.toNat < e.toNat) → traps 2))

/-- R206: what a transfer to t, by BC, JMP, JMPR, RET or ERET, does to the loop levels of its stream, innermost first: each
current level whose body does not hold t closes, its count 0, up to the first current level whose body holds t; that one, and
every level outside it or not current, stays with its count. A call closes none. JMP is given as a whole. -/
def Sys2Proof.Claims.LevelsLeft : Prop :=
  ∀ (x : Stream) (n : Nat) (t : W64), (x.levels.map (·.k)).Nodup →
    let holds := fun l : Level => l.s.toNat ≤ t.toNat ∧ t.toNat < l.e.toNat
    (∀ pre post : List Level, x.levels = pre ++ post → (∀ m ∈ pre, levelCurrent x m = true → ¬ holds m) →
      (∀ l, post.head? = some l → levelCurrent x l = true ∧ holds l) →
      let left := fun y : Stream => y.pc = t ∧ y.levels = pre.filter (fun m => !levelCurrent x m) ++ post ∧
        (∀ m ∈ pre, levelCurrent x m = true → tget 0 y.lc m.k = 0) ∧ (∀ m ∈ y.levels, tget 0 y.lc m.k = tget 0 x.lc m.k)
      left (flowStream x n (.transfer t)) ∧
      (∀ (s : State) (f : J25F), curStream s = x → OpsReady s {} [] → pcOf s + f.off25.signExtend 64 * 4 = t →
        ∃ u, exec (.jmp f) s = .next u ∧ left (curStream u))) ∧
    (flowStream x n (.call t)).levels = x.levels ∧ (flowStream x n (.call t)).lc = x.lc

/-- R203-R206: how a loop level opens, what stops it from opening, the end test, and what a transfer out of a body closes. -/
def Obligations.Loops : Prop := LoopsOpen ∧ LoopLimits ∧ LoopEnds ∧ LevelsLeft

/-! ### Traps, modes and system registers (R166-R169, R210-R215) -/

namespace Sys2Proof.Claims

/-- A stream after trap entry (R169): the cause, the address of the instruction, the value and its words in the trap
registers; supervisor mode with INTRAP, the mode before in PSUP; on at TRAPVEC. -/
structure Entered (x y : Stream) (cause : Nat) (val inst : W64) : Prop where
  cause : y.trap.cause = BitVec.ofNat 64 cause
  pc : y.trap.pc = x.pc &&& 0x0000FFFFFFFFFFFC#64
  val : y.trap.val = val
  inst : y.trap.inst = inst
  vec : y.trap.vec = x.trap.vec
  mode : y.mode = { sup := true, psup := x.mode.sup, intrap := true }
  go : y.pc = x.trap.vec
  regs : y.sreg = x.sreg ∧ y.vreg = x.vreg ∧ y.vfull = x.vfull ∧ y.preg = x.preg ∧ y.cwp = x.cwp ∧ y.link = x.link ∧
    y.lc = x.lc ∧ y.levels = x.levels ∧ y.sscra = x.sscra ∧ y.sscrb = x.sscrb ∧ y.ttroot = x.ttroot ∧ y.run = x.run

end Sys2Proof.Claims

/-- R169: a synchronous trap of a stream outside a trap enters the handler: the four trap registers are set, the mode
changes, the stream goes on at TRAPVEC, and the registers, the loop levels and memory stay; the register of an MWAIT it abandons
has its full bit back (R346). -/
def Sys2Proof.Claims.TrapEntry : Prop :=
  ∀ (s : State) (cause : Nat) (val inst : W64), (curStream s).mode.intrap = false → cause < 256 →
    Entered (curStream s) (curStream (takeTrap s cause val inst)) cause val inst ∧
    (takeTrap s cause val inst).mem = s.mem ∧
    ((∀ d p full, (curStream s).wait ≠ .mwait d p full) → (curStream (takeTrap s cause val inst)).sfull = (curStream s).sfull) ∧
    (∀ d p full, (curStream s).wait = .mwait d p full → 0 < p → p < 136 → ∀ q, q < 136 →
      sfullAt (curStream (takeTrap s cause val inst)) q = (if q = p then full else sfullAt (curStream s) q)) ∧
    (∀ w, w ≠ s.cur → getStream (takeTrap s cause val inst) w = getStream s w)

/-- R169: a trap taken with INTRAP = 1 is a double trap: both streams of the context stop, nothing is saved, and the
launch fails with code 0x13, the stream's TRAPPC, and both causes, the context and the stream in DETAIL (R354). -/
def Sys2Proof.Claims.DoubleTrap : Prop :=
  ∀ (s : State) (cause : Nat) (val inst : W64) (e : Nat), (curStream s).mode.intrap = true → (curStream s).run = .running →
    launchOf s s.cur = some e → (getLaunch s e).failed = false →
    let t := takeTrap s cause val inst
    (curStream t).run = .stopped ∧ (curStream t).trap = (curStream s).trap ∧
    (getStream t { s.cur with ap := !s.cur.ap }).run ≠ .running ∧ (getLaunch t e).failed = true ∧
    (getLaunch t e).err = { code := 0x13, core := s.cur.core, addr := (curStream s).trap.pc,
                            detail := BitVec.ofNat 64 ((curStream s).trap.cause.toNat % 256 + cause * 256 + s.cur.ctx * 2 ^ 16 + (if s.cur.ap then 2 ^ 18 else 0)) }

/-- R169: trap entry outside a trap, and the double trap inside one. -/
def Obligations.TrapsTaken : Prop := TrapEntry ∧ DoubleTrap

/-- R167, R210, R211, R213, R215: in user mode the privileged members trap PRIVILEGED: ERET, HALT, reads of the trap
registers and what follows them, writes of WINSPILL and of the registers from MODE on. -/
def Sys2Proof.Claims.Privilege : Prop :=
  ∀ (s : State), (curStream s).mode.sup = false →
    (∀ f : R3F, exec (.eret f) s = .next (takeTrap s cPRIV 0 (instrWords (.eret f))) ∧
      exec (.halt f) s = .next (takeTrap s cPRIV 0 (instrWords (.halt f)))) ∧
    (∀ f : SysF, reservedCode s.cur.ap (dstS f.rd) = false → 0x21 ≤ f.sel13.toNat →
      exec (.mfsr f) s = .next (takeTrap s cPRIV 0 (instrWords (.mfsr f)))) ∧
    (∀ f : SysF, reservedCode s.cur.ap (srcS 1 f.rs1 false) = false → (f.sel13.toNat = 4 ∨ 0x20 ≤ f.sel13.toNat) →
      exec (.mtsr f) s = .next (takeTrap s cPRIV 0 (instrWords (.mtsr f))))

/-- R165, R183, R199, R200, R209, R214, R258: the CP-only members are illegal in an AP stream, and QPUSH and the FSCAN that
delivers into a queue (DK = 0) are illegal in a CP stream: they trap ILLEGAL_INSTRUCTION with TRAPVAL 0 before any other check. -/
def Sys2Proof.Claims.StreamOnlyMembers : Prop :=
  ∀ (s : State) (f : R3F) (j : J25F) (e : EF) (v : VF),
    (s.cur.ap = true → ∀ i ∈ [Instr.call j, .callr f, .ret f, .wdrain f, .yield f, .vhist v, .mldb e, .mldm e, .mma e, .mmaS e,
        .mclr e, .mrd e, .tdclass e, .tdquery e, .mtest e, .cpy e, .cpystat e, .cpycancel e, .chpush e, .chpop e, .chpeek e,
        .chmark e, .chstat e, .cbload e],
      exec i s = .next (takeTrap s cILLEGAL 0 (instrWords i))) ∧
    (s.cur.ap = false → exec (.qpush v) s = .next (takeTrap s cILLEGAL 0 (instrWords (.qpush v))) ∧
      (e.bits 25 1 = 0 → exec (.fscan e) s = .next (takeTrap s cILLEGAL 0 (instrWords (.fscan e)))))

/-- R165-R167, R210, R211, R213-R215: the members a user stream, an AP stream or a CP stream may not run, and the traps they take. The
model's choices here: TRAPVAL of a PRIVILEGED trap is 0 (log 87). -/
def Obligations.WhoMayRun : Prop := Privilege ∧ StreamOnlyMembers

namespace Sys2Proof.Claims

/-- A stream waiting on an interlock, nothing else changed. -/
def heldUp (s : State) : State := modCur s (fun x => { x with wait := .interlock })

/-- What each system register reads as (R166). -/
def sysRows (s : State) : List (Nat × W64) :=
  let x := curStream s
  let c := curCtx s
  let k := getCore s s.cur.core
  [(0x000, c.wid), (0x001, c.firecnt),
   (0x002, BitVec.ofNat 64 (s.cur.ctx % 4 + s.cur.core % 1024 * 4 + (if s.cur.ap then 1 else 0) * 4096)),
   (0x003, BitVec.ofNat 64 (x.cwp.win + x.cwp.depth * 8 + x.cwp.below * 2048)),
   (0x004, c.winspill), (0x005, tget 0 x.link x.cwp.win), (0x008, c.fpctl.setWidth 64), (0x00A, c.seed.setWidth 64),
   (0x010, BitVec.ofNat 64 s.cycle), (0x011, BitVec.ofNat 64 s.time),
   (0x018, BitVec.ofNat 64 (k.tdbase * 4096)), (0x019, BitVec.ofNat 64 (k.tdsize * 4096 + k.tdesz)),
   (0x020, BitVec.ofNat 64 ((if x.mode.sup then 1 else 0) + (if x.mode.psup then 2 else 0) + (if x.mode.intrap then 4 else 0))),
   (0x021, x.trap.cause), (0x022, x.trap.pc), (0x023, x.trap.val), (0x024, x.trap.inst), (0x025, x.trap.vec),
   (0x026, x.sscra), (0x027, x.sscrb), (0x028, k.sphash.setWidth 64), (0x029, x.ttroot)]

/-- What a write of each system register of one stream or one context does (R166, R211): v is Reg(rs1). -/
def sysWrites (s : State) (v : W64) : List (Nat × State) :=
  let st := fun (f : Stream → Stream) => modCur s f
  [(0x004, modCurCtx s (fun c => { c with winspill := v &&& 0x0000FFFFFFFFFFF0#64 })),
   (0x005, st (fun x => { x with link := tset 0 x.link x.cwp.win v })),
   (0x00A, modCurCtx s (fun c => writeSeed c (v.setWidth 32))),
   (0x020, st (fun x => { x with mode := { x.mode with psup := v.getLsbD 1, intrap := v.getLsbD 2 } })),
   (0x021, st (fun x => { x with trap := { x.trap with cause := v &&& 0x1FF#64 } })),
   (0x022, st (fun x => { x with trap := { x.trap with pc := v &&& 0x0000FFFFFFFFFFFC#64 } })),
   (0x023, st (fun x => { x with trap := { x.trap with val := v } })),
   (0x024, st (fun x => { x with trap := { x.trap with inst := v } })),
   (0x025, st (fun x => { x with trap := { x.trap with vec := v &&& 0x0000FFFFFFFFFFFC#64 } })),
   (0x026, st (fun x => { x with sscra := v })), (0x027, st (fun x => { x with sscrb := v })),
   (0x029, st (fun x => { x with ttroot := v &&& 0x000FFFFFFFFFFFFF#64 }))]

end Sys2Proof.Claims

/-- R166, R210: MFSR writes to rd what the register named by sel13 holds; FPFLAGS only once no MMA of the context is
pending (R88). -/
def Sys2Proof.Claims.SystemReads : Prop :=
  ∀ (s : State) (f : SysF) (vs : List VReg),
    OpsReady s { priv := decide (0x21 ≤ f.sel13.toNat), ops := [dstS f.rd] } vs → FreeS s f.rd →
    (∀ row ∈ sysRows s, f.sel13.toNat = row.1 →
      exec (.mfsr f) s = .next (completed (.mfsr f) { ops := [dstS f.rd] } (wrote s f.rd row.2) .seq)) ∧
    (f.sel13.toNat = 9 → mmaPending s = false →
      exec (.mfsr f) s = .next (completed (.mfsr f) { ops := [dstS f.rd] } (wrote s f.rd ((curCtx s).fpflags.setWidth 64)) .seq)) ∧
    (f.sel13.toNat = 9 → mmaPending s = true → exec (.mfsr f) s = .next (modCur s (fun x => { x with wait := .interlock })))

/-- R81, R88, R105, R166, R211: MTSR writes the writable fields of the register named by sel13; a read-only register
traps ILLEGAL_OPERAND with its number, FPCTL traps on a rounding mode of 5 to 7, and TDBASE and TDSIZE trap on a region past the
scratchpad and wait for an empty tile dependency table. R50, R51: a new SPHASH leaves each word in its row and its bank. -/
def Sys2Proof.Claims.SystemWrites : Prop :=
  ∀ (s : State) (f : SysF) (vs : List VReg),
    let p : Plan := { priv := sysPrivWrite f.sel13.toNat, ops := [srcS 1 f.rs1 false] }
    OpsReady s p vs →
    (∀ row ∈ sysWrites s (sval vs 0), f.sel13.toNat = row.1 → exec (.mtsr f) s = .next (completed (.mtsr f) p row.2 .seq)) ∧
    (f.sel13.toNat ∈ [0, 1, 2, 3, 0x10, 0x11] →
      exec (.mtsr f) s = .next (takeTrap s cOPERAND (f.sel13.setWidth 64) (instrWords (.mtsr f)))) ∧
    (f.sel13.toNat = 8 → (sval vs 0).toNat % 8 < 5 →
      exec (.mtsr f) s = .next (completed (.mtsr f) p (modCurCtx s (fun c => { c with fpctl := (sval vs 0).setWidth 9 })) .seq)) ∧
    (f.sel13.toNat = 8 → 5 ≤ (sval vs 0).toNat % 8 →
      exec (.mtsr f) s = .next (takeTrap s cOPERAND (sval vs 0) (instrWords (.mtsr f)))) ∧
    (f.sel13.toNat = 9 → mmaPending s = false →
      exec (.mtsr f) s = .next (completed (.mtsr f) p (modCurCtx s (fun c => { c with fpflags := (sval vs 0).setWidth 5 })) .seq)) ∧
    (f.sel13.toNat = 9 → mmaPending s = true → exec (.mtsr f) s = .next (heldUp s)) ∧
    (let k := getCore s s.cur.core
     ∀ base size esz, (f.sel13.toNat = 0x18 ∧ base = (sval vs 0).toNat / 4096 % 128 ∧ size = k.tdsize ∧ esz = k.tdesz) ∨
        (f.sel13.toNat = 0x19 ∧ base = k.tdbase ∧ size = (sval vs 0).toNat / 4096 % 256 ∧ esz = (sval vs 0).toNat % 4) →
      (128 < base + size → exec (.mtsr f) s = .next (takeTrap s cOPERAND (sval vs 0) (instrWords (.mtsr f)))) ∧
      (base + size ≤ 128 → tableEmpty s s.cur.core = false → exec (.mtsr f) s = .next (heldUp s)) ∧
      (base + size ≤ 128 → tableEmpty s s.cur.core = true → exec (.mtsr f) s = .next (completed (.mtsr f) p
        (modCore s s.cur.core (fun c => { c with tdbase := base, tdsize := size, tdesz := esz, regDir := [] })) .seq))) ∧
    (f.sel13.toNat = 0x28 → Memory.wf s.epoch s.mem = true → s.cur.core < 1024 →
      ∃ t, exec (.mtsr f) s = .next (completed (.mtsr f) p t .seq) ∧ (getCore t s.cur.core).sphash = (sval vs 0).setWidth 55 ∧
        (∀ o q, o < 0x80000 → q / 256 = o / 256 → q % 8 = o % 8 → bankOf ((sval vs 0).setWidth 55) q = bankOf (getCore s s.cur.core).sphash o →
          Memory.get t.epoch t.mem (coreBase s.cur.core + q) = Memory.get s.epoch s.mem (coreBase s.cur.core + o)) ∧
        (∀ a, (a < coreBase s.cur.core ∨ coreBase s.cur.core + 0x80000 ≤ a) → Memory.get t.epoch t.mem a = Memory.get s.epoch s.mem a))

/-- R166: a word of MFSR or MTSR whose sel13 names no register of the table does not decode. -/
def Sys2Proof.Claims.SystemNumbers : Prop :=
  ∀ (rd rs1 : BitVec 6) (sel : BitVec 13) (z : W32),
    sel.toNat ∉ [0, 1, 2, 3, 4, 5, 8, 9, 0xA, 0x10, 0x11, 0x18, 0x19, 0x20, 0x21, 0x22, 0x23, 0x24, 0x25, 0x26, 0x27, 0x28, 0x29] →
    decodeWords (0#1 ++ 0x30#6 ++ rd ++ rs1 ++ sel) z = .error .badField ∧ decodeWords (0#1 ++ 0x31#6 ++ rd ++ rs1 ++ sel) z = .error .badField

/-- R81, R88, R166, R210, R211: what MFSR reads and what MTSR writes, and the numbers that neither takes. -/
def Obligations.SystemRegisters : Prop := SystemReads ∧ SystemWrites ∧ SystemNumbers

/-- R209, R212-R215: TRAP raises its own trap; NOP only goes on; YIELD forgoes the context's turns until every other context of
the core that is ready has been offered one; HALT goes on and stops both streams of the context. -/
def Sys2Proof.Claims.SystemMembers : Prop :=
  ∀ (s : State) (f : R3F) (t : I12F),
    (OpsReady s {} [] →
      exec (.trap t) s = .next (takeTrap s cTRAP (t.imm12.setWidth 64) (instrWords (.trap t))) ∧
      exec (.nop f) s = .next (completed (.nop f) {} s .seq)) ∧
    (OpsReady s { cpOnly := true } [] →
      exec (.yield f) s = .next (completed (.yield f) { cpOnly := true } (modCurCtx s (fun c => { c with yielded := [0, 1, 2, 3].filter (fun k => k != s.cur.ctx &&
        (canIssue s { core := s.cur.core, ctx := k, ap := false } || canIssue s { core := s.cur.core, ctx := k, ap := true })) })) .seq)) ∧
    (OpsReady s { priv := true } [] → s.cur.ap = false → (curStream s).run = .running →
      ∃ u, exec (.halt f) s = .next u ∧ (curStream u).run = .halted ∧ (getStream u { s.cur with ap := true }).run ≠ .running ∧
        u.dev.evtwidx = (s.dev.evtwidx + 1) % 2 ^ 64 ∧ u.mem = s.mem)

/-- R206, R207, R213: ERET enters the mode that PSUP holds, clears INTRAP, closes the levels opened in the handler and
transfers to TRAPPC. -/
def Sys2Proof.Claims.ReturnFromTrap : Prop :=
  ∀ (s : State) (f : R3F), OpsReady s { priv := true } [] →
    ∃ t, exec (.eret f) s = .next t ∧ (curStream t).mode = { sup := (curStream s).mode.psup, psup := (curStream s).mode.psup, intrap := false } ∧
      (curStream t).pc = (curStream s).trap.pc ∧ (curStream t).trap = (curStream s).trap ∧
      (∀ l ∈ (curStream t).levels, l.itag = false ∧ l ∈ (curStream s).levels) ∧ (curStream t).sreg = (curStream s).sreg ∧ t.mem = s.mem

/-- R206, R207, R209, R212-R215: TRAP, NOP, YIELD, HALT and ERET. The model's choices here: HALT stops both streams of its context
(log 77). -/
def Obligations.SystemActs : Prop := SystemMembers ∧ ReturnFromTrap

/-- R158, R214: WDRAIN spills frame by frame, each with its sixteen registers, their full bits and its LINK, and completes once one frame is resident and no spill buffer is in use. -/
def Sys2Proof.Claims.WindowDrain : Prop :=
  ∀ (s : State) (f : R3F), OpsReady s { cpOnly := true } [] →
    ((curStream s).cwp.below = 1 → (curCtx s).spills = [] →
      exec (.wdrain f) s = .next (completed (.wdrain f) { cpOnly := true } s .seq)) ∧
    ((curStream s).cwp.below = 1 → (curCtx s).spills ≠ [] →
      exec (.wdrain f) s = .next (modCur s (fun x => { x with wait := .interlock }))) ∧
    (∀ segs d b, (curStream s).cwp.below = b → 1 < b → (curStream s).cwp.depth = d → b ≤ d + 1 →
      recordSegs s .store (d + 1 - b) = .ok segs → windowPending s s.cur ((d + 1 - b + 7) % 8) true = false →
      (curCtx s).spills.length < 2 → tableRoom s s.cur.core segs = true →
      (∀ k, k < 16 → tget 15 (curStream s).residue (8 + 16 * ((d + 1 - b + 7) % 8) + k) = 15) →
      ∃ t buf, exec (.wdrain f) s = .next t ∧ (curCtx t).spills = (curCtx s).spills ++ [buf] ∧
        buf.segs = segs.flatMap (fun g => cutPiece g 18) ∧
        buf.full = (curStream s).sfull.extractLsb' (8 + 16 * ((d + 1 - b + 7) % 8)) 16 ∧ buf.regs.length = 16 ∧
        (∀ k, k < 16 → buf.regs[k]? = some (sget (curStream s) (8 + 16 * ((d + 1 - b + 7) % 8) + k))) ∧
        buf.link = (if b = d + 1 then 0 else tget 0 (curStream s).link ((d + 1 - b + 7) % 8)) ∧ buf.drv = curSup s ∧
        (curStream t).cwp = { (curStream s).cwp with below := b - 1 } ∧ (curStream t).pc = (curStream s).pc ∧ t.mem = s.mem)

/-- R157, R158, R200: a return to a frame that is not resident goes one frame shallower, marks the sixteen registers of its window
empty, brings each of them and its full bit from the frame's record, and takes the frame's LINK from it. -/
def Sys2Proof.Claims.FillingReturn : Prop :=
  ∀ (s : State) (f : R3F) (segs : List Seg) (d : Nat),
    OpsReady s { cpOnly := true } [] → (linkOf (curStream s)).toNat % 4 = 0 → (curStream s).cwp.depth = d → 0 < d →
    (curStream s).cwp.below = 1 → recordSegs s .load (d - 1) = .ok segs → windowPending s s.cur ((d - 1 + 7) % 8) true = false →
    issueReady s .load false false [segAt segs 0x88 8] = true → tableRoom s s.cur.core segs = true →
    let w := 8 + 16 * ((d - 1 + 7) % 8)
    ∃ t, exec (.ret f) s = .next t ∧ (curStream t).cwp = { win := (d + 7) % 8, depth := d - 1, below := 1 } ∧
      (curStream t).pc = linkOf (curStream s) ∧
      (curCtx t).fills = (curCtx s).fills ++ (List.range 16).map (fun k =>
        { reg := w + k, val := segAt segs (8 * k) 8, full := segAt segs 0x80 2, bit := k, id := s.nextId + k }) ∧
      (∀ k, k < 16 → sfullAt (curStream t) (w + k) = false) ∧
      tget 0 (curStream t).link ((d - 1 + 7) % 8) = BitVec.ofNat 64 (readSeg s (segAt segs 0x88 8)).1 ∧ t.mem = s.mem

/-- R157, R158, R200, R214: what a call that spills and WDRAIN put into the spill buffers, and what a return that fills brings back. The
model's choices here: WDRAIN spills one frame each time it issues (log 77), and CALL, RET and WDRAIN wait where a window still
has something on its way or both buffers are in use (log 49). -/
def Obligations.WindowTraffic : Prop := SpillingCall ∧ WindowDrain ∧ FillingReturn

/-! ### Translation (R40-R43, R237) -/

/-- R43, R237: an address above 2^48 faults with kind 3; one that a cached leaf covers is refused with kind 1 where the
leaf does not permit the access, and else gives the leaf's page with the offset kept; one that nothing covers waits for
a walk. A fault traps by the access, with the kind in TRAPVAL[63:60] and the address. -/
def Sys2Proof.Claims.TranslateAddress : Prop :=
  ∀ (s : State) (a : Access) (va : W64) (n : Nat) (writes whole : Bool),
    (2 ^ 48 ≤ va.toNat → xlate s a va n writes whole =
      .error (.trap (faultCause a writes) (BitVec.ofNat 64 (3 * 2 ^ 60 + va.toNat % 2 ^ 48)))) ∧
    (va.toNat < 2 ^ 48 → inWindow (curWindow s) va.toNat = none →
      (∀ e, tlbFind (getCluster s (s.cur.core / 64)).tlb ((curStream s).ttroot.toNat % 2 ^ 16) va.toNat = some e →
        (permitted e.pte a (curStream s).mode.sup writes = false →
          xlate s a va n writes whole = .error (.trap (faultCause a writes) (BitVec.ofNat 64 (2 ^ 60 + va.toNat)))) ∧
        (permitted e.pte a (curStream s).mode.sup writes = true →
          ∀ x, xlate s a va n writes whole = .ok x → x.pa = leafBase e.pte + va.toNat % 2 ^ e.log2)) ∧
      (tlbFind (getCluster s (s.cur.core / 64)).tlb ((curStream s).ttroot.toNat % 2 ^ 16) va.toNat = none →
        (curStream s).walkFault = none →
        xlate s a va n writes whole = .error (.wait (.walk ((curStream s).ttroot.toNat % 2 ^ 16) va.toNat))))

/-- R40-R42: one level of a walk: an entry whose V is 0 ends it with kind 0, a malformed one with kind 2, a leaf with that
leaf for its level's page, and a table pointer leads to the next level's table. -/
def Sys2Proof.Claims.WalkOneLevel : Prop :=
  ∀ (s : State) (ptrs : List PtrEntry) (asid va l table : Nat) (e : W64),
    readPte s (table + levelIndex l va * 8) = .ok e → l ≤ 3 →
    (e.getLsbD 0 = false → (walkFrom s ptrs asid va l table).leaf = .error 0) ∧
    (e.getLsbD 0 = true → malformed l e = true → (walkFrom s ptrs asid va l table).leaf = .error 2) ∧
    (e.getLsbD 0 = true → malformed l e = false → e.getLsbD 1 = true →
      ∃ t, (walkFrom s ptrs asid va l table).leaf = .ok t ∧ t.asid = asid ∧ t.pte = e ∧ t.log2 = levelLog l ∧
        va / 2 ^ t.log2 * 2 ^ t.log2 = t.vbase) ∧
    (∀ k, l = k + 1 → e.getLsbD 0 = true → malformed l e = false → e.getLsbD 1 = false →
      (walkFrom s ptrs asid va l table).leaf = (walkFrom s ptrs asid va k (e.toNat / 256 % 2 ^ 44 * 256)).leaf)

/-- R40-R43, R237: a stream's translation by its cached leaves, and one level of a walk. The model's choices here: a stream's miss waits for a walk event (log 15). -/
def Obligations.Translation : Prop := TranslateAddress ∧ WalkOneLevel

/-! ### Scalar accesses (R237-R240, R245) -/

namespace Sys2Proof.Claims

/-- The scalar loads and stores with their sizes (R178, R239). -/
def loadRows (f : I12F) : List (Instr × Nat) := [(.ld8 f, 1), (.ld16 f, 2), (.ld32 f, 4), (.ld64 f, 8)]
def storeRows (f : I12F) : List (Instr × Nat) := [(.st8 f, 1), (.st16 f, 2), (.st32 f, 4), (.st64 f, 8)]

/-- The address of a load or store: the base and the 9-bit offset in units of its size (R178). -/
def unitAddr (base : W64) (f : I12F) (n : Nat) : W64 := base + (f.imm12.extractLsb' 0 9).signExtend 64 * BitVec.ofNat 64 n

/-- The bytes of an access of one piece. -/
def piece (x : Xlated) (n : Nat) : Seg := { pa := x.pa, len := n, off := 0, dev := x.dev }

end Sys2Proof.Claims

/-- R109, R137, R160, R237, R239, R240: a load sends one aligned access to its home and marks rd empty, or holds a place in the
queue that rd names; it traps MISALIGNED, or as its translation or the parity of what a view shows it says, and waits where it meets a tile of its core and the tile
dependency table is full. Nothing of memory changes at its issue. -/
def Sys2Proof.Claims.LoadsIssue : Prop :=
  ∀ (s : State) (f : I12F) (vs : List VReg), ∀ row ∈ loadRows f,
    let p : Plan := { ops := [dstSQ f.rd, addrS 1 f.rs1 f.w1] }
    let va := unitAddr (sval vs 0) f row.2
    OpsReady s p vs →
    (va.toNat % row.2 ≠ 0 → exec row.1 s = .next (takeTrap s cMISALIGNED va (instrWords row.1))) ∧
    (va.toNat % row.2 = 0 →
      (∀ c v, xlate s .load va row.2 false false = .error (.trap c v) → exec row.1 s = .next (takeTrap s c v (instrWords row.1))) ∧
      (∀ w, xlate s .load va row.2 false false = .error (.wait w) → exec row.1 s = .next (noteWait s w)) ∧
      (∀ x c v, xlate s .load va row.2 false false = .ok x → poisonIn s [piece x row.2] = none →
        viewParity s [piece x row.2] = .error (.trap c v) → exec row.1 s = .next (takeTrap s c v (instrWords row.1))) ∧
      (∀ x, xlate s .load va row.2 false false = .ok x → poisonIn s [piece x row.2] = none → viewParity s [piece x row.2] = .ok s →
        tableRoom s s.cur.core [piece x row.2] = false → exec row.1 s = .next (modCur s (fun x => { x with wait := .interlock }))) ∧
      (∀ x, xlate s .load va row.2 false false = .ok x → poisonIn s [piece x row.2] = none → viewParity s [piece x row.2] = .ok s →
        tableRoom s s.cur.core [piece x row.2] = true →
        let r : Req := { request s .load [piece x row.2] with acq := f.ord == 1, size := row.2, signed := !f.z, va := va.toNat }
        (f.rd.toNat < 32 → FreeS s f.rd →
          exec row.1 s = .next (completed row.1 p (send (emptied s f.rd) { r with dest := .scalar (phys s f.rd) }) .seq)) ∧
        (∀ q, q < 4 → f.rd.toNat = 32 + q → pushReady s q = .ok () →
          exec row.1 s = .next (completed row.1 p (send s { r with dest := .queue q }) .seq))))

/-- R109, R137, R139, R147, R237, R239: a store sends its data to its home and completes: it is posted. It waits where it meets a
tile of its core and the tile dependency table is full. -/
def Sys2Proof.Claims.StoresIssue : Prop :=
  ∀ (s : State) (f : I12F) (vs : List VReg), ∀ row ∈ storeRows f,
    let p : Plan := { ops := [dataS 0 f.rd false, addrS 1 f.rs1 f.w1] }
    let va := unitAddr (sval vs 1) f row.2
    OpsReady s p vs →
    (va.toNat % row.2 ≠ 0 → exec row.1 s = .next (takeTrap s cMISALIGNED va (instrWords row.1))) ∧
    (va.toNat % row.2 = 0 →
      (∀ c v, xlate s .store va row.2 true false = .error (.trap c v) → exec row.1 s = .next (takeTrap s c v (instrWords row.1))) ∧
      (∀ x, xlate s .store va row.2 true false = .ok x → tableRoom s s.cur.core [piece x row.2] = false →
        exec row.1 s = .next (modCur s (fun x => { x with wait := .interlock }))) ∧
      (∀ x, xlate s .store va row.2 true false = .ok x → tableRoom s s.cur.core [piece x row.2] = true →
        exec row.1 s = .next (completed row.1 p (send s { request s .store [piece x row.2] with
          data := (sval vs 0).setWidth 2048, rel := f.ord != 0, relEng := f.ord == 2, size := row.2, va := va.toNat }) .seq)))

/-- R137, R237, R239, R240: the issue of the scalar loads and stores. -/
def Obligations.LoadsAndStores : Prop := LoadsIssue ∧ StoresIssue

namespace Sys2Proof.Claims

/-- The atomics with their operations (R180, R245). -/
def amoRows (f : AmoF) : List (Instr × AmoOp) :=
  [(.amoadd f, .add), (.amominS f, .minS), (.amominZ f, .minZ), (.amomaxS f, .maxS), (.amomaxZ f, .maxZ), (.amoand f, .and),
   (.amoor f, .or), (.amoxchg f, .xchg), (.amosnap f, .snap), (.amocas f, .cas)]

end Sys2Proof.Claims

/-- R139, R180, R237, R245: an atomic sends one read-and-write to its home, of 4 or 8 bytes, and marks rd empty; AMOCAS
sends the old Reg(rd) to compare with. -/
def Sys2Proof.Claims.AtomicsIssue : Prop :=
  ∀ (s : State) (f : AmoF) (vs : List VReg), ∀ row ∈ amoRows f,
    let p : Plan := { ops := amoOps row.2 f.r }
    let n := if f.z then 4 else 8
    let va := (amoVals row.2 vs).1
    OpsReady s p vs →
    (va.toNat % n ≠ 0 → exec row.1 s = .next (takeTrap s cMISALIGNED va (instrWords row.1))) ∧
    (va.toNat % n = 0 →
      (∀ c v, xlate s .atomic va n true false = .error (.trap c v) → exec row.1 s = .next (takeTrap s c v (instrWords row.1))) ∧
      (∀ x, xlate s .atomic va n true false = .ok x → poisonIn s [piece x n] = none → tableRoom s s.cur.core [piece x n] = true →
        FreeS s f.r.rd →
        exec row.1 s = .next (completed row.1 p (send (emptied s f.r.rd)
          { request s (.atomic row.2 (amoVals row.2 vs).2.1 (amoVals row.2 vs).2.2) [piece x n] with
            acq := f.ord.getLsbD 0, rel := f.ord.getLsbD 1, dest := .scalar (phys s f.r.rd), size := n
            signed := row.2 == .minS || row.2 == .maxS, va := va.toNat }) .seq)))

/-- R245: what an atomic writes at its home, `old` being the location's value before, b and e its operands, for locations of
4 and 8 bytes: sums wrap, the signed forms compare as two's complement, AMOSNAP clears, AMOCAS replaces an equal value. -/
def Sys2Proof.Claims.AtomicValues : Prop :=
  ∀ (w : Nat) (old b e : BitVec w), (w = 32 ∨ w = 64) →
    amoNew .add w old.toNat b.toNat e.toNat = (old + b).toNat ∧
    amoNew .minS w old.toNat b.toNat e.toNat = (if b.toInt < old.toInt then b else old).toNat ∧
    amoNew .minZ w old.toNat b.toNat e.toNat = (if b.toNat < old.toNat then b else old).toNat ∧
    amoNew .maxS w old.toNat b.toNat e.toNat = (if old.toInt < b.toInt then b else old).toNat ∧
    amoNew .maxZ w old.toNat b.toNat e.toNat = (if old.toNat < b.toNat then b else old).toNat ∧
    amoNew .and w old.toNat b.toNat e.toNat = (old &&& b).toNat ∧ amoNew .or w old.toNat b.toNat e.toNat = (old ||| b).toNat ∧
    amoNew .xchg w old.toNat b.toNat e.toNat = b.toNat ∧ amoNew .snap w old.toNat b.toNat e.toNat = 0 ∧
    amoNew .cas w old.toNat b.toNat e.toNat = (if old = e then b else old).toNat

/-- R139, R180, R245: the issue of the atomics, and the value each writes at its home. -/
def Obligations.Atomics : Prop := AtomicsIssue ∧ AtomicValues

/-! ### Fences, monitors, barriers (R141, R142, R147, R246-R250) -/

namespace Sys2Proof.Claims

/-- A device or domain fence completed: a domain fence forgets the remote devices it has covered (R142). -/
def farDone (s : State) (c : Scope) : State :=
  fenceWords (if c = .domain then modCur s (fun x => { x with remote := [] }) else s) c

end Sys2Proof.Claims

/-- R141, R142, R147, R246: a fence completes once nothing of its stream is outstanding in its scope, and waits before;
FENCE.ENG waits for the stream's engine requests; the device and domain fences note what came before them, and complete
once every path has acknowledged and those accesses are performed. -/
def Obligations.Fences : Prop :=
  ∀ (s : State) (f : R3F), OpsReady s {} [] →
    (∀ row ∈ [(Instr.fenceCore f, Scope.core), (.fenceCluster f, .cluster)],
      (outstanding s s.cur row.2 s.nextId = false → exec row.1 s = .next (completed row.1 {} (fenceWords s row.2) .seq)) ∧
      (outstanding s s.cur row.2 s.nextId = true → exec row.1 s = .next (heldUp s))) ∧
    (∀ row ∈ [(Instr.fenceDevice f, Scope.device), (.fenceDomain f, .domain)],
      ((curStream s).fence = none → outstanding s s.cur row.2 s.nextId = false →
        exec row.1 s = .next (completed row.1 {} (farDone s row.2) .seq)) ∧
      ((curStream s).fence = none → outstanding s s.cur row.2 s.nextId = true →
        ∃ t ps, exec row.1 s = .next t ∧ (curStream t).fence = some { upto := s.nextId, paths := ps } ∧ 8 ∈ ps ∧
          (∀ b, b < 64 → planeOfBucket s.dev b ∈ ps) ∧
          (curStream t).pc = (curStream s).pc ∧ (curStream t).wait = .interlock) ∧
      (∀ g : Fence, (curStream s).fence = some g → g.paths = [] → outstanding s s.cur row.2 g.upto = false →
        exec row.1 s = .next (completed row.1 {} (farDone s row.2) .seq)) ∧
      (∀ g : Fence, (curStream s).fence = some g → (g.paths ≠ [] ∨ outstanding s s.cur row.2 g.upto = true) →
        exec row.1 s = .next (heldUp s))) ∧
    (engineBusy s s.cur s.nextId = false → exec (.fenceEng f) s = .next (completed (.fenceEng f) {} s .seq)) ∧
    (engineBusy s s.cur s.nextId = true → exec (.fenceEng f) s = .next (heldUp s))

/-- R247: MARM arms the stream's monitor on the aligned word at Reg(rs1), HIT clear, and sends its registration to the
word's home in the place of an earlier one. -/
def Sys2Proof.Claims.MonitorArms : Prop :=
  ∀ (s : State) (f : R3F) (vs : List VReg) (x : Xlated),
    OpsReady s { ops := [addrS 1 f.rs1 f.w1] } vs →
    ((sval vs 0).toNat % 8 ≠ 0 → exec (.marm f) s = .next (takeTrap s cMISALIGNED (sval vs 0) (instrWords (.marm f)))) ∧
    ((sval vs 0).toNat % 8 = 0 → xlate s .marm (sval vs 0) 8 false false = .ok x →
      ∃ t r, exec (.marm f) s = .next t ∧ (curStream t).monitor = { armed := true, placed := false, hit := false, pa := x.pa, va := (sval vs 0).toNat, dev := x.dev } ∧
        t.reqs = s.reqs.filter (fun q => !(q.agent == .stream s.cur && q.kind == .monitor)) ++ [r] ∧
        r.kind = .monitor ∧ r.agent = .stream s.cur ∧ r.todo = [piece x 8] ∧ t.mem = s.mem)

/-- R248: MWAIT needs an armed monitor; its first issue marks rd empty and notes when CYCLE ends the wait, 0 for no limit;
it completes once HIT is set or its time is over, with the word's value in rd and the monitor disarmed. Its final read waits
for what any read waits for. -/
def Sys2Proof.Claims.MonitorWaits : Prop :=
  ∀ (s : State) (f : R3F) (vs : List VReg), ∀ i ∈ [Instr.mwait f, .mwaitAcq f],
    OpsReady s { ops := mwaitOps s f } vs →
    ((curStream s).monitor.armed = false → exec i s = .next (takeTrap s cOPERAND 0 (instrWords i))) ∧
    ((curStream s).monitor.armed = true →
      let g : Seg := { pa := (curStream s).monitor.pa, len := 8, off := 0, dev := (curStream s).monitor.dev }
      ((∀ d p full, (curStream s).wait ≠ .mwait d p full) → FreeS s f.rd →
        ∃ t, exec i s = .next t ∧ (curStream t).wait = .mwait (if (sval vs 0).toNat % 2 ^ 32 = 0 then 0 else s.cycle + (sval vs 0).toNat % 2 ^ 32)
            (phys s f.rd) (sfullAt (curStream s) (phys s f.rd)) ∧
          (phys s f.rd ≠ 0 → sfullAt (curStream t) (phys s f.rd) = false) ∧ (curStream t).pc = (curStream s).pc) ∧
      (∀ d p full, (curStream s).wait = .mwait d p full →
        ((curStream s).monitor.hit = false → d ≠ 0 → ∃ t, exec i s = .next t ∧ (curStream t).wait = .mwait d p full ∧ (curStream t).pc = (curStream s).pc) ∧
        ((curStream s).monitor.hit = true ∨ d = 0 → issueReady s .load (i == .mwaitAcq f) false [g] = false →
          ∃ t, exec i s = .next t ∧ (curStream t).wait = .mwait d p full ∧ (curStream t).pc = (curStream s).pc) ∧
        ((curStream s).monitor.hit = true ∨ d = 0 → issueReady s .load (i == .mwaitAcq f) false [g] = true → poisonIn s [g] = none →
          ∃ t, exec i s = .next t ∧ (curStream t).monitor.armed = false ∧ (curStream t).wait = .none ∧
            (phys s f.rd ≠ 0 → sget (curStream t) (phys s f.rd) = BitVec.ofNat 64 (readSeg s g).1 ∧
              (phys s f.rd < 136 → sfullAt (curStream t) (phys s f.rd) = true)) ∧ t.mem = s.mem)))

/-- R249, R250: BAR.INIT sets COUNT of an object nobody has arrived at; BAR.ARR at phase p counts an arrival, delivers the
number of those before it, and the last of COUNT flips PHASE; BAR.WAIT completes once PHASE has left p. They act on the object
once the accesses that come before them in order have been performed. -/
def Sys2Proof.Claims.Barriers : Prop :=
  ∀ (s : State) (f : R3F) (vs : List VReg) (k b : Nat),
    (OpsReady s { ops := [addrS 1 f.rs1 f.w1, srcS 2 f.rs2 f.w2] } vs →
      (barrierAt s (sval vs 0) true false false = .ok (.here k b) → 1 ≤ (sval vs 1).toNat → (sval vs 1).toNat ≤ 4096 → (getBarrier s k b).arrived = 0 →
        exec (.barInit f) s = .next (completed (.barInit f) { ops := [addrS 1 f.rs1 f.w1, srcS 2 f.rs2 f.w2] }
          (takeId (applyMember s k b { getBarrier s k b with count := (sval vs 1).toNat } 0)).2 .seq)) ∧
      (((sval vs 1).toNat = 0 ∨ 4096 < (sval vs 1).toNat) →
        exec (.barInit f) s = .next (takeTrap s cOPERAND (sval vs 1) (instrWords (.barInit f)))) ∧
      (barrierAt s (sval vs 0) false true false = .ok (.here k b) → (getBarrier s k b).count ≠ 0 →
        (sval vs 1 = (if (getBarrier s k b).phase then 0 else 1) →
          exec (.barWait f) s = .next (completed (.barWait f) { ops := [addrS 1 f.rs1 f.w1, srcS 2 f.rs2 f.w2] } s .seq)) ∧
        (sval vs 1 = (if (getBarrier s k b).phase then 1 else 0) →
          ∃ t pa, exec (.barWait f) s = .next t ∧ (curStream t).wait = .barrier pa ∧ (curStream t).pc = (curStream s).pc))) ∧
    (OpsReady s { ops := [dstS f.rd, addrS 1 f.rs1 f.w1, srcS 2 f.rs2 f.w2] } vs → FreeS s f.rd →
      barrierAt s (sval vs 0) true false true = .ok (.here k b) → (getBarrier s k b).count ≠ 0 →
      sval vs 1 = (if (getBarrier s k b).phase then 1 else 0) →
      let o := getBarrier s k b
      exec (.barArr f) s = .next (completed (.barArr f) { ops := [dstS f.rd, addrS 1 f.rs1 f.w1, srcS 2 f.rs2 f.w2] }
        (deliver (applyMember (emptied s f.rd) k b
            (if o.arrived + 1 = o.count then { o with arrived := 0, phase := !o.phase } else { o with arrived := o.arrived + 1 }) o.arrived)
          (.scalar (phys s f.rd)) (BitVec.ofNat 2048 o.arrived)) .seq))

/-- R247-R250: MARM, MWAIT and the barrier members. The model's choices here: MWAIT's last read is one act with its completion
(log 31), and a barrier member acts on its object as it issues (log 70). -/
def Obligations.MonitorsAndBarriers : Prop := MonitorArms ∧ MonitorWaits ∧ Barriers

/-! ### Vector members (R216-R236) -/

namespace Sys2Proof.Claims

/-- vd, vs1, the governing predicate; and with vs2. vd is read too where the member merges (R218). -/
def planV1 (s : State) (f : VF) : Plan := { ops := [vdOp s f, srcV 1 f.vs1 f.w1, pmOp f.pm] }
def planV2 (s : State) (f : VF) : Plan := { ops := [vdOp s f, srcV 1 f.vs1 f.w1, srcV 2 f.vs2 f.w2, pmOp f.pm] }

/-- The register that a predicated member leaves in vd: its result on active lanes; on the others the old lane, or 0 where
zm is set (R164, R218). `vs` are the source values, the old vd first where it is read. -/
def laneResult (s : State) (f : VF) (vs : List VReg) (res : Nat → W32) : VReg :=
  ofLanes ((List.range 64).map (fun k =>
    if (activeMask s f.pm).getLsbD k then res k else if f.zm then 0 else lane (oldVd s f vs) k))

/-- Lanes of two sources combined: integer members, which raise no flag (R222, R223, R225). -/
def laneRows2 (f : VF) (a b : Nat → W32) : List (Instr × (Nat → W32)) :=
  (if f.ty4 = 0 then [] else
    [(.vadd f, fun k => a k + b k), (.vsub f, fun k => a k - b k), (.vmul f, fun k => a k * b k),
     (.vmin f, fun k => if f.ty4 = 9 then (if (b k).toInt < (a k).toInt then b k else a k) else (if (b k).toNat < (a k).toNat then b k else a k)),
     (.vmax f, fun k => if f.ty4 = 9 then (if (a k).toInt < (b k).toInt then b k else a k) else (if (a k).toNat < (b k).toNat then b k else a k))]) ++
  (if f.imm13.getLsbD 12 then [] else
    [(.vshl f, fun k => if 32 ≤ (b k).toNat then 0 else a k <<< (b k).toNat),
     (.vshr f, fun k => if 32 ≤ (b k).toNat then 0 else a k >>> (b k).toNat),
     (.vsra f, fun k => (a k).sshiftRight (min (b k).toNat 31))]) ++
  [(.vand f, fun k => a k &&& b k), (.vor f, fun k => a k ||| b k), (.vxor f, fun k => a k ^^^ b k),
   (.vperm f, fun k => if (b k).toNat < 64 then a (b k).toNat else 0)]

/-- Lanes of one source (R222, R223, R225). -/
def laneRows1 (f : VF) (a : Nat → W32) : List (Instr × (Nat → W32)) :=
  (if f.imm13.getLsbD 12 then
    [(.vshl f, fun k => if 32 ≤ f.immBits 0 6 then 0 else a k <<< f.immBits 0 6),
     (.vshr f, fun k => if 32 ≤ f.immBits 0 6 then 0 else a k >>> f.immBits 0 6),
     (.vsra f, fun k => (a k).sshiftRight (min (f.immBits 0 6) 31))] else []) ++
  [(.vabs f, fun k => if f.ty4 = 0 then a k &&& 0x7FFFFFFF else if (a k).toInt < 0 then 0 - a k else a k),
   (.vneg f, fun k => if f.ty4 = 0 then a k ^^^ 0x80000000 else 0 - a k),
   (.vmov f, fun k => a k), (.vbcast f, fun _ => a (f.immBits 0 6))]

/-- The lanes of a rounding member: `g k r` on an active lane k with its generator r. -/
def roundedLanes (s : State) (f : VF) (g : Nat → W32 → Rounded) (k : Nat) : Rounded :=
  if (activeMask s f.pm).getLsbD k then g k (laneGen (curCtx s) k) else { bits := 0 }

/-- The flags that the active lanes raise together (R219). -/
def lanesRaise (s : State) (f : VF) (g : Nat → W32 → Rounded) : Flags :=
  (List.range 64).foldl (fun a k => a ||| (roundedLanes s f g k).flags) 0

/-- The state with flags raised, and in rounding mode 4 with the generators of the active lanes stepped (R85, R86, R219). -/
def raisedAndStepped (s : State) (f : VF) (mode : Nat) (fl : Flags) : State :=
  stepIn (modCurCtx s (fun c => { c with fpflags := c.fpflags ||| fl })) mode (activeLanes (activeMask s f.pm))

/-- The rounding mode of a member, and whether it reads subnormals as zero (R81, R82). -/
def modeOf (s : State) (f : VF) : Nat := if f.rnd3 = 7 then (curCtx s).fpctl.toNat % 8 else f.rnd3.toNat
def ftzOf (s : State) : Bool := (curCtx s).fpctl.getLsbD 3

/-- FP32 members of two sources with their rounding mode: the exact value of the operands, rounded once (R222); MIN and MAX
pick an operand and round nothing. -/
def fpRows2 (s : State) (f : VF) (a b : Nat → W32) : List (Instr × Nat × (Nat → W32 → Rounded)) :=
  let m := modeOf s f
  let z := ftzOf s
  [(.vadd f, m, fun k r => convert 0 m z r (addVals m [fp32 z (a k), fp32 z (b k)])),
   (.vsub f, m, fun k r => convert 0 m z r (addVals m [fp32 z (a k), (fp32 z (b k)).neg])),
   (.vmul f, m, fun k r => convert 0 m z r (mulVals (fp32 z (a k)) (fp32 z (b k)))),
   (.vmin f, 0, fun k _ => pickFP z false 0 [(a k).toNat, (b k).toNat]),
   (.vmax f, 0, fun k _ => pickFP z true 0 [(a k).toNat, (b k).toNat])]

end Sys2Proof.Claims

/-- R164, R216, R218, R222, R223, R225: the integer, logical, shift and permuting members write their lanes under
predication, raise no flag, and leave everything else as it was. -/
def Obligations.VectorLanes : Prop :=
  ∀ (s : State) (f : VF) (vs : List VReg), FreeV s f.vd →
    (OpsReady s (planV2 s f) vs →
      ∀ row ∈ laneRows2 f (lane (vval (restVd s f vs) 0)) (lane (vval (restVd s f vs) 1)),
        exec row.1 s = .next (completed row.1 (planV2 s f) (wroteV s f.vd (laneResult s f vs row.2)) .seq)) ∧
    (OpsReady s (planV1 s f) vs →
      ∀ row ∈ laneRows1 f (lane (vval (restVd s f vs) 0)),
        exec row.1 s = .next (completed row.1 (planV1 s f) (wroteV s f.vd (laneResult s f vs row.2)) .seq)) ∧
    (OpsReady s { ops := [vdOp s f, srcS 1 f.vs1 f.w1, pmOp f.pm] } vs →
      exec (.vsplat f) s = .next (completed (.vsplat f) { ops := [vdOp s f, srcS 1 f.vs1 f.w1, pmOp f.pm] }
        (wroteV s f.vd (laneResult s f vs (fun _ => (sval (restVd s f vs) 0).setWidth 32))) .seq))

/-- R81-R90, R218, R219, R222: the FP32 members round the exact value of each active lane once, collect the lanes' flags, and
step the active lanes' generators in mode 4; an enabled flag traps FP_TRAP, and then nothing is written. -/
def Sys2Proof.Claims.VectorFloat : Prop :=
  ∀ (s : State) (f : VF) (vs : List VReg), f.ty4 = 0 → FreeV s f.vd → OpsReady s (planV2 s f) vs →
    ∀ row ∈ fpRows2 s f (lane (vval (restVd s f vs) 0)) (lane (vval (restVd s f vs) 1)),
      let fl := lanesRaise s f row.2.2
      (trapEnables (curCtx s) &&& fl = 0 →
        exec row.1 s = .next (completed row.1 (planV2 s f)
          (wroteV (raisedAndStepped s f row.2.1 fl) f.vd (laneResult s f vs (fun k => BitVec.ofNat 32 (roundedLanes s f row.2.2 k).bits))) .seq)) ∧
      (trapEnables (curCtx s) &&& fl ≠ 0 → exec row.1 s = .next (takeTrap s cFP (fl.setWidth 64) (instrWords row.1)))

namespace Sys2Proof.Claims

def planFma (s : State) (f : VF) : Plan :=
  { ops := [vdOp s f, srcV 1 f.vs1 f.w1, srcV 2 f.vs2 f.w2, srcV 3 f.vs3 f.w3, pmOp f.pm] }

/-- A member that rounds its lanes and writes them, completed. -/
def fpDone (i : Instr) (s : State) (f : VF) (p : Plan) (vs : List VReg) (mode : Nat) (g : Nat → W32 → Rounded) : Out :=
  .next (completed i p (wroteV (raisedAndStepped s f mode (lanesRaise s f g)) f.vd
    (laneResult s f vs (fun k => BitVec.ofNat 32 (roundedLanes s f g k).bits))) .seq)

/-- The transcendental members (R80, R230). -/
def transRows (f : VF) : List (Instr × Trans) := [(.vexp2 f, .exp2), (.vrcp f, .rcp), (.vrsq f, .rsq), (.vlog2 f, .log2)]

end Sys2Proof.Claims

/-- R219, R222: VFMA rounds the exact a × b + c once. R75, R77, R235: VDQMX gives each element's value under its block's
scale. Both write under predication. -/
def Sys2Proof.Claims.VectorFused : Prop :=
  ∀ (s : State) (f : VF) (vs : List VReg), FreeV s f.vd →
    let m := modeOf s f
    let z := ftzOf s
    let ws := restVd s f vs
    (OpsReady s (planFma s f) vs →
      let g := fun (k : Nat) (r : W32) => convert 0 m z r (fmaVals m (fp32 z (lane (vval ws 0) k)) (fp32 z (lane (vval ws 1) k)) (fp32 z (lane (vval ws 2) k)))
      trapEnables (curCtx s) &&& lanesRaise s f g = 0 → exec (.vfma f) s = fpDone (.vfma f) s f (planFma s f) vs m g) ∧
    (OpsReady s (planV2 s f) vs →
      let fmt := f.ty4.toNat
      let g := fun (k : Nat) (r : W32) => convert 0 m z r
        (mxValue fmt (elem (vval ws 0) (fmtWidth fmt) (64 * f.immBits 4 3 + k)) (elem (vval ws 1) 8 (2 * f.immBits 4 3 + k / 32)))
      trapEnables (curCtx s) &&& lanesRaise s f g = 0 → exec (.vdqmx f) s = fpDone (.vdqmx f) s f (planV2 s f) vs m g)

/-- R81-R90, R218, R219, R222, R235: the vector members that round each lane once. -/
def Obligations.VectorArithmetic : Prop := VectorFloat ∧ VectorFused

/-- R80, R230: the transcendental members raise their flags and step the generators at issue, mark vd empty, and deliver
the lanes later. -/
def Sys2Proof.Claims.Transcendentals : Prop :=
  ∀ (s : State) (f : VF) (vs : List VReg), FreeV s f.vd → OpsReady s (planV1 s f) vs →
    ∀ row ∈ transRows f,
      let g := fun (k : Nat) (r : W32) => transLane row.2 (modeOf s f) (ftzOf s) r (lane (vval (restVd s f vs) 0) k).toNat
      trapEnables (curCtx s) &&& lanesRaise s f g = 0 →
      exec row.1 s = .next (completed row.1 (planV1 s f)
        (deliver (raisedAndStepped (emptiedV s f.vd) f (modeOf s f) (lanesRaise s f g)) (.vector f.vd.toNat)
          (laneResult s f vs (fun k => BitVec.ofNat 32 (roundedLanes s f g k).bits))) .seq)

namespace Sys2Proof.Claims

/-- The comparison of two lanes by VCMP's condition (R224): over integers by their type. -/
def laneCmp (ty : BitVec 4) (cond : Nat) (a b : W32) : Bool :=
  let x : Int := if ty = 9 then a.toInt else (a.toNat : Int)
  let y : Int := if ty = 9 then b.toInt else (b.toNat : Int)
  match cond with
  | 0 => decide (x = y)
  | 1 => decide (x ≠ y)
  | 2 => decide (x < y)
  | 3 => decide (x ≤ y)
  | 4 => decide (x > y)
  | _ => decide (x ≥ y)

/-- A predicate after a write under predication: the result on active lanes; on the others the old bit, or 0 where zm is
set (R224). -/
def predResult (s : State) (f : VF) (old : W64) (res : Nat → Bool) : W64 :=
  BitVec.ofNat 64 ((List.range 64).foldl (fun n k =>
    n + (if (if (activeMask s f.pm).getLsbD k then res k else if f.zm then false else old.getLsbD k) then 2 ^ k else 0)) 0)

/-- A predicate written; p0 discards the value. -/
def wroteP (s : State) (p : Nat) (v : W64) : State := modCur s (fun x => pput x p v)

def planCmp (f : VF) : Plan := { ops := [dstP f.vd, srcV 1 f.vs1 f.w1, srcV 2 f.vs2 f.w2, pmOp f.pm] }

end Sys2Proof.Claims

/-- R224: VCMP writes one bit a lane to a predicate: integers compared by their type, FP32 by value, where a comparison
with a NaN is unordered, and an ordered relation of one raises NV. -/
def Sys2Proof.Claims.VectorCompare : Prop :=
  ∀ (s : State) (f : VF) (vs : List VReg), OpsReady s (planCmp f) vs → predPending s s.cur f.vd.toNat = false →
    let g := fun (k : Nat) (_ : W32) => if f.ty4 = 0 then cmpFP (ftzOf s) (f.immBits 0 3) (lane (vval vs 0) k) (lane (vval vs 1) k)
      else { bits := if laneCmp f.ty4 (f.immBits 0 3) (lane (vval vs 0) k) (lane (vval vs 1) k) then 1 else 0 }
    (trapEnables (curCtx s) &&& lanesRaise s f g = 0 →
      exec (.vcmp f) s = .next (completed (.vcmp f) (planCmp f) (wroteP (raisedAndStepped s f 0 (lanesRaise s f g)) f.vd.toNat
        (predResult s f (pget (curStream s) f.vd.toNat) (fun k => (g k 0).bits == 1))) .seq)) ∧
    (trapEnables (curCtx s) &&& lanesRaise s f g ≠ 0 →
      exec (.vcmp f) s = .next (takeTrap s cFP ((lanesRaise s f g).setWidth 64) (instrWords (.vcmp f))))

/-- R225: VSEL chooses each lane by the predicate; VINS replaces one lane and keeps the others; VEXT reads one lane into a
scalar register, sign-extended where imm13[6] is set. -/
def Sys2Proof.Claims.VectorSelect : Prop :=
  ∀ (s : State) (f : VF) (vs : List VReg),
    (FreeV s f.vd → OpsReady s { ops := [dstV f.vd, srcV 1 f.vs1 f.w1, srcV 2 f.vs2 f.w2, pmOp f.pm] } vs →
      exec (.vsel f) s = .next (completed (.vsel f) { ops := [dstV f.vd, srcV 1 f.vs1 f.w1, srcV 2 f.vs2 f.w2, pmOp f.pm] }
        (wroteV s f.vd (ofLanes ((List.range 64).map (fun k =>
          if (activeMask s f.pm).getLsbD k then lane (vval vs 0) k else lane (vval vs 1) k)))) .seq)) ∧
    (FreeV s f.vd → OpsReady s { ops := [bothV 0 f.vd false, srcS 1 f.vs1 f.w1] } vs →
      ∃ d : VReg, exec (.vins f) s = .next (completed (.vins f) { ops := [bothV 0 f.vd false, srcS 1 f.vs1 f.w1] } (wroteV s f.vd d) .seq) ∧
        ∀ k, k < 64 → lane d k = if k = f.immBits 0 6 then (sval vs 1).setWidth 32 else lane (vval vs 0) k) ∧
    (FreeS s f.vd → OpsReady s { ops := [dstS f.vd, srcV 1 f.vs1 f.w1] } vs →
      exec (.vext f) s = .next (completed (.vext f) { ops := [dstS f.vd, srcV 1 f.vs1 f.w1] }
        (wrote s f.vd (if f.imm13.getLsbD 6 then (lane (vval vs 0) (f.immBits 0 6)).signExtend 64
          else (lane (vval vs 0) (f.immBits 0 6)).setWidth 64)) .seq))

namespace Sys2Proof.Claims

/-- The active lanes of a register, ascending. -/
def chosen (s : State) (f : VF) (v : VReg) : List W32 :=
  ((List.range 64).filter (fun k => (activeMask s f.pm).getLsbD k)).map (lane v)

def planScan (s : State) (f : VF) : Plan :=
  { ops := if f.immBits 0 2 = 0 then [vdOp s f, srcV 1 f.vs1 f.w1, srcS 2 f.vs2 f.w2, pmOp f.pm] else [vdOp s f, srcV 1 f.vs1 f.w1, pmOp f.pm] }

/-- Integer lanes reduced: the sum, the least or the greatest by the type, the identity for none (R226). -/
def reduced (ty : BitVec 4) (op : Nat) (xs : List W32) : W32 :=
  match op with
  | 0 => xs.foldl (· + ·) 0
  | 1 => pickInt ty false (if ty = 9 then 0x7FFFFFFF else 0xFFFFFFFF) xs
  | _ => pickInt ty true (if ty = 9 then 0x80000000 else 0) xs

/-- The active lanes up to lane k, or below it (R227). -/
def upTo (s : State) (f : VF) (v : VReg) (k : Nat) : List W32 :=
  ((List.range 64).filter (fun j => (activeMask s f.pm).getLsbD j && (if f.imm13.getLsbD 2 then decide (j < k) else decide (j ≤ k)))).map (lane v)

/-- The context's flags raised; by 0, none. -/
def flagged (s : State) (fl : Flags) : State := modCurCtx s (fun c => { c with fpflags := c.fpflags ||| fl })

end Sys2Proof.Claims

/-- R226: VRED over integers: the sum, the least or the greatest of the active lanes, the identity for none, extended by the
type into a scalar register. R227: an integer VSCAN gives each active lane the sum, from a carried-in word, or the least or
greatest of the active lanes up to it, or below it where imm13[2] is set. Neither raises a flag. -/
def Sys2Proof.Claims.VectorReduceInteger : Prop :=
  ∀ (s : State) (f : VF) (vs : List VReg), f.ty4 = 9 ∨ f.ty4 = 10 → f.immBits 0 2 < 3 →
    (FreeS s f.vd → OpsReady s { ops := [dstS f.vd, srcV 1 f.vs1 f.w1, pmOp f.pm] } vs →
      let r := reduced f.ty4 (f.immBits 0 2) (chosen s f (vval vs 0))
      exec (.vred f) s = .next (completed (.vred f) { ops := [dstS f.vd, srcV 1 f.vs1 f.w1, pmOp f.pm] }
        (wrote (flagged s 0) f.vd (if f.ty4 = 9 then r.signExtend 64 else r.setWidth 64)) .seq)) ∧
    (FreeV s f.vd → OpsReady s (planScan s f) vs →
      let ws := restVd s f vs
      exec (.vscan f) s = .next (completed (.vscan f) (planScan s f) (wroteV (flagged s 0) f.vd (laneResult s f vs (fun k =>
        (if f.immBits 0 2 = 0 then (sval ws 1).setWidth 32 else 0) + reduced f.ty4 (f.immBits 0 2) (upTo s f (vval ws 0) k)))) .seq))

namespace Sys2Proof.Claims

/-- FP32 lanes reduced: the exact sum rounded once with the generator value `r`, or the least or greatest of them, the identity
for none (R226). -/
def reducedFP (s : State) (f : VF) (r : W32) (xs : List W32) : Rounded :=
  let z := ftzOf s
  match f.immBits 0 2 with
  | 0 => convert 0 (modeOf s f) z r (addVals (modeOf s f) (xs.map (fp32 z)))
  | 1 => pickFP z false 0x7F800000 (xs.map BitVec.toNat)
  | _ => pickFP z true 0xFF800000 (xs.map BitVec.toNat)

end Sys2Proof.Claims

/-- R82, R85-R87, R226, R227: VRED over FP32 writes the one rounded sum, or the least or greatest, zero-extended to a scalar
register, and steps generator 0 where it rounds in mode 4; an FP32 VSCAN rounds each active lane's sum from the carried-in word,
or takes the least or greatest. The flags are raised together, and an enabled one traps FP_TRAP. The model's choice here: a sum
over no lane steps no generator (log 12). -/
def Sys2Proof.Claims.VectorReduceFloat : Prop :=
  ∀ (s : State) (f : VF) (vs : List VReg), f.ty4 = 0 → f.immBits 0 2 < 3 →
    (FreeS s f.vd → OpsReady s { ops := [dstS f.vd, srcV 1 f.vs1 f.w1, pmOp f.pm] } vs →
      let r := reducedFP s f (laneGen (curCtx s) 0) (chosen s f (vval vs 0))
      (trapEnables (curCtx s) &&& r.flags = 0 →
        exec (.vred f) s = .next (completed (.vred f) { ops := [dstS f.vd, srcV 1 f.vs1 f.w1, pmOp f.pm] }
          (wrote (stepIn (flagged s r.flags) (if f.immBits 0 2 = 0 ∧ activeMask s f.pm ≠ 0 then modeOf s f else 0) [0]) f.vd
            ((BitVec.ofNat 32 r.bits).setWidth 64)) .seq)) ∧
      (trapEnables (curCtx s) &&& r.flags ≠ 0 →
        exec (.vred f) s = .next (takeTrap s cFP (r.flags.setWidth 64) (instrWords (.vred f))))) ∧
    (FreeV s f.vd → OpsReady s (planScan s f) vs →
      let ws := restVd s f vs
      let carry : List W32 := if f.immBits 0 2 = 0 then [(sval ws 1).setWidth 32] else []
      let g := fun (k : Nat) (r : W32) => reducedFP s f r (carry ++ upTo s f (vval ws 0) k)
      trapEnables (curCtx s) &&& lanesRaise s f g = 0 →
        exec (.vscan f) s = fpDone (.vscan f) s f (planScan s f) vs (if f.immBits 0 2 = 0 then modeOf s f else 0) g)

/-- R226, R227: VRED and VSCAN, over integers and over FP32. -/
def Sys2Proof.Claims.VectorReduce : Prop := VectorReduceInteger ∧ VectorReduceFloat

/-- R228: VHIST sends, for each of 64 counters of the block that imm13 names in the cluster's route counters, one atomic add of
the active lanes' weights whose index is the counter's, and no second request to a counter; without weights each lane counts one. Lanes with an index of 64
or more count nowhere. -/
def Sys2Proof.Claims.VectorHistogram : Prop :=
  ∀ (s : State) (f : VF) (vs : List VReg),
    OpsReady s { cpOnly := true, ops := if f.imm13.getLsbD 0 then [srcV 1 f.vs1 f.w1, srcV 2 f.vs2 f.w2, pmOp f.pm] else [srcV 1 f.vs1 f.w1, pmOp f.pm] } vs →
    ∃ t rs, exec (.vhist f) s = .next (completed (.vhist f)
        { ops := if f.imm13.getLsbD 0 then [srcV 1 f.vs1 f.w1, srcV 2 f.vs2 f.w2, pmOp f.pm] else [srcV 1 f.vs1 f.w1, pmOp f.pm] } t .seq) ∧
      t.reqs = s.reqs ++ rs ∧ t.mem = s.mem ∧
      (∀ i, i < 64 → ∀ k, (activeMask s f.pm).getLsbD k = true → k < 64 → (lane (vval vs 0) k).toNat = i →
        ∃ r ∈ rs, r.todo = [{ pa := clusterWin + s.cur.core / 64 * 0x1000000 + 0x10000 + f.immBits 7 6 * 0x200 + i * 8, len := 8, off := 0 }] ∧
          r.kind = .atomic .add (BitVec.ofNat 64 (((List.range 64).filter (fun j => (activeMask s f.pm).getLsbD j && (lane (vval vs 0) j).toNat == i)).foldl
            (fun a j => a + (if f.imm13.getLsbD 0 then (lane (vval vs 1) j).toNat else 1)) 0)) 0) ∧
      (rs.map (fun r => r.todo.map (·.pa))).Nodup ∧
      (∀ r ∈ rs, ∃ i k, i < 64 ∧ k < 64 ∧ (activeMask s f.pm).getLsbD k = true ∧ (lane (vval vs 0) k).toNat = i ∧
        r.todo.map (·.pa) = [clusterWin + s.cur.core / 64 * 0x1000000 + 0x10000 + f.immBits 7 6 * 0x200 + i * 8])

/-- R226-R228: VRED, VSCAN and VHIST. -/
def Obligations.VectorReductions : Prop := VectorReduce ∧ VectorHistogram

namespace Sys2Proof.Claims

def predRows (f : VF) (a b : W64) : List (Instr × W64) := [(.pand f, a &&& b), (.por f, a ||| b)]

end Sys2Proof.Claims

/-- R232: the predicate members. PCNT counts the one bits; PFIRST gives the lowest one bit's position, 64 for none. -/
def Sys2Proof.Claims.PredicateMembers : Prop :=
  ∀ (s : State) (f : VF) (vs : List VReg),
    (predPending s s.cur f.vd.toNat = false →
      (OpsReady s { ops := [dstP f.vd, srcP 1 f.vs1, srcP 2 f.vs2] } vs → ∀ row ∈ predRows f (sval vs 0) (sval vs 1),
        exec row.1 s = .next (completed row.1 {} (wroteP s f.vd.toNat row.2) .seq)) ∧
      (OpsReady s { ops := [dstP f.vd, srcP 1 f.vs1] } vs →
        exec (.pnot f) s = .next (completed (.pnot f) {} (wroteP s f.vd.toNat (~~~(sval vs 0))) .seq))) ∧
    (FreeS s f.vd → OpsReady s { ops := [dstS f.vd, srcP 1 f.vs1] } vs →
      exec (.pcnt f) s = .next (completed (.pcnt f) {} (wrote s f.vd
        (BitVec.ofNat 64 ((List.range 64).filter (fun k => (sval vs 0).getLsbD k)).length)) .seq) ∧
      (∀ n, n ≤ 64 → (∀ k, k < n → (sval vs 0).getLsbD k = false) → (n = 64 ∨ (sval vs 0).getLsbD n = true) →
        exec (.pfirst f) s = .next (completed (.pfirst f) {} (wrote s f.vd (BitVec.ofNat 64 n)) .seq)))

/-- R224, R225, R232: VCMP, VSEL, VINS, VEXT and the predicate members. -/
def Obligations.ComparesAndPredicates : Prop := VectorCompare ∧ VectorSelect ∧ PredicateMembers

namespace Sys2Proof.Claims

/-- Whether VCVT reads vd: it merges, or its destination format is narrower than a lane (R233). -/
def cvtReads (s : State) (f : VF) : Bool := mergesVd s f || decide (fmtWidth f.ty4.toNat < 32)
def planCvt (s : State) (f : VF) : Plan :=
  { ops := [if cvtReads s f then bothV 0 f.vd false else dstV f.vd, srcV 1 f.vs1 f.w1, pmOp f.pm] }
def planQmx (f : VF) : Plan := { ops := [bothV 0 f.vd false, srcV 1 f.vs1 f.w1, bothV 3 f.vs3 f.w3] }

end Sys2Proof.Claims

/-- R78, R233-R236: VCVT converts the elements of one part to another format's part of vd and keeps the other parts; VLUT
replaces 4-bit indices by the codebook's entries; VQMX quantises two blocks of 32 lanes, their elements into vd's part and
their scales into vs3, and traps ILLEGAL_OPERAND where vs3 is vd or vs1. -/
def Sys2Proof.Claims.VectorConvert : Prop :=
  ∀ (s : State) (f : VF) (vs : List VReg),
    (FreeV s f.vd → OpsReady s (planCvt s f) vs →
      let src := f.immBits 0 4
      let dst := f.ty4.toNat
      let old := if cvtReads s f then vval vs 0 else 0
      let x := vval vs (if cvtReads s f then 1 else 0)
      let g := fun (k : Nat) (r : W32) =>
        let e := elem x (fmtWidth src) (64 * f.immBits 4 3 + k)
        convert dst (modeOf s f) (ftzOf s) r (flushIn (ftzOf s) src (readElem src e) e)
      trapEnables (curCtx s) &&& lanesRaise s f g = 0 →
      exec (.vcvt f) s = .next (completed (.vcvt f) (planCvt s f) (wroteV (raisedAndStepped s f (modeOf s f) (lanesRaise s f g)) f.vd
        (putPart old (fmtWidth dst) (f.immBits 7 3) (activeMask s f.pm) f.zm (fun k => (BitVec.ofNat 32 (roundedLanes s f g k).bits).toNat))) .seq)) ∧
    (FreeV s f.vd → OpsReady s (planV1 s f) vs → (curCtx s).cbBusy = 0 →
      exec (.vlut f) s = .next (completed (.vlut f) (planV1 s f) (wroteV s f.vd (laneResult s f vs (fun k =>
        BitVec.ofNat 32 ((curCtx s).cb.toNat / 2 ^ (16 * elem (vval (restVd s f vs) 0) 4 (64 * f.immBits 4 3 + k)) % 2 ^ 16 * 2 ^ 16)))) .seq)) ∧
    (OpsReady s (planQmx f) vs →
      ((f.vs3 = f.vd ∨ f.vs3 = f.vs1) → exec (.vqmx f) s = .next (takeTrap s cOPERAND (f.vs3.setWidth 64) (instrWords (.vqmx f)))) ∧
      (f.vs3 ≠ f.vd → f.vs3 ≠ f.vs1 → FreeV s f.vd → FreeV s f.vs3 →
        let fmt := f.ty4.toNat
        let blk := fun b => quantBlock fmt (modeOf s f) ((List.range 32).map (fun j => laneGen (curCtx s) (32 * b + j)))
          ((List.range 32).map (fun j => fp32 (ftzOf s) (lane (vval vs 1) (32 * b + j))))
        trapEnables (curCtx s) &&& ((blk 0).2.2 ||| (blk 1).2.2) = 0 →
        ∃ t, exec (.vqmx f) s = .next t ∧
          vget (curStream t) f.vd.toNat = setElem (vval vs 0) (64 * fmtWidth fmt) (f.immBits 7 3) (packNat (fmtWidth fmt) ((blk 0).2.1 ++ (blk 1).2.1)) ∧
          vget (curStream t) f.vs3.toNat = setElem (setElem (vval vs 2) 8 (2 * f.immBits 7 3) (blk 0).1) 8 (2 * f.immBits 7 3 + 1) (blk 1).1 ∧
          (curCtx t).fpflags = (curCtx s).fpflags ||| (blk 0).2.2 ||| (blk 1).2.2 ∧ t.mem = s.mem))

/-- R78, R80, R230, R233-R236: the transcendental, converting, look-up and quantising members. -/
def Obligations.VectorConversion : Prop := Transcendentals ∧ VectorConvert

/-! ### Vector accesses (R241-R244) -/

namespace Sys2Proof.Claims

/-- The address of an active lane by each vector load: consecutive words, words at a stride, words by an index (R241, R242). -/
def vloadRows (f : VF) (base stride : W64) (idx : VReg) : List (Instr × List Opnd × Bool × (Nat → W64)) :=
  [(.ldv f, [addrS 1 f.vs1 f.w1], true, fun k => base + f.imm13.signExtend 64 * 4 + BitVec.ofNat 64 (4 * k)),
   (.ldvs f, [addrS 1 f.vs1 f.w1, addrS 2 f.vs2 f.w2], false, fun k => base + f.imm13.signExtend 64 * 4 + BitVec.ofNat 64 k * stride),
   (.gather f, [addrS 1 f.vs1 f.w1, srcV 2 f.vs2 f.w2], false, fun k => base + (lane idx k).signExtend 64 <<< f.immBits 0 2)]

end Sys2Proof.Claims

/-- R241-R244: a vector load sends the active lanes' words to their homes, the old lanes (or 0 into a queue) already in its
data; the lowest active lane whose address is not word-aligned traps MISALIGNED. -/
def Sys2Proof.Claims.VectorLoads : Prop :=
  ∀ (s : State) (f : VF) (vs ws : List VReg),
    ∀ row ∈ vloadRows f (sval ws 0) (sval ws 1) (vval ws 1),
      let vd := loadVd s f
      let p : Plan := { ops := vd :: row.2.1 ++ [pmOp f.pm] }
      ws = (if isRead vd then vs.drop 1 else vs) → OpsReady s p vs →
      (∀ k, k ∈ accessLanes s f → (row.2.2.2 k).toNat % 4 ≠ 0 → (∀ j, j ∈ accessLanes s f → j < k → (row.2.2.2 j).toNat % 4 = 0) →
        exec row.1 s = .next (takeTrap s cMISALIGNED (row.2.2.2 k) (instrWords row.1))) ∧
      (∀ segs, (∀ k, k ∈ accessLanes s f → (row.2.2.2 k).toNat % 4 = 0) →
        laneSegs s .load row.2.2.2 (accessLanes s f) = .ok segs → poisonIn s segs = none → viewParity s segs = .ok s → tableRoom s s.cur.core segs = true →
        let old : VReg := if isRead vd then vval vs 0 else 0
        let r : Req := { request s .load segs with
          data := mergeLanes (activeMask s f.pm) false old (fun _ => 0), byLine := row.2.2.1, size := 256 }
        (f.vd.toNat < 32 → FreeV s f.vd →
          exec row.1 s = .next (completed row.1 p (send (emptiedV s f.vd) { r with dest := .vector f.vd.toNat }) .seq)) ∧
        (∀ q, 4 ≤ q → q < 8 → f.vd.toNat = 32 + q → pushReady s q = .ok () →
          exec row.1 s = .next (completed row.1 p (send s { r with dest := .queue q }) .seq)))

/-- R241-R243: STV and SCATTER send the active lanes' words of vs3 to their homes; a whole STV of an aligned vector register
view goes as one access. -/
def Sys2Proof.Claims.VectorStores : Prop :=
  ∀ (s : State) (f : VF) (vs : List VReg),
    (∀ segs, let addr := fun (k : Nat) => sval vs 0 + f.imm13.signExtend 64 * 4 + BitVec.ofNat 64 (4 * k)
      let p : Plan := { ops := [addrS 1 f.vs1 f.w1, srcV 3 f.vs3 f.w3, pmOp f.pm] }
      OpsReady s p vs → (∀ k, k ∈ accessLanes s f → (addr k).toNat % 4 = 0) →
      (activeMask s f.pm ≠ BitVec.allOnes 64 ∨ wholeView s (addr 0) = none → laneSegs s .lanes addr (accessLanes s f) = .ok segs →
        tableRoom s s.cur.core segs = true →
        exec (.stv f) s = .next (completed (.stv f) p
          (send s { request s .store segs with data := vval vs 1, byLine := true, size := 256 }) .seq)) ∧
      (∀ g, activeMask s f.pm = BitVec.allOnes 64 → wholeView s (addr 0) = some g →
        exec (.stv f) s = .next (completed (.stv f) p (send s { request s .store [g] with data := vval vs 1, size := 256 }) .seq))) ∧
    (∀ segs, let addr := fun (k : Nat) => sval vs 0 + (lane (vval vs 1) k).signExtend 64 <<< f.immBits 0 2
      let p : Plan := { ops := [addrS 1 f.vs1 f.w1, srcV 2 f.vs2 f.w2, srcV 3 f.vs3 f.w3, pmOp f.pm] }
      OpsReady s p vs → (∀ k, k ∈ accessLanes s f → (addr k).toNat % 4 = 0) → laneSegs s .lanes addr (accessLanes s f) = .ok segs →
      tableRoom s s.cur.core segs = true →
      exec (.scatter f) s = .next (completed (.scatter f) p (send s { request s .store segs with data := vval vs 2, size := 256 }) .seq))

/-- R162, R244: QPUSH delivers Reg(vs1), or with imm13[0] = 0 the whole vector vs1, to the queue that vd names; a vd that
names none traps ILLEGAL_OPERAND with its code. -/
def Sys2Proof.Claims.QueuePushes : Prop :=
  ∀ (s : State) (f : VF) (vs : List VReg),
    let sc := f.imm13.getLsbD 0
    let p : Plan := { apOnly := true, ops := [if sc then dstSQ f.vd else dstVQ f.vd, if sc then srcS 1 f.vs1 f.w1 else srcV 1 f.vs1 f.w1] }
    OpsReady s p vs →
    (∀ q, f.vd.toNat = 32 + q → (if sc then q < 4 else 4 ≤ q ∧ q < 8) → pushReady s q = .ok () →
      exec (.qpush f) s = .next (completed (.qpush f) p (deliver s (.queue q) (vval vs 0)) .seq)) ∧
    (f.vd.toNat < 32 → exec (.qpush f) s = .next (takeTrap s cOPERAND (f.vd.setWidth 64) (instrWords (.qpush f))))

/-- R162, R241-R244: the vector loads and stores, and QPUSH. -/
def Obligations.VectorAccesses : Prop := VectorLoads ∧ VectorStores ∧ QueuePushes

/-! ### Fibre, matrix, copy and channel members (R208, R251-R269, R277-R290) -/

namespace Sys2Proof.Claims

/-- A fibre member: its operands, the header's address, whether it writes the fibre, whether its operand values are legal
with the TRAPVAL where they are not, what it asks of the header's home, and whether rd takes an answer. -/
structure FibreAsk where
  i : Instr
  ops : List Opnd
  va : W64
  writes : Bool := false
  ok : Prop := True
  bad : W64 := 0
  op : FOp
  gives : Bool := false

/-- The R3-format members (R251-R255). -/
def fibreAsks (f : R3F) (c : BitVec 3) (vs : List VReg) : List FibreAsk :=
  let d : Opnd := { pos := 0, code := f.rd, cls := .scalar, role := .src }
  let a := addrS 1 f.rs1 f.w1
  let b := srcS 2 f.rs2 f.w2
  [{ i := .flen f, ops := [dstS f.rd, a], va := sval vs 0, op := .len, gives := true },
   { i := .fprobe f, ops := [dstS f.rd, a, b], va := sval vs 0, ok := (sval vs 1).toNat < 2 ^ 32, bad := sval vs 1
     op := .probe (sval vs 1).toNat, gives := true },
   { i := .fdel f, ops := [a, b], va := sval vs 0, writes := true, ok := (sval vs 1).toNat < 2 ^ 32, bad := sval vs 1
     op := .delete (sval vs 1).toNat },
   { i := .fpack f, ops := [a], va := sval vs 0, writes := true, op := .pack },
   { i := .fins f, ops := [{ d with data := true }, a, b], va := sval vs 1, writes := true, ok := (sval vs 2).toNat < 2 ^ 32
     bad := sval vs 2, op := .merge 8 16 [((sval vs 2).toNat, sval vs 0)] },
   { i := .fcmb c f, ops := [{ d with data := true }, a, b], va := sval vs 1, writes := true
     ok := c ≠ 7 ∧ (sval vs 2).toNat < 2 ^ 32, bad := if c = 7 then 7 else sval vs 2
     op := .merge c.toNat 16 [((sval vs 2).toNat, sval vs 0)] },
   { i := .finit f, ops := [d, a, b], va := sval vs 1, writes := true, ok := finitOk (sval vs 2) = true, bad := sval vs 2
     op := .init ((sval vs 0).toNat % 2 ^ 32) ((sval vs 0).toNat / 2 ^ 32) ((sval vs 2).toNat % 2 ^ 32)
       ((sval vs 2).toNat / 2 ^ 32 % 16) ((sval vs 2).toNat / 2 ^ 36 % 8) ((sval vs 2).getLsbD 39) }]

/-- A member completed by asking a home: `t` is the state its operation is sent from. -/
def fibreSent (i : Instr) (p : Plan) (t : State) (x : Xlated) (va : W64) (op : FOp) (d : Dest) : Out :=
  .next (completed i p (sendFibre t x va op d) .seq)

def planE (d : Opnd) (f : EF) : Plan := { ops := [d, addrS 1 f.rs1 f.w, srcV 2 f.rs2 f.w] }
def planScanQ (f : EF) : Plan :=
  { apOnly := true, ops := [{ pos := 0, code := f.rd, cls := .scalar, role := .dstQ }, addrS 1 f.rs1 f.w, srcS 2 f.rs2 f.w, srcS 3 f.rs3 f.w] }
/-- rd as an address that is read. -/
def addrRd (f : EF) : Opnd := { pos := 0, code := f.rd, cls := .scalar, role := .src, w := f.w, addr := true }
def planScanM (f : EF) : Plan := { ops := [addrRd f, addrS 1 f.rs1 f.w, srcS 2 f.rs2 f.w, srcS 3 f.rs3 f.w] }
def planUnion (f : EF) : Plan := { ops := [addrRd f, addrS 1 f.rs1 f.w, addrS 2 f.rs2 f.w, addrS 3 f.rs3 f.w] }

end Sys2Proof.Claims

/-- R251-R255: the fibre members of the R3 format check their operand values, then the header's alignment, then its
translation; each sends one operation to the header's home, and FLEN and FPROBE mark rd empty for the answer. -/
def Sys2Proof.Claims.FibreMembers : Prop :=
  ∀ (s : State) (f : R3F) (c : BitVec 3) (vs : List VReg), ∀ row ∈ fibreAsks f c vs,
    OpsReady s { ops := row.ops } vs →
    (¬ row.ok → exec row.i s = .next (takeTrap s cOPERAND row.bad (instrWords row.i))) ∧
    (row.ok → row.va.toNat % 64 ≠ 0 → exec row.i s = .next (takeTrap s cMISALIGNED row.va (instrWords row.i))) ∧
    (∀ x, row.ok → row.va.toNat % 64 = 0 → xlate s .fibre row.va 64 row.writes false = .ok x →
      (row.gives = false → exec row.i s = fibreSent row.i { ops := row.ops } s x row.va row.op .none) ∧
      (row.gives = true → FreeS s f.rd →
        exec row.i s = fibreSent row.i { ops := row.ops } (emptied s f.rd) x row.va row.op (.scalar (phys s f.rd))))

/-- R255-R259: FMRGV sends the active lanes' merges, FPROBEV their probes with a vector register and a predicate for the
answer, FSCAN a scan into a queue or to memory, FUNION a union with its stamp. -/
def Sys2Proof.Claims.FibreVectorMembers : Prop :=
  ∀ (s : State) (f : EF) (vs : List VReg) (x : Xlated),
    (OpsReady s (planE (srcV 0 f.rd f.w) f) vs → predPending s s.cur (f.bits 15 3) = false →
      (f.bits 22 4 = 7 → exec (.fmrgv f) s = .next (takeTrap s cOPERAND 7 (instrWords (.fmrgv f)))) ∧
      (f.bits 22 4 ≠ 7 → (sval vs 1).toNat % 64 ≠ 0 → exec (.fmrgv f) s = .next (takeTrap s cMISALIGNED (sval vs 1) (instrWords (.fmrgv f)))) ∧
      (f.bits 22 4 ≠ 7 → (sval vs 1).toNat % 64 = 0 → xlate s .fibre (sval vs 1) 64 true false = .ok x →
      exec (.fmrgv f) s = fibreSent (.fmrgv f) (planE (srcV 0 f.rd f.w) f) s x (sval vs 1)
        (.merge (f.bits 22 4) (f.bits 18 4) ((activeLanes (pget (curStream s) (f.bits 15 3))).map (fun k =>
          ((lane (vval vs 2) k).toNat, (lane (vval vs 0) k).setWidth 64)))) .none)) ∧
    (OpsReady s (planE (dstV f.rd) f) vs → predPending s s.cur (f.bits 20 3) = false → predPending s s.cur (f.bits 23 3) = false →
      ((sval vs 0).toNat % 64 ≠ 0 → exec (.fprobev f) s = .next (takeTrap s cMISALIGNED (sval vs 0) (instrWords (.fprobev f)))) ∧
      (FreeV s f.rd → (sval vs 0).toNat % 64 = 0 → xlate s .fibre (sval vs 0) 64 false false = .ok x →
      exec (.fprobev f) s = fibreSent (.fprobev f) (planE (dstV f.rd) f) (emptiedV s f.rd) x (sval vs 0)
        (.probev (vval vs 1) (pget (curStream s) (f.bits 20 3))) (.probe f.rd.toNat (f.bits 23 3) 0))) ∧
    (OpsReady s (planScanQ f) vs → f.bits 25 1 = 0 → (sval vs 1).toNat < 2 ^ 32 → (sval vs 2).toNat < 2 ^ 32 →
      (f.rd.toNat < 32 → exec (.fscan f) s = .next (takeTrap s cOPERAND (f.rd.setWidth 64) (instrWords (.fscan f)))) ∧
      (∀ q, f.rd.toNat = 32 + q → scanInto s s.cur q = false → (sval vs 0).toNat % 64 = 0 →
        xlate s .fibre (sval vs 0) 64 false false = .ok x →
        exec (.fscan f) s = fibreSent (.fscan f) (planScanQ f) s x (sval vs 0)
          (.scan (sval vs 1).toNat (sval vs 2).toNat q 0 0 { pa := 0, len := 0, off := 0 } []) .none)) ∧
    (∀ y, OpsReady s (planScanM f) vs → f.bits 25 1 = 1 → (sval vs 2).toNat < 2 ^ 32 → (sval vs 3).toNat < 2 ^ 32 →
      (sval vs 0).toNat % 16 = 0 → (sval vs 1).toNat % 64 = 0 → xlate s .fibre (sval vs 1) 64 false false = .ok x →
      xlate s .store (sval vs 0) 8 true false = .ok y →
      exec (.fscan f) s = fibreSent (.fscan f) (planScanM f) s x (sval vs 1)
        (.scan (sval vs 2).toNat (sval vs 3).toNat 8 (sval vs 0).toNat ((sval vs 0).toNat / 65536)
          { pa := y.pa - (sval vs 0).toNat % 65536, len := 65536, off := 0, dev := y.dev } []) .none) ∧
    (OpsReady s (planUnion f) vs → f.bits 22 4 = 7 → exec (.funion f) s = .next (takeTrap s cOPERAND 7 (instrWords (.funion f)))) ∧
    (∀ a b y, OpsReady s (planUnion f) vs → f.bits 22 4 ≠ 7 → (∀ k, k < 3 → (sval vs k).toNat % 64 = 0) → (sval vs 3).toNat % 8 = 0 →
      xlate s .fibre (sval vs 0) 64 true false = .ok x → xlate s .fibre (sval vs 1) 64 false false = .ok a →
      xlate s .fibre (sval vs 2) 64 false false = .ok b → (sval vs 3 ≠ 0 → xlate s .store (sval vs 3) 8 true false = .ok y) →
      exec (.funion f) s = fibreSent (.funion f) (planUnion f) s x (sval vs 0)
        (.union (piece a 64) (piece b 64) (sval vs 1).toNat (sval vs 2).toNat (f.bits 22 4) (f.bits 21 1 == 1)
          (if sval vs 3 = 0 then { pa := 0, len := 0, off := 0 } else piece y 8) 0 (sval vs 3).toNat (f.bits 0 16)) .none)

/-- R251-R259: what each fibre member checks and sends to the header's home. The model's choices here: which of two
operand checks that fail together is reported (log 87). -/
def Obligations.FibreIssue : Prop := FibreMembers ∧ FibreVectorMembers

namespace Sys2Proof.Claims

/-- A task of the issuing stream entered at the end of core n's table (R109). -/
def entered (s : State) (n : Nat) (k : TaskKind) (reads writes : List Tile) (d : Dest) : State :=
  modCore { s with nextId := s.nextId + 1 } n (fun c => { c with tasks := c.tasks ++
    [{ id := s.nextId, who := s.cur, launch := curLaunch s, slot := curSlot s, fir := curOrd s, kind := k, reads := reads, writes := writes, dest := d }] })

/-- The table of the issuing core has room (R109: 32 entries, for matrix tasks, copies and accesses of the core to its tiles). -/
def RoomFor (s : State) : Prop := tableCount s s.cur.core < 32

/-- No parity error stands in an accumulator (its number) or a slot (64 and its number) of the issuing core (R380). -/
def Sound (s : State) (codes : List Nat) : Prop := ∀ c ∈ codes, c ∉ (getCore s s.cur.core).parity

def planM (ops : List Opnd) : Plan := { cpOnly := true, ops := ops }
def planTile (f : EF) : Plan := planM [addrS 1 f.rs1 f.w, addrS 2 f.rs2 f.w]

/-- An address aligned as an operand of `n` bytes, and as its scales where it has some (R261). -/
def TileAligned (fmt : Nat) (a sc : W64) (n m : Nat) : Prop := a.toNat % n = 0 ∧ (isMx fmt = true → sc.toNat % m = 0)

/-- The tiles a tile operand and its scales are. -/
def operandTiles (n : Nat) (a : Seg) (sc : Option Seg) : List Tile := segTiles n a ++ sc.toList.flatMap (segTiles n)

end Sys2Proof.Claims

/-- R99-R101, R109, R260-R269: the matrix members enter their task in the core's table with the tiles it reads and writes; MRD
and MTEST mark rd empty, TDQUERY delivers the entry's word once the context's earlier writes of the tile are done, and TDCLASS
and TDQUERY of an address nothing covers do nothing and answer 4. The model's choices here: what of the codebook an MLDB takes (log 29). -/
def Obligations.MatrixMembers : Prop :=
  ∀ (s : State) (f : EF) (vs : List VReg), RoomFor s →
    let n := s.cur.core
    let fmt := f.bits 12 4
    let d := f.bits 21 5
    let k := f.bits 16 5
    let w := fmtWidth fmt
    (∀ a sc, OpsReady s (planTile f) vs → TileAligned fmt (sval vs 0) (sval vs 1) (128 * w) 32 →
      tileSeg s (sval vs 0) (128 * w) = .ok a → scaleSeg s fmt (sval vs 1) 32 = .ok sc →
      ((fmt = 6 → (curCtx s).cbBusy = 0) →
        exec (.mldb f) s = .next (completed (.mldb f) (planTile f)
          (entered s n (.mldb k fmt a sc (curCtx s).cb) (operandTiles n a sc) [.mslot k] .none) .seq)) ∧
      (Sound s [64 + k, d] →
        exec (.mma f) s = .next (completed (.mma f) (planTile f)
          (entered s n (.mma d k fmt a sc) (operandTiles n a sc ++ [.mslot k, .acc d]) [.acc d] .none) .seq))) ∧
    (∀ a sc, let wide := f.bits 11 1 == 1
      OpsReady s (planTile f) vs → TileAligned fmt (sval vs 0) (sval vs 1) (512 * w) 128 →
      tileSeg s (sval vs 0) (512 * w) = .ok a → scaleSeg s fmt (sval vs 1) 128 = .ok sc →
      (∀ j ∈ sparseSlots k wide, slotWritten s n j = false) →
      (popNat 128 (slotMask s n k) = (if wide then 64 else 32) → (wide = true → k % 2 = 0 ∧ slotMask s n (k + 1) = slotMask s n k) →
        Sound s ((sparseSlots k wide).map (64 + ·) ++ [d]) →
        exec (.mmaS f) s = .next (completed (.mmaS f) (planTile f)
          (entered s n (.mmaS d k fmt wide a sc) (operandTiles n a sc ++ (sparseSlots k wide).map .mslot ++ [.acc d]) [.acc d] .none) .seq)) ∧
      (popNat 128 (slotMask s n k) ≠ (if wide then 64 else 32) →
        exec (.mmaS f) s = .next (takeTrap s cOPERAND (BitVec.ofNat 64 (popNat 128 (slotMask s n k))) (instrWords (.mmaS f))))) ∧
    (∀ x, OpsReady s (planM [addrS 1 f.rs1 f.w]) vs → (sval vs 0).toNat % 16 = 0 → xlate s .load (sval vs 0) 16 false false = .ok x →
      exec (.mldm f) s = .next (completed (.mldm f) (planM [addrS 1 f.rs1 f.w])
        (entered s n (.mldm k (piece x 16)) (segTiles n (piece x 16)) [.mslot k] .none) .seq)) ∧
    (OpsReady s (planM []) vs → exec (.mclr f) s = .next (completed (.mclr f) (planM []) (entered s n (.mclr d) [] [.acc d] .none) .seq)) ∧
    (OpsReady s (planM [dstV f.rd]) vs → FreeV s f.rd → Sound s [d] →
      exec (.mrd f) s = .next (completed (.mrd f) (planM [dstV f.rd])
        (entered (emptiedV s f.rd) n (.mrd d fmt) [.acc d] [] (.vector f.rd.toNat)) .seq)) ∧
    (OpsReady s (planM [dstS f.rd]) vs → FreeS s f.rd →
      exec (.mtest f) s = .next (completed (.mtest f) (planM [dstS f.rd])
        (entered (emptied s f.rd) n (.mtest k) [] [.mslot k] (.scalar (phys s f.rd))) .seq)) ∧
    (∀ c, OpsReady s (planM (tdOps f)) vs → namedTile s f (sval vs 0) = .ok c →
      (c = none → exec (.tdclass f) s = .next (completed (.tdclass f) (planM (tdOps f)) s .seq)) ∧
      (∀ g m t, c = some g → tableTile g = some (m, t) → tableCount s m < 32 →
        exec (.tdclass f) s = .next (completed (.tdclass f) (planM (tdOps f)) (entered s m (.tdclass t) [] [t] .none) .seq)) ∧
      (∀ g, c = some g → tableTile g = none →
        exec (.tdclass f) s = .next (completed (.tdclass f) (planM (tdOps f)) (entered s n (.tdclass (.mem g.base g.bytes)) [] [] .none) .seq))) ∧
    (∀ c, OpsReady s (planM (dstS f.rd :: tdOps f)) vs → namedTile s f (sval vs 0) = .ok c → FreeS s f.rd →
      (∀ g m t, c = some g → tableTile g = some (m, t) → writesAhead s m t = false) →
      exec (.tdquery f) s = .next (completed (.tdquery f) (planM (dstS f.rd :: tdOps f))
        (deliver (emptied s f.rd) (.scalar (phys s f.rd)) (BitVec.ofNat 2048 (match c with | some g => dirWord (getDir s g.ref) | none => 4))) .seq))

/-- R73, R277-R280: CPY reads its descriptor, takes the lowest free slot of the core's engine with the next generation, and
delivers the handle; a breach of the descriptor's rules fails the copy with cause 1 and no sector, and where it is a format code
that is not accepted, COPY_FAULT is pending. CPYSTAT gives the sectors done and the state, 8 for a stale handle. CPYCANCEL
cancels a copy that is still to issue sectors, and holds its stream until the copy has ended; of a stale handle or of an ended
copy it completes. The model's choice here: what the pending COPY_FAULT carries (log 82). -/
def Obligations.CopyMembers : Prop :=
  ∀ (s : State) (f : EF) (vs : List VReg),
    let n := s.cur.core
    n < 1024 →
    (∀ segs k, OpsReady s (planM [dstS f.rd, addrS 1 f.rs1 f.w]) vs → (sval vs 0).toNat % 64 = 0 →
      xlatePieces s .load 64 false false (pagePieces (sval vs 0) 128 0) = .ok segs → freeCopySlot s n = some k →
      issueReady s .load false false segs = true → poisonIn s segs = none → FreeS s f.rd → RoomFor s →
      let r := readPieces s { id := 0, agent := .stream s.cur, kind := .load, todo := segs } segs
      let d := CopyDesc.ofWords ((List.range 16).map (fun j => BitVec.ofNat 64 (r.1.data.toNat / 2 ^ (64 * j))))
      (d.sfmt = 6 → (curCtx s).cbBusy = 0) →
      ∃ t c h, exec (.cpy f) s = .next t ∧ getCopy t n k = c ∧ c.gen = ((getCopy s n k).gen + 1) % 2 ^ 32 ∧ c.state = 1 ∧ c.ctx = s.cur.ctx ∧
        c.seq = d.seq ∧ c.stampva = d.stamp ∧ c.desc = d ∧ c.next = 0 ∧ c.secdone = 0 ∧
        (descBreach d = true → c.cause = 1 ∧ c.failed = true ∧ c.nsec = 0) ∧
        (descBreach d = false → d.ch = false → c.cause = 0 ∧ c.failed = false ∧ c.nsec = d.sectors) ∧
        ((copyFmt d.sfmt = false ∨ copyFmt d.dfmt = false) → (curCtx s).firing ≠ none →
          ∃ a ∈ (curCtx t).pending, a.cause = cCOPY ∧ a.inst = BitVec.ofNat 64 (c.gen * 256 + k)) ∧
        h ∈ t.reqs ∧ h.kind = .ready ∧ h.dest = .scalar (phys s f.rd) ∧ h.data = BitVec.ofNat 2048 (c.gen * 256 + k) ∧ t.mem = s.mem) ∧
    (OpsReady s (planM [dstS f.rd, srcS 1 f.rs1 f.w]) vs → FreeS s f.rd →
      let h := (sval vs 0).toNat
      let c := getCopy s n (h % 256)
      (h < 2 ^ 40 → h % 256 < 128 →
        exec (.cpystat f) s = .next (completed (.cpystat f) (planM [dstS f.rd, srcS 1 f.rs1 f.w])
          (wrote s f.rd (if c.gen = h / 256 then BitVec.ofNat 64 (c.secdone * 2 ^ 32 + c.state) else 8)) .seq)) ∧
      ((2 ^ 40 ≤ h ∨ 128 ≤ h % 256) → exec (.cpystat f) s = .next (takeTrap s cOPERAND (sval vs 0) (instrWords (.cpystat f))))) ∧
    (OpsReady s (planM [srcS 1 f.rs1 f.w]) vs →
      let h := (sval vs 0).toNat
      let c := getCopy s n (h % 256)
      (h < 2 ^ 40 → h % 256 < 128 → (c.gen ≠ h / 256 ∨ c.state = 0 ∨ 4 < c.state) →
        exec (.cpycancel f) s = .next (completed (.cpycancel f) (planM [srcS 1 f.rs1 f.w]) s .seq)) ∧
      (h < 2 ^ 40 → h % 256 < 128 → c.gen = h / 256 → 1 ≤ c.state → c.state ≤ 4 → (copyEnding c = false ∨ c.state = 3) →
        ∃ t, exec (.cpycancel f) s = .next t ∧
          getCopy t n (h % 256) = { c with cancel := true, suspend := false, state := if c.state = 1 then 1 else 2 } ∧
          (∀ a ∈ (getCtx t c.core c.ctx).pending, ¬ (a.cause = cCOPY ∧ a.inst = copyHandle c (h % 256))) ∧
          (curStream t).wait = .interlock ∧ (curStream t).pc = (curStream s).pc ∧ t.mem = s.mem) ∧
      ((2 ^ 40 ≤ h ∨ 128 ≤ h % 256) → exec (.cpycancel f) s = .next (takeTrap s cOPERAND (sval vs 0) (instrWords (.cpycancel f)))))

namespace Sys2Proof.Claims

/-- PORT of word 1 (R283). -/
def portBits (f : EF) : Nat := f.bits 22 4

end Sys2Proof.Claims

/-- R283-R289: CHPUSH posts a data commit for each of the next slots of an output port's reservation, the EOD bits on the
last; CHMARK one commit of its kind; CHPOP posts one release and delivers the address of the slot reserved after those it
releases, 0 where none is left; CHPEEK delivers a
token's header or all ones; CHSTAT writes the port's number asked for; CBLOAD sends one read for the codebook. -/
def Obligations.ChannelMembers : Prop :=
  ∀ (s : State) (f : EF) (vs : List VReg) (p : PortView),
    (OpsReady s (planM [srcS 1 f.rs1 f.w]) vs → portOf s (portBits f) (some true) = .ok p → p.res.eos = false → (sval vs 0).toNat ≤ p.left →
      ∃ t cs, exec (.chpush f) s = .next t ∧ (getCore t p.port.core).commits = (getCore s p.port.core).commits ++ cs ∧
        cs.length = (sval vs 0).toNat ∧ (∀ c ∈ cs, c.kind = 0 ∧ c.ch = p.port.ch ∧ c.ctx = s.cur.ctx) ∧
        (∀ c, cs.getLast? = some c → c.eod = some (f.bits 14 8)) ∧ (∀ c ∈ cs.dropLast, c.eod = some 0) ∧ t.mem = s.mem) ∧
    (OpsReady s (planM [srcS 1 f.rs1 f.w]) vs → portOf s (portBits f) (some true) = .ok p →
      (p.res.eos = true → exec (.chpush f) s = .next (takeTrap s cOPERAND (BitVec.ofNat 64 (portBits f)) (instrWords (.chpush f)))) ∧
      (p.res.eos = false → p.left < (sval vs 0).toNat → exec (.chpush f) s = .next (takeTrap s cOPERAND (sval vs 0) (instrWords (.chpush f))))) ∧
    (OpsReady s (planM []) vs → portOf s (portBits f) (some true) = .ok p → (p.left = 0 ∨ p.res.eos = true) →
      exec (.chmark f) s = .next (takeTrap s cOPERAND (BitVec.ofNat 64 (portBits f)) (instrWords (.chmark f)))) ∧
    (∀ e, portOf s (portBits f) (some false) = .error e → OpsReady s (planM [dstS f.rd, srcS 1 f.rs1 f.w]) vs →
      exec (.chpop f) s = .next (takeTrap s cOPERAND (BitVec.ofNat 64 (portBits f)) (instrWords (.chpop f))) ∧
      exec (.chpeek f) s = .next (takeTrap s cOPERAND (BitVec.ofNat 64 (portBits f)) (instrWords (.chpeek f)))) ∧
    (∀ e, portOf s (portBits f) (some true) = .error e →
      (OpsReady s (planM [srcS 1 f.rs1 f.w]) vs →
        exec (.chpush f) s = .next (takeTrap s cOPERAND (BitVec.ofNat 64 (portBits f)) (instrWords (.chpush f)))) ∧
      (OpsReady s (planM []) vs →
        exec (.chmark f) s = .next (takeTrap s cOPERAND (BitVec.ofNat 64 (portBits f)) (instrWords (.chmark f))))) ∧
    (OpsReady s (planM []) vs → portOf s (portBits f) (some true) = .ok p → 0 < p.left → p.res.eos = false →
      ∃ t c, exec (.chmark f) s = .next t ∧ (getCore t p.port.core).commits = (getCore s p.port.core).commits ++ [c] ∧
        c.kind = f.bits 20 2 ∧ c.ch = p.port.ch ∧ c.eod = some 0 ∧ t.mem = s.mem) ∧
    (OpsReady s (planM [dstS f.rd, srcS 1 f.rs1 f.w]) vs → portOf s (portBits f) (some false) = .ok p → FreeS s f.rd →
      -- The address of the slot reserved at U + n, 0 where n is all that is left.
      let nextSlot := fun n : Nat => if p.left = n then 0 else slotVa s (curLaunch s) s.cur.core (payloadPa p.ring (bump (p.next s) n))
      ((sval vs 0).toNat ≤ p.left → sval vs 0 ≠ 0 → p.res.base = none →
        ∃ t r h, exec (.chpop f) s = .next t ∧ (getCore t p.port.core).releases = (getCore s p.port.core).releases ++ [r] ∧
          r.n = (sval vs 0).toNat ∧ r.ch = p.port.ch ∧ r.cons = p.port.cons ∧ h ∈ t.reqs ∧ h.kind = .ready ∧
          h.dest = .scalar (phys s f.rd) ∧ h.data = BitVec.ofNat 2048 (nextSlot (sval vs 0).toNat) ∧ t.mem = s.mem) ∧
      ((sval vs 0).toNat ≤ p.left → (sval vs 0 = 0 ∨ p.res.base ≠ none) →
        ∃ t h, exec (.chpop f) s = .next t ∧ (getCore t p.port.core).releases = (getCore s p.port.core).releases ∧ h ∈ t.reqs ∧
          h.kind = .ready ∧ h.dest = .scalar (phys s f.rd) ∧ h.data = BitVec.ofNat 2048 (nextSlot (sval vs 0).toNat) ∧ t.mem = s.mem) ∧
      (p.left < (sval vs 0).toNat → exec (.chpop f) s = .next (takeTrap s cOPERAND (sval vs 0) (instrWords (.chpop f)))) ∧
      exec (.chpeek f) s = .next (completed (.chpeek f) (planM [dstS f.rd, srcS 1 f.rs1 f.w])
        (deliver (emptied s f.rd) (.scalar (phys s f.rd))
          ((if (sval vs 0).toNat % 2 ^ 32 < past (seenTo p.chan) (p.next s) ∧ past (seenTo p.chan) (p.next s) ≤ chN p.chan then
              shownHeader p.ring (hdrAt p.chan (bump (p.next s) ((sval vs 0).toNat % 2 ^ 32)))
            else BitVec.allOnes 64).setWidth 2048)) .seq)) ∧
    (OpsReady s (planM [dstS f.rd]) vs → portOf s (portBits f) none = .ok p → FreeS s f.rd →
      exec (.chstat f) s = .next (completed (.chstat f) (planM [dstS f.rd]) (wrote s f.rd (BitVec.ofNat 64
        (match f.bits 20 2 with
         | 0 => if p.port.output then freeSlots p.chan else past p.chan.head (tailOf p.chan p.port.cons)
         | 1 => p.addr s
         | 2 => p.left
         | _ => chanWord p.chan 0x58))) .seq)) ∧
    (∀ x, OpsReady s (planM [addrS 1 f.rs1 f.w]) vs → (sval vs 0).toNat % 32 = 0 → xlate s .load (sval vs 0) 8 false false = .ok x →
      poisonIn s [piece x 32] = none → tableRoom s s.cur.core [piece x 32] = true → (curCtx s).cbBusy = 0 →
      ∃ t r, exec (.cbload f) s = .next t ∧ (curCtx t).cbBusy = 1 ∧ (curCtx t).cb = (curCtx s).cb ∧ t.reqs = s.reqs ++ [r] ∧ r.kind = .load ∧
        r.dest = .codebook ∧ r.todo = [piece x 32] ∧ t.mem = s.mem)

/-- R208: FIRE.END of an AP stream ends that stream, its monitor disarmed. Of a CP stream it ends the firing: the context's registers are those of
reset, its instance waits for its next firing with FIRECNT one higher, and the launch's watchdog period starts again. -/
def Sys2Proof.Claims.FiringEnds : Prop :=
  ∀ (s : State) (f : R3F), OpsReady s {} [] →
    (s.cur.ap = true →
      exec (.fireEnd f) s = .next (completed (.fireEnd f) {} (modCur s (fun x => { x with run := .ended, monitor := {} })) .none)) ∧
    (∀ g i, s.cur.ap = false → (curCtx s).firing = some g → g.poisoned = false → g.replay = false → (curCtx s).pending = [] →
      getInst s s.cur.core g.slot = some i → (∃ p ∈ i.ports, p.output = false) →
      ∃ t j, exec (.fireEnd f) s = .next t ∧ getCtx t s.cur.core s.cur.ctx = {} ∧
        (getStream t { s.cur with ap := false }).run = .idle ∧ (getStream t { s.cur with ap := true }).run = .idle ∧
        getInst t s.cur.core g.slot = some j ∧ j.state = 2 ∧ j.firecnt = i.firecnt + 1 ∧
        (getLaunch t g.launch).watch = some (watchTime s + (getLaunch s g.launch).image.watchdog * 1000000))

/-! ### Accesses at their homes (R45, R48, R137, R157, R160, R245, R247-R248, R346, R349) -/

namespace Sys2Proof.Claims

/-- No thermal trip has stopped the clocks (R391). -/
def Awake (s : State) : Prop := s.mgmt.power.tripped = false

/-- A request of one piece of this device that may be performed now (R137, R139). -/
structure AtHome (s : State) (r : Req) (g : Seg) : Prop where
  found : findReq s r.id = some r
  todo : r.todo = [g]
  line : r.byLine = false
  ready : pieceReady s r g = true
  here : g.dev = 0
  fits : g.off + g.len ≤ 256
  aligned : 0 < g.len ∧ g.pa / 4096 = (g.pa + g.len - 1) / 4096

/-- A place of HBM or of a scratchpad. -/
def PlainMemory (pa : Nat) : Prop := place pa = .hbm ∨ ∃ n o, place pa = .spad n o

/-- A byte that a store of `g` reaches, by where it stands (R362). -/
def stored (s : State) (g : Seg) (a : Nat) : Prop := ∃ i, i < g.len ∧ homePa s a = homePa s (g.pa + i)

/-- A register's fill as a load of its context's CP stream, at its place among the context's accesses (R157, R158). -/
def fillReq (s : State) (n c : Nat) (f : Fill) : Req :=
  let g := (getCtx s n c).firing
  { id := f.id, agent := .stream (cpOf n c), slot := (g.map (·.slot)).getD 64, fir := (g.map (·.ord)).getD 0, kind := .load, todo := [] }

/-- The scalar that a result of `n` bytes stands for (R239). -/
def extended (d : VReg) (n : Nat) (sg : Bool) : W64 := if sg then (d.setWidth (8 * n)).signExtend 64 else (d.setWidth (8 * n)).setWidth 64

end Sys2Proof.Claims

/-- R45, R160, R239: a load reads memory at its home, and its result then fills its register, which is full from there on,
with the value extended by its size. R245, R389: an atomic reads and writes its place in one act, and its home keeps its response.
R157: a fill brings a
register of a window back with its full bit. R247: a monitor is placed at its home. -/
def Obligations.ReadsAtHome : Prop :=
  ∀ (s : State) (r : Req) (g : Seg), Awake s →
    (AtHome s r g → isMemory (place g.pa) = true → r.kind = .load → r.dest ≠ .none → (∀ i, i < g.len → isMemory (place (g.pa + i)) = true) →
      ∃ t q, exec (.loadAtHome r.id) s = .next t ∧ findReq t r.id = some q ∧ q.todo = [] ∧ q.dest = r.dest ∧
        dataAt q g = memRead s g.pa g.len ∧ t.mem = s.mem) ∧
    (∀ op b e, AtHome s r g → place g.pa = .hbm → r.kind = .atomic op b e → g.off = 0 → (g.len = 4 ∨ g.len = 8) → g.pa % g.len = 0 → r.dest ≠ .none →
      ∃ t q, exec (.atomicAtHome r.id) s = .next t ∧ findReq t r.id = some q ∧ q.todo = [] ∧ dataAt q g = memRead s g.pa g.len ∧
        memRead t g.pa g.len = amoNew op (8 * g.len) (memRead s g.pa g.len) b.toNat e.toNat % 2 ^ (8 * g.len) ∧
        (∀ a, ¬ stored s g a → memByte t a = memByte s a) ∧ ∃ e ∈ t.replay, e.agent = r.agent ∧ e.id = r.id ∧ e.response = q.data) ∧
    (∀ w p n, findReq s r.id = some r → r.agent = .stream w → r.todo = [] → sameFiring s w r.slot r.fir = true → responseTurn s r = true → r.dest = .scalar p →
      0 < p → p < 136 → n ∈ [1, 2, 4, 8] → r.size = n →
      ∃ t, exec (.registerFill r.id) s = .next t ∧ sget (getStream t w) p = extended r.data n r.signed ∧ sfullAt (getStream t w) p = true ∧
        findReq t r.id = none ∧ t.mem = s.mem) ∧
    (∀ w, AtHome s r g → r.kind = .monitor → r.agent = .stream w → (getStream s w).monitor.armed = true →
      ∃ t, exec (.monitorRegister r.id) s = .next t ∧ (getStream t w).monitor = { (getStream s w).monitor with placed := true } ∧
        findReq t r.id = none ∧ t.mem = s.mem) ∧
    (∀ n c reg f, (getCtx s n c).fills.find? (fun f => f.reg == reg) = some f → 0 < reg → reg < 136 →
      f.val.dev = 0 → f.full.dev = 0 → pieceReady s (fillReq s n c f) f.val = true → pieceReady s (fillReq s n c f) f.full = true →
      ∃ t, exec (.fillArrive n c reg) s = .next t ∧ sget (getStream t (cpOf n c)) reg = BitVec.ofNat 64 (physRead s f.val.pa f.val.len) ∧
        sfullAt (getStream t (cpOf n c)) reg = (physRead s f.full.pa f.full.len).testBit f.bit ∧
        (getCtx t n c).fills = (getCtx s n c).fills.filter (fun g => g.reg != reg) ∧ t.mem = s.mem)

/-- R45, R48, R157, R193: a store writes its bytes at its home and nothing else of memory. A write through a core's window
port fills an empty register, or is held; a held write fills its register once that is empty. A spill writes its record.
-/
def Obligations.WritesAtHome : Prop :=
  ∀ (s : State) (r : Req) (g : Seg), Awake s →
    (AtHome s r g → PlainMemory g.pa → r.kind = .store → r.dest = .none →
      ∃ t, exec (.storeAtHome r.id) s = .next t ∧ findReq t r.id = none ∧
        (∀ i, i < g.len → memByte t (g.pa + i) = BitVec.ofNat 8 (dataAt r g / 2 ^ (8 * i))) ∧
        (∀ a, ¬ stored s g a → memByte t a = memByte s a) ∧ (∀ w, (getStream t w).sreg = (getStream s w).sreg)) ∧
    (∀ n c q, AtHome s r g → r.kind = .store → r.dest = .none → windowPiece g = true → regView (place g.pa) = some (n, c, q) →
      heldPiece s r g = false → regStopped s n c = false →
      (q < 136 → 0 < q → regOpen s n c q = true →
        ∃ t, exec (.windowWrite r.id) s = .next t ∧ sget (getStream t (cpOf n c)) q = BitVec.ofNat 64 (dataAt r g) ∧
          sfullAt (getStream t (cpOf n c)) q = true ∧ findReq t r.id = none ∧ t.mem = s.mem) ∧
      (regOpen s n c q = false → (getCore s n).heldWrites.length < 64 →
        ∃ t, exec (.windowWrite r.id) s = .next t ∧
          (getCore t n).heldWrites = (getCore s n).heldWrites ++ [{ ctx := c, reg := q, data := BitVec.ofNat 2048 (dataAt r g), id := r.id }] ∧
          getStream t (cpOf n c) = getStream s (cpOf n c) ∧ t.reqs = s.reqs ∧ t.mem = s.mem)) ∧
    (∀ n i h, (getCore s n).heldWrites[i]? = some h → 0 < h.reg → h.reg < 136 → (∀ j x, j < i → (getCore s n).heldWrites[j]? = some x → ¬ (x.ctx = h.ctx ∧ x.reg = h.reg)) →
      regFull s n h.ctx h.reg = false → regPending s n h.ctx h.reg = false → regStopped s n h.ctx = false →
      ∃ t, exec (.heldWriteDelivery n i) s = .next t ∧ sget (getStream t (cpOf n h.ctx)) h.reg = h.data.setWidth 64 ∧
        sfullAt (getStream t (cpOf n h.ctx)) h.reg = true ∧ (getCore t n).heldWrites = (getCore s n).heldWrites.eraseIdx i ∧ t.mem = s.mem) ∧
    (∀ n c b rest, (getCtx s n c).spills = b :: rest → ctxSaved s n c = false → b.segs = [g] → g.dev = 0 → isMemory (place g.pa) = true → windowPiece g = false →
      pieceReady s (spillReq s n c b [g]) g = true → (∀ q ∈ s.reqs, q.id ≠ b.id) → 8 * (g.off + g.len) ≤ 1152 → b.regs.length = 16 →
      ∃ t, exec (.spillWrite n c) s = .next t ∧ (getCtx t n c).spills = rest ∧
        t.mem = (storeMem s g.pa g.len (spillBytes b / 2 ^ (8 * g.off) % 2 ^ (8 * g.len))).mem)

/-- R142, R248, R281, R346, R349: what ends a wait. MWAIT's time is over once CYCLE reaches it; a path acknowledges a fence
once nothing earlier is on it; the oldest pending trap of a context enters its CP stream's handler with cause bit 8 set; a
walk puts its leaf into the caches of its waiters' clusters and lets them go on, or gives each whose miss it is its fault, and
keeps its result for the units that wait on it. The model's choices here: a unit's walk is one act (log 15). -/
def Obligations.WaitsEnd : Prop :=
  ∀ (s : State) (w : StreamId), Awake s →
    (∀ d p full, (getStream s w).wait = .mwait d p full →
      (d ≤ s.cycle → streamStopped s w = false →
        ∃ t, exec (.mwaitTimeout w) s = .next t ∧ (getStream t w).wait = .mwait 0 p full ∧ (getStream t w).monitor = (getStream s w).monitor ∧ t.mem = s.mem) ∧
      (s.cycle < d → exec (.mwaitTimeout w) s = .next s)) ∧
    (∀ f path, (getStream s w).fence = some f →
      (∀ q ∈ s.reqs, q.id < f.upto → q.agent = .stream w → ∀ g ∈ unanswered q, pathOf s.dev (clusterOf w.core) g ≠ path) →
      (∀ b ∈ spillSegs s w, b.1 < f.upto → ∀ g ∈ b.2, pathOf s.dev (clusterOf w.core) g ≠ path) →
      (∀ q ∈ s.freqs, q.id < f.upto → q.agent = .stream w → isProbe q = true → pathOf s.dev (clusterOf w.core) (headerSeg q) ≠ path) →
      ∃ t, exec (.fenceAck w path) s = .next t ∧ (getStream t w).fence = some { f with paths := f.paths.filter (· != path) } ∧ t.mem = s.mem) ∧
    (∀ a rest, (getCtx s w.core w.ctx).pending = a :: rest → w.ap = false → trappable (getStream s w) = true → streamStopped s w = false →
      ∃ t, exec (.asyncTrap w) s = .next t ∧ (getCtx t w.core w.ctx).pending = rest ∧
        Entered (getStream s w) (getStream t w) (a.cause + 256) a.val a.inst ∧ t.mem = s.mem) ∧
    (∀ k, s.dev.walks.find? (fun x => x.id == k.id) = some k →
      ((s.dev.walks.filter (fun j => j.cluster / 4 == k.cluster / 4)).take 64).any (fun j => j.id == k.id) = true →
      (∀ a ∈ (walk s (getDie s (k.cluster / 4)).ptrs k.asid k.root k.va).reads, pathDead s none { pa := a, len := 8, off := 0 } = false) →
      (∀ e, (walk s (getDie s (k.cluster / 4)).ptrs k.asid k.root k.va).leaf = .ok e →
        ∃ t, exec (.translationWalk k.id) s = .next t ∧
          (∀ v ∈ k.waiters, (getCluster t (v.core / 64)).tlb = tlbAdd 4096 (getCluster s (v.core / 64)).tlb e) ∧
          t.dev.walkEnds = s.dev.walkEnds ++ k.units.map (fun u => { unit := u, asid := k.asid, va := k.va, leaf := some e }) ∧
          t.dev.walks = s.dev.walks.filter (fun j => j.id != k.id) ∧
          (∀ v ∈ k.waiters, ∀ a va, (getStream s v).wait = .walk a va → (getStream t v).wait = .none) ∧ t.mem = s.mem) ∧
      (∀ x, (walk s (getDie s (k.cluster / 4)).ptrs k.asid k.root k.va).leaf = .error x →
        ∃ t, exec (.translationWalk k.id) s = .next t ∧ t.clusters = s.clusters ∧
          t.dev.walkEnds = s.dev.walkEnds ++ k.units.map (fun u => { unit := u, asid := k.asid, va := k.va, leaf := none, kind := x }) ∧
          (∀ v ∈ k.waiters, ∀ a va, (getStream s v).wait = .walk a va → (getStream t v).wait = .none ∧
            (a = k.asid → va / 65536 = k.va / 65536 → (getStream t v).walkFault = some (a, va, x)) ∧
            (¬ (a = k.asid ∧ va / 65536 = k.va / 65536) → (getStream t v).walkFault = (getStream s v).walkFault)) ∧
          t.mem = s.mem))

/-! ### Fibres at their homes (R59-R68, R251-R259, R293, R295) -/

namespace Sys2Proof.Claims

/-- An operation whose turn at its home has come (R65, R67, R146). -/
structure Turn (s : State) (f : FReq) : Prop where
  found : findF s f.id = some f
  here : f.dev = 0
  free : f.held = .no
  turn : fibTurn s f = true

/-- A header in HBM or a scratchpad that can be read and written: aligned, not poisoned, its sector not migrating, not
malformed. -/
structure HdrAt (s : State) (pa : Nat) : Prop where
  plain : PlainMemory pa
  aligned : pa % 64 = 0
  clean : poisonedAt s pa 64 = none
  still : redirectHeld s.dev pa 64 = false
  good : hdrBad (decodeHdr (memRead s pa 64)) = false

/-- The header of a fibre as it stands. -/
def hdrOf (s : State) (pa : Nat) : FHdr := decodeHdr (memRead s pa 64)

/-- The pod at an address, as a fibre of a format lays it out (R60). -/
def podAt (s : State) (fmt a : Nat) : Pod := decodePod (fmt = 11) (memRead s a 256)

/-- The width at which a pod holds a value (R60). -/
def podWidth (fmt : Nat) : Nat := if fmt = 11 then 64 else 32

/-- An operation whose fibre stands in one data pod, at `a` by its home's cache, apart from the header and readable; `wr`
for an operation that writes the fibre. No page migrates. -/
structure OnePod (s : State) (f : FReq) (wr : Bool) (i a : Nat) : Prop where
  header : HdrAt s f.hdr
  flat : (hdrOf s f.hdr).lv = false
  dir : (hdrOf s f.hdr).dir = [(0, i)]
  page : ∃ x, unitXlate s (homeUnit (fibHome s f.hdr)) (homeTlb s (fibHome s f.hdr)) (homePtrs s (fibHome s f.hdr)) (getPool s (hdrOf s f.hdr).pool).asid
    ((getPool s (hdrOf s f.hdr).pool).base + i * 256) .fibre 256 wr = .ok (x, none) ∧ x.dev = 0 ∧ x.pa = a
  held : ∃ e, tlbFind (homeTlb s (fibHome s f.hdr)) (getPool s (hdrOf s f.hdr).pool).asid
    ((getPool s (hdrOf s f.hdr).pool).base + i * 256) = some e
  plain : PlainMemory a
  aligned : a % 256 = 0
  clean : poisonedAt s a 256 = none
  apart : a + 256 ≤ f.hdr ∨ f.hdr + 64 ≤ a
  still : ∀ m ∈ s.dev.migrations, m.2.act = false

/-- `t`, which an operation's act leaves of `s`, with its traffic counted (R38). -/
def counted (s t : State) (f : FReq) : State := addTraffic t f.launch [{ pa := 0, len := 32 * (served t - served s), off := 0 }]

/-- An operation applied by its act, which leaves `t`: it is gone. -/
def applied (s t : State) (f : FReq) : State := counted s (fibDone t f 0 .none) f

end Sys2Proof.Claims

/-- R62, R63, R67, R254, R256: a merge that its act accepts is applied and leaves. In a fibre of one pod: of a coordinate held,
its entry takes the combined value; of a new one, its entry is put in its place and LEN counts it; VER advances. One past MAXC
is rejected: OVF is set and nothing else of the fibre or its pool changes. One that finds the pool below its watermark stalls,
the fibre untouched. -/
def Sys2Proof.Claims.MergesAtHome : Prop :=
  ∀ (s : State) (f : FReq) (op vt c : Nat) (v : W64), Awake s → Turn s f → f.op = .merge op vt [(c, v)] →
    let x := hdrOf s f.hdr
    let p := getPool s x.pool
    let o := if op = 8 then x.op else op
    (∀ t, (mergeAct (fibHome s f.hdr) f.hdr f.va op vt c v).exec s = .ok ((), t) →
      exec (.mergeAtHome f.id) s = .next (applied s t f)) ∧
    (∀ i a w, OnePod s f true i a → p.wmark ≤ p.freecnt → o ≠ 7 → c ≤ x.maxc → c < noneIdx → enterValue x.fmt vt p.scale v = some w →
      let q := podAt s x.fmt a
      (∀ e, q.ents.find? (fun e => e.1 == c) = some e →
        let n := combine o x.fmt e.2 (fibCanon x.fmt w)
        ¬ (x.zp = true ∧ fibZero x.fmt n = true) →
        ∃ t, exec (.mergeAtHome f.id) s = .next t ∧ findF t f.id = none ∧
          memRead t f.hdr 64 = encodeHdr { x with ver := bump x.ver 1 } % 2 ^ 512 ∧
          podAt t x.fmt a = { q with ents := q.ents.map (fun e => if e.1 = c then (c, n % 2 ^ podWidth x.fmt) else e) }) ∧
      (q.ents.find? (fun e => e.1 == c) = none → ¬ (x.zp = true ∧ fibZero x.fmt (fibCanon x.fmt w) = true) → x.len ≠ x.cap →
        q.ents.length < podCap x.fmt →
        ∃ t, exec (.mergeAtHome f.id) s = .next t ∧ findF t f.id = none ∧
          memRead t f.hdr 64 = encodeHdr { x with len := x.len + 1, ver := bump x.ver 1 } % 2 ^ 512 ∧
          podAt t x.fmt a = { q with ents := putEntry q.ents (c, fibCanon x.fmt w % 2 ^ podWidth x.fmt) })) ∧
    (HdrAt s f.hdr → x.maxc < c → p.wmark ≤ p.freecnt →
      ∃ t, exec (.mergeAtHome f.id) s = .next t ∧ findF t f.id = none ∧ memRead t f.hdr 64 = encodeHdr { x with ovf := true } % 2 ^ 512 ∧
        t.dev.pools = s.dev.pools ∧ t.clusters = s.clusters) ∧
    (HdrAt s f.hdr → p.freecnt < p.wmark →
      ∃ t g, exec (.mergeAtHome f.id) s = .next t ∧ findF t f.id = some g ∧ g.held = .stalled s.time ∧ t.mem = s.mem ∧ t.dev = s.dev)

/-- R62, R63, R251: a deletion applies as its act says. In a fibre of one pod the entry of a coordinate held goes, LEN falls by
one and VER advances; of a coordinate not held, only VER advances. -/
def Sys2Proof.Claims.DeletesAtHome : Prop :=
  ∀ (s : State) (f : FReq) (c : Nat), Awake s → Turn s f → f.op = .delete c →
    let x := hdrOf s f.hdr
    (∀ t, (deleteAct (fibHome s f.hdr) f.hdr f.va c).exec s = .ok ((), t) → exec (.deleteAtHome f.id) s = .next (applied s t f)) ∧
    (∀ i a, OnePod s f true i a →
      let q := podAt s x.fmt a
      (q.ents.any (fun e => e.1 == c) = true → q.ents.filter (fun e => e.1 != c) ≠ [] →
        ∃ t, exec (.deleteAtHome f.id) s = .next t ∧ findF t f.id = none ∧
          memRead t f.hdr 64 = encodeHdr { x with len := x.len - 1, ver := bump x.ver 1 } % 2 ^ 512 ∧
          podAt t x.fmt a = { q with ents := q.ents.filter (fun e => e.1 != c) }) ∧
      (q.ents.any (fun e => e.1 == c) = false →
        ∃ t, exec (.deleteAtHome f.id) s = .next t ∧ findF t f.id = none ∧
          memRead t f.hdr 64 = encodeHdr { x with ver := bump x.ver 1 } % 2 ^ 512 ∧ podAt t x.fmt a = q)) ∧
    (HdrAt s f.hdr → x.dir = [] →
      ∃ t, exec (.deleteAtHome f.id) s = .next t ∧ findF t f.id = none ∧
        memRead t f.hdr 64 = encodeHdr { x with ver := bump x.ver 1 } % 2 ^ 512)

/-- R252, R254: FINIT writes the whole header. FPACK of a fibre in one pod ends its chain there; of one without pods it only
advances VER. -/
def Sys2Proof.Claims.HeadersAtHome : Prop :=
  ∀ (s : State) (f : FReq), Awake s → Turn s f →
    let x := hdrOf s f.hdr
    (∀ cap maxc pool fmt op zp, f.op = .init cap maxc pool fmt op zp → PlainMemory f.hdr → f.hdr % 64 = 0 →
      redirectHeld s.dev f.hdr 64 = false →
      ∃ t, exec (.finitAtHome f.id) s = .next t ∧ findF t f.id = none ∧
        memRead t f.hdr 64 = encodeHdr { fmt := fmt, op := op, zp := zp, cap := cap, maxc := maxc, pool := pool } % 2 ^ 512) ∧
    (f.op = .pack →
      (∀ t, (packAct (fibHome s f.hdr) f.hdr f.va).exec s = .ok ((), t) → exec (.fpackAtHome f.id) s = .next (applied s t f)) ∧
      (∀ i a, OnePod s f true i a → (podAt s x.fmt a).ents ≠ [] →
        ∃ t, exec (.fpackAtHome f.id) s = .next t ∧ findF t f.id = none ∧
          memRead t f.hdr 64 = encodeHdr { x with npod := 1, ver := bump x.ver 1 } % 2 ^ 512 ∧
          podAt t x.fmt a = { podAt s x.fmt a with next := noneIdx }) ∧
      (HdrAt s f.hdr → x.dir = [] → x.lv = false →
        ∃ t, exec (.fpackAtHome f.id) s = .next t ∧ findF t f.id = none ∧
          memRead t f.hdr 64 = encodeHdr { x with npod := 0, ver := bump x.ver 1 } % 2 ^ 512))

/-- R251, R253, R257: FLEN delivers LEN with OVF in bit 32, FPROBE the word of a coordinate and FPROBEV the lanes' words with
their found flags, as they stand when the operation's turn comes. -/
def Sys2Proof.Claims.ProbesAtHome : Prop :=
  ∀ (s : State) (f : FReq) (p : Nat), Awake s → Turn s f →
    let x := hdrOf s f.hdr
    let delivers := fun (d : Dest) (v : VReg) =>
      ∃ t r, exec (.probeAtHome f.id) s = .next t ∧ findF t f.id = none ∧ t.reqs = s.reqs ++ [r] ∧ r.kind = .ready ∧ r.agent = f.agent ∧
        r.dest = d ∧ r.data = v ∧ t.mem = s.mem
    (f.op = .len → f.dest = .scalar p → HdrAt s f.hdr → delivers (.scalar p) (BitVec.ofNat 2048 (x.len + (if x.ovf then 2 ^ 32 else 0)))) ∧
    (∀ c, f.op = .probe c → f.dest = .scalar p →
      (HdrAt s f.hdr → x.dir = [] → delivers (.scalar p) 0) ∧
      (∀ i a, OnePod s f false i a → delivers (.scalar p)
        (match (podAt s x.fmt a).ents.find? (fun e => e.1 == c) with
         | some e => BitVec.ofNat 2048 (if x.fmt = 11 then e.2 else e.2 % 2 ^ 32 + 2 ^ 32)
         | none => 0))) ∧
    (∀ cs m v b, f.op = .probev cs m → f.dest = .probe v p b →
      (HdrAt s f.hdr → x.dir = [] → delivers (.probe v p 0) 0) ∧
      (∀ i a, OnePod s f false i a →
        let value := fun k => if m.getLsbD k then (podAt s x.fmt a).ents.find? (fun e => e.1 == (lane cs k).toNat) else none
        ∃ words found, delivers (.probe v p found) words ∧ ∀ k, k < 64 →
          found.getLsbD k = (value k).isSome ∧
          lane words k = (match value k with
            | some e => if x.fmt = 11 then BitVec.ofInt 32 (max (-(2 ^ 31)) (min (2 ^ 31 - 1) (BitVec.ofNat 64 e.2).toInt)) else BitVec.ofNat 32 e.2
            | none => 0)))

/-- R258: a scan reads one pod: the words of its entries from the coordinate on, as many as are still wanted, or the
end-of-fibre word; a later act delivers them, to its queue while that has room, or to memory. -/
def Sys2Proof.Claims.ScansAtHome : Prop :=
  ∀ (s : State) (f : FReq) (next left q dst pv : Nat) (pg : Seg), Awake s → Turn s f →
    let x := hdrOf s f.hdr
    (f.op = .scan next left q dst pv pg [] → 0 < left →
      (HdrAt s f.hdr → x.dir = [] →
        ∃ t, exec (.scanAtHome f.id) s = .next t ∧ t.mem = s.mem ∧
          findF t f.id = some { f with op := .scan next 0 q dst pv pg (scanWords x.fmt (noneIdx, 0)), begun := false }) ∧
      (∀ i a, OnePod s f false i a →
        let es := ((podAt s x.fmt a).ents.filter (fun e => next ≤ e.1)).take left
        es ≠ [] →
        ∃ t, exec (.scanAtHome f.id) s = .next t ∧ t.mem = s.mem ∧
          findF t f.id = some { f with op := .scan ((es.getLastD (0, 0)).1 + 1) (left - es.length) q dst pv pg (es.flatMap (scanWords x.fmt)), begun := false })) ∧
    (∀ w v, f.op = .scan next 0 q dst pv pg [v] → q < 4 → f.agent = .stream w → streamStopped s w = false →
      sameFiring s w f.slot f.fir = true → pushTurn s w f.id q = true →
      ∃ t, exec (.scanAtHome f.id) s = .next t ∧ findF t f.id = none ∧
        tget [] (getCtx t w.core w.ctx).queues q = tget [] (getCtx s w.core w.ctx).queues q ++ [v.setWidth 2048] ∧ t.mem = s.mem) ∧
    (∀ v, f.op = .scan next 0 8 dst pv pg [v] → dst / 65536 = pv → pg.dev = 0 →
      let g : Seg := { pa := pg.pa + dst % 65536, len := 8, off := 0 }
      PlainMemory g.pa → g.pa % 8 = 0 → stackOut s g.pa = false → wordReady s f g = true → partsLeft s f = false →
      ∃ t, exec (.scanAtHome f.id) s = .next t ∧ memRead t g.pa 8 = v.toNat ∧ ((dst + 8) % 64 ≠ 0 → findF t f.id = none)) ∧
    (f.op = .scan next 0 8 dst pv pg [] → partsLeft s f = false →
      ∃ t, exec (.scanAtHome f.id) s = .next t ∧ findF t f.id = none ∧ t.mem = s.mem)

/-- R65, R134, R259: a union runs in acts. The first checks its conditions: where they hold it has begun; where a source's format
is not the destination's, the destination holds an entry or is a source, or the operator is none, it sets OVF of its destination.
Then each act reads the next pod of one source, or takes up one coordinate: in a destination of one pod the entry of one source, or
the combined one of both, goes behind the others, and LEN counts it. At the end of both sources VER advances. A union whose writes
are over leaves, after its stamp where it has one: the sequence number with bit 63 set where it failed. -/
def Sys2Proof.Claims.UnionsAtHome : Prop :=
  ∀ (s : State) (f : FReq) (a b st : Seg) (va vb op stva seq : Nat) (zp : Bool) (next : Nat), Awake s → Turn s f →
    f.op = .union a b va vb op zp st next stva seq → partsLeft s f = false →
    let x := hdrOf s f.hdr
    let o := if op = 8 then x.op else op
    let fits := (hdrOf s a.pa).fmt = x.fmt ∧ (hdrOf s b.pa).fmt = x.fmt ∧ x.len = 0 ∧ a.pa ≠ f.hdr ∧ b.pa ≠ f.hdr ∧ o ≠ 7
    let fails := ∃ t, exec (.funionAtHome f.id) s = .next t ∧ findF t f.id = none ∧
      memRead t f.hdr 64 = encodeHdr { x with ovf := true } % 2 ^ 512
    (f.outcome = none → f.checked = false → a.dev = 0 → b.dev = 0 → HdrAt s f.hdr → HdrAt s a.pa → HdrAt s b.pa →
      (fits → ∃ t, exec (.funionAtHome f.id) s = .next t ∧ findF t f.id = some { f with begun := true, checked := true } ∧ t.mem = s.mem) ∧
      (¬ fits → stva = 0 → fails)) ∧
    (f.outcome = none → f.checked = true → f.bufA = none →
      (a.dev = 0 → HdrAt s f.hdr → HdrAt s a.pa → (hdrOf s a.pa).fmt = x.fmt → (hdrOf s a.pa).dir = [] →
        ∃ t, exec (.funionAtHome f.id) s = .next t ∧ findF t f.id = some { f with bufA := some [] } ∧ t.mem = s.mem) ∧
      (a.dev = 0 → HdrAt s f.hdr → HdrAt s a.pa → (hdrOf s a.pa).fmt ≠ x.fmt → stva = 0 → fails) ∧
      (∀ es t, (unionRead (fibHome s f.hdr) f.hdr a va next).exec s = .ok (some es, t) →
        exec (.funionAtHome f.id) s = .next (counted s (putF t { f with bufA := some es }) f))) ∧
    (∀ as, f.outcome = none → f.checked = true → f.bufA = some as → f.bufB = none →
      (b.dev = 0 → HdrAt s f.hdr → HdrAt s b.pa → (hdrOf s b.pa).fmt = x.fmt → (hdrOf s b.pa).dir = [] →
        ∃ t, exec (.funionAtHome f.id) s = .next t ∧ findF t f.id = some { f with bufB := some [] } ∧ t.mem = s.mem) ∧
      (∀ es t, (unionRead (fibHome s f.hdr) f.hdr b vb next).exec s = .ok (some es, t) →
        exec (.funionAtHome f.id) s = .next (counted s (putF t { f with bufB := some es }) f))) ∧
    (∀ as bs, f.outcome = none → f.checked = true → f.bufA = some as → f.bufB = some bs →
      (as = [] → bs = [] → stva = 0 → HdrAt s f.hdr →
        ∃ t, exec (.funionAtHome f.id) s = .next t ∧ findF t f.id = none ∧
          memRead t f.hdr 64 = encodeHdr { x with ver := bump x.ver 1 } % 2 ^ 512) ∧
      (∀ c, unionNext as bs = some c →
        (∀ t, (unionPut (fibHome s f.hdr) f.hdr op zp c as bs).exec s = .ok ((), t) →
          exec (.funionAtHome f.id) s = .next (counted s
            (putF t { f with op := .union a b va vb op zp st (c + 1) stva seq, bufA := restOf c as, bufB := restOf c bs }) f)) ∧
        (∀ i pa v, OnePod s f true i pa → x.len ≠ x.cap → (podAt s x.fmt pa).ents.length < podCap x.fmt →
          v = fibCanon x.fmt (match as.find? (fun e => e.1 == c), bs.find? (fun e => e.1 == c) with
            | some p, some q => combine o x.fmt p.2 q.2
            | some p, none => p.2
            | none, some q => q.2
            | none, none => 0) →
          ¬ (zp = true ∧ fibZero x.fmt v = true) → c < 2 ^ 32 →
          ∃ t, exec (.funionAtHome f.id) s = .next t ∧ memRead t f.hdr 64 = encodeHdr { x with len := x.len + 1 } % 2 ^ 512 ∧
            podAt t x.fmt pa = { podAt s x.fmt pa with ents := (podAt s x.fmt pa).ents ++ [(c, v % 2 ^ podWidth x.fmt)] }))) ∧
    (∀ failed, f.outcome = some failed → stva ≠ 0 → st.dev = 0 → PlainMemory st.pa → st.pa % 8 = 0 → st.len = 8 → wordReady s f st = true →
      ∃ t, exec (.funionAtHome f.id) s = .next t ∧ findF t f.id = none ∧
        memRead t st.pa 8 = (seq + (if failed then 2 ^ 63 else 0)) % 2 ^ 64)

/-- R59-R67, R251-R259: what a fibre operation does at its home. The model's choices here: what the unused bytes of a pod hold (log 30). -/
def Obligations.FibreHomes : Prop := MergesAtHome ∧ DeletesAtHome ∧ HeadersAtHome ∧ ProbesAtHome ∧ ScansAtHome ∧ UnionsAtHome

/-- R66-R68, R293: with its pool's count back above the watermark the oldest stalled merge applies as if it had just arrived;
after TIMEOUT its launch fails with code 0x11. A donation adds its run of pods to the free list and writes no pod; a reset
empties it. FAULTCTL applies the parked operation once more, or fails its launch with code 0x12. Only the driver's writes
count. -/
def Obligations.FibrePools : Prop :=
  ∀ (s : State) (pool : Nat) (v : W64), Awake s →
    let p := getPool s pool
    (∀ f, p.wmark ≤ p.freecnt → oldestStalled s pool = some f →
      exec (.stalledMergeResume pool) s = .next (fibApply s f)) ∧
    (∀ f t, oldestStalled s pool = some f → stalledSince f = some t → t + p.timeout * 1000 ≤ s.time → stillStalled s pool f = true → f.launch < 64 →
      (getLaunch s f.launch).failed = false →
      ∃ u, exec (.poolTimeout pool) s = .next u ∧ f ∉ u.freqs ∧ (getLaunch u f.launch).failed = true ∧
        (getLaunch u f.launch).err.code = 0x11 ∧ (getLaunch u f.launch).err.addr = BitVec.ofNat 64 f.va ∧ u.mem = s.mem) ∧
    (poolNamed pool = true → v.toNat / 2 ^ 32 ≠ 0 →
      ∃ t, exec (.donate pool v true) s = .next t ∧ (getPool t pool).freecnt = p.freecnt + v.toNat / 2 ^ 32 ∧
        (getPool t pool).runs = p.runs ++ [(v.toNat % 2 ^ 32, v.toNat / 2 ^ 32)] ∧
        (getPool t pool).freehead = (if p.freecnt = 0 then v.toNat % 2 ^ 32 else p.freehead) ∧ t.mem = s.mem) ∧
    (p.parked = false → (∀ f ∈ s.freqs, f.held = .no) →
      ∃ t, exec (.poolReset pool 1 true) s = .next t ∧ (getPool t pool).freecnt = 0 ∧ (getPool t pool).freehead = 0xFFFFFFFF ∧
        (getPool t pool).runs = [] ∧ t.mem = s.mem) ∧
    (p.parked = true → ∀ f, s.freqs.find? (fun f => parkedAt f && poolOfHdr s f.hdr == pool) = some f →
      (∃ u, getPool u pool = { p with parked := false } ∧ u.mem = s.mem ∧
        exec (.faultctlResume pool true) s = .next (fibApply (putF u { f with held := .no, begun := true }) { f with held := .no, begun := true })) ∧
      (f.launch < 64 → (getLaunch s f.launch).failed = false →
        ∃ t, exec (.faultctlAbandon pool true) s = .next t ∧ findF t f.id = none ∧ (getPool t pool).parked = false ∧
          (getLaunch t f.launch).failed = true ∧ (getLaunch t f.launch).err.code = 0x12)) ∧
    (∀ i ∈ [Instr.donate pool v false, .poolReset pool v false, .faultctlResume pool false, .faultctlAbandon pool false], exec i s = .next s)

/-! ### Channels, firings and rates (R24-R36, R117-R128, R383) -/

namespace Sys2Proof.Claims

/-- A commit that takes effect next (R118): the first posted on its channel, its writes performed, its slot free. -/
structure CommitNext (s : State) (c : Commit) (h : Chan) : Prop where
  found : findCommit s c.id = some c
  chan : getChan s c.core c.ch = some h
  first : (getCore s c.core).commits.find? (fun x => x.ch == c.ch) = some c
  written : commitClear s c h h.head = true
  room : occupancy h < chN h

/-- An instance outside any firing, on a core that runs (R28, R34). -/
structure AtRest (s : State) (n slot : Nat) (i : Inst) : Prop where
  found : getInst s n slot = some i
  rest : atRest s n i = true

/-- A launch whose firings may start on core n, with an address space and a handler (R25, R352). -/
structure Fires (s : State) (n e : Nat) (x : Nat) : Prop where
  runs : launchRuns s n e = true
  ctx : freeCtx s n e = some x
  valid : (tget {} s.dev.spaces (getLaunch s e).asid).v = true
  handler : (tget {} s.dev.spaces (getLaunch s e).asid).tvec ≠ 0

/-- What a firing starts with (R25): its instance in STATE 4 on the context, the context's firing, the CP stream at the entry
with WID and the firing number in g1 and g2. -/
structure Started (t : State) (n slot x : Nat) (i : Inst) (fir : Nat) : Prop where
  inst : ∃ j, getInst t n slot = some j ∧ j.state = 4 ∧ j.ctx = x ∧ j.wid = i.wid
  firing : ∃ g, (getCtx t n x).firing = some g ∧ g.launch = i.launch ∧ g.slot = slot ∧ g.fir = fir
  stream : (getStream t { core := n, ctx := x, ap := false }).run = .running ∧
    (getStream t { core := n, ctx := x, ap := false }).pc = i.entry ∧
    sget (getStream t { core := n, ctx := x, ap := false }) 1 = i.wid ∧
    sget (getStream t { core := n, ctx := x, ap := false }) 2 = BitVec.ofNat 64 fir ∧
    (getStream t { core := n, ctx := x, ap := false }).mode.sup = i.priv

def clamp (x lo hi : Int) : Int := max lo (min hi x)

end Sys2Proof.Claims

/-- R116-R118, R381: a commit advances HEAD by one and gives its slot the header with its kind, EOD and sequence number, and with
POISON where it was posted so or its firing has been marked since; a release
advances its consumer's TAIL by its slots. R122: a table token becomes the instance's codebook image. R34: with
end-of-stream at the head of every input an instance retires and passes it on; its retirement is counted once its engine
requests are done. -/
def Obligations.CommitsAndReleases : Prop :=
  ∀ (s : State), Awake s →
    (∀ c h, CommitNext s c h → c.seq = none → (c.kind = 0 ∨ c.kind = 1) → h.dfmt = h.pfmt → h.shadow = none → noteOf h h.head = none →
      ∃ t d, exec (.channelCommit c.id) s = .next t ∧ getChan t c.core c.ch = some d ∧ d.head = (h.head + 1) % 2 ^ 32 ∧
        d.reserved = h.reserved - 1 ∧ d.tails = h.tails ∧ d.eosp = (h.eosp || c.kind == 1) ∧
        hdrAt d h.head = header h.pfmt (c.eod.getD 0) c.kind h.head (c.kind == 0 && (c.poison ||
          (getCtx s c.core c.ctx).firing.any (fun g => g.poisoned && g.slot == c.slot && g.fir == c.fir && !g.replay))) ∧
        (getCore t c.core).commits = (getCore s c.core).commits.filter (fun x => x.id != c.id)) ∧
    (∀ r c, findRelease s r.id = some r → getChan s r.core r.ch = some c →
      (getCore s r.core).releases.find? (fun x => x.ch == r.ch && x.cons == r.cons) = some r → readsDone s r c = true →
      productionDone s r.agent.core r.slot r.fir = true →
      ∃ t d, exec (.channelRelease r.id) s = .next t ∧ getChan t r.core r.ch = some d ∧ tailOf d r.cons = (tailOf c r.cons + r.n) % 2 ^ 32 ∧
        (∀ k, k ≠ r.cons → tailOf d k = tailOf c k) ∧ d.head = c.head ∧ t.mem = s.mem) ∧
    (∀ n slot k i p c seq h, AtRest s n slot i → i.ports[k]? = some p → headOf s p = some (seq, h) → hdrKind h = 3 →
      getChan s p.core p.ch = some c → (ringOf c p.cons).fmt = c.pfmt →
      ∃ t j d, exec (.tableTokenTake n slot k) s = .next t ∧ getInst t n slot = some j ∧
        j.cbimg = BitVec.ofNat 256 (memRead s (payloadPa (ringOf c p.cons) seq) 32) ∧ getChan t p.core p.ch = some d ∧
        tailOf d p.cons = (tailOf c p.cons + 1) % 2 ^ 32 ∧ t.mem = s.mem) ∧
    (∀ n slot i, AtRest s n slot i → inputs i ≠ [] → (∀ p ∈ inputs i, ∃ seq h, headOf s p = some (seq, h) ∧ hdrKind h = 1) →
      ∃ t j, exec (.eosForward n slot) s = .next t ∧ getInst t n slot = some j ∧ j.state = 5 ∧ (∀ p ∈ j.ports, p.eos = true) ∧
        (∀ p ∈ outputs i, p.eos = false → ∃ c ∈ (getCore t p.core).commits, c.ch = p.ch ∧ c.kind = 1) ∧ t.mem = s.mem) ∧
    (∀ n slot i, getInst s n slot = some i → i.state = 5 → i.counted = false → i.launch < 64 → coreStopped s i.launch n = false →
      instBusy s n slot i.launch = false → i.kind ≠ .reserve →
      ∃ t, exec (.instanceRetire n slot) s = .next t ∧ getInst t n slot = some { i with counted := true } ∧
        (getLaunch t i.launch).live = (getLaunch s i.launch).live - 1)

/-- R24-R28: the scheduler adds each permitted instance's weight to its credit, starts the one with the greatest credit, ties
to the lowest slot, and takes the weights' sum from its credit. R30, R31: IENABLE wakes a dormant reserve instance. R383: a
poisoned token's firing is run again from its record, once none of its inputs is poisoned, up to three times a token; then the launch fails with code 0x15. -/
def Sys2Proof.Claims.Scheduling : Prop :=
  ∀ (s : State), Awake s →
    (∀ n e x, Fires s n e x → (getCore s n).insts.Pairwise (fun a b => a.1 < b.1) → permittedOf s n e ≠ [] →
      ∃ t k i, exec (.schedulingEvent n e) s = .next t ∧ (k, i) ∈ permittedOf s n e ∧ Started t n k x i i.firecnt ∧
        (∀ b ∈ permittedOf s n e, b.2.credit + instWeight s b.2 < i.credit + instWeight s i ∨
          (b.2.credit + instWeight s b.2 = i.credit + instWeight s i ∧ k ≤ b.1)) ∧
        (getInst t n k).map (·.credit) = some (i.credit + instWeight s i - ((permittedOf s n e).map (fun b => (instWeight s b.2 : Int))).sum)) ∧
    (∀ n slot v i, getInst s n slot = some i → v.getLsbD 0 = true → i.kind = .reserve → i.en = false → i.state = 1 →
      i.launch < 64 → savedOn s i.launch n = false →
      ∃ t, exec (.ienable n slot v) s = .next t ∧ getInst t n slot = some { i with en := true, state := 2 } ∧
        (getLaunch t i.launch).live = (getLaunch s i.launch).live + 1 ∧ t.mem = s.mem) ∧
    (∀ n k cons seq c i, poisonedHead s n k cons = some seq → getChan s n k = some c → getInst s n c.pslot = some i →
      (∀ x ∈ (getCore s n).commits, ¬ (x.ch = k ∧ x.seq = some seq)) →
      (i.replayable = true → tget 0 c.reinjected seq < 3 → ∀ r x, Fires s n i.launch x → i.state ≠ 4 →
        i.hist.find? (fun r => r.ended && (match r.spans[c.pport]? with | some y => decide (past seq y.1 < y.2) | none => false)) = some r →
        poisonedInput s i r = none →
        ∃ t d, exec (.poisonReinject n k cons) s = .next t ∧ Started t n c.pslot x i r.fir ∧
          getChan t n k = some d ∧ tget 0 d.reinjected seq = tget 0 c.reinjected seq + 1 ∧ t.dev.raswidx = (s.dev.raswidx + 1) % 2 ^ 64) ∧
      ((i.replayable = false ∨ 3 ≤ tget 0 c.reinjected seq) → (getLaunch s c.launch).failed = false →
        ∃ t, exec (.poisonReinject n k cons) s = .next t ∧ (getLaunch t c.launch).failed = true ∧ (getLaunch t c.launch).err.code = 0x15 ∧
          t.mem = s.mem))

/-- R24-R31, R208, R383: how a firing starts, runs again and ends. The model's choices here: FIRE.END leaves the whole context record
as reset has it (log 62). -/
def Obligations.Firings : Prop := Scheduling ∧ FiringEnds

/-- R125-R128: a sample takes the occupancy, integrates the error within IMAX unless the channel is empty or full, and sets
both weights within WMIN to WMAX; the driver's new parameters are taken whole or refused whole, with REJ. R35: a sink counts
and releases data slots, stores each at its place in its buffer, where it has one, or fails the launch with code 6 where that does
not translate, and at its expected end-of-stream count it is complete. The model's choices here: a stored LOG2T of 0 stands for 16
(log 24), and the address that a failed store of several pages records (log 84). -/
def Obligations.RatesAndSinks : Prop :=
  ∀ (s : State) (n k : Nat) (c : Chan), Awake s → getChan s n k = some c →
    (c.cycles ≤ s.cycle → allEos c = false → c.launch < 64 → coreStopped s c.launch n = false → c.wmin ≤ c.wmax →
      let e : Int := (c.sp : Int) - occupancy c
      let j := if 0 < occupancy c ∧ occupancy c < chN c then clamp (c.integ + e) (-(c.imax : Int)) c.imax else c.integ
      let u := ((c.kp : Int) * e + (c.ki : Int) * j) / 2 ^ c.gshift
      exec (.rateSample n k) s = .next (setChan s n k (some { c with
        lasto := occupancy c, integ := j, frozen := !decide (0 < occupancy c ∧ occupancy c < chN c)
        wp := (clamp (c.w0p + u) c.wmin c.wmax).toNat, wc := (clamp (c.w0c - u) c.wmin c.wmax).toNat, cycles := c.cycles + 2 ^ c.log2t, period := c.log2t }))) ∧
    (∀ word v, let d : Chan := if word = 0 then
          { c with kp := v.toNat / 2 ^ 48, ki := v.toNat / 2 ^ 32 % 2 ^ 16, gshift := v.toNat / 2 ^ 28 % 16
                   log2t := if v.toNat / 2 ^ 24 % 16 = 0 then 16 else v.toNat / 2 ^ 24 % 16, imax := v.toNat % 2 ^ 24 }
        else { c with sp := v.toNat / 2 ^ 32 % 2 ^ 13, w0p := v.toNat / 2 ^ 24 % 256, w0c := v.toNat / 2 ^ 16 % 256
                      wmin := v.toNat / 2 ^ 8 % 256, wmax := v.toNat % 256 }
      exec (.rateParamWrite n k word v false) s = .next s ∧
      (paramsOk s n k d = true → exec (.rateParamWrite n k word v true) s = .next (setChan s n k (some d))) ∧
      (paramsOk s n k d = false → exec (.rateParamWrite n k word v true) s = .next (setChan s n k (some { c with rej := true })))) ∧
    (∀ cons seq h x, sinkToken s n k cons = some (c, seq, h, x) → c.sinks.find? (fun y => y.1 == cons) = some (cons, x) →
      (hdrKind h = 0 → ((getLaunch s c.launch).image.sinks[x.1]?.map (·.buffer)).getD 0 = 0 →
        ∃ t d, exec (.sinkDataSlot n k cons) s = .next t ∧ getChan t n k = some d ∧ sinkAt d cons = some (x.1, x.2.1 + 1, x.2.2) ∧
          tailOf d cons = (tailOf c cons + 1) % 2 ^ 32 ∧ t.mem = s.mem) ∧
      (let buffer := ((getLaunch s c.launch).image.sinks[x.1]?.map (·.buffer)).getD 0
       ∀ gs u, hdrKind h = 0 → buffer ≠ 0 → sinkWaits s n buffer x.2.1 seq c = false →
        sinkPieces s n buffer x.2.1 c = some (.ok gs, u) → (∀ g ∈ gs, g.dev = 0 ∧ PlainMemory g.pa) →
        gs.Pairwise (fun a b => a.pa + a.len ≤ b.pa ∨ b.pa + b.len ≤ a.pa) → (∀ m ∈ s.dev.migrations, m.2.act = false) →
        ∃ t d, exec (.sinkDataSlot n k cons) s = .next t ∧ getChan t n k = some d ∧ sinkAt d cons = some (x.1, x.2.1 + 1, x.2.2) ∧
          tailOf d cons = (tailOf c cons + 1) % 2 ^ 32 ∧
          (∀ g ∈ gs, ∀ i, i < g.len → memByte t (g.pa + i) = memByte s (payloadPa (prodRing c) seq + g.off / 8 + i)) ∧
          (∀ a, (∀ g ∈ gs, a < g.pa ∨ g.pa + g.len ≤ a) → memByte t a = memByte s a)) ∧
      (∀ v u, let buffer := ((getLaunch s c.launch).image.sinks[x.1]?.map (·.buffer)).getD 0
        hdrKind h = 0 → buffer ≠ 0 → sinkWaits s n buffer x.2.1 seq c = false → sinkPieces s n buffer x.2.1 c = some (.error v, u) →
        c.launch < 64 → (getLaunch s c.launch).failed = false →
        ∃ t, exec (.sinkDataSlot n k cons) s = .next t ∧ (getLaunch t c.launch).failed = true ∧ (getLaunch t c.launch).err.code = 6 ∧
          (getLaunch t c.launch).err.addr = BitVec.ofNat 64 v ∧ t.mem = s.mem) ∧
      (hdrKind h = 1 →
        ∃ t d, exec (.sinkEndOfStream n k cons) s = .next t ∧ getChan t n k = some d ∧ sinkAt d cons = some (x.1, x.2.1, x.2.2 + 1) ∧
          d.eosc.testBit cons = true ∧
          (getLaunch t c.launch).sinksLeft = (getLaunch s c.launch).sinksLeft -
            (if ((getLaunch s c.launch).image.sinks[x.1]?.map (·.expect)).getD 0 = x.2.2 + 1 then 1 else 0) ∧ t.mem = s.mem))

/-! ### Snapshots (R130-R132, R393-R395) -/

/-- R130, R131, R393, R394: a request by the driver of a running launch with a snapshot area starts the next snapshot: its
sources are to inject, no instance has recorded. A source injects after its firing; an instance records once its marker
stands at every input that is not at end-of-stream, or goes on unaligned while an input is full, until the last marker has
arrived; one that has retired records its state as it stands. The snapshot is complete once every instance and record is done,
all performed, on a launch that runs on every core. -/
def Sys2Proof.Claims.Snapshots : Prop :=
  ∀ (s : State), Awake s →
    (∀ e v, v.toNat / 2 ^ 16 = 0 →
      exec (.snapreq e v false) s = .next s ∧
      ((getLaunch s e).lstate = 2 → (getLaunch s e).snap.cur = 0 → (getLaunch s e).image.snaparea ≠ 0 →
        ∃ t, exec (.snapreq e v true) s = .next t ∧ (getLaunch t e).snap.cur = ((getLaunch s e).snap.last + 1) % 2 ^ 32 ∧
          (getLaunch t e).snap.session = (if (getSession s v.toNat).isSome then v.toNat else 0) ∧
          (∀ n k i, getInst s n k = some i → i.launch = e →
            ∃ j, getInst t n k = some j ∧ j.inject = (i.ports.all (·.output) && i.state != 5) ∧ j.recorded = false ∧ j.unaligned = false) ∧
          t.mem = s.mem)) ∧
    (∀ n slot i, AtRest s n slot i → (∀ p ∈ i.ports, p.output = true → p.eos = false) →
      (i.inject = true → (getLaunch s i.launch).snap.cur ≠ 0 → ∃ t j, exec (.markerInject n slot) s = .next t ∧ getInst t n slot = some j ∧ j.inject = false ∧ j.recorded = true ∧
        (∀ p ∈ outputs i, ∃ c ∈ (getCore t p.core).commits, c.ch = p.ch ∧ c.kind = 2 ∧ c.marker = (getLaunch s i.launch).snap.cur) ∧ t.mem = s.mem) ∧
      ((getLaunch s i.launch).snap.cur ≠ 0 → i.recorded = false →
        ((∃ p ∈ inputs i, markerAt s p (getLaunch s i.launch).snap.cur = true) →
          (∀ p ∈ inputs i, markerAt s p (getLaunch s i.launch).snap.cur = true ∨ eosAt s p = true) →
          ∃ t j, exec (.snapshotAlign n slot) s = .next t ∧ getInst t n slot = some j ∧ j.recorded = true ∧ j.unaligned = i.unaligned ∧
            (∀ p ∈ outputs i, ∃ c ∈ (getCore t p.core).commits, c.ch = p.ch ∧ c.kind = 2 ∧ c.marker = (getLaunch s i.launch).snap.cur) ∧
            t.mem = s.mem) ∧
        ((∃ p ∈ inputs i, markerAt s p (getLaunch s i.launch).snap.cur = true) → inputFull s i = true →
          ∃ t j, exec (.snapshotUnalignedSwitch n slot) s = .next t ∧ getInst t n slot = some j ∧ j.recorded = true ∧ j.unaligned = true ∧
            j.ports.map (·.arrived) = i.ports.map (fun p => !p.output && markerAt s p (getLaunch s i.launch).snap.cur) ∧ t.mem = s.mem))) ∧
    (∀ n slot k i p, getInst s n slot = some i → i.ports[k]? = some p → i.unaligned = true → p.output = false → p.arrived = false →
      markerAt s p (getLaunch s i.launch).snap.cur = true →
      ∃ t j, exec (.unalignedMarkerArrive n slot k) s = .next t ∧ getInst t n slot = some j ∧ j.ports = i.ports.set k { p with arrived := true } ∧
        (j.unaligned = true ↔ ∃ m q, m ≠ k ∧ i.ports[m]? = some q ∧ q.output = false ∧ q.arrived = false) ∧ t.mem = s.mem) ∧
    (∀ n slot i, getInst s n slot = some i → i.state = 5 → (getLaunch s i.launch).snap.cur ≠ 0 → i.launch < 64 → i.recorded = false →
      coreStopped s i.launch n = false → clocksOff s = false →
      ∃ t j, exec (.snapshotAlign n slot) s = .next t ∧ getInst t n slot = some j ∧ j.recorded = true ∧ t.mem = s.mem ∧
        ∀ k, (getCore t k).commits = (getCore s k).commits) ∧
    (∀ e, (getLaunch s e).snap.cur ≠ 0 → (getLaunch s e).snap.broken = false → (getLaunch s e).lstate = 2 → (getLaunch s e).heldCores = [] →
      clocksOff s = false → snapOwed s e (getLaunch s e).snap.session = false →
      (∀ r ∈ s.reqs, r.agent = .launchProc (homeDie (getLaunch s e)) → r.todo = []) →
      (∀ x ∈ s.cores, (∀ y ∈ x.2.insts, ∀ i, y.2 = some i → i.launch = e → snapDone i = true) ∧ (∀ r ∈ x.2.records, r.1 ≠ e) ∧
        (∀ y ∈ x.2.copies, copyLive y.2 = true → ∀ z, y.2.snap = some z → z.1 ≠ e)) →
      ∃ t, exec (.snapshotComplete e) s = .next t ∧ (getLaunch t e).snap.cur = 0 ∧ (getLaunch t e).snap.last = (getLaunch s e).snap.cur)

/-- R332, R395: an acknowledged SNAPDATA counts its bytes as drained and is done; an acknowledgement whose tag fails is dropped and
counted; a datagram that stays unacknowledged for 200 µs is sent again as it was; after 1 s without an acknowledgement the session
is lost for it, and what it had not acknowledged counts as drained, since SNAPAREA holds it. -/
def Sys2Proof.Claims.SnapshotEgress : Prop :=
  ∀ (s : State) (n : Nat) (x : Session), Awake s → getSession s n = some x →
    (∀ m, x.snapdata.find? (fun y => y.seq == m.seq) = some m → m.seq < 2 ^ 64 →
      (hqtOpen s = true → portUp s x.port = true → ∀ a k tag,
        (tag ≠ Config.kmac128 x.key (tagBytes 10 n m.seq a 0 k []) →
          exec (.snapdataAck n m.seq ⟨a, k, tag⟩) s = .next { s with mgmt := { s.mgmt with badTags := s.mgmt.badTags + 1 } }) ∧
        (tag = Config.kmac128 x.key (tagBytes 10 n m.seq a 0 k []) →
          (k ≠ 0 → exec (.snapdataAck n m.seq ⟨a, k, tag⟩) s = .next s) ∧
          (k = 0 → x.lost = false → (∀ y ∈ x.snapdata, y.seq < 2 ^ 64) → ∃ t y, exec (.snapdataAck n m.seq ⟨a, k, tag⟩) s = .next t ∧
            getSession t n = some y ∧ y.snapdata = x.snapdata.erase m ∧ y.lastAck = s.time ∧
            (getLaunch t m.launch).snap.drained = (getLaunch s m.launch).snap.drained + m.payload.length ∧ t.mem = s.mem))) ∧
      (m.sent + 200000 ≤ s.time → x.lost = false →
        ∃ t, exec (.snapdataResend n m.seq) s = .next t ∧
          t.mgmt.outbox = s.mgmt.outbox ++ [{ port := x.port, prio := x.prio, session := n, op := 10, seq := m.seq, addr := BitVec.ofNat 64 m.off
                                              status := 0, payload := m.payload
                                              tag := some (Config.kmac128 x.key (tagBytes 10 n m.seq (BitVec.ofNat 64 m.off) m.payload.length 0 m.payload)) }]) ∧
      (s.time < m.sent + 200000 → exec (.snapdataResend n m.seq) s = .next s)) ∧
    (x.lost = false → (∃ m ∈ x.snapdata, m.seq ≠ 2 ^ 64) → x.lastAck + 1000000000 ≤ s.time →
      ∃ t, exec (.snapdataSessionLost n) s = .next t ∧ getSession t n = some { x with lost := true, snapdata := [] } ∧ t.mem = s.mem ∧
        ∀ e, (getLaunch t e).snap.drained = (getLaunch s e).snap.drained +
          ((x.snapdata.filter (fun m => m.launch == e)).map (fun m => m.payload.length)).sum)

/-- R130, R131, R332, R393-R395: a snapshot from its request to its last acknowledged datagram. The model's choices here: the layout
of the records (log 21); an input at end-of-stream counts as aligned, an instance that has retired records its state without a
marker, and what a closed session had not acknowledged streams to none (log 60). -/
def Obligations.SnapshotLife : Prop := Snapshots ∧ SnapshotEgress

/-! ### Engines (R95-R113, R276-R282) -/

namespace Sys2Proof.Claims

/-- The task of a core's table under an order number. -/
def taskOf (s : State) (n id : Nat) : Option Task := (getCore s n).tasks.find? (fun t => t.id == id)

/-- The product's element (i, j) of an accumulator (R95, R100): C's element and the 32 products of row i with column j, added
exactly and rounded once. -/
def productAt (s : State) (n d k fmt apa : Nat) (i j : Nat) : W32 × Flags :=
  let w := fmtWidth fmt
  mmaElem (BitVec.ofNat 32 (accData s n d / 2 ^ (32 * (i * 32 + j))))
    ((List.range 32).map (fun t => mulVals
      (operand fmt (physRead s apa (128 * w) / 2 ^ (w * (i * 32 + t)) % 2 ^ w) 0x7F) (slotElem (slotData s n k) t j)))

end Sys2Proof.Claims

/-- R95-R101, R104, R109-R113: a task issues with its result taken then: MRD the 64 words it names, a full MMA the products'
sums. A task that completes writes its result: MCLR clears its accumulator and makes its entry that of zeros, MMA writes its
accumulator and raises its flags; it then leaves the table. A self-test answers 0, or 1 while a spare macro is left, or 2 and
fences the core. The model's choices here: a self-test's outcome comes with the event (log 19), and the counters' rule (log 28). -/
def Obligations.MatrixTasks : Prop :=
  ∀ (s : State) (n : Nat) (t : Task), Awake s → taskOf s n t.id = some t →
    (canIssueTask s n t = true →
      (∀ d rp, t.kind = .mrd d rp → rp < 16 →
        ∃ u v, exec (.tileTaskIssue n t.id) s = .next u ∧ taskOf u n t.id = some v ∧ v.issued = true ∧ v.kind = t.kind ∧
          v.result = (List.range 64).map (fun k => BitVec.ofNat 32 (accData s n d / 2 ^ (32 * (64 * rp + k)))) ∧ u.mem = s.mem) ∧
      (∀ d k fmt a, t.kind = .mma d k fmt a none → a.dev = 0 → a.len = 128 * fmtWidth fmt → s.dev.poison = [] →
        rewriteOf s n d k fmt a.pa (if isMx fmt then List.replicate 32 0x7F else []) = .full →
        ∃ u v, exec (.tileTaskIssue n t.id) s = .next u ∧ taskOf u n t.id = some v ∧ v.issued = true ∧ v.rewrite = .full ∧ v.result.length = 1024 ∧
          (∀ i j, i < 32 → j < 32 → v.result[i * 32 + j]? = some (productAt s n d k fmt a.pa i j).1) ∧ u.mem = s.mem)) ∧
    (canComplete s n t = true → recordHeld s n t = false → t.poisoned = false →
      (∀ d, t.kind = .mclr d →
        ∃ u, exec (.tileTaskComplete n t.id) s = .next u ∧ taskOf u n t.id = none ∧ getDir u (.acc n d) = .zero ∧
          u.mem = (memWrite s (coreBase n + 0x80000 + d * 4096) 4096 0).mem) ∧
      (∀ d k fmt a sc, t.kind = .mma d k fmt a sc → t.dest = .none →
        ∃ u, exec (.tileTaskComplete n t.id) s = .next u ∧ taskOf u n t.id = none ∧
          (getCtx u t.who.core t.who.ctx).fpflags = (getCtx s t.who.core t.who.ctx).fpflags ||| t.flags ∧
          u.mem = (memWrite s (coreBase n + 0x80000 + d * 4096) 4096 (ofWords t.result)).mem)) ∧
    (∀ k, (getCore s n).tasks.find? (fun t => t.issued && t.result.isEmpty && t.kind == .mtest k) = some t →
      (∃ u v, exec (.selfTest n k true) s = .next u ∧ taskOf u n t.id = some v ∧ v.result = [0] ∧ (getCore u n).spares = (getCore s n).spares) ∧
      (0 < (getCore s n).spares → ∃ u v, exec (.selfTest n k false) s = .next u ∧ taskOf u n t.id = some v ∧ v.result = [1] ∧
        (getCore u n).spares = (getCore s n).spares - 1) ∧
      ((getCore s n).spares = 0 → n < 1024 → ∃ u v, exec (.selfTest n k false) s = .next u ∧ taskOf u n t.id = some v ∧ v.result = [2] ∧
        (getDie u 0).fenceMap.getLsbD n = true))

/-- R276, R278, R281, R379: an engine's next sector is issued as one request with its source and destination pieces; a piece
that does not translate puts the copy in STATE 4 with the fault, and a residue mismatch fails it. A copy whose sectors are
performed writes its stamp, bit 63 set where it failed, and ends; CTRL resumes a faulted copy or lets it fail with cause 2. -/
def Obligations.CopyEngines : Prop :=
  ∀ (s : State) (eng k : Nat), Awake s →
    let c := getCopy s eng k
    (∀ turn last, pickCopy s eng = some (k, turn, last) → c.suspend = false → sectorWaits s eng k c c.next = none →
      let u := setEngTurn s eng turn last
      (c.residueBad = true → ∃ t, exec (.sectorIssue eng k) s = .next t ∧ (getCopy t eng k).failed = true ∧ (getCopy t eng k).next = c.next ∧
        t.reqs = s.reqs ∧ (c.launch < 64 → (getLaunch s c.launch).failed = false → (getLaunch t c.launch).err.code = 0x17)) ∧
      (c.residueBad = false →
        (∀ src dst v, xlateSector u eng k c c.next = (.ok (src, dst), v) →
          ∃ t r, exec (.sectorIssue eng k) s = .next t ∧ (getCopy t eng k).next = c.next + 1 ∧ (getCopy t eng k).state = 2 ∧
            r ∈ t.reqs ∧ r.kind = .sector eng k c.next ∧ r.src = src ∧ r.todo = dst ∧ r.agent = .copyEngine eng k) ∧
        (∀ x v, xlateSector u eng k c c.next = (.error x, v) →
          ∃ t, exec (.sectorIssue eng k) s = .next t ∧ (getCopy t eng k).state = 4 ∧ (getCopy t eng k).fault = x))) ∧
    (c.state = 1 ∨ c.state = 2 → copyEnding c = true → sectorsInFlight s eng k = false → copyOrdered s eng c = true → clocksOff s = false →
      c.suspend = false → copyWaits s eng k c c.stampva.toNat = false → c.snap = none → c.cancel = false → (getCore s eng).records = [] →
      (c.stampva = 0 → ∃ t, exec (.copyStamp eng k) s = .next t ∧ (getCopy t eng k).state = (if c.failed then 7 else 5) ∧
        (getCopy t eng k).cause = (if c.failed then c.cause else 0) ∧ t.mem = s.mem) ∧
      (∀ x u, c.stampva ≠ 0 → copyAddress s eng k c c.stampva.toNat .store = (.ok x, u) → checkTarget u .store x 8 false = none →
        x.dev = 0 → PlainMemory x.pa → x.pa % 8 = 0 →
        stampOpen u eng c { id := u.nextId, agent := .copyEngine eng k, kind := .store, todo := [{ pa := x.pa, len := 8, off := 0 }], drv := c.sup }
          { pa := x.pa, len := 8, off := 0 } = true →
        ∃ t, exec (.copyStamp eng k) s = .next t ∧ (getCopy t eng k).state = (if c.failed then 7 else 5) ∧
          memRead t x.pa 8 = c.seq.toNat % 2 ^ 63 + (if c.failed then 2 ^ 63 else 0))) ∧
    (c.state = 4 →
      (∃ t, exec (.copyCtrlResume eng k true) s = .next t ∧ getCopy t eng k = { c with state := 2, stampFault := false } ∧ t.mem = s.mem) ∧
      (c.stampFault = false → ∃ t, exec (.copyCtrlAbandon eng k true) s = .next t ∧
        getCopy t eng k = { c with state := 2, failed := true, cause := 2 } ∧ t.mem = s.mem) ∧
      (c.stampFault = true → ∃ t, exec (.copyCtrlAbandon eng k true) s = .next t ∧ (getCopy t eng k).state = 7 ∧ (getCopy t eng k).cause = 2 ∧ t.mem = s.mem)) ∧
    (∀ i ∈ [Instr.copyCtrlResume eng k false, .copyCtrlAbandon eng k false], exec i s = .next s)

/-! ### Queues and launches (R19, R33, R36, R38, R335-R360) -/

namespace Sys2Proof.Claims

/-- The state in which a taken packet is acted on (R338): from `t`, in which its reads are counted, RDIDX one higher at `x` and
its queue the last served of its priority. -/
def takenFrom (t : State) (die q i : Nat) (x : Xlated) : State :=
  modDie (lpPut t die x ((i + 1) % 2 ^ 64)) die (fun d => { d with served := tset 0 d.served (getQueue t q).prio (q + 1) })

/-- A packet that die's launch processor takes next (R338, R343): the queue stands at it, next in the serving order, nothing
that taking it accesses has to wait, and RDIDX is at `x`. -/
structure Takes (s t : State) (die q i : Nat) (ws : List Nat) (x : Xlated) : Prop where
  small : die < 4
  turn : nextQueue s die = some q
  can : takeable s die q = true
  head : queueHead s die q = (some (i, ws), t)
  opened : packetOpen s die q i ws = true
  index : lpXlate t die (getQueue s q).asid ((getQueue s q).ctlb + 8) .atomic 8 = (.ok x, t)
  plain : PlainMemory x.pa ∧ x.dev = 0 ∧ x.pa % 8 = 0
  still : redirectHeld s.dev x.pa 8 = false

end Sys2Proof.Claims

/-- R335-R343: a packet is taken with RDIDX advanced. One that cannot be acted on stops its queue with ERR; a LAUNCH enters
the log; a COPY takes a slot of the die's engine; a WAIT-STAMP that is met lets the queue go on, one that failed stops it; a
SIGNAL stores its value as a release. The model's choices here: the order of the errors (log 33) and when a wait is looked at (log 35). -/
def Obligations.QueuePackets : Prop :=
  ∀ (s p : State) (die q i : Nat) (ws : List Nat) (x : Xlated), Awake s → Takes s p die q i ws x →
    let u := takenFrom p die q i x
    let e := getQueue s q
    let k := packetKind ws
    memRead u x.pa 8 = (i + 1) % 2 ^ 64 ∧
    (∀ n w, packetErr u die e.asid ws = (n, w) →
      (n ≠ 0 →
        (∀ row ∈ [(1, Instr.launchPacket die q), (2, .copyPacket die q), (3, .waitStampPacket die q), (4, .signalPacket die q)], k = row.1 →
          exec row.2 s = .next (queueStop w die q i n)) ∧
        (k ∉ [1, 2, 3, 4] → exec (.unallocatedKindPacket die q) s = .next (queueStop w die q i n))) ∧
      (k ∉ [1, 2, 3, 4] → n = 1) ∧
      (n = 0 →
        (k = 1 → ∃ t l, exec (.launchPacket die q) s = .next t ∧ getLaunch t (s.dev.logWr % 64) = l ∧ l.lstate = 1 ∧ l.packet = ws.map (BitVec.ofNat 64) ∧
          l.asid = e.asid ∧ l.drv = e.drv ∧ l.fgen = s.dev.fenceGen ∧ t.dev.logWr = (s.dev.logWr + 1) % 2 ^ 64 ∧ t.mem = w.mem) ∧
        (k = 2 → ∀ j bs v, freeCopySlot w (1024 + die) = some j → lpBytes w die e.asid (ws.getD 1 0) 128 = (some bs, v) →
          ∃ t c, exec (.copyPacket die q) s = .next t ∧ getCopy t (1024 + die) j = c ∧ c.state = 1 ∧ c.asid = e.asid ∧ c.sup = e.drv ∧
            c.gen = ((getCopy v (1024 + die) j).gen + 1) % 2 ^ 32 ∧
            c.desc = CopyDesc.ofWords ((List.range 16).map (fun m => BitVec.ofNat 64 (numOf ((bs.drop (8 * m)).take 8)))) ∧ t.mem = w.mem) ∧
        (k = 3 → ∀ r v, waitStamp w die e.asid ws = (r, v) →
          (r ≠ .failed → exec (.waitStampPacket die q) s = .next v) ∧
          (r = .failed → exec (.waitStampPacket die q) s = .next (queueStop v die q i 4))) ∧
        (k = 4 → (ws.getD 3 0).testBit 0 = false →
          exec (.signalPacket die q) s = .next (lpStore w die e.asid (ws.getD 1 0) (ws.getD 2 0) true))))

namespace Sys2Proof.Claims

/-- A launch whose stamp is due (R36, R360), at a translated place where nothing makes the write wait. -/
structure StampDue (s : State) (e : Nat) (x : Xlated) : Prop where
  ready : stampReady s e = true
  walker : lpWaits s (homeDie (getLaunch s e)) (getLaunch s e).asid (getLaunch s e).stampVa = false
  addr : lpXlate s (homeDie (getLaunch s e)) (getLaunch s e).asid (getLaunch s e).stampVa .store 8 = (.ok x, s)
  opened : lpOpen s (homeDie (getLaunch s e)) .store true [{ pa := x.pa, len := 8, off := 0 }] = true
  plain : PlainMemory x.pa ∧ x.dev = 0 ∧ x.pa % 8 = 0

/-- A waiting launch that the launch processor of die 0 may start now (R19, R39): not in IDLE, with a walk to spare and no
plane dead (R349, R388, R390). -/
structure MayStart (s : State) (e : Nat) : Prop where
  first : mayStart s e = true
  clocked : s.mgmt.power.cur ≠ 2
  planes : s.dev.quiesce = false ∨ s.dev.dead = 0
  walks : (s.dev.walks.filter (fun k => decide (k.cluster < 4))).length < 64

end Sys2Proof.Claims

/-- R19, R33, R36, R38, R327, R360: a waiting launch starts, or fails with its record; at its end it goes on to its stamp, its
image's class kept by the majority of its windows; the stamp is the packet's value, bit 63 set for a failed launch, and all it
held is free. A window is compute-bound where it moved no bytes or I bytes stay below its cycles, under the threshold that stood
at its start; the watchdog reports. The model's choices here: a failed launch ends by the steps of a killed one (log 47), and the
watchdog counts a waiting context of a held core beside the core (log 83). -/
def Obligations.LaunchLife : Prop :=
  ∀ (s : State) (e : Nat), Awake s →
    let l := getLaunch s e
    (MayStart s e →
      (∀ p u, checkLaunch s e = (.inr p, u) → redirectHeld s.dev p.macrec macroBytes = false → ∃ t m, exec (.launchStart e) s = .next t ∧ getLaunch t e = m ∧ m.lstate = 2 ∧ m.image = p.img ∧
        m.slots = p.slots ∧ m.live = liveCount p ∧ m.sinksLeft = sinkCount p ∧ m.watch = some (watchTime u + p.img.watchdog * 1000000) ∧
        ((p.seats.map (fun x => (x.1.core, x.2))).Nodup → ∀ x ∈ p.seats, getInst t x.1.core x.2 = some (newInst e p x))) ∧
      (∀ r u, checkLaunch s e = (.inl r, u) → (getLaunch u e).failed = false →
        ∃ t, exec (.launchStart e) s = .next t ∧ (getLaunch t e).lstate = 6 ∧ (getLaunch t e).failed = true ∧ (getLaunch t e).err = r)) ∧
    (launchDone l = true →
      ∃ t, exec (.launchCompletion e) s = .next t ∧ (getLaunch t e).lstate = 6 ∧ t.mem = s.mem ∧
        (∀ d, d < 4 → tget 0 (getDie t d).classes (imageKey l.asid (l.packet.getD 1 0).toNat) = (if l.mwin ≤ l.cwin then 2 else 1))) ∧
    (l.failed = true → 2 ≤ l.lstate → l.lstate ≤ 5 →
      ∃ t, exec (.launchCompletion e) s = .next t ∧ (getLaunch t e).lstate = 6 ∧ (∀ n c f, (getCtx t n c).firing = some f → f.launch ≠ e)) ∧
    (∀ x, StampDue s e x → ∀ row ∈ [(Instr.completionStamp e, false), (.killStamp e, true)], (l.failed && l.err.code == 0x16) = row.2 →
      ∃ t, exec row.1 s = .next t ∧ memRead t x.pa 8 = (l.packet.getD 3 0).toNat % 2 ^ 63 + (if l.failed then 2 ^ 63 else 0) ∧
        (getLaunch t e).lstate = 7 ∧ (∀ n k i, getInst t n k = some i → i.launch ≠ e)) ∧
    (l.lstate = 2 →
      let compute := tget 0 s.traffic e = 0 ∨ l.thresh * tget 0 s.traffic e < tget 0 s.matrixBusy e * 65536
      ∀ cycles bytes, (l.windowAt ≤ s.time → exec (.intensityWindow e cycles bytes) s = .next (setLaunch
        { s with matrixBusy := tset 0 s.matrixBusy e 0, traffic := tset 0 s.traffic e 0 } e
        { l with cwin := l.cwin + (if compute then 1 else 0), mwin := l.mwin + (if compute then 0 else 1)
                 windowAt := l.windowAt + 1000000, thresh := s.dev.intensity })) ∧
      (s.time < l.windowAt → exec (.intensityWindow e cycles bytes) s = .next s)) ∧
    (∀ d, l.watch = some d → (l.lstate = 2 ∨ l.lstate = 6) →
      (d ≤ watchTime s → ∃ t, exec (.watchdog e) s = .next t ∧ (getLaunch t e).watch = none ∧ t.mem = s.mem ∧
        t.dev.evtwidx = (s.dev.evtwidx + max 1 (((launchCtxs s e).filterMap (fun w => ctxWait s w.1 w.2)).length + l.heldCores.length)) % 2 ^ 64) ∧
      (watchTime s < d → exec (.watchdog e) s = .next s))

/-- R353-R360: the driver's controls of a launch. A pre-emption stops every core of it, and is complete once all have come to
rest; a resume lets it run again with its watchdog period from the start; one core can be held and let go alone, also while the
launch is pre-empted; a kill fails it with code 0x16 and empties its contexts. Another writer changes nothing. The model's
choices here: how a core that is held by itself goes on with its pre-empted launch (log 20). -/
def Obligations.LaunchControl : Prop :=
  ∀ (s : State) (e n : Nat), Awake s →
    let l := getLaunch s e
    (pairLaunches s e = [e] →
      (l.lstate = 2 → (∀ m ∈ l.cores, (getCore s m).psave ≠ 0) → l.heldCores = [] →
        ∃ t, exec (.lctlPreempt e true) s = .next t ∧ (getLaunch t e).lstate = 3 ∧ (∀ m ∈ l.cores, m ∈ (getLaunch t e).toSave) ∧
          (getLaunch t e).watch = none ∧ t.mem = s.mem) ∧
      (l.lstate = 4 ∨ l.lstate = 5 → areasRead s = true → ∃ t, exec (.lctlResume e true) s = .next t ∧ (getLaunch t e).lstate = 2 ∧ (getLaunch t e).heldCores = [] ∧
        (getLaunch t e).watch = some (watchTime s + l.image.watchdog * 1000000))) ∧
    (l.lstate = 3 → (∀ m ∈ l.toSave, coreAtRest s e m = true ∧ areaMoving s m = false) →
      ∃ t, exec (.preemptComplete e) s = .next t ∧ (getLaunch t e).lstate = 4 ∧ (getLaunch t e).toSave = []) ∧
    (1 ≤ l.lstate → l.lstate ≤ 5 → l.failed = false →
      ∃ t, exec (.lctlKill e true) s = .next t ∧ (getLaunch t e).lstate = 6 ∧ (getLaunch t e).failed = true ∧ (getLaunch t e).err.code = 0x16 ∧
        (∀ m c f, (getCtx t m c).firing = some f → f.launch ≠ e)) ∧
    (l.lstate = 2 → n ∈ l.cores →
      (n ∉ l.heldCores → (getCore s n).psave ≠ 0 →
        ∃ t, exec (.lcorePreempt e n true) s = .next t ∧ (getLaunch t e).heldCores = l.heldCores ++ [n] ∧ (getLaunch t e).lstate = 2 ∧ t.mem = s.mem) ∧
      (n ∈ l.heldCores →
        ∃ t, exec (.lcoreResume e n true) s = .next t ∧ (getLaunch t e).heldCores = l.heldCores.filter (· != n) ∧
          (getLaunch t e).watch = some (watchTime s + l.image.watchdog * 1000000))) ∧
    (3 ≤ l.lstate → l.lstate ≤ 5 → n ∈ l.heldCores →
      exec (.lcoreResume e n true) s = .next (setLaunch s e { l with heldCores := l.heldCores.filter (· != n) })) ∧
    (∀ i ∈ [Instr.lctlPreempt e false, .lctlResume e false, .lctlKill e false, .lcorePreempt e n false, .lcoreResume e n false], exec i s = .next s)

/-! ### Device control (R53-R58, R106, R347, R350, R361, R362, R378, R388-R390, R396) -/

namespace Sys2Proof.Claims

/-- What an invalidation reaches (R350): all, all of an address space, or the leaf that covers its address there. -/
def Invalidated (r : Tinv) (e : TlbEntry) : Prop :=
  r.scope = 2 ∨ (e.asid = r.asid ∧ (r.scope = 1 ∨ r.va / 2 ^ e.log2 * 2 ^ e.log2 = e.vbase))

/-- A cache `new` that keeps what an invalidation does not reach of `old`. -/
def KeepsLeaves (r : Tinv) (old new : List TlbEntry) : Prop := ∀ e, e ∈ new ↔ e ∈ old ∧ ¬ Invalidated r e

/-- The cells that are not HBM's. -/
def withoutHbm (m : List Host.Cell) : List Host.Cell := m.filter (fun c => decide (hbmEnd ≤ c.1))

def migrationOf (s : State) (m : Nat) : Migration := tget {} s.dev.migrations m

/-- A register of R396's range at an aligned address. -/
def RegAt (pa : Nat) (r : DevReg) : Prop := place pa = .dev r ∧ pa % 8 = 0

end Sys2Proof.Claims

/-- R53-R58, R388, R389, R396: the driver's writes of placement. A changed hash row or PINSIZE leaves HBM's contents
undefined: nothing of them is kept; the plane tables take a write only while QUIESCE is 1; a plane declared dead sets
QUIESCE, which is cleared, with each loss logged, only once no bucket names a dead plane. Another writer changes nothing. The
model's choices here: undefined contents are free values (log 23), and a write of the value that stands leaves HBM as it is
(log 71). -/
def Obligations.PlacementControl : Prop :=
  ∀ (s : State) (v : W64) (row off : Nat) (mask : BitVec 8), Awake s →
    (row < 13 → (forceRow row v).toNat = hashRow s.dev row → exec (.hashRowWrite row v true) s = .next s) ∧
    (row < 13 → (forceRow row v).toNat ≠ hashRow s.dev row →
      ∃ t, exec (.hashRowWrite row v true) s = .next t ∧ hashRow t.dev row = (forceRow row v).toNat ∧
        (∀ j, j ≠ row → hashRow t.dev j = hashRow s.dev j) ∧ t.mem = withoutHbm s.mem ∧ t.epoch = s.epoch + 1 ∧ t.dev.hbmDir = []) ∧
    (80 < v.toNat % 128 ∨ v.toNat % 128 = s.dev.pinsize → exec (.pinsizeWrite v true) s = .next s) ∧
    (v.toNat % 128 ≤ 80 → v.toNat % 128 ≠ s.dev.pinsize →
      ∃ t, exec (.pinsizeWrite v true) s = .next t ∧ t.dev.pinsize = v.toNat % 128 ∧ t.mem = withoutHbm s.mem ∧ t.epoch = s.epoch + 1) ∧
    (s.dev.quiesce = false → exec (.planeTableWrite off v true) s = .next s) ∧
    (s.dev.quiesce = true →
      (∀ k, k < 6 → ∃ t, exec (.planeTableWrite (8 * k) v true) s = .next t ∧
        tget (planeRowDefault k) t.dev.planeRows k = v &&& ~~~0x3F#64 ∧ t.dev.buckets = s.dev.buckets ∧ t.mem = s.mem) ∧
      (∀ j, j < 8 → ∃ t, exec (.planeTableWrite (0x40 + 8 * j) v true) s = .next t ∧
        (∀ i, i < 8 → planeOfBucket t.dev (8 * j + i) = v.toNat / 256 ^ i % 8) ∧ t.dev.planeRows = s.dev.planeRows ∧ t.mem = s.mem)) ∧
    (mask &&& ~~~s.dev.dead = 0 → exec (.planeDeadSet mask true) s = .next s) ∧
    (mask &&& ~~~s.dev.dead ≠ 0 →
      ∃ t, exec (.planeDeadSet mask true) s = .next t ∧ t.dev.dead = s.dev.dead ||| mask ∧ t.dev.quiesce = true ∧
        (∀ r ∈ s.reqs, ∀ g ∈ r.todo ++ (if r.dest = .none then [] else r.path), (∀ n, agentCore r.agent = some n → onCrossbar (clusterOf n) g = false) →
          (mask &&& ~~~s.dev.dead).getLsbD (planeOf s.dev g.pa) = true → r.id ∈ t.unacked) ∧
        t.reqs = s.reqs ∧ t.mem = s.mem) ∧
    ((∃ b, b < 64 ∧ s.dev.dead.getLsbD (planeOfBucket s.dev b) = true) → exec (.quiesceClear true) s = .next s) ∧
    (s.dev.quiesce = true → (∀ b, b < 64 → s.dev.dead.getLsbD (planeOfBucket s.dev b) = false) → s.dev.raswidx < 2 ^ 64 →
      ∃ t, exec (.quiesceClear true) s = .next t ∧ t.dev.quiesce = false ∧ t.dev.deadNew = 0 ∧ t.dev.dead = s.dev.dead ∧
        t.dev.raswidx = (s.dev.raswidx + ((List.range 8).filter (fun p => s.dev.deadNew.getLsbD p)).length) % 2 ^ 64 ∧
        (∀ r ∈ t.reqs, ∃ q ∈ s.reqs, r.id = q.id ∧ (r = q ∨ q.id ∈ s.unacked)) ∧ t.mem = s.mem ∧
        (∀ q ∈ s.reqs, q.id ∈ s.unacked → q.again = none →
          (∀ e, s.replay.find? (fun e => e.agent == q.agent && e.id == q.id) = some e → ∃ r ∈ t.reqs, r.id = q.id ∧ r.todo = [] ∧
            (q.dest ≠ .none → r.data = e.response)) ∧
          (s.replay.find? (fun e => e.agent == q.agent && e.id == q.id) = none → q.kind = .load → q.dest ≠ .none →
            ∃ r ∈ t.reqs, r.id = q.id ∧ r.todo = q.path)) ∧
        (∀ q ∈ s.reqs, q.id ∈ s.unacked → ∀ f, q.again = some f → f ∈ t.freqs ∧ q ∉ t.reqs)) ∧
    (∀ i ∈ [Instr.hashRowWrite row v false, .pinsizeWrite v false, .planeTableWrite off v false, .planeDeadSet mask false, .quiesceClear false],
      exec i s = .next s)

/-- R106, R347, R350, R378, R396: the driver's other writes: a doorbell keeps its value and interrupts the driver once; an
invalidation takes its leaves out of every cache as it is requested, and is complete, with TINVDONE one higher, once what they
translated has been performed; LCTL 2 makes a pre-empted launch resuming; an entry of the tile page table makes every tile of
its page GENERAL; a counter is cleared by a zero alone; a register of the device-control range takes a write of its writers alone. The model's choices here: the shapes of accesses (log 9) and what an invalidation waits for (log 32). -/
def Obligations.DeviceControl : Prop :=
  ∀ (s : State) (v : W64), Awake s →
    (∀ n, n < 1024 → ∃ t, exec (.doorbell n v true) s = .next t ∧ (getCore t n).doorbell = v ∧ t.dev.evtwidx = (s.dev.evtwidx + 1) % 2 ^ 64 ∧
      tget {} t.dev.events (s.dev.evtwidx % 512) = { w0 := BitVec.ofNat 64 (n * 256 + 1), w1 := BitVec.ofNat 64 s.time, w2 := 0, w3 := v } ∧
      t.mem = s.mem) ∧
    (∀ asid va, asid < 2 ^ 16 → va < 2 ^ 48 →
      ∀ row ∈ [(Instr.tinvVa asid va true, 0, asid, va), (.tinvAsid asid true, 1, asid, 0), (.tinvAll true, 2, 0, 0)],
        let r : Tinv := { scope := row.2.1, asid := row.2.2.1, va := row.2.2.2, upto := s.nextId }
        ∃ t, exec row.1 s = .next t ∧ t.dev.tinv = s.dev.tinv ++ [r] ∧
          (∀ k, KeepsLeaves r (getCluster s k).tlb (getCluster t k).tlb ∧ KeepsLeaves r (getCluster s k).fibTlb (getCluster t k).fibTlb ∧
            KeepsLeaves r (getStack s k).tlb (getStack t k).tlb ∧ KeepsLeaves r (getDie s k).lpTlb (getDie t k).lpTlb) ∧
          t.reqs = s.reqs ∧ t.mem = s.mem) ∧
    (∀ r rest, s.dev.tinv = r :: rest → tinvBusy s r = false →
      exec .invalidationComplete s = .next { s with dev := { s.dev with tinv := rest, tinvdone := (s.dev.tinvdone + 1) % 2 ^ 32 } }) ∧
    (∀ r rest, s.dev.tinv = r :: rest → tinvBusy s r = true → exec .invalidationComplete s = .next s) ∧
    (∀ m, m < 4096 → ∃ t, exec (.tilePageTableWrite m v true) s = .next t ∧
      tget {} t.dev.tilePages m = { v := v.getLsbD 63, esz := v.toNat / 2 ^ 40 % 4, ppn := v.toNat / 2 ^ 16 % 2 ^ 24 } ∧
      (∀ e, e ∈ t.dev.hbmDir ↔ e ∈ s.dev.hbmDir ∧ e.1 / 2 ^ 16 ≠ v.toNat / 2 ^ 16 % 2 ^ 24) ∧ t.mem = s.mem) ∧
    (∀ pa i, RegAt pa (.corrected i) →
      (v ≠ 0 → exec (.counterClear pa v) s = .next s) ∧
      (∃ t, exec (.counterClear pa 0) s = .next t ∧ tget 0 t.dev.corrected i = 0 ∧
        (∀ j, j ≠ i → tget 0 t.dev.corrected j = tget 0 s.dev.corrected j) ∧ t.mem = s.mem)) ∧
    (∀ pa, RegAt pa .intensity →
      exec (.registerWrite pa 8 v true) s = .next { s with dev := { s.dev with intensity := v.toNat % 2 ^ 32 } } ∧
      exec (.registerWrite pa 8 v false) s = .next s) ∧
    (∀ pa e, RegAt pa (.log e 0x48) → pairLaunches s e = [e] → (getLaunch s e).lstate = 4 →
      exec (.registerWrite pa 8 2 true) s = .next (setLaunch s e { getLaunch s e with lstate := 5 })) ∧
    (∀ pa a, RegAt pa (.space a 0) →
      ∃ t, exec (.registerWrite pa 8 v true) s = .next t ∧
        tget {} t.dev.spaces a = { tget {} s.dev.spaces a with root := v.toNat / 2 ^ 16 % 2 ^ 36, v := v.getLsbD 0 } ∧ t.mem = s.mem) ∧
    (∀ n asid va m, ∀ i ∈ [Instr.doorbell n v false, .tinvVa asid va false, .tinvAsid asid false, .tinvAll false, .tilePageTableWrite m v false],
      exec i s = .next s)

/-- R361, R362, R390: a migration whose record is free and whose pages are two pages of HBM that no other one uses starts at
sector 0; each sector is copied whole; its end is the driver's. A power request is taken while none is in progress: FULL from
stage 8 on, IDLE with no launch under way; the transition is done once the engines have finished their issued work, and the watchdog periods, which stood still
meanwhile, run on. -/
def Obligations.MigrationAndPower : Prop :=
  ∀ (s : State) (m : Nat), Awake s → m < 4 →
    let r := migrationOf s m
    let p := s.mgmt.power
    (r.act = false → r.mold ≠ r.mnew → r.mold * 65536 < hbmEnd → r.mnew * 65536 < hbmEnd → r.moldLate = false → r.mnewLate = false →
      (∀ e ∈ s.dev.migrations, e.1 ≠ m → e.2.act = true → e.2.old ∉ [r.mold, r.mnew] ∧ e.2.new ∉ [r.mold, r.mnew]) →
      ∃ t, exec (.migrationGo m true) s = .next t ∧ migrationOf t m = { r with ptr := 0, act := true, old := r.mold, new := r.mnew } ∧
        t.mem = s.mem) ∧
    (r.act = true ∨ r.mold = r.mnew → exec (.migrationGo m true) s = .next s) ∧
    (r.act = true → r.ptr < 16 → Memory.wf s.epoch s.mem = true →
      ∃ t, exec (.migrationSectorCopy m) s = .next t ∧ migrationOf t m = { r with ptr := r.ptr + 1 } ∧
        (∀ i, i < 4096 → Memory.get t.epoch t.mem (r.new * 65536 + r.ptr * 4096 + i) = Memory.get s.epoch s.mem (r.old * 65536 + r.ptr * 4096 + i)) ∧
        (∀ a, (a < r.new * 65536 + r.ptr * 4096 ∨ r.new * 65536 + r.ptr * 4096 + 4096 ≤ a) → Memory.get t.epoch t.mem a = Memory.get s.epoch s.mem a)) ∧
    (r.act = false ∨ 16 ≤ r.ptr → exec (.migrationSectorCopy m) s = .next s) ∧
    (∃ t, exec (.migrationClr m true) s = .next t ∧ migrationOf t m = { r with act := false } ∧ t.mem = s.mem) ∧
    (p.busy = false →
      (8 ≤ s.mgmt.boot.stage → exec (.powerReqFull true) s = .next { s with mgmt := { s.mgmt with power := { p with req := 0, busy := true, began := s.time } } }) ∧
      (s.mgmt.boot.stage < 8 → exec (.powerReqFull true) s = .next s) ∧
      exec (.powerReqHalf true) s = .next { s with mgmt := { s.mgmt with power := { p with req := 1, busy := true, began := s.time } } } ∧
      ((∀ e ∈ s.dev.launches, e.2.lstate ∉ [1, 2, 3, 5, 6]) →
        exec (.powerReqIdle true) s = .next { s with mgmt := { s.mgmt with power := { p with req := 2, busy := true, began := s.time } } }) ∧
      ((∃ e ∈ s.dev.launches, e.2.lstate ∈ [1, 2, 3, 5, 6]) → exec (.powerReqIdle true) s = .next s) ∧
      exec .powerTransitionDone s = .next s) ∧
    (p.busy = true →
      (∀ i ∈ [Instr.powerReqFull true, .powerReqHalf true, .powerReqIdle true], exec i s = .next s) ∧
      ((∀ q ∈ s.reqs, (∀ a b c, q.kind ≠ .sector a b c) ∧ (∀ a b c, q.kind ≠ .regWrite a b c)) → (∀ c ∈ s.cores, ∀ t ∈ c.2.tasks, t.issued = false) →
        exec .powerTransitionDone s = .next { s with
          mgmt := { s.mgmt with power := { p with cur := p.req, busy := false } }
          dev := { s.dev with launches := watchesLater s.dev.launches (s.time - p.began) } })) ∧
    (∀ i ∈ [Instr.migrationGo m false, .migrationClr m false, .powerReqFull false, .powerReqHalf false, .powerReqIdle false], exec i s = .next s)

/-! ### Start, links, errors, heat (R71, R145, R363-R373, R378-R392) -/

namespace Sys2Proof.Claims

/-- The flash of an attempt whose predecessors have ended with a record of their own (R372). -/
def Recorded (f : Flash) : Prop := f.counter ≤ (f.attempts.getLast?.map (·.counter)).getD 0

/-- A machine that has just been reset, powered and not tripped. -/
def AtReset (s : State) : Prop := s.mgmt.boot = {} ∧ s.mgmt.power.tripped = false

/-- The first-stage image's checks of R365 and R366 in their order: the cause each ends at. -/
def imageCauses (f : Flash) (env : StartEnv) : List (Prop × Nat) :=
  [(env.imageReads = true, 4), (Config.sha3_256 f.contents.key = Config.horpolKeyHash, 2),
   (Config.mldsaVerify f.contents.key (digestBytes (headBytes f.contents ++ codeBytes f.contents)) f.contents.sig = true, 1),
   (f.minsvn ≤ f.contents.svn.toNat, 3)]

/-- A failed start (R363, R372): its cause in BOOTSTAT and in the newest of at most eight records, the counter one higher. -/
def StartFails (s t : State) (cause : Nat) : Prop :=
  t.mgmt.boot.finished = true ∧ t.mgmt.boot.cause = cause ∧ t.mgmt.flash.counter = s.mgmt.flash.counter + 1 ∧
    t.mgmt.flash.attempts.length ≤ 8 ∧
    ∃ a, t.mgmt.flash.attempts.getLast? = some a ∧ a.cause = cause ∧ a.counter = s.mgmt.flash.counter + 1 ∧ a.stage = t.mgmt.boot.stage

/-- The firmware the device would start is good (R365, R366). -/
def GoodImage (f : Flash) (env : StartEnv) : Prop := ∀ row ∈ imageCauses f env, row.1

/-- Step 6 is under way (R369). -/
def Starting (s : State) : Prop := (s.mgmt.boot.stage = 6 ∨ s.mgmt.boot.stage = 7) ∧ s.mgmt.boot.finished = false

end Sys2Proof.Claims

/-- R363-R368, R370, R372, R373: a start counts itself, and is cold after a power loss alone; three starts in a row that did not
get through make it Sprout mode, with one Ethernet port up. The first-stage image's first failed check, a flash that does not
read, an identity that cannot be rebuilt and a record that does not verify end it at their causes; else the device stands at
step 6, its identity rebuilt and measured, both ports up, every core fenced. Power loss keeps the flash and nothing else. The
model's choices here: no cipher is modelled (log 13), the bytes that are signed (log 18), and steps 1 to 5 are one act (log 36). -/
def Obligations.StartSequence : Prop :=
  ∀ (s : State) (env : StartEnv),
    let f := s.mgmt.flash
    (∃ t, exec .powerLoss s = .next t ∧ AtReset t ∧ t.mgmt.flash = f ∧ t.mem = [] ∧ t.epoch = s.epoch + 1 ∧ t.cores = [] ∧ t.reqs = [] ∧
      t.dev = {} ∧ t.mgmt.sessions = [] ∧ t.mgmt.unpowered = true ∧
      (¬ AtReset s → exec (.powerUp env) s = exec (.powerUp env) { t with mgmt := { t.mgmt with unpowered := false } })) ∧
    (AtReset s → ∃ t, exec (.powerUp env) s = .next t ∧ t.mgmt.boot.cold = s.mgmt.unpowered ∧ t.mgmt.unpowered = false) ∧
    (AtReset s → Recorded f → 3 ≤ f.counter → ∃ t, exec (.powerUp env) s = .next t ∧ t.mgmt.boot.sprout = true ∧ t.mgmt.boot.stage = 1 ∧ t.mgmt.flash = f ∧
      t.mgmt.identity = rebuildIdentity f ∧ t.mgmt.portsUp = 1) ∧
    (AtReset s → Recorded f → f.counter < 3 →
      (∀ (k : Nat) (row : Prop × Nat), (imageCauses f env)[k]? = some row → ¬ row.1 → (∀ (j : Nat) (x : Prop × Nat), j < k → (imageCauses f env)[j]? = some x → x.1) →
        ∃ t, exec (.powerUp env) s = .next t ∧ StartFails s t row.2 ∧ t.mgmt.boot.stage = 2) ∧
      (GoodImage f env → env.helperReads = false →
        ∃ t, exec (.powerUp env) s = .next t ∧ StartFails s t 4 ∧ t.mgmt.boot.stage = 3) ∧
      (GoodImage f env → env.helperReads = true → Config.pufResponse f.helper = none →
        ∃ t, exec (.powerUp env) s = .next t ∧ StartFails s t 5 ∧ t.mgmt.boot.stage = 3) ∧
      (∀ r, GoodImage f env → env.helperReads = true → Config.pufResponse f.helper = some r →
        (env.recordsRead = false →
          ∃ t, exec (.powerUp env) s = .next t ∧ StartFails s t 4 ∧ t.mgmt.boot.stage = 4) ∧
        (env.recordsRead = true → (∃ c ∈ f.contents.records, recordVerified f.contents c = false) →
          ∃ t, exec (.powerUp env) s = .next t ∧ StartFails s t 6 ∧ t.mgmt.boot.stage = 4) ∧
        (env.recordsRead = true → (∀ c ∈ f.contents.records, recordVerified f.contents c = true) →
          ∃ t, exec (.powerUp env) s = .next t ∧ t.mgmt.boot.stage = 6 ∧ t.mgmt.boot.finished = false ∧ t.mgmt.flash.counter = f.counter + 1 ∧
            t.mgmt.identity = rebuildIdentity f ∧ (rebuildIdentity f).isSome = true ∧ t.mgmt.portsUp = 3 ∧
            t.mgmt.measurement = f.contents.later.foldl measure (f.contents.records.foldl (fun m c => measure m (Config.recordBytes c.content))
              (measure (List.replicate 32 0) (headBytes f.contents ++ f.contents.key ++ f.contents.sig ++ codeBytes f.contents))) ∧
            (∀ d, d < 4 → (getDie t d).fenceMap = BitVec.allOnes 1024))))

/-- R9, R112, R366, R368-R372: the units of step 6: a cluster whose self-tests pass leaves reset and its cores may be placed, but
for those the records keep fenced; a failed one stays out; MTESTRUN counts the tests. A stack is restored from a record of like
temperature, or trained, or left out, as one is that the records put out of service. With a cluster and a pair of stacks up the start counter is cleared, and the last unit's turn brings stage 8. A
driver session's attestation report is signed by the device's identity. The model's choices here: outcomes of hardware come with the event
(log 19), how the report is carried (log 37), and MTESTRUN counts the spare macros, also of a cluster that fails (log 79). -/
def Obligations.UnitsStart : Prop :=
  ∀ (s : State), Awake s →
    (∀ k, Starting s → s.mgmt.boot.nextCluster = k → k < 16 →
      (clusterOut s k = false → ∃ t, exec (.clusterStart k true) s = .next t ∧ (getCluster t k).outOfReset = true ∧
        t.mgmt.boot.clusters = s.mgmt.boot.clusters ||| (1#16 <<< k) ∧ t.mgmt.boot.nextCluster = k + 1 ∧
        (∀ d c, d < 4 → c < 1024 → (getDie t d).fenceMap.getLsbD c =
          ((getDie s d).fenceMap.getLsbD c && !(c / 64 == k && !(recordMap s).getLsbD c))) ∧
        (s.mgmt.boot.stage = 6 → pairUp s.mgmt.boot = true →
          7 ≤ t.mgmt.boot.stage ∧ t.mgmt.flash.counter = 0 ∧
          ∃ a, t.mgmt.flash.attempts.getLast? = some a ∧ a.cause = 0 ∧ a.stage = 7) ∧
        (k = 15 → s.mgmt.boot.nextPair = 4 → pairUp s.mgmt.boot = true →
          t.mgmt.boot.stage = 8 ∧ t.mgmt.flash.minsvn = max s.mgmt.flash.minsvn s.mgmt.flash.contents.svn.toNat)) ∧
      (∃ t, exec (.clusterStart k false) s = .next t ∧ t.clusters = s.clusters ∧ t.dies = s.dies ∧
        t.mgmt.boot.clusters = s.mgmt.boot.clusters ∧ t.mgmt.boot.nextCluster = k + 1) ∧
      (clusterOut s k = false → ∀ pass, ∃ t, exec (.clusterStart k pass) s = .next t ∧ ∀ n, n / 64 = k →
        tget 0 (getCore t n).meCount 4 = (tget 0 (getCore s n).meCount 4 + (34 - macrosOutOf s n)) % 2 ^ 64)) ∧
    (∀ p lo hi, Starting s → s.mgmt.boot.nextPair = p → p < 4 →
      ∃ t, exec (.stackPairStart p lo hi) s = .next t ∧ t.mgmt.boot.nextPair = p + 1 ∧
        ∀ k y, (k, y) ∈ [(2 * p, lo), (2 * p + 1, hi)] →
          (getStack t k).inService = ((getStack s k).inService || (!stackOutOf s k && (restores s k y || y.trains))) ∧
          t.mgmt.boot.stacksUp.getLsbD k = (s.mgmt.boot.stacksUp.getLsbD k || (!stackOutOf s k && (restores s k y || y.trains))) ∧
          (stackOutOf s k = false → restores s k y = false → ∃ r, t.mgmt.flash.training.find? (fun e => e.1 == k) = some (k, r) ∧ r.temperature = y.temperature ∧
            r.digest = trainDigest r.bytes y.temperature ∧ r.failedStack = (if y.trains then none else some k))) ∧
    (∀ n nonce x seed, getSession s n = some x → x.driver = true → s.mgmt.identity = some seed → s.mgmt.boot.sprout = false → nonce.length = 32 →
      let h := nonce ++ s.mgmt.measurement ++ bytesOf 4 s.mgmt.flash.minsvn ++ bytesOf 4 s.mgmt.flash.contents.svn.toNat ++ bytesOf 8 (bootWord s.mgmt.boot)
      exec (.attestationReport n nonce) s = .next { s with mgmt := { s.mgmt with outbox := s.mgmt.outbox ++
        [sealed x n 0 0 0 0 (h ++ Config.mldsaPublic seed ++ Config.mldsaSign seed (digestBytes h))] } })

/-- R71, R145, R378, R381, R385-R387: a refresh command that is postponed, or that splits a copy burst, is counted; the scrubber's finding is written back once, or read again
after a write in between, and an uncorrectable unit is poisoned and logged; a flit in sequence is accepted with its request, one
out of sequence is dropped, failing or not, one in sequence that fails is replayed and counted, and after 16 replays in a row its plane is lost; an armed
injector counts the flits of its lane, and breaks, deletes or delays the Nth. The model's choices here: a remote device is what its flits show (log 14), and findings come with the event (log 19). -/
def Obligations.RasEvents : Prop :=
  ∀ (s : State), Awake s →
    (∀ k splits, k < 8 → ∃ t, exec (.refresh k splits) s = .next t ∧
      (getStack t k).refpostcnt = (if splits then (getStack s k).refpostcnt else min (2 ^ 64 - 1) ((getStack s k).refpostcnt + 1)) ∧
      (getStack t k).splitcnt = (if splits then min (2 ^ 64 - 1) ((getStack s k).splitcnt + 1) else (getStack s k).splitcnt) ∧ t.mem = s.mem) ∧
    (∀ pa, isMemory (place pa) = true → unitBase pa = pa →
      exec (.scrubRead pa .clean) s = .next s ∧
      ((∀ e ∈ s.dev.scrubs, e.1 ≠ pa) → ∃ t, exec (.scrubRead pa .corrected) s = .next t ∧ t.dev.scrubs = s.dev.scrubs ++ [(pa, false)] ∧
        (let i := if pa < hbmEnd then 1 else 0
         tget 0 t.dev.corrected i = min (2 ^ 64 - 1) (tget 0 s.dev.corrected i + 1)) ∧ t.mem = s.mem) ∧
      (pa ∉ s.dev.poison → ∃ t, exec (.scrubRead pa .uncorrectable) s = .next t ∧ t.dev.poison = s.dev.poison ++ [pa] ∧
        t.dev.raswidx = (s.dev.raswidx + 1) % 2 ^ 64 ∧ (tget {} t.dev.errors (s.dev.raswidx % 256)).w2 = BitVec.ofNat 64 pa ∧
        (tget {} t.dev.errors (s.dev.raswidx % 256)).w0.toNat % 256 = 3 ∧ t.mem = s.mem)) ∧
    (∀ pa, (s.dev.scrubs.find? (fun e => e.1 == pa) = some (pa, false) →
        exec (.scrubWriteback pa) s = .next { s with dev := { s.dev with scrubs := s.dev.scrubs.filter (fun e => e.1 != pa) } }) ∧
      (s.dev.scrubs.find? (fun e => e.1 == pa) = some (pa, true) → ∃ t, exec (.scrubWriteback pa) s = .next t ∧
        t.dev.scrubs.find? (fun e => e.1 == pa) = some (pa, false) ∧
        tget 0 t.dev.corrected 4 = min (2 ^ 64 - 1) (tget 0 s.dev.corrected 4 + 1) ∧ t.mem = s.mem)) ∧
    (∀ f : Flit, f.group < 40 → f.lane < 6 → f.dev < 512 → s.dev.dead.getLsbD (f.group % 8) = false →
      (tget {} s.dev.injectors f.group).arm = false → remoteWaits s f.dev f.request = false →
      let k := tget {} s.dev.links f.group
      k.heldUntil ≤ s.cycle →
      (f.seq ≠ k.expected → ∃ t, exec (.linkFlit f) s = .next t ∧ t.dev.links = s.dev.links ∧ t.reqs = s.reqs ∧ t.mem = s.mem) ∧
      (f.crcOk = true → f.seq = k.expected → ∃ t, exec (.linkFlit f) s = .next t ∧ tget {} t.dev.links f.group = { k with replays := 0, expected := k.expected + 1 } ∧
        (f.group < 8 → f.dev ∈ t.dev.reachable) ∧ (f.request = .none → t.reqs = s.reqs) ∧
        (∀ pa n tag, f.request = .load pa n tag → f.group < 8 → planeOf s.dev pa = f.group → place pa = .hbm → stackOut s pa = false →
          0 < n → pa % 64 + n ≤ 64 →
          ∃ r, t.reqs = s.reqs ++ [r] ∧ r.agent = .remote f.dev ∧ r.kind = .load ∧ r.todo = [{ pa := pa, len := n, off := 0 }] ∧
            r.dest = .link f.dev tag) ∧
        (∀ pa bs, f.request = .store pa bs → f.group < 8 → planeOf s.dev pa = f.group → place pa = .hbm → stackOut s pa = false →
          0 < bs.length → pa % 64 + bs.length ≤ 64 →
          ∃ r, t.reqs = s.reqs ++ [r] ∧ r.agent = .remote f.dev ∧ r.kind = .store ∧ r.todo = [{ pa := pa, len := bs.length, off := 0 }] ∧
            r.data = BitVec.ofNat 2048 (numOf bs)) ∧ t.mem = s.mem) ∧
      (f.crcOk = false → f.seq = k.expected → k.replays ≠ 16 → ∃ t, exec (.linkFlit f) s = .next t ∧ tget {} t.dev.links f.group = { k with replays := k.replays + 1 } ∧
        tget 0 t.dev.corrected 3 = min (2 ^ 64 - 1) (tget 0 s.dev.corrected 3 + 1) ∧ t.reqs = s.reqs ∧ t.mem = s.mem) ∧
      (f.crcOk = false → f.seq = k.expected → k.replays = 16 → ∃ t, exec (.linkFlit f) s = .next t ∧ t.dev.dead.getLsbD (f.group % 8) = true ∧ t.dev.quiesce = true ∧
        t.reqs = s.reqs ∧ t.mem = s.mem)) ∧
    (∀ f : Flit, f.group < 40 → f.lane < 6 → f.dev < 512 → s.dev.dead.getLsbD (f.group % 8) = false → remoteWaits s f.dev f.request = false →
      let k := tget {} s.dev.links f.group
      let x := tget {} s.dev.injectors f.group
      (s.cycle < k.heldUntil → exec (.linkFlit f) s = .next s) ∧
      (k.heldUntil ≤ s.cycle → x.arm = true → x.lane = f.lane →
        (x.seen + 1 < x.n → f.seq ≠ k.expected → ∃ t, exec (.linkFlit f) s = .next t ∧
          tget {} t.dev.injectors f.group = { x with seen := x.seen + 1 } ∧ t.dev.links = s.dev.links ∧ t.reqs = s.reqs ∧ t.mem = s.mem) ∧
        (x.n ≤ x.seen + 1 → (x.mode = 1 ∨ x.mode = 2) → f.seq = k.expected → k.replays ≠ 16 → ∃ t, exec (.linkFlit f) s = .next t ∧
          (tget {} t.dev.injectors f.group).arm = false ∧ tget {} t.dev.links f.group = { k with replays := k.replays + 1 } ∧
          t.reqs = s.reqs ∧ t.mem = s.mem) ∧
        (x.n ≤ x.seen + 1 → x.mode = 3 → x.delay ≠ 0 → ∃ t, exec (.linkFlit f) s = .next t ∧
          (tget {} t.dev.injectors f.group).arm = false ∧ tget {} t.dev.links f.group = { k with heldUntil := s.cycle + x.delay } ∧
          t.reqs = s.reqs ∧ t.mem = s.mem)))

/-- R391, R392: a sample above TWARN sets THWARN and interrupts the driver once; one above its sensor's limit trips: THERMSTAT
names it, every driver session is notified, and from then on no unit of a cluster, a stack or the fabric acts; the sensors and
the telemetry go on. Telemetry is refreshed word by word. The model's choices here: no second event while THWARN is set, and no
second trip (log 64). -/
def Obligations.HeatAndTelemetry : Prop :=
  ∀ (s : State),
    (∀ k x limit, Awake s → sensorLimit k = some limit → x < 2 ^ 16 →
      let p := s.mgmt.power
      (x ≤ limit → (x ≤ p.twarn ∨ p.thwarn = true) → exec (.sensorSample k x) s = .next s) ∧
      (x ≤ limit → p.twarn < x → p.thwarn = false →
        ∃ t, exec (.sensorSample k x) s = .next t ∧ t.mgmt.power = { p with thwarn := true } ∧ t.dev.evtwidx = (s.dev.evtwidx + 1) % 2 ^ 64 ∧
          (tget {} t.dev.events (s.dev.evtwidx % 512)).w0.toNat % 256 = 8 ∧ t.mem = s.mem) ∧
      (limit < x → ∃ t, exec (.sensorSample k x) s = .next t ∧ t.mgmt.power.tripped = true ∧
        t.mgmt.power.thermstat = BitVec.ofNat 64 (k + x * 65536) ∧
        (∀ n y, getSession s n = some y → y.driver = true → ∃ m ∈ t.mgmt.outbox, m.session = n ∧ m.op = 5 ∧
          m.payload = bytesOf 8 (0xFFFFFFFF00000000 ||| (k + x * 65536))) ∧ t.mem = s.mem)) ∧
    (∀ k x limit, s.mgmt.power.tripped = true → sensorLimit k = some limit → x < 2 ^ 16 → s.mgmt.power.twarn < x → s.mgmt.power.thwarn = false →
      ∃ t, exec (.sensorSample k x) s = .next t ∧ t.mgmt.power = { s.mgmt.power with thwarn := true } ∧
        t.dev.evtwidx = (s.dev.evtwidx + 1) % 2 ^ 64 ∧ t.mem = s.mem) ∧
    (∀ words : List Nat, ∃ t, exec (.telemetryRefresh words) s = .next t ∧
      (∀ i w, words[i]? = some w → (i < 5 ∨ (8 ≤ i ∧ i < 16) → tget 0 t.mgmt.power.telemetry i = BitVec.ofNat 64 (w % 2 ^ 16)) ∧
        (16 ≤ i → i < 21 → tget 0 t.mgmt.power.telemetry i = BitVec.ofNat 64 w)) ∧
      (∀ i, words.length ≤ i → tget 0 t.mgmt.power.telemetry i = tget 0 s.mgmt.power.telemetry i) ∧ t.dev = s.dev ∧ t.mem = s.mem) ∧
    (∀ (n e m : Nat) (v : W64) (w : StreamId), s.mgmt.power.tripped = true →
      ∀ i ∈ [Instr.schedulingEvent n e, .launchStart e, .launchCompletion e, .completionStamp e, .loadAtHome m, .storeAtHome m, .atomicAtHome m,
          .registerFill m, .asyncTrap w, .translationWalk m, .channelCommit m, .channelRelease m, .tileTaskIssue n m, .tileTaskComplete n m,
          .sectorIssue n m, .copyStamp n m, .mergeAtHome m, .scanAtHome m, .launchPacket e m, .watchdog e, .invalidationComplete,
          .migrationSectorCopy m, .refresh m true, .rateSample n m, .doorbell n v true, .powerTransitionDone],
        exec i s = .next s)

/-! ### The host transport (R330-R334, R373) -/

namespace Sys2Proof.Claims

/-- A datagram of a shape its OP admits, under the session's key (R331). -/
structure Genuine (s : State) (d : Datagram) (op : Nat) (x : Session) : Prop where
  opened : hqtOpen s = true
  port : portUp s d.port = true
  shape : datagramShape d op = true
  session : getSession s d.session.toNat = some x
  tag : Config.kmac128 x.key (datagramBytes d) = d.tag

/-- A genuine request whose turn it is, nothing else waiting (R332). -/
structure InTurn (s : State) (d : Datagram) (op : Nat) (x : Session) : Prop extends Genuine s d op x where
  turn : d.seq.toNat = x.seq
  alone : x.early = []

/-- The reply to a request of a session: through its port, at its priority, under its key (R330, R331). -/
def replied (x : Session) (d : Datagram) (status : W64) (payload : List Byte) : OutMsg :=
  { port := x.port, prio := x.prio, session := d.session.toNat, op := d.op.toNat, seq := d.seq.toNat, addr := d.addr, status := status
    payload := payload
    tag := some (Config.kmac128 x.key (tagBytes d.op.toNat d.session.toNat d.seq.toNat d.addr payload.length status.toNat payload)) }

/-- A request performed: one reply sent and kept under its SEQ, the next SEQ awaited (R332). -/
def Answers (o : Out) (s : State) (d : Datagram) (x : Session) (status : W64) (payload : List Byte) (p : State → Prop) : Prop :=
  ∃ t y, o = .next t ∧ t.mgmt.outbox = s.mgmt.outbox ++ [replied x d status payload] ∧ getSession t d.session.toNat = some y ∧
    y.seq = x.seq + 1 ∧ y.saved.getLast? = some (d.seq.toNat, status.toNat, payload) ∧ y.key = x.key ∧ p t

end Sys2Proof.Claims

/-- R331, R332: a datagram under no session, or whose tag differs, is dropped and counted; a repeated SEQ is answered again as
before and applied no second time; one that comes early waits. -/
def Sys2Proof.Claims.RequestOrder : Prop :=
  ∀ (s : State) (d : Datagram), ∀ row ∈ [(Instr.read d, 1), (.write d, 2), (.fadd d, 3), (.cas d, 4), (.close d, 6), (.watch d, 8), (.grant d, 9)],
    hqtOpen s = true → portUp s d.port = true → datagramShape d row.2 = true →
    (getSession s d.session.toNat = none →
      exec row.1 s = .next { s with mgmt := { s.mgmt with badTags := s.mgmt.badTags + 1 } }) ∧
    (∀ x, getSession s d.session.toNat = some x →
      (Config.kmac128 x.key (datagramBytes d) ≠ d.tag →
        exec row.1 s = .next { s with mgmt := { s.mgmt with badTags := s.mgmt.badTags + 1 } }) ∧
      (Config.kmac128 x.key (datagramBytes d) = d.tag →
        (∀ k st bs, d.seq.toNat < x.seq → x.saved.find? (fun r => r.1 == d.seq.toNat) = some (k, st, bs) →
          exec row.1 s = .next { s with mgmt := { s.mgmt with outbox := s.mgmt.outbox ++ [replied x d (BitVec.ofNat 64 st) bs] } }) ∧
        (x.seq < d.seq.toNat → (∀ e ∈ x.early, e.seq.toNat ≠ x.seq ∧ e.seq ≠ d.seq) →
          ∃ t, exec row.1 s = .next t ∧ getSession t d.session.toNat = some { x with early := x.early ++ [d] } ∧
            t.mgmt.outbox = s.mgmt.outbox ∧ t.mem = s.mem)))

/-- R331-R333, R373: what each request does in its turn, one reply for each: READ returns the bytes, WRITE stores them, FADD
and CAS act on an aligned word at its home and return its old value; a request that cannot be translated or whose target
refuses it is answered with its STATUS and nothing done. CLOSE ends the session and its unused grants; WATCH replaces the notice
mask; a driver's GRANT is numbered. In Sprout mode BOOTSTAT is read, and a zero word clears the start counter. The model's choices
here: the driver's physical addresses (log 38), the words of GRANT (log 39), the kinds of an unaligned FADD or CAS and of one of
another length and the refusals of WATCH and GRANT (log 74), STATUS as TRAPVAL (log 48), the start counter's address (log 34), and
a request as one act (log 67). -/
def Obligations.RequestsPerformed : Prop :=
  ∀ (s : State) (d : Datagram) (x : Session),
    let n := d.session.toNat
    let a := d.addr.toNat
    let len := d.payload.length
    (s.mgmt.boot.sprout = false → InTurn s d 1 x →
      (∀ v u, hqtReady s n x .load .load a d.len.toNat = (.status v, u) → Answers (exec (.read d) s) s d x v [] (fun t => t.mem = s.mem)) ∧
      (∀ g u, hqtReady s n x .load .load a d.len.toNat = (.yes [g], u) → g.dev = 0 →
        Answers (exec (.read d) s) s d x 0 (bytesOf g.len (physRead u g.pa g.len)) (fun t => t.mem = s.mem))) ∧
    (s.mgmt.boot.sprout = false → InTurn s d 2 x →
      (∀ v u, hqtReady s n x .store .store a len = (.status v, u) → Answers (exec (.write d) s) s d x v [] (fun t => t.mem = s.mem)) ∧
      (∀ g u, hqtReady s n x .store .store a len = (.yes [g], u) → g.dev = 0 → place g.pa = .hbm → g.off = 0 → g.len = len → g.pa / 65536 = (g.pa + g.len - 1) / 65536 →
        Answers (exec (.write d) s) s d x 0 [] (fun t =>
          (∀ i b, d.payload[i]? = some b → memByte t (g.pa + i) = b) ∧ (∀ c, ¬ stored s g c → memByte t c = memByte s c)))) ∧
    (s.mgmt.boot.sprout = false → ∀ row ∈ [(Instr.fadd d, 3, AmoOp.add, 8), (.cas d, 4, .cas, 16)], InTurn s d row.2.1 x →
      let e := numOf (d.payload.take 8)
      let b := if row.2.2.1 = .cas then numOf (d.payload.drop 8) else e
      (a % 8 ≠ 0 ∨ len ≠ row.2.2.2 → Answers (exec row.1 s) s d x (faultVal 6 a) [] (fun t => t.mem = s.mem)) ∧
      (∀ g u, a % 8 = 0 → len = row.2.2.2 → hqtReady s n x (.atomic row.2.2.1 (BitVec.ofNat 64 b) (BitVec.ofNat 64 e)) .atomic a 8 = (.yes [g], u) →
        g.dev = 0 → g.len = 8 → place g.pa = .hbm → g.pa % 8 = 0 →
        Answers (exec row.1 s) s d x 0 (bytesOf 8 (memRead s g.pa 8)) (fun t =>
          memRead t g.pa 8 = (if row.2.2.1 = .cas then (if memRead s g.pa 8 = e then b else memRead s g.pa 8) else (memRead s g.pa 8 + e) % 2 ^ 64)))) ∧
    (InTurn s d 6 x → ∃ t, exec (.close d) s = .next t ∧ getSession t n = none ∧ t.mgmt.outbox = s.mgmt.outbox ++ [replied x d 0 []] ∧
      (∀ k g, (k, some g) ∈ t.mgmt.grants → g.issuer ≠ n) ∧ t.mem = s.mem) ∧
    (InTurn s d 8 x →
      (len = 8 → numOf d.payload < 2 ^ 16 → (x.driver = false → numOf d.payload < 2) →
        Answers (exec (.watch d) s) s d x 0 [] (fun t => (∃ y, getSession t n = some y ∧ y.mask = numOf d.payload) ∧ t.mem = s.mem)) ∧
      (len = 8 → x.driver = false → 2 ≤ numOf d.payload →
        Answers (exec (.watch d) s) s d x 0xFFFF0003 [] (fun t => (∃ y, getSession t n = some y ∧ y.mask = x.mask) ∧ t.mem = s.mem))) ∧
    (InTurn s d 9 x →
      (x.driver = false → Answers (exec (.grant d) s) s d x 0xFFFF0003 [] (fun t => t.mgmt.grants = s.mgmt.grants ∧ t.mem = s.mem)) ∧
      (x.driver = true → len = 35 →
        Answers (exec (.grant d) s) s d x 0 (bytesOf 4 s.mgmt.nextGrant) (fun t =>
          tget none t.mgmt.grants s.mgmt.nextGrant = some { asid := numOf (d.payload.take 2), prio := numOf ((d.payload.drop 2).take 1) % 8
                                                            hash := numOf (d.payload.drop 3), issuer := n } ∧
          t.mgmt.nextGrant = s.mgmt.nextGrant + 1 ∧ t.mem = s.mem))) ∧
    (s.mgmt.boot.sprout = true →
      (InTurn s d 1 x → a = devBase + 0x1A00000 → d.len.toNat = 8 →
        Answers (exec (.read d) s) s d x 0 (bytesOf 8 (bootWord s.mgmt.boot)) (fun t => t.mem = s.mem)) ∧
      (InTurn s d 2 x → a = Config.counterAddr → len = 8 → numOf d.payload = 0 →
        Answers (exec (.write d) s) s d x 0 [] (fun t => t.mgmt.flash = { s.mgmt.flash with counter := 0 } ∧ t.mem = s.mem)) ∧
      (InTurn s d 2 x → (len = 0 ∨ (a = Config.counterAddr ∧ len ≠ 8) ∨ (a ≠ Config.counterAddr ∧ ∃ i, i < len ∧ Config.flashAddr (a + i) = false)) →
        Answers (exec (.write d) s) s d x (faultVal 5 a) [] (fun t => t.mgmt.flash = s.mgmt.flash ∧ t.mem = s.mem)) ∧
      (∀ row ∈ [(Instr.fadd d, 3), (.cas d, 4)], InTurn s d row.2 x →
        Answers (exec row.1 s) s d x (faultVal 5 a) [] (fun t => t.mem = s.mem)))

/-- R330, R333: a HELLO that is accepted opens the next session and is answered; one too many is answered FULL; one that is not
accepted is counted and gets no reply. A frame that is neither HQT's nor the management's is counted and dropped. -/
def Sys2Proof.Claims.SessionsOpen : Prop :=
  ∀ (s : State) (h : Hello) (tags seed : Nat), hqtOpen s = true → portUp s h.port = true → s.mgmt.identity = some seed →
    (helloAccepted s h = false → exec (.hello h) s = .next { s with mgmt := { s.mgmt with refusedHellos := s.mgmt.refusedHellos + 1 } }) ∧
    (helloAccepted s h = true → 256 ≤ s.mgmt.sessions.length →
      ∃ m, exec (.hello h) s = .next { s with mgmt := { s.mgmt with outbox := s.mgmt.outbox ++ [m] } } ∧ m.op = 7 ∧ m.status = 0xFFFF0002 ∧ m.payload = [] ∧ m.port = h.port) ∧
    (helloAccepted s h = true → s.mgmt.sessions.length < 256 →
      ∃ t x m, exec (.hello h) s = .next t ∧ getSession t s.mgmt.nextSession = some x ∧ x.driver = h.driver ∧ x.asid = h.asid.toNat ∧ x.port = h.port ∧
        x.prio = h.prio.toNat ∧ x.seq = 0 ∧ x.mask = 0 ∧
        x.key = Config.sha3_256 (bytesOf 32 (Config.mlkem h.ek s.mgmt.kems).1 ++ h.nonce ++ Config.deviceNonce s.mgmt.kems) ∧
        t.mgmt.nextSession = s.mgmt.nextSession + 1 ∧ t.mgmt.outbox = s.mgmt.outbox ++ [m] ∧ m.op = 7 ∧ m.status = 0 ∧
        m.payload.take 4 = bytesOf 4 s.mgmt.nextSession ∧
        (h.driver = false → tget none t.mgmt.grants h.grant.toNat = none) ∧ t.mem = s.mem) ∧
    exec (.otherFrame tags) s = .next { s with mgmt := { s.mgmt with dropped := s.mgmt.dropped + 1 } }

/-- R330-R333: sessions, and the order of their requests. The model's choices here: no cipher is modelled (log 13), the words of HELLO
(log 39), the first SEQ of a session is 0 (log 67), and a HELLO answered FULL uses up no grant (log 74). -/
def Obligations.SessionTraffic : Prop := RequestOrder ∧ SessionsOpen

/-! ### Encoding and decoding (R4, R170-R185) -/

namespace Sys2Proof.Claims

/-- Words in memory order decode to one instruction. -/
def Reads (ws : List W32) (i : Instr) : Prop := decode (ws.flatMap bytesOfWord) = .ok (i, [])

end Sys2Proof.Claims

/-- R170-R185: decoding what the encoder writes of a well-formed instruction gives it back, with the bytes after it. -/
def Obligations.RoundTrip : Prop :=
  ∀ (i : Instr) (rest : List Byte), i.wf = true → i.isEvent = false → decode (encodeBytes i ++ rest) = .ok (i, rest)

/-- R154, R177, R185: an encoding has one meaning: bytes that decode are the encoder's for a well-formed instruction of
the table's first 161 rows. -/
def Obligations.DecodeUnambiguous : Prop :=
  ∀ (bs rest : List Byte) (i : Instr), decode bs = .ok (i, rest) →
    i.wf = true ∧ i.isEvent = false ∧ bs = encodeBytes i ++ rest

/-- The spec's worked encodings, of every family that it gives one of (R187, R192, R194-R197, R200, R203, R208-R214, R226,
R227, R234, R245, R246, R248, R277, R284). -/
def Obligations.DecodeWords : Prop :=
  ∀ row ∈ [([0x028A4981#32], Instr.sub { rd := 17, rs1 := 18, rs2 := 19, w1 := false, w2 := false }),
      ([0x0CA80000#32], .sete { rd := 21, rs1 := 0, rs2 := 0, w1 := false, w2 := false }),
      ([0x10492FFF#32], .addi { rd := 9, rs1 := 9, w1 := false, imm12 := 0xFFF }),
      ([0x18820087#32], .srai { rd := 16, rs1 := 16, w1 := false, imm12 := 0x087 }),
      ([0x1EA12345#32], .lui { rd := 20, imm19 := 0x12345 }),
      ([0x14A28678#32], .ori { rd := 20, rs1 := 20, w1 := false, imm12 := 0x678 }),
      ([0x2049FFFA#32], .bc { cond := 1, w1 := false, rs1 := 19, off15 := 0x7FFA }),
      ([0x28000002#32], .ret { rd := 0, rs1 := 0, rs2 := 0, w1 := false, w2 := false }),
      ([0xF28A4000#32, 0xFFFD0002#32], .loopi { rs1 := 17, rs2 := 18, w1 := false, w2 := false, res := 0, simm16 := 0xFFFD, off16 := 2 }),
      ([0x2A000000#32], .fireEnd { rd := 0, rs1 := 0, rs2 := 0, w1 := false, w2 := false }),
      ([0x2A000001#32], .yield { rd := 0, rs1 := 0, rs2 := 0, w1 := false, w2 := false }),
      ([0x60800009#32], .mfsr { rd := 16, rs1 := 0, sel13 := 9 }),
      ([0x6200200A#32], .mtsr { rd := 0, rs1 := 1, sel13 := 0xA }),
      ([0x6600002A#32], .trap { rd := 0, rs1 := 0, w1 := false, imm12 := 0x2A }),
      ([0x64000001#32], .eret { rd := 0, rs1 := 0, rs2 := 0, w1 := false, w2 := false }),
      ([0x42916008#32], .amosnap { ord := 1, z := false, r := { rd := 18, rs1 := 11, rs2 := 0, w1 := false, w2 := false } }),
      ([0x48000000#32], .fenceCore { rd := 0, rs1 := 0, rs2 := 0, w1 := false, w2 := false }),
      ([0x4A896002#32], .mwaitAcq { rd := 17, rs1 := 11, rs2 := 0, w1 := false, w2 := false }),
      ([0x8A906000#32, 0#32], .vred { vd := 18, vs1 := 3, vs2 := 0, vs3 := 0, pm := 0, w1 := false, w2 := false, w3 := false, zm := false
                                      ty4 := 0, rnd3 := 0, imm13 := 0 }),
      ([0x8A38C880#32, 0x001AE004#32], .vscan { vd := 7, vs1 := 6, vs2 := 17, vs3 := 0, pm := 0, w1 := false, w2 := false, w3 := false
                                                zm := false, ty4 := 10, rnd3 := 7, imm13 := 4 }),
      ([0xB0402000#32, 0x2413E000#32], .vqmx { vd := 8, vs1 := 1, vs2 := 0, vs3 := 9, pm := 0, w1 := false, w2 := false, w3 := false
                                               zm := false, ty4 := 3, rnd3 := 7, imm13 := 0 }),
      ([0xD0A12000#32, 0#32], .cpy { rd := 20, rs1 := 9, rs2 := 0, rs3 := 0, w := false, x := 0 }),
      ([0xD0002000#32, 0x0C800000#32], .chpush { rd := 0, rs1 := 1, rs2 := 0, rs3 := 0, w := false, x := 0x0800000 })],
    Reads row.1 row.2

/-- R195: LUI writes SExt(imm19) × 4096 for every field and every value of it; the results run from -2^30 to 2^30 - 4096 in
steps of 4096; followed by ORI it builds any signed constant of 31 bits, as in the rule's pair. -/
def Obligations.UpperImmediate : Prop :=
  (∀ (s : State) (f : U19F) (vs : List VReg), OpsReady s { ops := [dstS f.rd] } vs → FreeS s f.rd →
    exec (.lui f) s = .next (completed (.lui f) { ops := [dstS f.rd] } (wrote s f.rd (BitVec.ofInt 64 (f.imm19.toInt * 4096))) .seq)) ∧
  (∀ (rd : BitVec 6) (imm : BitVec 19), Reads [0#1 ++ 0x0F#6 ++ rd ++ imm] (.lui { rd := rd, imm19 := imm })) ∧
  (∀ imm : BitVec 19, -2 ^ 30 ≤ imm.toInt * 4096 ∧ imm.toInt * 4096 ≤ 2 ^ 30 - 4096) ∧
  (∀ k : Int, -2 ^ 18 ≤ k → k < 2 ^ 18 → ∃ imm : BitVec 19, imm.toInt * 4096 = k * 4096) ∧
  (∀ c : Int, -2 ^ 30 ≤ c → c < 2 ^ 30 → ∃ (imm : BitVec 19) (low : BitVec 12),
    BitVec.ofInt 64 (imm.toInt * 4096) ||| low.setWidth 64 = BitVec.ofInt 64 c) ∧
  Reads [0x1EA12345#32] (.lui { rd := 20, imm19 := 0x12345 }) ∧ Reads [0x14A28678#32] (.ori { rd := 20, rs1 := 20, w1 := false, imm12 := 0x678 }) ∧
  BitVec.ofInt 64 ((0x12345#19).toInt * 4096) ||| (0x678#12).setWidth 64 = 0x12345678#64

/-- R212: TRAP raises TRAP_INSTRUCTION with imm12 in TRAPVAL[11:0] and 0 above it; its word has rd, rs1 and w1 zero, and
any other does not decode; TRAPPC holds the TRAP itself, and an ERET goes on at what TRAPPC then holds. -/
def Obligations.TrapInstruction : Prop :=
  (∀ (s : State) (f : I12F), exec (.trap f) s = .next (takeTrap s cTRAP (f.imm12.setWidth 64) (instrWords (.trap f)))) ∧
  (∀ (s : State) (f : I12F), (curStream s).mode.intrap = false → (∀ d p full, (curStream s).wait ≠ .mwait d p full) →
    ∃ t, exec (.trap f) s = .next t ∧ (curStream t).trap.pc = pcOf s &&& 0x0000FFFFFFFFFFFC#64 ∧ (curStream t).trap.cause = BitVec.ofNat 64 cTRAP ∧
      (curStream t).trap.val.toNat = f.imm12.toNat ∧ (curStream t).pc = (curStream s).trap.vec) ∧
  (∀ (s : State) (g : R3F), OpsReady s { priv := true } [] → ∃ t, exec (.eret g) s = .next t ∧ (curStream t).pc = (curStream s).trap.pc) ∧
  (∀ imm : BitVec 12, Reads [0#1 ++ 0x33#6 ++ 0#13 ++ imm] (.trap { rd := 0, rs1 := 0, w1 := false, imm12 := imm })) ∧
  (∀ (f : I12F) (z : W32), f.rd ≠ 0 ∨ f.rs1 ≠ 0 ∨ f.w1 = true →
    decodeWords (0#1 ++ 0x33#6 ++ f.rd ++ f.rs1 ++ BitVec.ofBool f.w1 ++ f.imm12) z = .error .badField) ∧
  Reads [0x6600002A#32] (.trap { rd := 0, rs1 := 0, w1 := false, imm12 := 0x2A })

/-! ### The step, the reset, memory (R4, R25, R43-R48, R170, R174, R399) -/

/-- R170, R174, R399: a step with nothing on its agenda is the issue of the stream whose turn it is: the words at its pc, read
in address order, little-endian, or fetched ahead before, are decoded and run, and are then gone from the stream's fetched
words; words that are no instruction trap ILLEGAL_INSTRUCTION with themselves in TRAPINST. An agenda's event is run as it
stands (logs 1, 2, 16, 17: the turns, the agenda, what is read ahead and the loads read early are the model's). -/
def Obligations.StepRunsDecoded : Prop :=
  ∀ (s u : State) (w : StreamId), s.agenda = [] → s.drain = false → nextStream { tickClock s with drain := true } = (some w, u) →
    let v := countTurn { u with cur := w } w
    let pc := (curStream v).pc
    asyncDue v w = false →
    (∀ w0 w1 x i, fetchInstr v = .ok (w0, w1, x) → decodeWords w0 w1 = .ok i →
      ∀ t, exec i x = .next t → step s = .next (readAhead (dropWords (useEarly x t w i) w pc.toNat (instrSize i)) w) ∧
        ((curStream v).early = [] → useEarly x t w i = t)) ∧
    (∀ w0 w1 x e, fetchInstr v = .ok (w0, w1, x) → decodeWords w0 w1 = .error e →
      step s = .next (dropWords (takeTrap x cILLEGAL 0 (w1 ++ w0)) w pc.toNat (if w0.getLsbD 31 then 8 else 4))) ∧
    (∀ y, (curStream v).fetched = [] → xlate v .fetch pc 4 false false = .ok y → (memByte v (y.pa + 3)).msb = false →
      ∃ x, fetchInstr v = .ok (memByte v (y.pa + 3) ++ memByte v (y.pa + 2) ++ memByte v (y.pa + 1) ++ memByte v y.pa, 0, x) ∧
        x.mem = v.mem ∧ (curStream x).pc = pc ∧ (curStream x).sreg = (curStream v).sreg) ∧
    (∀ e r, e.isEvent = true → step { s with agenda := e :: r } = exec e (tickClock { s with agenda := r }))

/-- R55, R58, R86, R97, R107, R156, R160, R350, R364, R378, R390, R392: the machine after reset, where the spec gives a value. What an
address that nothing has written reads as is the model's choice (log 5), and so are the registers that log 6 names. -/
def Obligations.ResetState : Prop :=
  let s := State.reset
  Memory.wf s.epoch s.mem = true ∧ s.reqs = [] ∧
  (∀ n c ap, (getStream s { core := n, ctx := c, ap := ap }).run = .idle ∧ (getStream s { core := n, ctx := c, ap := ap }).cwp = { win := 0, depth := 0, below := 1 } ∧
    sfullAt (getStream s { core := n, ctx := c, ap := ap }) 0 = true) ∧
  (∀ n c, (getCtx s n c).fpflags = 0 ∧ (getCtx s n c).firing = none) ∧
  (∀ n k, getInst s n k = none ∧ getChan s n k = none) ∧
  (∀ n d, d < 32 → getDir s (.acc n d) = { nf := true, cls := 0, side := 0 } ∧ getDir s (.slot n d) = { nf := false, cls := 1, side := 0 }) ∧
  (∀ n d t, n < 1024 → d < 32 → t < 32 → memByte s (coreBase n + 0xB0200 + d * 0x40 + t) = 0x7F ∧ memByte s (coreBase n + 0xB0220 + d * 0x40) = 1) ∧
  (∀ b, b < 64 → planeOfBucket s.dev b = b % 8) ∧ s.dev.pinsize = 0 ∧
  s.mgmt.power.cur = 1 ∧ s.mgmt.power.req = 1 ∧ s.mgmt.power.busy = false ∧ s.mgmt.power.thwarn = false ∧ s.mgmt.power.twarn = 0x640 ∧
  s.mgmt.boot.stage = 0 ∧ s.dev.raswidx = 0 ∧ s.dev.tinvdone = 0

/-- R4, R44, R45: what a store of `n` bytes leaves, where no page is migrating: the bytes of the number in little-endian order
in its place, every other byte as it was; read back, the number; and memory keeps its canonical form. -/
def Obligations.MemoryStores : Prop :=
  ∀ (s : State) (pa n x : Nat), (∀ e ∈ s.dev.migrations, e.2.act = false) →
    (∀ a, memByte (memWrite s pa n x) a = if pa ≤ a ∧ a < pa + n then BitVec.ofNat 8 (x / 256 ^ (a - pa)) else memByte s a) ∧
    memRead (memWrite s pa n x) pa n = x % 256 ^ n ∧
    (Memory.wf s.epoch s.mem = true → Memory.wf (memWrite s pa n x).epoch (memWrite s pa n x).mem = true)

/-- Memory's canonical form is kept by every step, whatever runs: addresses strictly rising, and no entry at what an unlisted
address reads as. R45, R137, R139: an instruction that issues, completing, waiting or trapping, changes no byte of memory,
since stores are performed at their homes later: all but FIRE.END, which leaves the spill records under way undefined (R158,
R208), and a write of SPHASH, which moves the words of the scratchpad (R51). -/
def Obligations.MemoryCanonical : Prop :=
  (∀ s t : State, Memory.wf s.epoch s.mem = true → step s = .next t → Memory.wf t.epoch t.mem = true) ∧
  (∀ (s t : State) (i : Instr), i.isEvent = false → (∀ f, i ≠ .fireEnd f) → (∀ f, i = .mtsr f → f.sel13.toNat ≠ 0x28) →
    exec i s = .next t → t.mem = s.mem ∧ t.epoch = s.epoch)

namespace Sys2Proof.Claims

/-- The members that only work on scalar registers, with the register each writes (R188-R196). -/
def registerOnly (sc : BitVec 2) (f : R3F) (g : I12F) (u : U19F) (l : LF) : List (Instr × BitVec 6) :=
  ((intRows sc f 0 0).map (fun r => (r.1, f.rd))) ++ ((immRows g 0).map (fun r => (r.1, g.rd))) ++
    [(.clz f, f.rd), (.popc f, f.rd), (.sltz f, f.rd), (.sel f, f.rd), (.lui u, u.rd), (.li l, l.rd), (.lih l, l.rd), (.addl l, l.rd)]

end Sys2Proof.Claims

/-- R160, R169, R188-R196: what the members of scalar registers leave as it was, whether they complete, wait or trap: all of
memory, the requests, every other context, every scalar register but rd, the vector registers, the predicates, the windows, and the registers of the context. A trap changes the trap registers, and
nothing else does. -/
def Obligations.RegisterFrame : Prop :=
  ∀ (s t : State) (sc : BitVec 2) (f : R3F) (g : I12F) (u : U19F) (l : LF), ∀ row ∈ registerOnly sc f g u l,
    exec row.1 s = .next t →
    let x := curStream s
    let y := curStream t
    t.mem = s.mem ∧ t.reqs = s.reqs ∧ t.freqs = s.freqs ∧ t.clusters = s.clusters ∧ t.cur = s.cur ∧
    (∀ a, memByte t a = memByte s a) ∧
    (∀ w, ¬ (w.core = s.cur.core ∧ w.ctx = s.cur.ctx) → getStream t w = getStream s w) ∧
    (∀ n c, ¬ (n = s.cur.core ∧ c = s.cur.ctx) → getCtx t n c = getCtx s n c) ∧
    (∀ p, p ≠ phys s row.2 → sget y p = sget x p) ∧
    y.vreg = x.vreg ∧ y.vfull = x.vfull ∧ y.preg = x.preg ∧ y.cwp = x.cwp ∧ y.link = x.link ∧ y.monitor = x.monitor ∧
    y.sscra = x.sscra ∧ y.sscrb = x.sscrb ∧ y.ttroot = x.ttroot ∧
    (curCtx t).cb = (curCtx s).cb ∧ (curCtx t).fpctl = (curCtx s).fpctl ∧ (curCtx t).fpflags = (curCtx s).fpflags ∧
    (curCtx t).lanes = (curCtx s).lanes ∧ (curCtx t).seed = (curCtx s).seed ∧ (curCtx t).winspill = (curCtx s).winspill ∧
    (y.trap = x.trap ∨ (x.mode.intrap = false ∧ y.mode = { sup := true, psup := x.mode.sup, intrap := true } ∧ y.pc = x.trap.vec))
end

