-- ==== Sys2Proof/Laws/Dispatch.lean ====
section
/-!
SUPPORT. Sys2Proof/Laws/Dispatch.lean: each arm of `exec`, so that no proof unfolds the whole of it.
-/

namespace Sys2Proof.Machine

@[simp] theorem exec_add {f} (s : State) : exec (.add f) s = execAdd f s := rfl
@[simp] theorem exec_sub {f} (s : State) : exec (.sub f) s = execSub f s := rfl
@[simp] theorem exec_and {f} (s : State) : exec (.and f) s = execAnd f s := rfl
@[simp] theorem exec_andn {f} (s : State) : exec (.andn f) s = execAndn f s := rfl
@[simp] theorem exec_or {f} (s : State) : exec (.or f) s = execOr f s := rfl
@[simp] theorem exec_xor {f} (s : State) : exec (.xor f) s = execXor f s := rfl
@[simp] theorem exec_shl {f} (s : State) : exec (.shl f) s = execShl f s := rfl
@[simp] theorem exec_shr {f} (s : State) : exec (.shr f) s = execShr f s := rfl
@[simp] theorem exec_sra {f} (s : State) : exec (.sra f) s = execSra f s := rfl
@[simp] theorem exec_clz {f} (s : State) : exec (.clz f) s = execClz f s := rfl
@[simp] theorem exec_popc {f} (s : State) : exec (.popc f) s = execPopc f s := rfl
@[simp] theorem exec_mul {f} (s : State) : exec (.mul f) s = execMul f s := rfl
@[simp] theorem exec_mulhS64 {f} (s : State) : exec (.mulhS64 f) s = execMulhS64 f s := rfl
@[simp] theorem exec_mulhZ64 {f} (s : State) : exec (.mulhZ64 f) s = execMulhZ64 f s := rfl
@[simp] theorem exec_divS64 {f} (s : State) : exec (.divS64 f) s = execDivS64 f s := rfl
@[simp] theorem exec_divZ64 {f} (s : State) : exec (.divZ64 f) s = execDivZ64 f s := rfl
@[simp] theorem exec_remS64 {f} (s : State) : exec (.remS64 f) s = execRemS64 f s := rfl
@[simp] theorem exec_remZ64 {f} (s : State) : exec (.remZ64 f) s = execRemZ64 f s := rfl
@[simp] theorem exec_minS64 {f} (s : State) : exec (.minS64 f) s = execMinS64 f s := rfl
@[simp] theorem exec_minZ64 {f} (s : State) : exec (.minZ64 f) s = execMinZ64 f s := rfl
@[simp] theorem exec_maxS64 {f} (s : State) : exec (.maxS64 f) s = execMaxS64 f s := rfl
@[simp] theorem exec_maxZ64 {f} (s : State) : exec (.maxZ64 f) s = execMaxZ64 f s := rfl
@[simp] theorem exec_sltS64 {f} (s : State) : exec (.sltS64 f) s = execSltS64 f s := rfl
@[simp] theorem exec_sltZ64 {f} (s : State) : exec (.sltZ64 f) s = execSltZ64 f s := rfl
@[simp] theorem exec_sltz {f} (s : State) : exec (.sltz f) s = execSltz f s := rfl
@[simp] theorem exec_sel {f} (s : State) : exec (.sel f) s = execSel f s := rfl
@[simp] theorem exec_lea {sc f} (s : State) : exec (.lea sc f) s = execLea sc f s := rfl
@[simp] theorem exec_sete {f} (s : State) : exec (.sete f) s = execSete f s := rfl
@[simp] theorem exec_setf {f} (s : State) : exec (.setf f) s = execSetf f s := rfl
@[simp] theorem exec_testfe {f} (s : State) : exec (.testfe f) s = execTestfe f s := rfl
@[simp] theorem exec_addi {f} (s : State) : exec (.addi f) s = execAddi f s := rfl
@[simp] theorem exec_andi {f} (s : State) : exec (.andi f) s = execAndi f s := rfl
@[simp] theorem exec_ori {f} (s : State) : exec (.ori f) s = execOri f s := rfl
@[simp] theorem exec_xori {f} (s : State) : exec (.xori f) s = execXori f s := rfl
@[simp] theorem exec_shli {f} (s : State) : exec (.shli f) s = execShli f s := rfl
@[simp] theorem exec_shri {f} (s : State) : exec (.shri f) s = execShri f s := rfl
@[simp] theorem exec_srai {f} (s : State) : exec (.srai f) s = execSrai f s := rfl
@[simp] theorem exec_slti {f} (s : State) : exec (.slti f) s = execSlti f s := rfl
@[simp] theorem exec_lui {f} (s : State) : exec (.lui f) s = execLui f s := rfl
@[simp] theorem exec_bc {f} (s : State) : exec (.bc f) s = execBc f s := rfl
@[simp] theorem exec_loop {f} (s : State) : exec (.loop f) s = execLoop f s := rfl
@[simp] theorem exec_jmp {f} (s : State) : exec (.jmp f) s = execJmp f s := rfl
@[simp] theorem exec_call {f} (s : State) : exec (.call f) s = execCall f s := rfl
@[simp] theorem exec_jmpr {f} (s : State) : exec (.jmpr f) s = execJmpr f s := rfl
@[simp] theorem exec_callr {f} (s : State) : exec (.callr f) s = execCallr f s := rfl
@[simp] theorem exec_ret {f} (s : State) : exec (.ret f) s = execRet f s := rfl
@[simp] theorem exec_fireEnd {f} (s : State) : exec (.fireEnd f) s = execFireEnd f s := rfl
@[simp] theorem exec_yield {f} (s : State) : exec (.yield f) s = execYield f s := rfl
@[simp] theorem exec_ld8 {f} (s : State) : exec (.ld8 f) s = execLd8 f s := rfl
@[simp] theorem exec_ld16 {f} (s : State) : exec (.ld16 f) s = execLd16 f s := rfl
@[simp] theorem exec_ld32 {f} (s : State) : exec (.ld32 f) s = execLd32 f s := rfl
@[simp] theorem exec_ld64 {f} (s : State) : exec (.ld64 f) s = execLd64 f s := rfl
@[simp] theorem exec_st8 {f} (s : State) : exec (.st8 f) s = execSt8 f s := rfl
@[simp] theorem exec_st16 {f} (s : State) : exec (.st16 f) s = execSt16 f s := rfl
@[simp] theorem exec_st32 {f} (s : State) : exec (.st32 f) s = execSt32 f s := rfl
@[simp] theorem exec_st64 {f} (s : State) : exec (.st64 f) s = execSt64 f s := rfl
@[simp] theorem exec_amoadd {f} (s : State) : exec (.amoadd f) s = execAmoadd f s := rfl
@[simp] theorem exec_amominS {f} (s : State) : exec (.amominS f) s = execAmominS f s := rfl
@[simp] theorem exec_amominZ {f} (s : State) : exec (.amominZ f) s = execAmominZ f s := rfl
@[simp] theorem exec_amomaxS {f} (s : State) : exec (.amomaxS f) s = execAmomaxS f s := rfl
@[simp] theorem exec_amomaxZ {f} (s : State) : exec (.amomaxZ f) s = execAmomaxZ f s := rfl
@[simp] theorem exec_amoand {f} (s : State) : exec (.amoand f) s = execAmoand f s := rfl
@[simp] theorem exec_amoor {f} (s : State) : exec (.amoor f) s = execAmoor f s := rfl
@[simp] theorem exec_amoxchg {f} (s : State) : exec (.amoxchg f) s = execAmoxchg f s := rfl
@[simp] theorem exec_amosnap {f} (s : State) : exec (.amosnap f) s = execAmosnap f s := rfl
@[simp] theorem exec_amocas {f} (s : State) : exec (.amocas f) s = execAmocas f s := rfl
@[simp] theorem exec_fenceCore {f} (s : State) : exec (.fenceCore f) s = execFenceCore f s := rfl
@[simp] theorem exec_fenceCluster {f} (s : State) : exec (.fenceCluster f) s = execFenceCluster f s := rfl
@[simp] theorem exec_fenceDevice {f} (s : State) : exec (.fenceDevice f) s = execFenceDevice f s := rfl
@[simp] theorem exec_fenceDomain {f} (s : State) : exec (.fenceDomain f) s = execFenceDomain f s := rfl
@[simp] theorem exec_fenceEng {f} (s : State) : exec (.fenceEng f) s = execFenceEng f s := rfl
@[simp] theorem exec_marm {f} (s : State) : exec (.marm f) s = execMarm f s := rfl
@[simp] theorem exec_mwait {f} (s : State) : exec (.mwait f) s = execMwait f s := rfl
@[simp] theorem exec_mwaitAcq {f} (s : State) : exec (.mwaitAcq f) s = execMwaitAcq f s := rfl
@[simp] theorem exec_finit {f} (s : State) : exec (.finit f) s = execFinit f s := rfl
@[simp] theorem exec_flen {f} (s : State) : exec (.flen f) s = execFlen f s := rfl
@[simp] theorem exec_fprobe {f} (s : State) : exec (.fprobe f) s = execFprobe f s := rfl
@[simp] theorem exec_fdel {f} (s : State) : exec (.fdel f) s = execFdel f s := rfl
@[simp] theorem exec_fpack {f} (s : State) : exec (.fpack f) s = execFpack f s := rfl
@[simp] theorem exec_fins {f} (s : State) : exec (.fins f) s = execFins f s := rfl
@[simp] theorem exec_fcmb {op f} (s : State) : exec (.fcmb op f) s = execFcmb op f s := rfl
@[simp] theorem exec_mfsr {f} (s : State) : exec (.mfsr f) s = execMfsr f s := rfl
@[simp] theorem exec_mtsr {f} (s : State) : exec (.mtsr f) s = execMtsr f s := rfl
@[simp] theorem exec_nop {f} (s : State) : exec (.nop f) s = execNop f s := rfl
@[simp] theorem exec_eret {f} (s : State) : exec (.eret f) s = execEret f s := rfl
@[simp] theorem exec_wdrain {f} (s : State) : exec (.wdrain f) s = execWdrain f s := rfl
@[simp] theorem exec_halt {f} (s : State) : exec (.halt f) s = execHalt f s := rfl
@[simp] theorem exec_trap {f} (s : State) : exec (.trap f) s = execTrap f s := rfl
@[simp] theorem exec_barInit {f} (s : State) : exec (.barInit f) s = execBarInit f s := rfl
@[simp] theorem exec_barArr {f} (s : State) : exec (.barArr f) s = execBarArr f s := rfl
@[simp] theorem exec_barWait {f} (s : State) : exec (.barWait f) s = execBarWait f s := rfl
@[simp] theorem exec_li {f} (s : State) : exec (.li f) s = execLi f s := rfl
@[simp] theorem exec_lih {f} (s : State) : exec (.lih f) s = execLih f s := rfl
@[simp] theorem exec_addl {f} (s : State) : exec (.addl f) s = execAddl f s := rfl
@[simp] theorem exec_loopi {f} (s : State) : exec (.loopi f) s = execLoopi f s := rfl
@[simp] theorem exec_vadd {f} (s : State) : exec (.vadd f) s = execVadd f s := rfl
@[simp] theorem exec_vsub {f} (s : State) : exec (.vsub f) s = execVsub f s := rfl
@[simp] theorem exec_vmul {f} (s : State) : exec (.vmul f) s = execVmul f s := rfl
@[simp] theorem exec_vfma {f} (s : State) : exec (.vfma f) s = execVfma f s := rfl
@[simp] theorem exec_vmin {f} (s : State) : exec (.vmin f) s = execVmin f s := rfl
@[simp] theorem exec_vmax {f} (s : State) : exec (.vmax f) s = execVmax f s := rfl
@[simp] theorem exec_vabs {f} (s : State) : exec (.vabs f) s = execVabs f s := rfl
@[simp] theorem exec_vneg {f} (s : State) : exec (.vneg f) s = execVneg f s := rfl
@[simp] theorem exec_vand {f} (s : State) : exec (.vand f) s = execVand f s := rfl
@[simp] theorem exec_vor {f} (s : State) : exec (.vor f) s = execVor f s := rfl
@[simp] theorem exec_vxor {f} (s : State) : exec (.vxor f) s = execVxor f s := rfl
@[simp] theorem exec_vshl {f} (s : State) : exec (.vshl f) s = execVshl f s := rfl
@[simp] theorem exec_vshr {f} (s : State) : exec (.vshr f) s = execVshr f s := rfl
@[simp] theorem exec_vsra {f} (s : State) : exec (.vsra f) s = execVsra f s := rfl
@[simp] theorem exec_vcmp {f} (s : State) : exec (.vcmp f) s = execVcmp f s := rfl
@[simp] theorem exec_vsel {f} (s : State) : exec (.vsel f) s = execVsel f s := rfl
@[simp] theorem exec_vmov {f} (s : State) : exec (.vmov f) s = execVmov f s := rfl
@[simp] theorem exec_vsplat {f} (s : State) : exec (.vsplat f) s = execVsplat f s := rfl
@[simp] theorem exec_vbcast {f} (s : State) : exec (.vbcast f) s = execVbcast f s := rfl
@[simp] theorem exec_vperm {f} (s : State) : exec (.vperm f) s = execVperm f s := rfl
@[simp] theorem exec_vins {f} (s : State) : exec (.vins f) s = execVins f s := rfl
@[simp] theorem exec_vext {f} (s : State) : exec (.vext f) s = execVext f s := rfl
@[simp] theorem exec_vred {f} (s : State) : exec (.vred f) s = execVred f s := rfl
@[simp] theorem exec_vscan {f} (s : State) : exec (.vscan f) s = execVscan f s := rfl
@[simp] theorem exec_vhist {f} (s : State) : exec (.vhist f) s = execVhist f s := rfl
@[simp] theorem exec_vexp2 {f} (s : State) : exec (.vexp2 f) s = execVexp2 f s := rfl
@[simp] theorem exec_vrcp {f} (s : State) : exec (.vrcp f) s = execVrcp f s := rfl
@[simp] theorem exec_vrsq {f} (s : State) : exec (.vrsq f) s = execVrsq f s := rfl
@[simp] theorem exec_vlog2 {f} (s : State) : exec (.vlog2 f) s = execVlog2 f s := rfl
@[simp] theorem exec_pand {f} (s : State) : exec (.pand f) s = execPand f s := rfl
@[simp] theorem exec_por {f} (s : State) : exec (.por f) s = execPor f s := rfl
@[simp] theorem exec_pnot {f} (s : State) : exec (.pnot f) s = execPnot f s := rfl
@[simp] theorem exec_pcnt {f} (s : State) : exec (.pcnt f) s = execPcnt f s := rfl
@[simp] theorem exec_pfirst {f} (s : State) : exec (.pfirst f) s = execPfirst f s := rfl
@[simp] theorem exec_ldv {f} (s : State) : exec (.ldv f) s = execLdv f s := rfl
@[simp] theorem exec_stv {f} (s : State) : exec (.stv f) s = execStv f s := rfl
@[simp] theorem exec_ldvs {f} (s : State) : exec (.ldvs f) s = execLdvs f s := rfl
@[simp] theorem exec_gather {f} (s : State) : exec (.gather f) s = execGather f s := rfl
@[simp] theorem exec_scatter {f} (s : State) : exec (.scatter f) s = execScatter f s := rfl
@[simp] theorem exec_qpush {f} (s : State) : exec (.qpush f) s = execQpush f s := rfl
@[simp] theorem exec_vcvt {f} (s : State) : exec (.vcvt f) s = execVcvt f s := rfl
@[simp] theorem exec_vqmx {f} (s : State) : exec (.vqmx f) s = execVqmx f s := rfl
@[simp] theorem exec_vdqmx {f} (s : State) : exec (.vdqmx f) s = execVdqmx f s := rfl
@[simp] theorem exec_vlut {f} (s : State) : exec (.vlut f) s = execVlut f s := rfl
@[simp] theorem exec_mldb {f} (s : State) : exec (.mldb f) s = execMldb f s := rfl
@[simp] theorem exec_mldm {f} (s : State) : exec (.mldm f) s = execMldm f s := rfl
@[simp] theorem exec_mma {f} (s : State) : exec (.mma f) s = execMma f s := rfl
@[simp] theorem exec_mmaS {f} (s : State) : exec (.mmaS f) s = execMmaS f s := rfl
@[simp] theorem exec_mclr {f} (s : State) : exec (.mclr f) s = execMclr f s := rfl
@[simp] theorem exec_mrd {f} (s : State) : exec (.mrd f) s = execMrd f s := rfl
@[simp] theorem exec_tdclass {f} (s : State) : exec (.tdclass f) s = execTdclass f s := rfl
@[simp] theorem exec_tdquery {f} (s : State) : exec (.tdquery f) s = execTdquery f s := rfl
@[simp] theorem exec_mtest {f} (s : State) : exec (.mtest f) s = execMtest f s := rfl
@[simp] theorem exec_cpy {f} (s : State) : exec (.cpy f) s = execCpy f s := rfl
@[simp] theorem exec_cpystat {f} (s : State) : exec (.cpystat f) s = execCpystat f s := rfl
@[simp] theorem exec_cpycancel {f} (s : State) : exec (.cpycancel f) s = execCpycancel f s := rfl
@[simp] theorem exec_chpush {f} (s : State) : exec (.chpush f) s = execChpush f s := rfl
@[simp] theorem exec_chpop {f} (s : State) : exec (.chpop f) s = execChpop f s := rfl
@[simp] theorem exec_chpeek {f} (s : State) : exec (.chpeek f) s = execChpeek f s := rfl
@[simp] theorem exec_chmark {f} (s : State) : exec (.chmark f) s = execChmark f s := rfl
@[simp] theorem exec_chstat {f} (s : State) : exec (.chstat f) s = execChstat f s := rfl
@[simp] theorem exec_cbload {f} (s : State) : exec (.cbload f) s = execCbload f s := rfl
@[simp] theorem exec_fmrgv {f} (s : State) : exec (.fmrgv f) s = execFmrgv f s := rfl
@[simp] theorem exec_fscan {f} (s : State) : exec (.fscan f) s = execFscan f s := rfl
@[simp] theorem exec_fprobev {f} (s : State) : exec (.fprobev f) s = execFprobev f s := rfl
@[simp] theorem exec_funion {f} (s : State) : exec (.funion f) s = execFunion f s := rfl
@[simp] theorem exec_asyncTrap {who} (s : State) : exec (.asyncTrap who) s = execAsyncTrap who s := rfl
@[simp] theorem exec_registerFill {id} (s : State) : exec (.registerFill id) s = execRegisterFill id s := rfl
@[simp] theorem exec_heldWriteDelivery {core idx} (s : State) : exec (.heldWriteDelivery core idx) s = execHeldWriteDelivery core idx s := rfl
@[simp] theorem exec_windowWrite {id} (s : State) : exec (.windowWrite id) s = execWindowWrite id s := rfl
@[simp] theorem exec_spillWrite {core ctx} (s : State) : exec (.spillWrite core ctx) s = execSpillWrite core ctx s := rfl
@[simp] theorem exec_fillArrive {core ctx reg} (s : State) : exec (.fillArrive core ctx reg) s = execFillArrive core ctx reg s := rfl
@[simp] theorem exec_storeAtHome {id} (s : State) : exec (.storeAtHome id) s = execStoreAtHome id s := rfl
@[simp] theorem exec_loadAtHome {id} (s : State) : exec (.loadAtHome id) s = execLoadAtHome id s := rfl
@[simp] theorem exec_atomicAtHome {id} (s : State) : exec (.atomicAtHome id) s = execAtomicAtHome id s := rfl
@[simp] theorem exec_monitorRegister {id} (s : State) : exec (.monitorRegister id) s = execMonitorRegister id s := rfl
@[simp] theorem exec_mwaitTimeout {who} (s : State) : exec (.mwaitTimeout who) s = execMwaitTimeout who s := rfl
@[simp] theorem exec_fenceAck {who path} (s : State) : exec (.fenceAck who path) s = execFenceAck who path s := rfl
@[simp] theorem exec_mergeAtHome {id} (s : State) : exec (.mergeAtHome id) s = execMergeAtHome id s := rfl
@[simp] theorem exec_deleteAtHome {id} (s : State) : exec (.deleteAtHome id) s = execDeleteAtHome id s := rfl
@[simp] theorem exec_finitAtHome {id} (s : State) : exec (.finitAtHome id) s = execFinitAtHome id s := rfl
@[simp] theorem exec_fpackAtHome {id} (s : State) : exec (.fpackAtHome id) s = execFpackAtHome id s := rfl
@[simp] theorem exec_probeAtHome {id} (s : State) : exec (.probeAtHome id) s = execProbeAtHome id s := rfl
@[simp] theorem exec_scanAtHome {id} (s : State) : exec (.scanAtHome id) s = execScanAtHome id s := rfl
@[simp] theorem exec_funionAtHome {id} (s : State) : exec (.funionAtHome id) s = execFunionAtHome id s := rfl
@[simp] theorem exec_stalledMergeResume {pool} (s : State) : exec (.stalledMergeResume pool) s = execStalledMergeResume pool s := rfl
@[simp] theorem exec_poolTimeout {pool} (s : State) : exec (.poolTimeout pool) s = execPoolTimeout pool s := rfl
@[simp] theorem exec_donate {pool v drv} (s : State) : exec (.donate pool v drv) s = execDonate pool v drv s := rfl
@[simp] theorem exec_poolReset {pool v drv} (s : State) : exec (.poolReset pool v drv) s = execPoolReset pool v drv s := rfl
@[simp] theorem exec_faultctlResume {pool drv} (s : State) : exec (.faultctlResume pool drv) s = execFaultctlResume pool drv s := rfl
@[simp] theorem exec_faultctlAbandon {pool drv} (s : State) : exec (.faultctlAbandon pool drv) s = execFaultctlAbandon pool drv s := rfl
@[simp] theorem exec_schedulingEvent {core launch} (s : State) : exec (.schedulingEvent core launch) s = execSchedulingEvent core launch s := rfl
@[simp] theorem exec_channelCommit {id} (s : State) : exec (.channelCommit id) s = execChannelCommit id s := rfl
@[simp] theorem exec_channelRelease {id} (s : State) : exec (.channelRelease id) s = execChannelRelease id s := rfl
@[simp] theorem exec_tableTokenTake {core slot port} (s : State) : exec (.tableTokenTake core slot port) s = execTableTokenTake core slot port s := rfl
@[simp] theorem exec_eosForward {core slot} (s : State) : exec (.eosForward core slot) s = execEosForward core slot s := rfl
@[simp] theorem exec_instanceRetire {core slot} (s : State) : exec (.instanceRetire core slot) s = execInstanceRetire core slot s := rfl
@[simp] theorem exec_poisonReinject {core ch cons} (s : State) : exec (.poisonReinject core ch cons) s = execPoisonReinject core ch cons s := rfl
@[simp] theorem exec_rateSample {core ch} (s : State) : exec (.rateSample core ch) s = execRateSample core ch s := rfl
@[simp] theorem exec_rateParamWrite {core ch word v drv} (s : State) : exec (.rateParamWrite core ch word v drv) s = execRateParamWrite core ch word v drv s := rfl
@[simp] theorem exec_sinkDataSlot {core ch cons} (s : State) : exec (.sinkDataSlot core ch cons) s = execSinkDataSlot core ch cons s := rfl
@[simp] theorem exec_sinkEndOfStream {core ch cons} (s : State) : exec (.sinkEndOfStream core ch cons) s = execSinkEndOfStream core ch cons s := rfl
@[simp] theorem exec_markerInject {core slot} (s : State) : exec (.markerInject core slot) s = execMarkerInject core slot s := rfl
@[simp] theorem exec_snapshotAlign {core slot} (s : State) : exec (.snapshotAlign core slot) s = execSnapshotAlign core slot s := rfl
@[simp] theorem exec_snapshotUnalignedSwitch {core slot} (s : State) : exec (.snapshotUnalignedSwitch core slot) s = execSnapshotUnalignedSwitch core slot s := rfl
@[simp] theorem exec_unalignedMarkerArrive {core slot port} (s : State) : exec (.unalignedMarkerArrive core slot port) s = execUnalignedMarkerArrive core slot port s := rfl
@[simp] theorem exec_snapreq {launch v drv} (s : State) : exec (.snapreq launch v drv) s = execSnapreq launch v drv s := rfl
@[simp] theorem exec_snapshotComplete {launch} (s : State) : exec (.snapshotComplete launch) s = execSnapshotComplete launch s := rfl
@[simp] theorem exec_snapdataResend {session seq} (s : State) : exec (.snapdataResend session seq) s = execSnapdataResend session seq s := rfl
@[simp] theorem exec_snapdataSessionLost {session} (s : State) : exec (.snapdataSessionLost session) s = execSnapdataSessionLost session s := rfl
@[simp] theorem exec_snapdataAck {session seq ack} (s : State) : exec (.snapdataAck session seq ack) s = execSnapdataAck session seq ack s := rfl
@[simp] theorem exec_watchdog {launch} (s : State) : exec (.watchdog launch) s = execWatchdog launch s := rfl
@[simp] theorem exec_launchPacket {die queue} (s : State) : exec (.launchPacket die queue) s = execLaunchPacket die queue s := rfl
@[simp] theorem exec_copyPacket {die queue} (s : State) : exec (.copyPacket die queue) s = execCopyPacket die queue s := rfl
@[simp] theorem exec_waitStampPacket {die queue} (s : State) : exec (.waitStampPacket die queue) s = execWaitStampPacket die queue s := rfl
@[simp] theorem exec_signalPacket {die queue} (s : State) : exec (.signalPacket die queue) s = execSignalPacket die queue s := rfl
@[simp] theorem exec_launchStart {launch} (s : State) : exec (.launchStart launch) s = execLaunchStart launch s := rfl
@[simp] theorem exec_launchCompletion {launch} (s : State) : exec (.launchCompletion launch) s = execLaunchCompletion launch s := rfl
@[simp] theorem exec_completionStamp {launch} (s : State) : exec (.completionStamp launch) s = execCompletionStamp launch s := rfl
@[simp] theorem exec_intensityWindow {launch cycles bytes} (s : State) : exec (.intensityWindow launch cycles bytes) s = execIntensityWindow launch cycles bytes s := rfl
@[simp] theorem exec_tileTaskIssue {core id} (s : State) : exec (.tileTaskIssue core id) s = execTileTaskIssue core id s := rfl
@[simp] theorem exec_tileTaskComplete {core id} (s : State) : exec (.tileTaskComplete core id) s = execTileTaskComplete core id s := rfl
@[simp] theorem exec_selfTest {core slot pass} (s : State) : exec (.selfTest core slot pass) s = execSelfTest core slot pass s := rfl
@[simp] theorem exec_sectorIssue {eng slot} (s : State) : exec (.sectorIssue eng slot) s = execSectorIssue eng slot s := rfl
@[simp] theorem exec_copyStamp {eng slot} (s : State) : exec (.copyStamp eng slot) s = execCopyStamp eng slot s := rfl
@[simp] theorem exec_copyCtrlResume {eng slot drv} (s : State) : exec (.copyCtrlResume eng slot drv) s = execCopyCtrlResume eng slot drv s := rfl
@[simp] theorem exec_copyCtrlAbandon {eng slot drv} (s : State) : exec (.copyCtrlAbandon eng slot drv) s = execCopyCtrlAbandon eng slot drv s := rfl
@[simp] theorem exec_ienable {core slot v} (s : State) : exec (.ienable core slot v) s = execIenable core slot v s := rfl
@[simp] theorem exec_lctlPreempt {launch drv} (s : State) : exec (.lctlPreempt launch drv) s = execLctlPreempt launch drv s := rfl
@[simp] theorem exec_preemptComplete {launch} (s : State) : exec (.preemptComplete launch) s = execPreemptComplete launch s := rfl
@[simp] theorem exec_lctlResume {launch drv} (s : State) : exec (.lctlResume launch drv) s = execLctlResume launch drv s := rfl
@[simp] theorem exec_lctlKill {launch drv} (s : State) : exec (.lctlKill launch drv) s = execLctlKill launch drv s := rfl
@[simp] theorem exec_killStamp {launch} (s : State) : exec (.killStamp launch) s = execKillStamp launch s := rfl
@[simp] theorem exec_lcorePreempt {launch core drv} (s : State) : exec (.lcorePreempt launch core drv) s = execLcorePreempt launch core drv s := rfl
@[simp] theorem exec_lcoreResume {launch core drv} (s : State) : exec (.lcoreResume launch core drv) s = execLcoreResume launch core drv s := rfl
@[simp] theorem exec_doorbell {core v drv} (s : State) : exec (.doorbell core v drv) s = execDoorbell core v drv s := rfl
@[simp] theorem exec_tinvVa {asid va drv} (s : State) : exec (.tinvVa asid va drv) s = execTinvVa asid va drv s := rfl
@[simp] theorem exec_tinvAsid {asid drv} (s : State) : exec (.tinvAsid asid drv) s = execTinvAsid asid drv s := rfl
@[simp] theorem exec_tinvAll {drv} (s : State) : exec (.tinvAll drv) s = execTinvAll drv s := rfl
@[simp] theorem exec_invalidationComplete (s : State) : exec .invalidationComplete s = execInvalidationComplete s := rfl
@[simp] theorem exec_translationWalk {id} (s : State) : exec (.translationWalk id) s = execTranslationWalk id s := rfl
@[simp] theorem exec_tilePageTableWrite {m v drv} (s : State) : exec (.tilePageTableWrite m v drv) s = execTilePageTableWrite m v drv s := rfl
@[simp] theorem exec_hashRowWrite {row v drv} (s : State) : exec (.hashRowWrite row v drv) s = execHashRowWrite row v drv s := rfl
@[simp] theorem exec_pinsizeWrite {v drv} (s : State) : exec (.pinsizeWrite v drv) s = execPinsizeWrite v drv s := rfl
@[simp] theorem exec_planeTableWrite {off v drv} (s : State) : exec (.planeTableWrite off v drv) s = execPlaneTableWrite off v drv s := rfl
@[simp] theorem exec_planeDeadSet {mask drv} (s : State) : exec (.planeDeadSet mask drv) s = execPlaneDeadSet mask drv s := rfl
@[simp] theorem exec_quiesceClear {drv} (s : State) : exec (.quiesceClear drv) s = execQuiesceClear drv s := rfl
@[simp] theorem exec_linkFlit {f} (s : State) : exec (.linkFlit f) s = execLinkFlit f s := rfl
@[simp] theorem exec_migrationGo {m drv} (s : State) : exec (.migrationGo m drv) s = execMigrationGo m drv s := rfl
@[simp] theorem exec_migrationSectorCopy {m} (s : State) : exec (.migrationSectorCopy m) s = execMigrationSectorCopy m s := rfl
@[simp] theorem exec_migrationClr {m drv} (s : State) : exec (.migrationClr m drv) s = execMigrationClr m drv s := rfl
@[simp] theorem exec_counterClear {addr v} (s : State) : exec (.counterClear addr v) s = execCounterClear addr v s := rfl
@[simp] theorem exec_refresh {stack splits} (s : State) : exec (.refresh stack splits) s = execRefresh stack splits s := rfl
@[simp] theorem exec_scrubRead {addr found} (s : State) : exec (.scrubRead addr found) s = execScrubRead addr found s := rfl
@[simp] theorem exec_scrubWriteback {addr} (s : State) : exec (.scrubWriteback addr) s = execScrubWriteback addr s := rfl
@[simp] theorem exec_powerReqFull {drv} (s : State) : exec (.powerReqFull drv) s = execPowerReqFull drv s := rfl
@[simp] theorem exec_powerReqHalf {drv} (s : State) : exec (.powerReqHalf drv) s = execPowerReqHalf drv s := rfl
@[simp] theorem exec_powerReqIdle {drv} (s : State) : exec (.powerReqIdle drv) s = execPowerReqIdle drv s := rfl
@[simp] theorem exec_powerTransitionDone (s : State) : exec .powerTransitionDone s = execPowerTransitionDone s := rfl
@[simp] theorem exec_sensorSample {sensor sample} (s : State) : exec (.sensorSample sensor sample) s = execSensorSample sensor sample s := rfl
@[simp] theorem exec_telemetryRefresh {words} (s : State) : exec (.telemetryRefresh words) s = execTelemetryRefresh words s := rfl
@[simp] theorem exec_powerUp {env} (s : State) : exec (.powerUp env) s = execPowerUp env s := rfl
@[simp] theorem exec_clusterStart {k pass} (s : State) : exec (.clusterStart k pass) s = execClusterStart k pass s := rfl
@[simp] theorem exec_stackPairStart {p lo hi} (s : State) : exec (.stackPairStart p lo hi) s = execStackPairStart p lo hi s := rfl
@[simp] theorem exec_attestationReport {session nonce} (s : State) : exec (.attestationReport session nonce) s = execAttestationReport session nonce s := rfl
@[simp] theorem exec_read {d} (s : State) : exec (.read d) s = execRead d s := rfl
@[simp] theorem exec_write {d} (s : State) : exec (.write d) s = execWrite d s := rfl
@[simp] theorem exec_fadd {d} (s : State) : exec (.fadd d) s = execFadd d s := rfl
@[simp] theorem exec_cas {d} (s : State) : exec (.cas d) s = execCas d s := rfl
@[simp] theorem exec_close {d} (s : State) : exec (.close d) s = execClose d s := rfl
@[simp] theorem exec_hello {h} (s : State) : exec (.hello h) s = execHello h s := rfl
@[simp] theorem exec_watch {d} (s : State) : exec (.watch d) s = execWatch d s := rfl
@[simp] theorem exec_grant {d} (s : State) : exec (.grant d) s = execGrant d s := rfl
@[simp] theorem exec_otherFrame {tags} (s : State) : exec (.otherFrame tags) s = execOtherFrame tags s := rfl
@[simp] theorem exec_registerWrite {addr size v drv} (s : State) : exec (.registerWrite addr size v drv) s = execRegisterWrite addr size v drv s := rfl
@[simp] theorem exec_powerLoss (s : State) : exec .powerLoss s = execPowerLoss s := rfl
@[simp] theorem exec_unallocatedKindPacket {die queue} (s : State) : exec (.unallocatedKindPacket die queue) s = execUnallocatedKindPacket die queue s := rfl

end Sys2Proof.Machine
end

