-- ==== Sys2Proof/Laws/Encoding.lean ====
section
/-!
SUPPORT. Sys2Proof/Laws/Encoding.lean: what the decoder's field readers answer on the encoder's words.
-/

set_option linter.unusedSimpArgs false

namespace Sys2Proof.Laws

theorem encR3_major (m : BitVec 6) (n : BitVec 5) (f : R3F) : (encR3 m n f).extractLsb' 25 6 = m := by
  unfold encR3
  simp (disch := omega) only [BitVec.extractLsb'_append_eq_of_add_le, BitVec.extractLsb'_append_eq_of_le, Nat.reduceSub, BitVec.extractLsb'_eq_self]

theorem encR3_fn (m : BitVec 6) (n : BitVec 5) (f : R3F) : (encR3 m n f).extractLsb' 0 5 = n := by
  unfold encR3
  simp (disch := omega) only [BitVec.extractLsb'_append_eq_of_add_le, BitVec.extractLsb'_append_eq_of_le, Nat.reduceSub, BitVec.extractLsb'_eq_self]

theorem encR3_short (m : BitVec 6) (n : BitVec 5) (f : R3F) : (encR3 m n f).getLsbD 31 = false := by
  unfold encR3
  simp only [BitVec.getLsbD_append]; simp

theorem encR3_fields (m : BitVec 6) (n : BitVec 5) (f : R3F) : r3Fields (encR3 m n f) = f := by
  obtain ⟨rd, rs1, rs2, w1, w2⟩ := f
  simp only [r3Fields, encR3, R3F.mk.injEq]
  refine ⟨?_, ?_, ?_, ?_, ?_⟩
  · simp (disch := omega) only [BitVec.extractLsb'_append_eq_of_add_le, BitVec.extractLsb'_append_eq_of_le, Nat.reduceSub, BitVec.extractLsb'_eq_self]
  · simp (disch := omega) only [BitVec.extractLsb'_append_eq_of_add_le, BitVec.extractLsb'_append_eq_of_le, Nat.reduceSub, BitVec.extractLsb'_eq_self]
  · simp (disch := omega) only [BitVec.extractLsb'_append_eq_of_add_le, BitVec.extractLsb'_append_eq_of_le, Nat.reduceSub, BitVec.extractLsb'_eq_self]
  · simp only [BitVec.getLsbD_append]; simp
  · simp only [BitVec.getLsbD_append]; simp

theorem encI12_major (m : BitVec 6) (f : I12F) : (encI12 m f).extractLsb' 25 6 = m := by
  unfold encI12
  simp (disch := omega) only [BitVec.extractLsb'_append_eq_of_add_le, BitVec.extractLsb'_append_eq_of_le, Nat.reduceSub, BitVec.extractLsb'_eq_self]

theorem encI12_short (m : BitVec 6) (f : I12F) : (encI12 m f).getLsbD 31 = false := by
  unfold encI12
  simp only [BitVec.getLsbD_append]; simp

theorem encI12_fields (m : BitVec 6) (f : I12F) : i12Fields (encI12 m f) = f := by
  obtain ⟨rd, rs1, w1, imm12⟩ := f
  simp only [i12Fields, encI12, I12F.mk.injEq]
  refine ⟨?_, ?_, ?_, ?_⟩
  · simp (disch := omega) only [BitVec.extractLsb'_append_eq_of_add_le, BitVec.extractLsb'_append_eq_of_le, Nat.reduceSub, BitVec.extractLsb'_eq_self]
  · simp (disch := omega) only [BitVec.extractLsb'_append_eq_of_add_le, BitVec.extractLsb'_append_eq_of_le, Nat.reduceSub, BitVec.extractLsb'_eq_self]
  · simp only [BitVec.getLsbD_append]; simp
  · simp (disch := omega) only [BitVec.extractLsb'_append_eq_of_add_le, BitVec.extractLsb'_append_eq_of_le, Nat.reduceSub, BitVec.extractLsb'_eq_self]

theorem encI12_shift (m : BitVec 6) (f : I12F) : (encI12 m f).extractLsb' 6 2 = f.imm12.extractLsb' 6 2 := by
  unfold encI12
  simp (disch := omega) only [BitVec.extractLsb'_append_eq_of_add_le, BitVec.extractLsb'_append_eq_of_le, Nat.reduceSub, BitVec.extractLsb'_eq_self]

theorem encAmo_major (op : BitVec 4) (f : AmoF) : (encAmo op f).extractLsb' 25 6 = (8#4 ++ f.ord : BitVec 6) := by
  apply BitVec.eq_of_getLsbD_eq
  intro i hi
  simp only [encAmo, BitVec.getLsbD_extractLsb', BitVec.getLsbD_append]
  interval_cases i <;> simp

theorem encAmo_op (op : BitVec 4) (f : AmoF) : (encAmo op f).extractLsb' 0 4 = op := by
  unfold encAmo
  simp (disch := omega) only [BitVec.extractLsb'_append_eq_of_add_le, BitVec.extractLsb'_append_eq_of_le, Nat.reduceSub, BitVec.extractLsb'_eq_self]

theorem encAmo_short (op : BitVec 4) (f : AmoF) : (encAmo op f).getLsbD 31 = false := by
  unfold encAmo
  simp only [BitVec.getLsbD_append]; simp

theorem encAmo_width (op : BitVec 4) (f : AmoF) : (encAmo op f).getLsbD 4 = f.z := by
  unfold encAmo
  simp only [BitVec.getLsbD_append]; simp

theorem encAmo_fields (op : BitVec 4) (f : AmoF) : r3Fields (encAmo op f) = f.r := by
  obtain ⟨ord, z, rd, rs1, rs2, w1, w2⟩ := f
  simp only [r3Fields, encAmo, R3F.mk.injEq]
  refine ⟨?_, ?_, ?_, ?_, ?_⟩
  · simp (disch := omega) only [BitVec.extractLsb'_append_eq_of_add_le, BitVec.extractLsb'_append_eq_of_le, Nat.reduceSub, BitVec.extractLsb'_eq_self]
  · simp (disch := omega) only [BitVec.extractLsb'_append_eq_of_add_le, BitVec.extractLsb'_append_eq_of_le, Nat.reduceSub, BitVec.extractLsb'_eq_self]
  · simp (disch := omega) only [BitVec.extractLsb'_append_eq_of_add_le, BitVec.extractLsb'_append_eq_of_le, Nat.reduceSub, BitVec.extractLsb'_eq_self]
  · simp only [BitVec.getLsbD_append]; simp
  · simp only [BitVec.getLsbD_append]; simp

/-- The first word of a V pair. -/
def vWord0 (m : BitVec 6) (f : VF) : W32 :=
  1#1 ++ m ++ f.vd ++ f.vs1 ++ f.vs2 ++ f.pm ++ BitVec.ofBool f.w1 ++ BitVec.ofBool f.w2 ++ BitVec.ofBool f.w3 ++ BitVec.ofBool f.zm
/-- The second word of a V pair. -/
def vWord1 (n : BitVec 6) (f : VF) : W32 := f.vs3 ++ n ++ f.ty4 ++ f.rnd3 ++ f.imm13

theorem encV_words (m n : BitVec 6) (f : VF) : encV m n f = [vWord0 m f, vWord1 n f] := rfl

theorem vWord0_major (m : BitVec 6) (f : VF) : (vWord0 m f).extractLsb' 25 6 = m := by
  unfold vWord0
  simp (disch := omega) only [BitVec.extractLsb'_append_eq_of_add_le, BitVec.extractLsb'_append_eq_of_le, Nat.reduceSub, BitVec.extractLsb'_eq_self]

theorem vWord0_long (m : BitVec 6) (f : VF) : (vWord0 m f).getLsbD 31 = true := by
  unfold vWord0
  simp only [BitVec.getLsbD_append]; simp

theorem vWord1_fn (n : BitVec 6) (f : VF) : (vWord1 n f).extractLsb' 20 6 = n := by
  unfold vWord1
  simp (disch := omega) only [BitVec.extractLsb'_append_eq_of_add_le, BitVec.extractLsb'_append_eq_of_le, Nat.reduceSub, BitVec.extractLsb'_eq_self]

theorem vWords_fields (m n : BitVec 6) (f : VF) : vFields (vWord0 m f) (vWord1 n f) = f := by
  obtain ⟨vd, vs1, vs2, vs3, pm, w1, w2, w3, zm, ty4, rnd3, imm13⟩ := f
  simp only [vFields, vWord0, vWord1, VF.mk.injEq]
  refine ⟨?_, ?_, ?_, ?_, ?_, ?_, ?_, ?_, ?_, ?_, ?_, ?_⟩
  · simp (disch := omega) only [BitVec.extractLsb'_append_eq_of_add_le, BitVec.extractLsb'_append_eq_of_le, Nat.reduceSub, BitVec.extractLsb'_eq_self]
  · simp (disch := omega) only [BitVec.extractLsb'_append_eq_of_add_le, BitVec.extractLsb'_append_eq_of_le, Nat.reduceSub, BitVec.extractLsb'_eq_self]
  · simp (disch := omega) only [BitVec.extractLsb'_append_eq_of_add_le, BitVec.extractLsb'_append_eq_of_le, Nat.reduceSub, BitVec.extractLsb'_eq_self]
  · simp (disch := omega) only [BitVec.extractLsb'_append_eq_of_add_le, BitVec.extractLsb'_append_eq_of_le, Nat.reduceSub, BitVec.extractLsb'_eq_self]
  · simp (disch := omega) only [BitVec.extractLsb'_append_eq_of_add_le, BitVec.extractLsb'_append_eq_of_le, Nat.reduceSub, BitVec.extractLsb'_eq_self]
  · simp only [BitVec.getLsbD_append]; simp
  · simp only [BitVec.getLsbD_append]; simp
  · simp only [BitVec.getLsbD_append]; simp
  · simp only [BitVec.getLsbD_append]; simp
  · simp (disch := omega) only [BitVec.extractLsb'_append_eq_of_add_le, BitVec.extractLsb'_append_eq_of_le, Nat.reduceSub, BitVec.extractLsb'_eq_self]
  · simp (disch := omega) only [BitVec.extractLsb'_append_eq_of_add_le, BitVec.extractLsb'_append_eq_of_le, Nat.reduceSub, BitVec.extractLsb'_eq_self]
  · simp (disch := omega) only [BitVec.extractLsb'_append_eq_of_add_le, BitVec.extractLsb'_append_eq_of_le, Nat.reduceSub, BitVec.extractLsb'_eq_self]

/-- The first word of an E pair. -/
def eWord0 (m : BitVec 6) (f : EF) : W32 := 1#1 ++ m ++ f.rd ++ f.rs1 ++ f.rs2 ++ f.rs3 ++ BitVec.ofBool f.w
/-- The second word of an E pair. -/
def eWord1 (n : BitVec 6) (f : EF) : W32 := n ++ f.x

theorem encE_words (m n : BitVec 6) (f : EF) : encE m n f = [eWord0 m f, eWord1 n f] := rfl

theorem eWord0_major (m : BitVec 6) (f : EF) : (eWord0 m f).extractLsb' 25 6 = m := by
  unfold eWord0
  simp (disch := omega) only [BitVec.extractLsb'_append_eq_of_add_le, BitVec.extractLsb'_append_eq_of_le, Nat.reduceSub, BitVec.extractLsb'_eq_self]

theorem eWord0_long (m : BitVec 6) (f : EF) : (eWord0 m f).getLsbD 31 = true := by
  unfold eWord0
  simp only [BitVec.getLsbD_append]; simp

theorem eWord1_fn (n : BitVec 6) (f : EF) : (eWord1 n f).extractLsb' 26 6 = n := by
  unfold eWord1
  simp (disch := omega) only [BitVec.extractLsb'_append_eq_of_add_le, BitVec.extractLsb'_append_eq_of_le, Nat.reduceSub, BitVec.extractLsb'_eq_self]

theorem eWords_fields (m n : BitVec 6) (f : EF) : eFields (eWord0 m f) (eWord1 n f) = f := by
  obtain ⟨rd, rs1, rs2, rs3, w, x⟩ := f
  simp only [eFields, eWord0, eWord1, EF.mk.injEq]
  refine ⟨?_, ?_, ?_, ?_, ?_, ?_⟩
  · simp (disch := omega) only [BitVec.extractLsb'_append_eq_of_add_le, BitVec.extractLsb'_append_eq_of_le, Nat.reduceSub, BitVec.extractLsb'_eq_self]
  · simp (disch := omega) only [BitVec.extractLsb'_append_eq_of_add_le, BitVec.extractLsb'_append_eq_of_le, Nat.reduceSub, BitVec.extractLsb'_eq_self]
  · simp (disch := omega) only [BitVec.extractLsb'_append_eq_of_add_le, BitVec.extractLsb'_append_eq_of_le, Nat.reduceSub, BitVec.extractLsb'_eq_self]
  · simp (disch := omega) only [BitVec.extractLsb'_append_eq_of_add_le, BitVec.extractLsb'_append_eq_of_le, Nat.reduceSub, BitVec.extractLsb'_eq_self]
  · simp only [BitVec.getLsbD_append]; simp
  · simp (disch := omega) only [BitVec.extractLsb'_append_eq_of_add_le, BitVec.extractLsb'_append_eq_of_le, Nat.reduceSub, BitVec.extractLsb'_eq_self]

/-- The first word of an L pair. -/
def lWord0 (n : BitVec 6) (f : LF) : W32 := 1#1 ++ 56#6 ++ f.rd ++ f.rs1 ++ BitVec.ofBool f.w1 ++ n ++ f.res

theorem encL_words (n : BitVec 6) (f : LF) : encL n f = [lWord0 n f, f.imm32] := rfl

theorem lWord0_major (n : BitVec 6) (f : LF) : (lWord0 n f).extractLsb' 25 6 = 56#6 := by
  unfold lWord0
  simp (disch := omega) only [BitVec.extractLsb'_append_eq_of_add_le, BitVec.extractLsb'_append_eq_of_le, Nat.reduceSub, BitVec.extractLsb'_eq_self]

theorem lWord0_long (n : BitVec 6) (f : LF) : (lWord0 n f).getLsbD 31 = true := by
  unfold lWord0
  simp only [BitVec.getLsbD_append]; simp

theorem lWord0_fn (n : BitVec 6) (f : LF) : (lWord0 n f).extractLsb' 6 6 = n := by
  unfold lWord0
  simp (disch := omega) only [BitVec.extractLsb'_append_eq_of_add_le, BitVec.extractLsb'_append_eq_of_le, Nat.reduceSub, BitVec.extractLsb'_eq_self]

theorem lWords_fields (n : BitVec 6) (f : LF) : lFields (lWord0 n f) f.imm32 = f := by
  obtain ⟨rd, rs1, w1, res, imm32⟩ := f
  simp only [lFields, lWord0, LF.mk.injEq]
  refine ⟨?_, ?_, ?_, ?_, trivial⟩
  · simp (disch := omega) only [BitVec.extractLsb'_append_eq_of_add_le, BitVec.extractLsb'_append_eq_of_le, Nat.reduceSub, BitVec.extractLsb'_eq_self]
  · simp (disch := omega) only [BitVec.extractLsb'_append_eq_of_add_le, BitVec.extractLsb'_append_eq_of_le, Nat.reduceSub, BitVec.extractLsb'_eq_self]
  · simp only [BitVec.getLsbD_append]; simp
  · simp (disch := omega) only [BitVec.extractLsb'_append_eq_of_add_le, BitVec.extractLsb'_append_eq_of_le, Nat.reduceSub, BitVec.extractLsb'_eq_self]

/-- The first word of the LX pair. -/
def lxWord0 (f : LxF) : W32 := 1#1 ++ 57#6 ++ f.rs1 ++ f.rs2 ++ BitVec.ofBool f.w1 ++ BitVec.ofBool f.w2 ++ f.res
/-- The second word of the LX pair. -/
def lxWord1 (f : LxF) : W32 := f.simm16 ++ f.off16

theorem encLx_words (f : LxF) : encLx f = [lxWord0 f, lxWord1 f] := rfl

theorem lxWord0_major (f : LxF) : (lxWord0 f).extractLsb' 25 6 = 57#6 := by
  unfold lxWord0
  simp (disch := omega) only [BitVec.extractLsb'_append_eq_of_add_le, BitVec.extractLsb'_append_eq_of_le, Nat.reduceSub, BitVec.extractLsb'_eq_self]

theorem lxWord0_long (f : LxF) : (lxWord0 f).getLsbD 31 = true := by
  unfold lxWord0
  simp only [BitVec.getLsbD_append]; simp

theorem lxWords_fields (f : LxF) : lxFields (lxWord0 f) (lxWord1 f) = f := by
  obtain ⟨rs1, rs2, w1, w2, res, simm16, off16⟩ := f
  simp only [lxFields, lxWord0, lxWord1, LxF.mk.injEq]
  refine ⟨?_, ?_, ?_, ?_, ?_, ?_, ?_⟩
  · simp (disch := omega) only [BitVec.extractLsb'_append_eq_of_add_le, BitVec.extractLsb'_append_eq_of_le, Nat.reduceSub, BitVec.extractLsb'_eq_self]
  · simp (disch := omega) only [BitVec.extractLsb'_append_eq_of_add_le, BitVec.extractLsb'_append_eq_of_le, Nat.reduceSub, BitVec.extractLsb'_eq_self]
  · simp only [BitVec.getLsbD_append]; simp
  · simp only [BitVec.getLsbD_append]; simp
  · simp (disch := omega) only [BitVec.extractLsb'_append_eq_of_add_le, BitVec.extractLsb'_append_eq_of_le, Nat.reduceSub, BitVec.extractLsb'_eq_self]
  · simp (disch := omega) only [BitVec.extractLsb'_append_eq_of_add_le, BitVec.extractLsb'_append_eq_of_le, Nat.reduceSub, BitVec.extractLsb'_eq_self]
  · simp (disch := omega) only [BitVec.extractLsb'_append_eq_of_add_le, BitVec.extractLsb'_append_eq_of_le, Nat.reduceSub, BitVec.extractLsb'_eq_self]

/-- The word of its format. -/
def u19Word (f : U19F) : W32 := 0#1 ++ 15#6 ++ f.rd ++ f.imm19

theorem u19Word_major (f : U19F) : (u19Word f).extractLsb' 25 6 = 15#6 := by
  unfold u19Word
  simp (disch := omega) only [BitVec.extractLsb'_append_eq_of_add_le, BitVec.extractLsb'_append_eq_of_le, Nat.reduceSub, BitVec.extractLsb'_eq_self]

theorem u19Word_short (f : U19F) : (u19Word f).getLsbD 31 = false := by
  unfold u19Word
  simp only [BitVec.getLsbD_append]; simp

theorem u19Word_fields (f : U19F) : u19Fields (u19Word f) = f := by
  obtain ⟨rd, imm19⟩ := f
  simp only [u19Fields, u19Word, U19F.mk.injEq]
  refine ⟨?_, ?_⟩
  · simp (disch := omega) only [BitVec.extractLsb'_append_eq_of_add_le, BitVec.extractLsb'_append_eq_of_le, Nat.reduceSub, BitVec.extractLsb'_eq_self]
  · simp (disch := omega) only [BitVec.extractLsb'_append_eq_of_add_le, BitVec.extractLsb'_append_eq_of_le, Nat.reduceSub, BitVec.extractLsb'_eq_self]

/-- The word of its format. -/
def bcWord (f : BcF) : W32 := 0#1 ++ 16#6 ++ f.cond ++ BitVec.ofBool f.w1 ++ f.rs1 ++ f.off15

theorem bcWord_major (f : BcF) : (bcWord f).extractLsb' 25 6 = 16#6 := by
  unfold bcWord
  simp (disch := omega) only [BitVec.extractLsb'_append_eq_of_add_le, BitVec.extractLsb'_append_eq_of_le, Nat.reduceSub, BitVec.extractLsb'_eq_self]

theorem bcWord_short (f : BcF) : (bcWord f).getLsbD 31 = false := by
  unfold bcWord
  simp only [BitVec.getLsbD_append]; simp

theorem bcWord_fields (f : BcF) : bcFields (bcWord f) = f := by
  obtain ⟨cond, w1, rs1, off15⟩ := f
  simp only [bcFields, bcWord, BcF.mk.injEq]
  refine ⟨?_, ?_, ?_, ?_⟩
  · simp (disch := omega) only [BitVec.extractLsb'_append_eq_of_add_le, BitVec.extractLsb'_append_eq_of_le, Nat.reduceSub, BitVec.extractLsb'_eq_self]
  · simp only [BitVec.getLsbD_append]; simp
  · simp (disch := omega) only [BitVec.extractLsb'_append_eq_of_add_le, BitVec.extractLsb'_append_eq_of_le, Nat.reduceSub, BitVec.extractLsb'_eq_self]
  · simp (disch := omega) only [BitVec.extractLsb'_append_eq_of_add_le, BitVec.extractLsb'_append_eq_of_le, Nat.reduceSub, BitVec.extractLsb'_eq_self]

/-- The word of its format. -/
def lpWord (f : LpF) : W32 := 0#1 ++ 17#6 ++ f.rs1 ++ BitVec.ofBool f.w1 ++ f.res ++ f.off16

theorem lpWord_major (f : LpF) : (lpWord f).extractLsb' 25 6 = 17#6 := by
  unfold lpWord
  simp (disch := omega) only [BitVec.extractLsb'_append_eq_of_add_le, BitVec.extractLsb'_append_eq_of_le, Nat.reduceSub, BitVec.extractLsb'_eq_self]

theorem lpWord_short (f : LpF) : (lpWord f).getLsbD 31 = false := by
  unfold lpWord
  simp only [BitVec.getLsbD_append]; simp

theorem lpWord_fields (f : LpF) : lpFields (lpWord f) = f := by
  obtain ⟨rs1, w1, res, off16⟩ := f
  simp only [lpFields, lpWord, LpF.mk.injEq]
  refine ⟨?_, ?_, ?_, ?_⟩
  · simp (disch := omega) only [BitVec.extractLsb'_append_eq_of_add_le, BitVec.extractLsb'_append_eq_of_le, Nat.reduceSub, BitVec.extractLsb'_eq_self]
  · simp only [BitVec.getLsbD_append]; simp
  · simp (disch := omega) only [BitVec.extractLsb'_append_eq_of_add_le, BitVec.extractLsb'_append_eq_of_le, Nat.reduceSub, BitVec.extractLsb'_eq_self]
  · simp (disch := omega) only [BitVec.extractLsb'_append_eq_of_add_le, BitVec.extractLsb'_append_eq_of_le, Nat.reduceSub, BitVec.extractLsb'_eq_self]

/-- The word of its format. -/
def sysWord (m : BitVec 6) (f : SysF) : W32 := 0#1 ++ m ++ f.rd ++ f.rs1 ++ f.sel13

theorem sysWord_major (m : BitVec 6) (f : SysF) : (sysWord m f).extractLsb' 25 6 = m := by
  unfold sysWord
  simp (disch := omega) only [BitVec.extractLsb'_append_eq_of_add_le, BitVec.extractLsb'_append_eq_of_le, Nat.reduceSub, BitVec.extractLsb'_eq_self]

theorem sysWord_short (m : BitVec 6) (f : SysF) : (sysWord m f).getLsbD 31 = false := by
  unfold sysWord
  simp only [BitVec.getLsbD_append]; simp

theorem sysWord_fields (m : BitVec 6) (f : SysF) : sysFields (sysWord m f) = f := by
  obtain ⟨rd, rs1, sel13⟩ := f
  simp only [sysFields, sysWord, SysF.mk.injEq]
  refine ⟨?_, ?_, ?_⟩
  · simp (disch := omega) only [BitVec.extractLsb'_append_eq_of_add_le, BitVec.extractLsb'_append_eq_of_le, Nat.reduceSub, BitVec.extractLsb'_eq_self]
  · simp (disch := omega) only [BitVec.extractLsb'_append_eq_of_add_le, BitVec.extractLsb'_append_eq_of_le, Nat.reduceSub, BitVec.extractLsb'_eq_self]
  · simp (disch := omega) only [BitVec.extractLsb'_append_eq_of_add_le, BitVec.extractLsb'_append_eq_of_le, Nat.reduceSub, BitVec.extractLsb'_eq_self]

/-- The word of its format. -/
def j25Word (m : BitVec 6) (f : J25F) : W32 := 0#1 ++ m ++ f.off25

theorem j25Word_major (m : BitVec 6) (f : J25F) : (j25Word m f).extractLsb' 25 6 = m := by
  unfold j25Word
  simp (disch := omega) only [BitVec.extractLsb'_append_eq_of_add_le, BitVec.extractLsb'_append_eq_of_le, Nat.reduceSub, BitVec.extractLsb'_eq_self]

theorem j25Word_short (m : BitVec 6) (f : J25F) : (j25Word m f).getLsbD 31 = false := by
  unfold j25Word
  simp only [BitVec.getLsbD_append]; simp

theorem j25Word_fields (m : BitVec 6) (f : J25F) : j25Fields (j25Word m f) = f := by
  obtain ⟨off25⟩ := f
  simp only [j25Fields, j25Word, J25F.mk.injEq]
  simp (disch := omega) only [BitVec.extractLsb'_append_eq_of_add_le, BitVec.extractLsb'_append_eq_of_le, Nat.reduceSub, BitVec.extractLsb'_eq_self]

end Sys2Proof.Laws
end

