-- ==== Sys2Proof/Laws/Memory.lean ====
section
/-!
SUPPORT. Sys2Proof/Laws/Memory.lean: the canonical form of memory, kept by every operation, and reads after writes.
-/

namespace Sys2Proof.Machine.Memory

/-- The canonical form as a property: addresses rising, no cell at what an unlisted address reads as. -/
theorem wf_iff (e : Nat) (m : List Host.Cell) :
    wf e m = true ↔ m.Pairwise (fun a b => a.1 < b.1) ∧ ∀ c ∈ m, c.2 ≠ unlisted e c.1 := by
  induction m with
  | nil => simp [wf]
  | cons c r ih =>
    obtain ⟨a, b⟩ := c
    cases r with
    | nil => simp [wf]
    | cons c' r' =>
      obtain ⟨a', b'⟩ := c'
      rw [wf]
      simp only [Bool.and_eq_true, bne_iff_ne, decide_eq_true_eq, ih, List.pairwise_cons, List.forall_mem_cons]
      constructor
      · rintro ⟨⟨hb, ha⟩, ⟨h1, h2⟩, h3⟩
        exact ⟨⟨⟨ha, fun x hx => Nat.lt_trans ha (h1 x hx)⟩, h1, h2⟩, hb, h3⟩
      · rintro ⟨⟨⟨ha, _⟩, h1, h2⟩, hb, h3⟩
        exact ⟨⟨hb, ha⟩, ⟨h1, h2⟩, h3⟩

theorem wf_filter (e : Nat) (m : List Host.Cell) (p : Host.Cell → Bool) (h : wf e m = true) :
    wf e (m.filter p) = true := by
  rw [wf_iff] at h ⊢
  exact ⟨h.1.filter p, fun c hc => h.2 c (List.mem_of_mem_filter hc)⟩

theorem mem_ins (m : List Host.Cell) (a : Nat) (b : Byte) (c : Host.Cell) (h : c ∈ ins m a b) : c = (a, b) ∨ c ∈ m := by
  induction m with
  | nil => simpa [ins] using h
  | cons x r ih =>
    obtain ⟨j, v⟩ := x
    unfold ins at h
    split at h
    · simpa using h
    · rcases List.mem_cons.mp h with h | h
      · exact .inr (by simp [h])
      · rcases ih h with h | h
        · exact .inl h
        · exact .inr (List.mem_cons_of_mem _ h)

theorem pairwise_ins (m : List Host.Cell) (a : Nat) (b : Byte) (h : m.Pairwise (fun a b => a.1 < b.1))
    (hn : ∀ c ∈ m, c.1 ≠ a) : (ins m a b).Pairwise (fun a b => a.1 < b.1) := by
  induction m with
  | nil => simp [ins]
  | cons x r ih =>
    obtain ⟨j, v⟩ := x
    rw [List.pairwise_cons] at h
    unfold ins
    split
    · next hj =>
      refine List.pairwise_cons.mpr ⟨?_, List.pairwise_cons.mpr h⟩
      intro c hc
      rcases List.mem_cons.mp hc with rfl | hc
      · exact hj
      · exact Nat.lt_trans hj (h.1 c hc)
    · next hj =>
      refine List.pairwise_cons.mpr ⟨?_, ih h.2 (fun c hc => hn c (List.mem_cons_of_mem _ hc))⟩
      intro c hc
      rcases mem_ins r a b c hc with rfl | hc
      · have : j ≠ a := hn (j, v) (by simp)
        simp only
        omega
      · exact h.1 c hc

/-- A byte stored keeps the canonical form. -/
theorem wf_set (e : Nat) (m : List Host.Cell) (a : Nat) (b : Byte) (h : wf e m = true) : wf e (set e m a b) = true := by
  unfold set
  have hf := wf_filter e m (fun c => c.1 != a) h
  split
  · exact hf
  · next hb =>
    rw [wf_iff] at hf ⊢
    refine ⟨pairwise_ins _ a b hf.1 (by simp), ?_⟩
    intro c hc
    rcases mem_ins _ a b c hc with rfl | hc
    · exact hb
    · exact hf.2 c hc

theorem wf_cellsOf (e a : Nat) (bs : List Byte) :
    (cellsOf e a bs).Pairwise (fun a b => a.1 < b.1) ∧
      ∀ c ∈ cellsOf e a bs, a ≤ c.1 ∧ c.1 < a + bs.length ∧ c.2 ≠ unlisted e c.1 := by
  induction bs generalizing a with
  | nil => simp [cellsOf]
  | cons b r ih =>
    have hr := ih (a + 1)
    unfold cellsOf
    split
    · refine ⟨hr.1, fun c hc => ?_⟩
      have := hr.2 c hc
      simp only [List.length_cons]
      exact ⟨by omega, by omega, this.2.2⟩
    · next hb =>
      refine ⟨List.pairwise_cons.mpr ⟨fun c hc => ?_, hr.1⟩, fun c hc => ?_⟩
      · have := hr.2 c hc
        simp only
        omega
      · simp only [List.length_cons]
        rcases List.mem_cons.mp hc with rfl | hc
        · exact ⟨Nat.le_refl _, by omega, hb⟩
        · have := hr.2 c hc
          exact ⟨by omega, by omega, this.2.2⟩

/-- A range replaced keeps the canonical form. -/
theorem wf_put (e : Nat) (m : List Host.Cell) (a : Nat) (bs : List Byte) (h : wf e m = true) :
    wf e (put e m a bs) = true := by
  have h1 := wf_filter e m (fun c => decide (c.1 < a)) h
  have h2 := wf_filter e m (fun c => decide (a + bs.length ≤ c.1)) h
  have hc := wf_cellsOf e a bs
  rw [wf_iff] at h1 h2 ⊢
  unfold put
  refine ⟨?_, ?_⟩
  · rw [List.append_assoc, List.pairwise_append]
    refine ⟨h1.1, ?_, ?_⟩
    · rw [List.pairwise_append]
      refine ⟨hc.1, h2.1, ?_⟩
      intro x hx y hy
      have := hc.2 x hx
      have := List.of_mem_filter hy
      simp only [decide_eq_true_eq] at this
      omega
    · intro x hx y hy
      have hx' := List.of_mem_filter hx
      simp only [decide_eq_true_eq] at hx'
      rcases List.mem_append.mp hy with hy | hy
      · have := hc.2 y hy
        omega
      · have := List.of_mem_filter hy
        simp only [decide_eq_true_eq] at this
        omega
  · intro c hx
    rcases List.mem_append.mp hx with hx | hx
    · rcases List.mem_append.mp hx with hx | hx
      · exact h1.2 c hx
      · exact (hc.2 c hx).2.2
    · exact h2.2 c hx

theorem get_of_not_mem (e : Nat) (m : List Host.Cell) (a : Nat) (h : ∀ c ∈ m, c.1 ≠ a) : get e m a = unlisted e a := by
  induction m with
  | nil => rfl
  | cons x r ih =>
    obtain ⟨j, v⟩ := x
    have hj : ¬ a = j := fun c => h (j, v) (by simp) c.symm
    simp only [get, if_neg hj]
    exact ih (fun c hc => h c (List.mem_cons_of_mem _ hc))

theorem get_ins_same (e : Nat) (m : List Host.Cell) (a : Nat) (b : Byte) (h : ∀ c ∈ m, c.1 ≠ a) :
    get e (ins m a b) a = b := by
  induction m with
  | nil => simp [ins, get]
  | cons x r ih =>
    obtain ⟨j, v⟩ := x
    have hj : ¬ a = j := fun c => h (j, v) (by simp) c.symm
    unfold ins
    split
    · simp [get]
    · simp only [get, if_neg hj]
      exact ih (fun c hc => h c (List.mem_cons_of_mem _ hc))

theorem get_ins_ne (e : Nat) (m : List Host.Cell) (a i : Nat) (b : Byte) (h : i ≠ a) : get e (ins m a b) i = get e m i := by
  induction m with
  | nil => simp [ins, get, h]
  | cons x r ih =>
    obtain ⟨j, v⟩ := x
    unfold ins
    split
    · simp [get, h]
    · simp [get, ih]

theorem get_filter_ne (e : Nat) (m : List Host.Cell) (a i : Nat) (h : i ≠ a) :
    get e (m.filter (fun c => c.1 != a)) i = get e m i := by
  induction m with
  | nil => rfl
  | cons x r ih =>
    obtain ⟨j, v⟩ := x
    by_cases hj : j = a
    · subst hj; simp [get, h, ih]
    · simp [get, hj, ih]

/-- A byte read where it was stored. -/
@[simp] theorem get_set_same (e : Nat) (m : List Host.Cell) (a : Nat) (b : Byte) : get e (set e m a b) a = b := by
  unfold set
  have hn : ∀ c ∈ m.filter (fun c => c.1 != a), c.1 ≠ a := by simp
  split
  · next hb => rw [hb]; exact get_of_not_mem e _ a hn
  · exact get_ins_same e _ a b hn

/-- Every other byte reads as before. -/
theorem get_set_ne (e : Nat) (m : List Host.Cell) (a i : Nat) (b : Byte) (h : i ≠ a) :
    get e (set e m a b) i = get e m i := by
  unfold set
  split
  · exact get_filter_ne e m a i h
  · rw [get_ins_ne e _ a i b h]; exact get_filter_ne e m a i h

end Sys2Proof.Machine.Memory
end

