-- ==== Sys2Proof/Laws/State.lean ====
section
/-!
SUPPORT. Sys2Proof/Laws/State.lean: the laws of sparse tables, and what each update of the state leaves alone.
-/

namespace Sys2Proof.Machine

/-! ### Sparse tables -/

theorem tget_tins_same {α : Type} (d : α) (t : Tbl α) (k : Nat) (v : α) (h : ∀ e ∈ t, e.1 ≠ k) :
    tget d (tins t k v) k = v := by
  induction t with
  | nil => simp [tins, tget]
  | cons e r ih =>
    obtain ⟨j, w⟩ := e
    have hj : k ≠ j := fun c => h (j, w) (by simp) c.symm
    unfold tins
    split
    · simp [tget]
    · simp [tget, hj, ih (fun e he => h e (by simp [he]))]

theorem tget_tins_ne {α : Type} (d : α) (t : Tbl α) (k i : Nat) (v : α) (h : i ≠ k) :
    tget d (tins t k v) i = tget d t i := by
  induction t with
  | nil => simp [tins, tget, h]
  | cons e r ih =>
    obtain ⟨j, w⟩ := e
    unfold tins
    split
    · simp [tget, h]
    · simp [tget, ih]

theorem tget_filter_ne {α : Type} (d : α) (t : Tbl α) (k i : Nat) (h : i ≠ k) :
    tget d (t.filter (fun e => e.1 != k)) i = tget d t i := by
  induction t with
  | nil => rfl
  | cons e r ih =>
    obtain ⟨j, w⟩ := e
    by_cases hj : j = k
    · subst hj; simp [tget, h, ih]
    · simp [tget, hj, ih]

theorem tget_filter_same {α : Type} (d : α) (t : Tbl α) (k : Nat) : tget d (t.filter (fun e => e.1 != k)) k = d := by
  induction t with
  | nil => rfl
  | cons e r ih =>
    obtain ⟨j, w⟩ := e
    by_cases hj : j = k
    · subst hj; simp [ih]
    · have hk : ¬ k = j := fun c => hj c.symm
      simp [tget, hj, hk, ih]

/-- Reading the key that was set. -/
@[simp] theorem tget_tset_same {α : Type} [DecidableEq α] (d : α) (t : Tbl α) (k : Nat) (v : α) :
    tget d (tset d t k v) k = v := by
  unfold tset
  split
  · next h => rw [h]; exact tget_filter_same d t k
  · exact tget_tins_same d _ k v (by simp)

/-- Reading another key. -/
theorem tget_tset_ne {α : Type} [DecidableEq α] (d : α) (t : Tbl α) (k i : Nat) (v : α) (h : i ≠ k) :
    tget d (tset d t k v) i = tget d t i := by
  unfold tset
  split
  · exact tget_filter_ne d t k i h
  · rw [tget_tins_ne _ _ _ _ _ h]; exact tget_filter_ne d t k i h

/-! ### Records read after they are written -/

@[simp] theorem getCore_setCore (s : State) (n : Nat) (c : Core) : getCore (setCore s n c) n = c := by
  simp [getCore, setCore]
theorem getCore_setCore_ne (s : State) (n m : Nat) (c : Core) (h : m ≠ n) : getCore (setCore s n c) m = getCore s m := by
  simp [getCore, setCore, tget_tset_ne _ _ _ _ _ h]
@[simp] theorem getCore_modCore (s : State) (n : Nat) (f : Core → Core) : getCore (modCore s n f) n = f (getCore s n) := by
  simp [modCore]
theorem getCore_modCore_ne (s : State) (n m : Nat) (f : Core → Core) (h : m ≠ n) :
    getCore (modCore s n f) m = getCore s m := by
  simp [modCore, getCore_setCore_ne s n m _ h]
@[simp] theorem getCtx_setCtx (s : State) (n c : Nat) (x : Ctx) : getCtx (setCtx s n c x) n c = x := by
  simp [getCtx, setCtx]
@[simp] theorem getCtx_modCtx (s : State) (n c : Nat) (f : Ctx → Ctx) : getCtx (modCtx s n c f) n c = f (getCtx s n c) := by
  simp [modCtx]
@[simp] theorem getStream_setStream (s : State) (w : StreamId) (x : Stream) : getStream (setStream s w x) w = x := by
  unfold getStream setStream
  split <;> simp_all
@[simp] theorem getStream_modStream (s : State) (w : StreamId) (f : Stream → Stream) :
    getStream (modStream s w f) w = f (getStream s w) := by
  simp [modStream]
/-- Another stream is as it was. -/
theorem getStream_setStream_ne (s : State) (w v : StreamId) (x : Stream) (h : v ≠ w) :
    getStream (setStream s w x) v = getStream s v := by
  obtain ⟨n, c, a⟩ := w
  obtain ⟨m, d, b⟩ := v
  unfold getStream setStream
  by_cases hn : m = n
  · subst hn
    cases a <;> cases b <;> simp [getCore_modCore]
    · have hd : d ≠ c := fun e => h (by rw [e])
      exact tget_tset_ne _ _ _ _ _ hd
    · have hd : d ≠ c := fun e => h (by rw [e])
      exact tget_tset_ne _ _ _ _ _ hd
  · simp only [getCore_modCore_ne _ _ _ _ hn]
theorem getStream_modStream_ne (s : State) (w v : StreamId) (f : Stream → Stream) (h : v ≠ w) :
    getStream (modStream s w f) v = getStream s v := getStream_setStream_ne s w v _ h
@[simp] theorem curStream_modCur (s : State) (f : Stream → Stream) : curStream (modCur s f) = f (curStream s) :=
  getStream_modStream s s.cur f
@[simp] theorem getCtx_setStream (s : State) (w : StreamId) (x : Stream) (n c : Nat) :
    getCtx (setStream s w x) n c = getCtx s n c := by
  unfold getCtx setStream
  by_cases hn : n = w.core
  · subst hn
    simp only [getCore_modCore]
    split <;> rfl
  · simp only [getCore_modCore_ne _ _ _ _ hn]
@[simp] theorem getCtx_modStream (s : State) (w : StreamId) (f : Stream → Stream) (n c : Nat) :
    getCtx (modStream s w f) n c = getCtx s n c := getCtx_setStream s w _ n c
@[simp] theorem curCtx_modCur (s : State) (f : Stream → Stream) : curCtx (modCur s f) = curCtx s :=
  getCtx_modStream s s.cur f _ _
@[simp] theorem getStream_setCtx (s : State) (n c : Nat) (x : Ctx) (w : StreamId) :
    getStream (setCtx s n c x) w = getStream s w := by
  unfold getStream setCtx
  by_cases hn : w.core = n
  · subst hn
    simp only [getCore_modCore]
  · simp only [getCore_modCore_ne _ _ _ _ hn]
@[simp] theorem getStream_modCtx (s : State) (n c : Nat) (f : Ctx → Ctx) (w : StreamId) :
    getStream (modCtx s n c f) w = getStream s w := getStream_setCtx s n c _ w
@[simp] theorem getCluster_modCluster (s : State) (k : Nat) (f : Cluster → Cluster) :
    getCluster (modCluster s k f) k = f (getCluster s k) := by
  simp [getCluster, modCluster]
@[simp] theorem getDie_modDie (s : State) (d : Nat) (f : Die → Die) : getDie (modDie s d f) d = f (getDie s d) := by
  simp [getDie, modDie]
@[simp] theorem getStack_modStack (s : State) (k : Nat) (f : Stack → Stack) :
    getStack (modStack s k f) k = f (getStack s k) := by
  simp [getStack, modStack]
@[simp] theorem modDev_dev (s : State) (f : Dev → Dev) : (modDev s f).dev = f s.dev := rfl
@[simp] theorem modMgmt_mgmt (s : State) (f : Mgmt → Mgmt) : (modMgmt s f).mgmt = f s.mgmt := rfl
@[simp] theorem getLaunch_setLaunch (s : State) (e : Nat) (l : Launch) : getLaunch (setLaunch s e l) e = l := by
  simp [getLaunch, setLaunch]
@[simp] theorem getLaunch_modLaunch (s : State) (e : Nat) (f : Launch → Launch) :
    getLaunch (modLaunch s e f) e = f (getLaunch s e) := by
  simp [modLaunch]
@[simp] theorem getInst_setInst (s : State) (n k : Nat) (x : Option Inst) : getInst (setInst s n k x) n k = x := by
  simp [getInst, setInst]
@[simp] theorem getChan_setChan (s : State) (n k : Nat) (x : Option Chan) : getChan (setChan s n k x) n k = x := by
  simp [getChan, setChan]

/-! ### What an update leaves alone, field by field -/

@[simp] theorem setCore_mem (s : State) (n : Nat) (c : Core) : (setCore s n c).mem = s.mem := rfl
@[simp] theorem setCore_clusters (s : State) (n : Nat) (c : Core) : (setCore s n c).clusters = s.clusters := rfl
@[simp] theorem setCore_dies (s : State) (n : Nat) (c : Core) : (setCore s n c).dies = s.dies := rfl
@[simp] theorem setCore_hbm (s : State) (n : Nat) (c : Core) : (setCore s n c).hbm = s.hbm := rfl
@[simp] theorem setCore_dev (s : State) (n : Nat) (c : Core) : (setCore s n c).dev = s.dev := rfl
@[simp] theorem setCore_mgmt (s : State) (n : Nat) (c : Core) : (setCore s n c).mgmt = s.mgmt := rfl
@[simp] theorem setCore_reqs (s : State) (n : Nat) (c : Core) : (setCore s n c).reqs = s.reqs := rfl
@[simp] theorem setCore_freqs (s : State) (n : Nat) (c : Core) : (setCore s n c).freqs = s.freqs := rfl
@[simp] theorem setCore_nextId (s : State) (n : Nat) (c : Core) : (setCore s n c).nextId = s.nextId := rfl
@[simp] theorem setCore_time (s : State) (n : Nat) (c : Core) : (setCore s n c).time = s.time := rfl
@[simp] theorem setCore_cycle (s : State) (n : Nat) (c : Core) : (setCore s n c).cycle = s.cycle := rfl
@[simp] theorem setCore_replay (s : State) (n : Nat) (c : Core) : (setCore s n c).replay = s.replay := rfl
@[simp] theorem setCore_matrixBusy (s : State) (n : Nat) (c : Core) : (setCore s n c).matrixBusy = s.matrixBusy := rfl
@[simp] theorem setCore_traffic (s : State) (n : Nat) (c : Core) : (setCore s n c).traffic = s.traffic := rfl
@[simp] theorem setCore_unacked (s : State) (n : Nat) (c : Core) : (setCore s n c).unacked = s.unacked := rfl
@[simp] theorem setCore_heldBack (s : State) (n : Nat) (c : Core) : (setCore s n c).heldBack = s.heldBack := rfl
@[simp] theorem setCore_cur (s : State) (n : Nat) (c : Core) : (setCore s n c).cur = s.cur := rfl
@[simp] theorem setCore_turns (s : State) (n : Nat) (c : Core) : (setCore s n c).turns = s.turns := rfl
@[simp] theorem setCore_agenda (s : State) (n : Nat) (c : Core) : (setCore s n c).agenda = s.agenda := rfl
@[simp] theorem setCore_drain (s : State) (n : Nat) (c : Core) : (setCore s n c).drain = s.drain := rfl
@[simp] theorem setCore_ahead (s : State) (n : Nat) (c : Core) : (setCore s n c).ahead = s.ahead := rfl
@[simp] theorem setCore_tick (s : State) (n : Nat) (c : Core) : (setCore s n c).tick = s.tick := rfl
@[simp] theorem setCore_epoch (s : State) (n : Nat) (c : Core) : (setCore s n c).epoch = s.epoch := rfl
@[simp] theorem setCore_openCnt (s : State) (n : Nat) (c : Core) : (setCore s n c).openCnt = s.openCnt := rfl

@[simp] theorem modCore_mem (s : State) (n : Nat) (f : Core → Core) : (modCore s n f).mem = s.mem := rfl
@[simp] theorem modCore_clusters (s : State) (n : Nat) (f : Core → Core) : (modCore s n f).clusters = s.clusters := rfl
@[simp] theorem modCore_dies (s : State) (n : Nat) (f : Core → Core) : (modCore s n f).dies = s.dies := rfl
@[simp] theorem modCore_hbm (s : State) (n : Nat) (f : Core → Core) : (modCore s n f).hbm = s.hbm := rfl
@[simp] theorem modCore_dev (s : State) (n : Nat) (f : Core → Core) : (modCore s n f).dev = s.dev := rfl
@[simp] theorem modCore_mgmt (s : State) (n : Nat) (f : Core → Core) : (modCore s n f).mgmt = s.mgmt := rfl
@[simp] theorem modCore_reqs (s : State) (n : Nat) (f : Core → Core) : (modCore s n f).reqs = s.reqs := rfl
@[simp] theorem modCore_freqs (s : State) (n : Nat) (f : Core → Core) : (modCore s n f).freqs = s.freqs := rfl
@[simp] theorem modCore_nextId (s : State) (n : Nat) (f : Core → Core) : (modCore s n f).nextId = s.nextId := rfl
@[simp] theorem modCore_time (s : State) (n : Nat) (f : Core → Core) : (modCore s n f).time = s.time := rfl
@[simp] theorem modCore_cycle (s : State) (n : Nat) (f : Core → Core) : (modCore s n f).cycle = s.cycle := rfl
@[simp] theorem modCore_replay (s : State) (n : Nat) (f : Core → Core) : (modCore s n f).replay = s.replay := rfl
@[simp] theorem modCore_matrixBusy (s : State) (n : Nat) (f : Core → Core) : (modCore s n f).matrixBusy = s.matrixBusy := rfl
@[simp] theorem modCore_traffic (s : State) (n : Nat) (f : Core → Core) : (modCore s n f).traffic = s.traffic := rfl
@[simp] theorem modCore_unacked (s : State) (n : Nat) (f : Core → Core) : (modCore s n f).unacked = s.unacked := rfl
@[simp] theorem modCore_heldBack (s : State) (n : Nat) (f : Core → Core) : (modCore s n f).heldBack = s.heldBack := rfl
@[simp] theorem modCore_cur (s : State) (n : Nat) (f : Core → Core) : (modCore s n f).cur = s.cur := rfl
@[simp] theorem modCore_turns (s : State) (n : Nat) (f : Core → Core) : (modCore s n f).turns = s.turns := rfl
@[simp] theorem modCore_agenda (s : State) (n : Nat) (f : Core → Core) : (modCore s n f).agenda = s.agenda := rfl
@[simp] theorem modCore_drain (s : State) (n : Nat) (f : Core → Core) : (modCore s n f).drain = s.drain := rfl
@[simp] theorem modCore_ahead (s : State) (n : Nat) (f : Core → Core) : (modCore s n f).ahead = s.ahead := rfl
@[simp] theorem modCore_tick (s : State) (n : Nat) (f : Core → Core) : (modCore s n f).tick = s.tick := rfl
@[simp] theorem modCore_epoch (s : State) (n : Nat) (f : Core → Core) : (modCore s n f).epoch = s.epoch := rfl
@[simp] theorem modCore_openCnt (s : State) (n : Nat) (f : Core → Core) : (modCore s n f).openCnt = s.openCnt := rfl

@[simp] theorem setCtx_mem (s : State) (n c : Nat) (x : Ctx) : (setCtx s n c x).mem = s.mem := rfl
@[simp] theorem setCtx_clusters (s : State) (n c : Nat) (x : Ctx) : (setCtx s n c x).clusters = s.clusters := rfl
@[simp] theorem setCtx_dies (s : State) (n c : Nat) (x : Ctx) : (setCtx s n c x).dies = s.dies := rfl
@[simp] theorem setCtx_hbm (s : State) (n c : Nat) (x : Ctx) : (setCtx s n c x).hbm = s.hbm := rfl
@[simp] theorem setCtx_dev (s : State) (n c : Nat) (x : Ctx) : (setCtx s n c x).dev = s.dev := rfl
@[simp] theorem setCtx_mgmt (s : State) (n c : Nat) (x : Ctx) : (setCtx s n c x).mgmt = s.mgmt := rfl
@[simp] theorem setCtx_reqs (s : State) (n c : Nat) (x : Ctx) : (setCtx s n c x).reqs = s.reqs := rfl
@[simp] theorem setCtx_freqs (s : State) (n c : Nat) (x : Ctx) : (setCtx s n c x).freqs = s.freqs := rfl
@[simp] theorem setCtx_nextId (s : State) (n c : Nat) (x : Ctx) : (setCtx s n c x).nextId = s.nextId := rfl
@[simp] theorem setCtx_time (s : State) (n c : Nat) (x : Ctx) : (setCtx s n c x).time = s.time := rfl
@[simp] theorem setCtx_cycle (s : State) (n c : Nat) (x : Ctx) : (setCtx s n c x).cycle = s.cycle := rfl
@[simp] theorem setCtx_replay (s : State) (n c : Nat) (x : Ctx) : (setCtx s n c x).replay = s.replay := rfl
@[simp] theorem setCtx_matrixBusy (s : State) (n c : Nat) (x : Ctx) : (setCtx s n c x).matrixBusy = s.matrixBusy := rfl
@[simp] theorem setCtx_traffic (s : State) (n c : Nat) (x : Ctx) : (setCtx s n c x).traffic = s.traffic := rfl
@[simp] theorem setCtx_unacked (s : State) (n c : Nat) (x : Ctx) : (setCtx s n c x).unacked = s.unacked := rfl
@[simp] theorem setCtx_heldBack (s : State) (n c : Nat) (x : Ctx) : (setCtx s n c x).heldBack = s.heldBack := rfl
@[simp] theorem setCtx_cur (s : State) (n c : Nat) (x : Ctx) : (setCtx s n c x).cur = s.cur := rfl
@[simp] theorem setCtx_turns (s : State) (n c : Nat) (x : Ctx) : (setCtx s n c x).turns = s.turns := rfl
@[simp] theorem setCtx_agenda (s : State) (n c : Nat) (x : Ctx) : (setCtx s n c x).agenda = s.agenda := rfl
@[simp] theorem setCtx_drain (s : State) (n c : Nat) (x : Ctx) : (setCtx s n c x).drain = s.drain := rfl
@[simp] theorem setCtx_ahead (s : State) (n c : Nat) (x : Ctx) : (setCtx s n c x).ahead = s.ahead := rfl
@[simp] theorem setCtx_tick (s : State) (n c : Nat) (x : Ctx) : (setCtx s n c x).tick = s.tick := rfl
@[simp] theorem setCtx_epoch (s : State) (n c : Nat) (x : Ctx) : (setCtx s n c x).epoch = s.epoch := rfl
@[simp] theorem setCtx_openCnt (s : State) (n c : Nat) (x : Ctx) : (setCtx s n c x).openCnt = s.openCnt := rfl

@[simp] theorem modCtx_mem (s : State) (n c : Nat) (f : Ctx → Ctx) : (modCtx s n c f).mem = s.mem := rfl
@[simp] theorem modCtx_clusters (s : State) (n c : Nat) (f : Ctx → Ctx) : (modCtx s n c f).clusters = s.clusters := rfl
@[simp] theorem modCtx_dies (s : State) (n c : Nat) (f : Ctx → Ctx) : (modCtx s n c f).dies = s.dies := rfl
@[simp] theorem modCtx_hbm (s : State) (n c : Nat) (f : Ctx → Ctx) : (modCtx s n c f).hbm = s.hbm := rfl
@[simp] theorem modCtx_dev (s : State) (n c : Nat) (f : Ctx → Ctx) : (modCtx s n c f).dev = s.dev := rfl
@[simp] theorem modCtx_mgmt (s : State) (n c : Nat) (f : Ctx → Ctx) : (modCtx s n c f).mgmt = s.mgmt := rfl
@[simp] theorem modCtx_reqs (s : State) (n c : Nat) (f : Ctx → Ctx) : (modCtx s n c f).reqs = s.reqs := rfl
@[simp] theorem modCtx_freqs (s : State) (n c : Nat) (f : Ctx → Ctx) : (modCtx s n c f).freqs = s.freqs := rfl
@[simp] theorem modCtx_nextId (s : State) (n c : Nat) (f : Ctx → Ctx) : (modCtx s n c f).nextId = s.nextId := rfl
@[simp] theorem modCtx_time (s : State) (n c : Nat) (f : Ctx → Ctx) : (modCtx s n c f).time = s.time := rfl
@[simp] theorem modCtx_cycle (s : State) (n c : Nat) (f : Ctx → Ctx) : (modCtx s n c f).cycle = s.cycle := rfl
@[simp] theorem modCtx_replay (s : State) (n c : Nat) (f : Ctx → Ctx) : (modCtx s n c f).replay = s.replay := rfl
@[simp] theorem modCtx_matrixBusy (s : State) (n c : Nat) (f : Ctx → Ctx) : (modCtx s n c f).matrixBusy = s.matrixBusy := rfl
@[simp] theorem modCtx_traffic (s : State) (n c : Nat) (f : Ctx → Ctx) : (modCtx s n c f).traffic = s.traffic := rfl
@[simp] theorem modCtx_unacked (s : State) (n c : Nat) (f : Ctx → Ctx) : (modCtx s n c f).unacked = s.unacked := rfl
@[simp] theorem modCtx_heldBack (s : State) (n c : Nat) (f : Ctx → Ctx) : (modCtx s n c f).heldBack = s.heldBack := rfl
@[simp] theorem modCtx_cur (s : State) (n c : Nat) (f : Ctx → Ctx) : (modCtx s n c f).cur = s.cur := rfl
@[simp] theorem modCtx_turns (s : State) (n c : Nat) (f : Ctx → Ctx) : (modCtx s n c f).turns = s.turns := rfl
@[simp] theorem modCtx_agenda (s : State) (n c : Nat) (f : Ctx → Ctx) : (modCtx s n c f).agenda = s.agenda := rfl
@[simp] theorem modCtx_drain (s : State) (n c : Nat) (f : Ctx → Ctx) : (modCtx s n c f).drain = s.drain := rfl
@[simp] theorem modCtx_ahead (s : State) (n c : Nat) (f : Ctx → Ctx) : (modCtx s n c f).ahead = s.ahead := rfl
@[simp] theorem modCtx_tick (s : State) (n c : Nat) (f : Ctx → Ctx) : (modCtx s n c f).tick = s.tick := rfl
@[simp] theorem modCtx_epoch (s : State) (n c : Nat) (f : Ctx → Ctx) : (modCtx s n c f).epoch = s.epoch := rfl
@[simp] theorem modCtx_openCnt (s : State) (n c : Nat) (f : Ctx → Ctx) : (modCtx s n c f).openCnt = s.openCnt := rfl

@[simp] theorem setStream_mem (s : State) (w : StreamId) (x : Stream) : (setStream s w x).mem = s.mem := rfl
@[simp] theorem setStream_clusters (s : State) (w : StreamId) (x : Stream) : (setStream s w x).clusters = s.clusters := rfl
@[simp] theorem setStream_dies (s : State) (w : StreamId) (x : Stream) : (setStream s w x).dies = s.dies := rfl
@[simp] theorem setStream_hbm (s : State) (w : StreamId) (x : Stream) : (setStream s w x).hbm = s.hbm := rfl
@[simp] theorem setStream_dev (s : State) (w : StreamId) (x : Stream) : (setStream s w x).dev = s.dev := rfl
@[simp] theorem setStream_mgmt (s : State) (w : StreamId) (x : Stream) : (setStream s w x).mgmt = s.mgmt := rfl
@[simp] theorem setStream_reqs (s : State) (w : StreamId) (x : Stream) : (setStream s w x).reqs = s.reqs := rfl
@[simp] theorem setStream_freqs (s : State) (w : StreamId) (x : Stream) : (setStream s w x).freqs = s.freqs := rfl
@[simp] theorem setStream_nextId (s : State) (w : StreamId) (x : Stream) : (setStream s w x).nextId = s.nextId := rfl
@[simp] theorem setStream_time (s : State) (w : StreamId) (x : Stream) : (setStream s w x).time = s.time := rfl
@[simp] theorem setStream_cycle (s : State) (w : StreamId) (x : Stream) : (setStream s w x).cycle = s.cycle := rfl
@[simp] theorem setStream_replay (s : State) (w : StreamId) (x : Stream) : (setStream s w x).replay = s.replay := rfl
@[simp] theorem setStream_matrixBusy (s : State) (w : StreamId) (x : Stream) : (setStream s w x).matrixBusy = s.matrixBusy := rfl
@[simp] theorem setStream_traffic (s : State) (w : StreamId) (x : Stream) : (setStream s w x).traffic = s.traffic := rfl
@[simp] theorem setStream_unacked (s : State) (w : StreamId) (x : Stream) : (setStream s w x).unacked = s.unacked := rfl
@[simp] theorem setStream_heldBack (s : State) (w : StreamId) (x : Stream) : (setStream s w x).heldBack = s.heldBack := rfl
@[simp] theorem setStream_cur (s : State) (w : StreamId) (x : Stream) : (setStream s w x).cur = s.cur := rfl
@[simp] theorem setStream_turns (s : State) (w : StreamId) (x : Stream) : (setStream s w x).turns = s.turns := rfl
@[simp] theorem setStream_agenda (s : State) (w : StreamId) (x : Stream) : (setStream s w x).agenda = s.agenda := rfl
@[simp] theorem setStream_drain (s : State) (w : StreamId) (x : Stream) : (setStream s w x).drain = s.drain := rfl
@[simp] theorem setStream_ahead (s : State) (w : StreamId) (x : Stream) : (setStream s w x).ahead = s.ahead := rfl
@[simp] theorem setStream_tick (s : State) (w : StreamId) (x : Stream) : (setStream s w x).tick = s.tick := rfl
@[simp] theorem setStream_epoch (s : State) (w : StreamId) (x : Stream) : (setStream s w x).epoch = s.epoch := rfl
@[simp] theorem setStream_openCnt (s : State) (w : StreamId) (x : Stream) : (setStream s w x).openCnt = s.openCnt := rfl

@[simp] theorem modStream_mem (s : State) (w : StreamId) (f : Stream → Stream) : (modStream s w f).mem = s.mem := rfl
@[simp] theorem modStream_clusters (s : State) (w : StreamId) (f : Stream → Stream) : (modStream s w f).clusters = s.clusters := rfl
@[simp] theorem modStream_dies (s : State) (w : StreamId) (f : Stream → Stream) : (modStream s w f).dies = s.dies := rfl
@[simp] theorem modStream_hbm (s : State) (w : StreamId) (f : Stream → Stream) : (modStream s w f).hbm = s.hbm := rfl
@[simp] theorem modStream_dev (s : State) (w : StreamId) (f : Stream → Stream) : (modStream s w f).dev = s.dev := rfl
@[simp] theorem modStream_mgmt (s : State) (w : StreamId) (f : Stream → Stream) : (modStream s w f).mgmt = s.mgmt := rfl
@[simp] theorem modStream_reqs (s : State) (w : StreamId) (f : Stream → Stream) : (modStream s w f).reqs = s.reqs := rfl
@[simp] theorem modStream_freqs (s : State) (w : StreamId) (f : Stream → Stream) : (modStream s w f).freqs = s.freqs := rfl
@[simp] theorem modStream_nextId (s : State) (w : StreamId) (f : Stream → Stream) : (modStream s w f).nextId = s.nextId := rfl
@[simp] theorem modStream_time (s : State) (w : StreamId) (f : Stream → Stream) : (modStream s w f).time = s.time := rfl
@[simp] theorem modStream_cycle (s : State) (w : StreamId) (f : Stream → Stream) : (modStream s w f).cycle = s.cycle := rfl
@[simp] theorem modStream_replay (s : State) (w : StreamId) (f : Stream → Stream) : (modStream s w f).replay = s.replay := rfl
@[simp] theorem modStream_matrixBusy (s : State) (w : StreamId) (f : Stream → Stream) : (modStream s w f).matrixBusy = s.matrixBusy := rfl
@[simp] theorem modStream_traffic (s : State) (w : StreamId) (f : Stream → Stream) : (modStream s w f).traffic = s.traffic := rfl
@[simp] theorem modStream_unacked (s : State) (w : StreamId) (f : Stream → Stream) : (modStream s w f).unacked = s.unacked := rfl
@[simp] theorem modStream_heldBack (s : State) (w : StreamId) (f : Stream → Stream) : (modStream s w f).heldBack = s.heldBack := rfl
@[simp] theorem modStream_cur (s : State) (w : StreamId) (f : Stream → Stream) : (modStream s w f).cur = s.cur := rfl
@[simp] theorem modStream_turns (s : State) (w : StreamId) (f : Stream → Stream) : (modStream s w f).turns = s.turns := rfl
@[simp] theorem modStream_agenda (s : State) (w : StreamId) (f : Stream → Stream) : (modStream s w f).agenda = s.agenda := rfl
@[simp] theorem modStream_drain (s : State) (w : StreamId) (f : Stream → Stream) : (modStream s w f).drain = s.drain := rfl
@[simp] theorem modStream_ahead (s : State) (w : StreamId) (f : Stream → Stream) : (modStream s w f).ahead = s.ahead := rfl
@[simp] theorem modStream_tick (s : State) (w : StreamId) (f : Stream → Stream) : (modStream s w f).tick = s.tick := rfl
@[simp] theorem modStream_epoch (s : State) (w : StreamId) (f : Stream → Stream) : (modStream s w f).epoch = s.epoch := rfl
@[simp] theorem modStream_openCnt (s : State) (w : StreamId) (f : Stream → Stream) : (modStream s w f).openCnt = s.openCnt := rfl

@[simp] theorem modCur_mem (s : State) (f : Stream → Stream) : (modCur s f).mem = s.mem := rfl
@[simp] theorem modCur_clusters (s : State) (f : Stream → Stream) : (modCur s f).clusters = s.clusters := rfl
@[simp] theorem modCur_dies (s : State) (f : Stream → Stream) : (modCur s f).dies = s.dies := rfl
@[simp] theorem modCur_hbm (s : State) (f : Stream → Stream) : (modCur s f).hbm = s.hbm := rfl
@[simp] theorem modCur_dev (s : State) (f : Stream → Stream) : (modCur s f).dev = s.dev := rfl
@[simp] theorem modCur_mgmt (s : State) (f : Stream → Stream) : (modCur s f).mgmt = s.mgmt := rfl
@[simp] theorem modCur_reqs (s : State) (f : Stream → Stream) : (modCur s f).reqs = s.reqs := rfl
@[simp] theorem modCur_freqs (s : State) (f : Stream → Stream) : (modCur s f).freqs = s.freqs := rfl
@[simp] theorem modCur_nextId (s : State) (f : Stream → Stream) : (modCur s f).nextId = s.nextId := rfl
@[simp] theorem modCur_time (s : State) (f : Stream → Stream) : (modCur s f).time = s.time := rfl
@[simp] theorem modCur_cycle (s : State) (f : Stream → Stream) : (modCur s f).cycle = s.cycle := rfl
@[simp] theorem modCur_replay (s : State) (f : Stream → Stream) : (modCur s f).replay = s.replay := rfl
@[simp] theorem modCur_matrixBusy (s : State) (f : Stream → Stream) : (modCur s f).matrixBusy = s.matrixBusy := rfl
@[simp] theorem modCur_traffic (s : State) (f : Stream → Stream) : (modCur s f).traffic = s.traffic := rfl
@[simp] theorem modCur_unacked (s : State) (f : Stream → Stream) : (modCur s f).unacked = s.unacked := rfl
@[simp] theorem modCur_heldBack (s : State) (f : Stream → Stream) : (modCur s f).heldBack = s.heldBack := rfl
@[simp] theorem modCur_cur (s : State) (f : Stream → Stream) : (modCur s f).cur = s.cur := rfl
@[simp] theorem modCur_turns (s : State) (f : Stream → Stream) : (modCur s f).turns = s.turns := rfl
@[simp] theorem modCur_agenda (s : State) (f : Stream → Stream) : (modCur s f).agenda = s.agenda := rfl
@[simp] theorem modCur_drain (s : State) (f : Stream → Stream) : (modCur s f).drain = s.drain := rfl
@[simp] theorem modCur_ahead (s : State) (f : Stream → Stream) : (modCur s f).ahead = s.ahead := rfl
@[simp] theorem modCur_tick (s : State) (f : Stream → Stream) : (modCur s f).tick = s.tick := rfl
@[simp] theorem modCur_epoch (s : State) (f : Stream → Stream) : (modCur s f).epoch = s.epoch := rfl
@[simp] theorem modCur_openCnt (s : State) (f : Stream → Stream) : (modCur s f).openCnt = s.openCnt := rfl

@[simp] theorem modCurCtx_mem (s : State) (f : Ctx → Ctx) : (modCurCtx s f).mem = s.mem := rfl
@[simp] theorem modCurCtx_clusters (s : State) (f : Ctx → Ctx) : (modCurCtx s f).clusters = s.clusters := rfl
@[simp] theorem modCurCtx_dies (s : State) (f : Ctx → Ctx) : (modCurCtx s f).dies = s.dies := rfl
@[simp] theorem modCurCtx_hbm (s : State) (f : Ctx → Ctx) : (modCurCtx s f).hbm = s.hbm := rfl
@[simp] theorem modCurCtx_dev (s : State) (f : Ctx → Ctx) : (modCurCtx s f).dev = s.dev := rfl
@[simp] theorem modCurCtx_mgmt (s : State) (f : Ctx → Ctx) : (modCurCtx s f).mgmt = s.mgmt := rfl
@[simp] theorem modCurCtx_reqs (s : State) (f : Ctx → Ctx) : (modCurCtx s f).reqs = s.reqs := rfl
@[simp] theorem modCurCtx_freqs (s : State) (f : Ctx → Ctx) : (modCurCtx s f).freqs = s.freqs := rfl
@[simp] theorem modCurCtx_nextId (s : State) (f : Ctx → Ctx) : (modCurCtx s f).nextId = s.nextId := rfl
@[simp] theorem modCurCtx_time (s : State) (f : Ctx → Ctx) : (modCurCtx s f).time = s.time := rfl
@[simp] theorem modCurCtx_cycle (s : State) (f : Ctx → Ctx) : (modCurCtx s f).cycle = s.cycle := rfl
@[simp] theorem modCurCtx_replay (s : State) (f : Ctx → Ctx) : (modCurCtx s f).replay = s.replay := rfl
@[simp] theorem modCurCtx_matrixBusy (s : State) (f : Ctx → Ctx) : (modCurCtx s f).matrixBusy = s.matrixBusy := rfl
@[simp] theorem modCurCtx_traffic (s : State) (f : Ctx → Ctx) : (modCurCtx s f).traffic = s.traffic := rfl
@[simp] theorem modCurCtx_unacked (s : State) (f : Ctx → Ctx) : (modCurCtx s f).unacked = s.unacked := rfl
@[simp] theorem modCurCtx_heldBack (s : State) (f : Ctx → Ctx) : (modCurCtx s f).heldBack = s.heldBack := rfl
@[simp] theorem modCurCtx_cur (s : State) (f : Ctx → Ctx) : (modCurCtx s f).cur = s.cur := rfl
@[simp] theorem modCurCtx_turns (s : State) (f : Ctx → Ctx) : (modCurCtx s f).turns = s.turns := rfl
@[simp] theorem modCurCtx_agenda (s : State) (f : Ctx → Ctx) : (modCurCtx s f).agenda = s.agenda := rfl
@[simp] theorem modCurCtx_drain (s : State) (f : Ctx → Ctx) : (modCurCtx s f).drain = s.drain := rfl
@[simp] theorem modCurCtx_ahead (s : State) (f : Ctx → Ctx) : (modCurCtx s f).ahead = s.ahead := rfl
@[simp] theorem modCurCtx_tick (s : State) (f : Ctx → Ctx) : (modCurCtx s f).tick = s.tick := rfl
@[simp] theorem modCurCtx_epoch (s : State) (f : Ctx → Ctx) : (modCurCtx s f).epoch = s.epoch := rfl
@[simp] theorem modCurCtx_openCnt (s : State) (f : Ctx → Ctx) : (modCurCtx s f).openCnt = s.openCnt := rfl

@[simp] theorem modCluster_mem (s : State) (k : Nat) (f : Cluster → Cluster) : (modCluster s k f).mem = s.mem := rfl
@[simp] theorem modCluster_cores (s : State) (k : Nat) (f : Cluster → Cluster) : (modCluster s k f).cores = s.cores := rfl
@[simp] theorem modCluster_dies (s : State) (k : Nat) (f : Cluster → Cluster) : (modCluster s k f).dies = s.dies := rfl
@[simp] theorem modCluster_hbm (s : State) (k : Nat) (f : Cluster → Cluster) : (modCluster s k f).hbm = s.hbm := rfl
@[simp] theorem modCluster_dev (s : State) (k : Nat) (f : Cluster → Cluster) : (modCluster s k f).dev = s.dev := rfl
@[simp] theorem modCluster_mgmt (s : State) (k : Nat) (f : Cluster → Cluster) : (modCluster s k f).mgmt = s.mgmt := rfl
@[simp] theorem modCluster_reqs (s : State) (k : Nat) (f : Cluster → Cluster) : (modCluster s k f).reqs = s.reqs := rfl
@[simp] theorem modCluster_freqs (s : State) (k : Nat) (f : Cluster → Cluster) : (modCluster s k f).freqs = s.freqs := rfl
@[simp] theorem modCluster_nextId (s : State) (k : Nat) (f : Cluster → Cluster) : (modCluster s k f).nextId = s.nextId := rfl
@[simp] theorem modCluster_time (s : State) (k : Nat) (f : Cluster → Cluster) : (modCluster s k f).time = s.time := rfl
@[simp] theorem modCluster_cycle (s : State) (k : Nat) (f : Cluster → Cluster) : (modCluster s k f).cycle = s.cycle := rfl
@[simp] theorem modCluster_replay (s : State) (k : Nat) (f : Cluster → Cluster) : (modCluster s k f).replay = s.replay := rfl
@[simp] theorem modCluster_matrixBusy (s : State) (k : Nat) (f : Cluster → Cluster) : (modCluster s k f).matrixBusy = s.matrixBusy := rfl
@[simp] theorem modCluster_traffic (s : State) (k : Nat) (f : Cluster → Cluster) : (modCluster s k f).traffic = s.traffic := rfl
@[simp] theorem modCluster_unacked (s : State) (k : Nat) (f : Cluster → Cluster) : (modCluster s k f).unacked = s.unacked := rfl
@[simp] theorem modCluster_heldBack (s : State) (k : Nat) (f : Cluster → Cluster) : (modCluster s k f).heldBack = s.heldBack := rfl
@[simp] theorem modCluster_cur (s : State) (k : Nat) (f : Cluster → Cluster) : (modCluster s k f).cur = s.cur := rfl
@[simp] theorem modCluster_turns (s : State) (k : Nat) (f : Cluster → Cluster) : (modCluster s k f).turns = s.turns := rfl
@[simp] theorem modCluster_agenda (s : State) (k : Nat) (f : Cluster → Cluster) : (modCluster s k f).agenda = s.agenda := rfl
@[simp] theorem modCluster_drain (s : State) (k : Nat) (f : Cluster → Cluster) : (modCluster s k f).drain = s.drain := rfl
@[simp] theorem modCluster_ahead (s : State) (k : Nat) (f : Cluster → Cluster) : (modCluster s k f).ahead = s.ahead := rfl
@[simp] theorem modCluster_tick (s : State) (k : Nat) (f : Cluster → Cluster) : (modCluster s k f).tick = s.tick := rfl
@[simp] theorem modCluster_epoch (s : State) (k : Nat) (f : Cluster → Cluster) : (modCluster s k f).epoch = s.epoch := rfl
@[simp] theorem modCluster_openCnt (s : State) (k : Nat) (f : Cluster → Cluster) : (modCluster s k f).openCnt = s.openCnt := rfl

@[simp] theorem modDie_mem (s : State) (d : Nat) (f : Die → Die) : (modDie s d f).mem = s.mem := rfl
@[simp] theorem modDie_cores (s : State) (d : Nat) (f : Die → Die) : (modDie s d f).cores = s.cores := rfl
@[simp] theorem modDie_clusters (s : State) (d : Nat) (f : Die → Die) : (modDie s d f).clusters = s.clusters := rfl
@[simp] theorem modDie_hbm (s : State) (d : Nat) (f : Die → Die) : (modDie s d f).hbm = s.hbm := rfl
@[simp] theorem modDie_dev (s : State) (d : Nat) (f : Die → Die) : (modDie s d f).dev = s.dev := rfl
@[simp] theorem modDie_mgmt (s : State) (d : Nat) (f : Die → Die) : (modDie s d f).mgmt = s.mgmt := rfl
@[simp] theorem modDie_reqs (s : State) (d : Nat) (f : Die → Die) : (modDie s d f).reqs = s.reqs := rfl
@[simp] theorem modDie_freqs (s : State) (d : Nat) (f : Die → Die) : (modDie s d f).freqs = s.freqs := rfl
@[simp] theorem modDie_nextId (s : State) (d : Nat) (f : Die → Die) : (modDie s d f).nextId = s.nextId := rfl
@[simp] theorem modDie_time (s : State) (d : Nat) (f : Die → Die) : (modDie s d f).time = s.time := rfl
@[simp] theorem modDie_cycle (s : State) (d : Nat) (f : Die → Die) : (modDie s d f).cycle = s.cycle := rfl
@[simp] theorem modDie_replay (s : State) (d : Nat) (f : Die → Die) : (modDie s d f).replay = s.replay := rfl
@[simp] theorem modDie_matrixBusy (s : State) (d : Nat) (f : Die → Die) : (modDie s d f).matrixBusy = s.matrixBusy := rfl
@[simp] theorem modDie_traffic (s : State) (d : Nat) (f : Die → Die) : (modDie s d f).traffic = s.traffic := rfl
@[simp] theorem modDie_unacked (s : State) (d : Nat) (f : Die → Die) : (modDie s d f).unacked = s.unacked := rfl
@[simp] theorem modDie_heldBack (s : State) (d : Nat) (f : Die → Die) : (modDie s d f).heldBack = s.heldBack := rfl
@[simp] theorem modDie_cur (s : State) (d : Nat) (f : Die → Die) : (modDie s d f).cur = s.cur := rfl
@[simp] theorem modDie_turns (s : State) (d : Nat) (f : Die → Die) : (modDie s d f).turns = s.turns := rfl
@[simp] theorem modDie_agenda (s : State) (d : Nat) (f : Die → Die) : (modDie s d f).agenda = s.agenda := rfl
@[simp] theorem modDie_drain (s : State) (d : Nat) (f : Die → Die) : (modDie s d f).drain = s.drain := rfl
@[simp] theorem modDie_ahead (s : State) (d : Nat) (f : Die → Die) : (modDie s d f).ahead = s.ahead := rfl
@[simp] theorem modDie_tick (s : State) (d : Nat) (f : Die → Die) : (modDie s d f).tick = s.tick := rfl
@[simp] theorem modDie_epoch (s : State) (d : Nat) (f : Die → Die) : (modDie s d f).epoch = s.epoch := rfl
@[simp] theorem modDie_openCnt (s : State) (d : Nat) (f : Die → Die) : (modDie s d f).openCnt = s.openCnt := rfl

@[simp] theorem modStack_mem (s : State) (k : Nat) (f : Stack → Stack) : (modStack s k f).mem = s.mem := rfl
@[simp] theorem modStack_cores (s : State) (k : Nat) (f : Stack → Stack) : (modStack s k f).cores = s.cores := rfl
@[simp] theorem modStack_clusters (s : State) (k : Nat) (f : Stack → Stack) : (modStack s k f).clusters = s.clusters := rfl
@[simp] theorem modStack_dies (s : State) (k : Nat) (f : Stack → Stack) : (modStack s k f).dies = s.dies := rfl
@[simp] theorem modStack_dev (s : State) (k : Nat) (f : Stack → Stack) : (modStack s k f).dev = s.dev := rfl
@[simp] theorem modStack_mgmt (s : State) (k : Nat) (f : Stack → Stack) : (modStack s k f).mgmt = s.mgmt := rfl
@[simp] theorem modStack_reqs (s : State) (k : Nat) (f : Stack → Stack) : (modStack s k f).reqs = s.reqs := rfl
@[simp] theorem modStack_freqs (s : State) (k : Nat) (f : Stack → Stack) : (modStack s k f).freqs = s.freqs := rfl
@[simp] theorem modStack_nextId (s : State) (k : Nat) (f : Stack → Stack) : (modStack s k f).nextId = s.nextId := rfl
@[simp] theorem modStack_time (s : State) (k : Nat) (f : Stack → Stack) : (modStack s k f).time = s.time := rfl
@[simp] theorem modStack_cycle (s : State) (k : Nat) (f : Stack → Stack) : (modStack s k f).cycle = s.cycle := rfl
@[simp] theorem modStack_replay (s : State) (k : Nat) (f : Stack → Stack) : (modStack s k f).replay = s.replay := rfl
@[simp] theorem modStack_matrixBusy (s : State) (k : Nat) (f : Stack → Stack) : (modStack s k f).matrixBusy = s.matrixBusy := rfl
@[simp] theorem modStack_traffic (s : State) (k : Nat) (f : Stack → Stack) : (modStack s k f).traffic = s.traffic := rfl
@[simp] theorem modStack_unacked (s : State) (k : Nat) (f : Stack → Stack) : (modStack s k f).unacked = s.unacked := rfl
@[simp] theorem modStack_heldBack (s : State) (k : Nat) (f : Stack → Stack) : (modStack s k f).heldBack = s.heldBack := rfl
@[simp] theorem modStack_cur (s : State) (k : Nat) (f : Stack → Stack) : (modStack s k f).cur = s.cur := rfl
@[simp] theorem modStack_turns (s : State) (k : Nat) (f : Stack → Stack) : (modStack s k f).turns = s.turns := rfl
@[simp] theorem modStack_agenda (s : State) (k : Nat) (f : Stack → Stack) : (modStack s k f).agenda = s.agenda := rfl
@[simp] theorem modStack_drain (s : State) (k : Nat) (f : Stack → Stack) : (modStack s k f).drain = s.drain := rfl
@[simp] theorem modStack_ahead (s : State) (k : Nat) (f : Stack → Stack) : (modStack s k f).ahead = s.ahead := rfl
@[simp] theorem modStack_tick (s : State) (k : Nat) (f : Stack → Stack) : (modStack s k f).tick = s.tick := rfl
@[simp] theorem modStack_epoch (s : State) (k : Nat) (f : Stack → Stack) : (modStack s k f).epoch = s.epoch := rfl
@[simp] theorem modStack_openCnt (s : State) (k : Nat) (f : Stack → Stack) : (modStack s k f).openCnt = s.openCnt := rfl

@[simp] theorem modDev_mem (s : State) (f : Dev → Dev) : (modDev s f).mem = s.mem := rfl
@[simp] theorem modDev_cores (s : State) (f : Dev → Dev) : (modDev s f).cores = s.cores := rfl
@[simp] theorem modDev_clusters (s : State) (f : Dev → Dev) : (modDev s f).clusters = s.clusters := rfl
@[simp] theorem modDev_dies (s : State) (f : Dev → Dev) : (modDev s f).dies = s.dies := rfl
@[simp] theorem modDev_hbm (s : State) (f : Dev → Dev) : (modDev s f).hbm = s.hbm := rfl
@[simp] theorem modDev_mgmt (s : State) (f : Dev → Dev) : (modDev s f).mgmt = s.mgmt := rfl
@[simp] theorem modDev_reqs (s : State) (f : Dev → Dev) : (modDev s f).reqs = s.reqs := rfl
@[simp] theorem modDev_freqs (s : State) (f : Dev → Dev) : (modDev s f).freqs = s.freqs := rfl
@[simp] theorem modDev_nextId (s : State) (f : Dev → Dev) : (modDev s f).nextId = s.nextId := rfl
@[simp] theorem modDev_time (s : State) (f : Dev → Dev) : (modDev s f).time = s.time := rfl
@[simp] theorem modDev_cycle (s : State) (f : Dev → Dev) : (modDev s f).cycle = s.cycle := rfl
@[simp] theorem modDev_replay (s : State) (f : Dev → Dev) : (modDev s f).replay = s.replay := rfl
@[simp] theorem modDev_matrixBusy (s : State) (f : Dev → Dev) : (modDev s f).matrixBusy = s.matrixBusy := rfl
@[simp] theorem modDev_traffic (s : State) (f : Dev → Dev) : (modDev s f).traffic = s.traffic := rfl
@[simp] theorem modDev_unacked (s : State) (f : Dev → Dev) : (modDev s f).unacked = s.unacked := rfl
@[simp] theorem modDev_heldBack (s : State) (f : Dev → Dev) : (modDev s f).heldBack = s.heldBack := rfl
@[simp] theorem modDev_cur (s : State) (f : Dev → Dev) : (modDev s f).cur = s.cur := rfl
@[simp] theorem modDev_turns (s : State) (f : Dev → Dev) : (modDev s f).turns = s.turns := rfl
@[simp] theorem modDev_agenda (s : State) (f : Dev → Dev) : (modDev s f).agenda = s.agenda := rfl
@[simp] theorem modDev_drain (s : State) (f : Dev → Dev) : (modDev s f).drain = s.drain := rfl
@[simp] theorem modDev_ahead (s : State) (f : Dev → Dev) : (modDev s f).ahead = s.ahead := rfl
@[simp] theorem modDev_tick (s : State) (f : Dev → Dev) : (modDev s f).tick = s.tick := rfl
@[simp] theorem modDev_epoch (s : State) (f : Dev → Dev) : (modDev s f).epoch = s.epoch := rfl
@[simp] theorem modDev_openCnt (s : State) (f : Dev → Dev) : (modDev s f).openCnt = s.openCnt := rfl

@[simp] theorem modMgmt_mem (s : State) (f : Mgmt → Mgmt) : (modMgmt s f).mem = s.mem := rfl
@[simp] theorem modMgmt_cores (s : State) (f : Mgmt → Mgmt) : (modMgmt s f).cores = s.cores := rfl
@[simp] theorem modMgmt_clusters (s : State) (f : Mgmt → Mgmt) : (modMgmt s f).clusters = s.clusters := rfl
@[simp] theorem modMgmt_dies (s : State) (f : Mgmt → Mgmt) : (modMgmt s f).dies = s.dies := rfl
@[simp] theorem modMgmt_hbm (s : State) (f : Mgmt → Mgmt) : (modMgmt s f).hbm = s.hbm := rfl
@[simp] theorem modMgmt_dev (s : State) (f : Mgmt → Mgmt) : (modMgmt s f).dev = s.dev := rfl
@[simp] theorem modMgmt_reqs (s : State) (f : Mgmt → Mgmt) : (modMgmt s f).reqs = s.reqs := rfl
@[simp] theorem modMgmt_freqs (s : State) (f : Mgmt → Mgmt) : (modMgmt s f).freqs = s.freqs := rfl
@[simp] theorem modMgmt_nextId (s : State) (f : Mgmt → Mgmt) : (modMgmt s f).nextId = s.nextId := rfl
@[simp] theorem modMgmt_time (s : State) (f : Mgmt → Mgmt) : (modMgmt s f).time = s.time := rfl
@[simp] theorem modMgmt_cycle (s : State) (f : Mgmt → Mgmt) : (modMgmt s f).cycle = s.cycle := rfl
@[simp] theorem modMgmt_replay (s : State) (f : Mgmt → Mgmt) : (modMgmt s f).replay = s.replay := rfl
@[simp] theorem modMgmt_matrixBusy (s : State) (f : Mgmt → Mgmt) : (modMgmt s f).matrixBusy = s.matrixBusy := rfl
@[simp] theorem modMgmt_traffic (s : State) (f : Mgmt → Mgmt) : (modMgmt s f).traffic = s.traffic := rfl
@[simp] theorem modMgmt_unacked (s : State) (f : Mgmt → Mgmt) : (modMgmt s f).unacked = s.unacked := rfl
@[simp] theorem modMgmt_heldBack (s : State) (f : Mgmt → Mgmt) : (modMgmt s f).heldBack = s.heldBack := rfl
@[simp] theorem modMgmt_cur (s : State) (f : Mgmt → Mgmt) : (modMgmt s f).cur = s.cur := rfl
@[simp] theorem modMgmt_turns (s : State) (f : Mgmt → Mgmt) : (modMgmt s f).turns = s.turns := rfl
@[simp] theorem modMgmt_agenda (s : State) (f : Mgmt → Mgmt) : (modMgmt s f).agenda = s.agenda := rfl
@[simp] theorem modMgmt_drain (s : State) (f : Mgmt → Mgmt) : (modMgmt s f).drain = s.drain := rfl
@[simp] theorem modMgmt_ahead (s : State) (f : Mgmt → Mgmt) : (modMgmt s f).ahead = s.ahead := rfl
@[simp] theorem modMgmt_tick (s : State) (f : Mgmt → Mgmt) : (modMgmt s f).tick = s.tick := rfl
@[simp] theorem modMgmt_epoch (s : State) (f : Mgmt → Mgmt) : (modMgmt s f).epoch = s.epoch := rfl
@[simp] theorem modMgmt_openCnt (s : State) (f : Mgmt → Mgmt) : (modMgmt s f).openCnt = s.openCnt := rfl

@[simp] theorem setLaunch_mem (s : State) (e : Nat) (l : Launch) : (setLaunch s e l).mem = s.mem := rfl
@[simp] theorem setLaunch_cores (s : State) (e : Nat) (l : Launch) : (setLaunch s e l).cores = s.cores := rfl
@[simp] theorem setLaunch_clusters (s : State) (e : Nat) (l : Launch) : (setLaunch s e l).clusters = s.clusters := rfl
@[simp] theorem setLaunch_dies (s : State) (e : Nat) (l : Launch) : (setLaunch s e l).dies = s.dies := rfl
@[simp] theorem setLaunch_hbm (s : State) (e : Nat) (l : Launch) : (setLaunch s e l).hbm = s.hbm := rfl
@[simp] theorem setLaunch_mgmt (s : State) (e : Nat) (l : Launch) : (setLaunch s e l).mgmt = s.mgmt := rfl
@[simp] theorem setLaunch_reqs (s : State) (e : Nat) (l : Launch) : (setLaunch s e l).reqs = s.reqs := rfl
@[simp] theorem setLaunch_freqs (s : State) (e : Nat) (l : Launch) : (setLaunch s e l).freqs = s.freqs := rfl
@[simp] theorem setLaunch_nextId (s : State) (e : Nat) (l : Launch) : (setLaunch s e l).nextId = s.nextId := rfl
@[simp] theorem setLaunch_time (s : State) (e : Nat) (l : Launch) : (setLaunch s e l).time = s.time := rfl
@[simp] theorem setLaunch_cycle (s : State) (e : Nat) (l : Launch) : (setLaunch s e l).cycle = s.cycle := rfl
@[simp] theorem setLaunch_replay (s : State) (e : Nat) (l : Launch) : (setLaunch s e l).replay = s.replay := rfl
@[simp] theorem setLaunch_matrixBusy (s : State) (e : Nat) (l : Launch) : (setLaunch s e l).matrixBusy = s.matrixBusy := rfl
@[simp] theorem setLaunch_traffic (s : State) (e : Nat) (l : Launch) : (setLaunch s e l).traffic = s.traffic := rfl
@[simp] theorem setLaunch_unacked (s : State) (e : Nat) (l : Launch) : (setLaunch s e l).unacked = s.unacked := rfl
@[simp] theorem setLaunch_heldBack (s : State) (e : Nat) (l : Launch) : (setLaunch s e l).heldBack = s.heldBack := rfl
@[simp] theorem setLaunch_cur (s : State) (e : Nat) (l : Launch) : (setLaunch s e l).cur = s.cur := rfl
@[simp] theorem setLaunch_turns (s : State) (e : Nat) (l : Launch) : (setLaunch s e l).turns = s.turns := rfl
@[simp] theorem setLaunch_agenda (s : State) (e : Nat) (l : Launch) : (setLaunch s e l).agenda = s.agenda := rfl
@[simp] theorem setLaunch_drain (s : State) (e : Nat) (l : Launch) : (setLaunch s e l).drain = s.drain := rfl
@[simp] theorem setLaunch_ahead (s : State) (e : Nat) (l : Launch) : (setLaunch s e l).ahead = s.ahead := rfl
@[simp] theorem setLaunch_tick (s : State) (e : Nat) (l : Launch) : (setLaunch s e l).tick = s.tick := rfl
@[simp] theorem setLaunch_epoch (s : State) (e : Nat) (l : Launch) : (setLaunch s e l).epoch = s.epoch := rfl
@[simp] theorem setLaunch_openCnt (s : State) (e : Nat) (l : Launch) : (setLaunch s e l).openCnt = s.openCnt := rfl

@[simp] theorem modLaunch_mem (s : State) (e : Nat) (f : Launch → Launch) : (modLaunch s e f).mem = s.mem := rfl
@[simp] theorem modLaunch_cores (s : State) (e : Nat) (f : Launch → Launch) : (modLaunch s e f).cores = s.cores := rfl
@[simp] theorem modLaunch_clusters (s : State) (e : Nat) (f : Launch → Launch) : (modLaunch s e f).clusters = s.clusters := rfl
@[simp] theorem modLaunch_dies (s : State) (e : Nat) (f : Launch → Launch) : (modLaunch s e f).dies = s.dies := rfl
@[simp] theorem modLaunch_hbm (s : State) (e : Nat) (f : Launch → Launch) : (modLaunch s e f).hbm = s.hbm := rfl
@[simp] theorem modLaunch_mgmt (s : State) (e : Nat) (f : Launch → Launch) : (modLaunch s e f).mgmt = s.mgmt := rfl
@[simp] theorem modLaunch_reqs (s : State) (e : Nat) (f : Launch → Launch) : (modLaunch s e f).reqs = s.reqs := rfl
@[simp] theorem modLaunch_freqs (s : State) (e : Nat) (f : Launch → Launch) : (modLaunch s e f).freqs = s.freqs := rfl
@[simp] theorem modLaunch_nextId (s : State) (e : Nat) (f : Launch → Launch) : (modLaunch s e f).nextId = s.nextId := rfl
@[simp] theorem modLaunch_time (s : State) (e : Nat) (f : Launch → Launch) : (modLaunch s e f).time = s.time := rfl
@[simp] theorem modLaunch_cycle (s : State) (e : Nat) (f : Launch → Launch) : (modLaunch s e f).cycle = s.cycle := rfl
@[simp] theorem modLaunch_replay (s : State) (e : Nat) (f : Launch → Launch) : (modLaunch s e f).replay = s.replay := rfl
@[simp] theorem modLaunch_matrixBusy (s : State) (e : Nat) (f : Launch → Launch) : (modLaunch s e f).matrixBusy = s.matrixBusy := rfl
@[simp] theorem modLaunch_traffic (s : State) (e : Nat) (f : Launch → Launch) : (modLaunch s e f).traffic = s.traffic := rfl
@[simp] theorem modLaunch_unacked (s : State) (e : Nat) (f : Launch → Launch) : (modLaunch s e f).unacked = s.unacked := rfl
@[simp] theorem modLaunch_heldBack (s : State) (e : Nat) (f : Launch → Launch) : (modLaunch s e f).heldBack = s.heldBack := rfl
@[simp] theorem modLaunch_cur (s : State) (e : Nat) (f : Launch → Launch) : (modLaunch s e f).cur = s.cur := rfl
@[simp] theorem modLaunch_turns (s : State) (e : Nat) (f : Launch → Launch) : (modLaunch s e f).turns = s.turns := rfl
@[simp] theorem modLaunch_agenda (s : State) (e : Nat) (f : Launch → Launch) : (modLaunch s e f).agenda = s.agenda := rfl
@[simp] theorem modLaunch_drain (s : State) (e : Nat) (f : Launch → Launch) : (modLaunch s e f).drain = s.drain := rfl
@[simp] theorem modLaunch_ahead (s : State) (e : Nat) (f : Launch → Launch) : (modLaunch s e f).ahead = s.ahead := rfl
@[simp] theorem modLaunch_tick (s : State) (e : Nat) (f : Launch → Launch) : (modLaunch s e f).tick = s.tick := rfl
@[simp] theorem modLaunch_epoch (s : State) (e : Nat) (f : Launch → Launch) : (modLaunch s e f).epoch = s.epoch := rfl
@[simp] theorem modLaunch_openCnt (s : State) (e : Nat) (f : Launch → Launch) : (modLaunch s e f).openCnt = s.openCnt := rfl

@[simp] theorem setInst_mem (s : State) (n k : Nat) (x : Option Inst) : (setInst s n k x).mem = s.mem := rfl
@[simp] theorem setInst_clusters (s : State) (n k : Nat) (x : Option Inst) : (setInst s n k x).clusters = s.clusters := rfl
@[simp] theorem setInst_dies (s : State) (n k : Nat) (x : Option Inst) : (setInst s n k x).dies = s.dies := rfl
@[simp] theorem setInst_hbm (s : State) (n k : Nat) (x : Option Inst) : (setInst s n k x).hbm = s.hbm := rfl
@[simp] theorem setInst_dev (s : State) (n k : Nat) (x : Option Inst) : (setInst s n k x).dev = s.dev := rfl
@[simp] theorem setInst_mgmt (s : State) (n k : Nat) (x : Option Inst) : (setInst s n k x).mgmt = s.mgmt := rfl
@[simp] theorem setInst_reqs (s : State) (n k : Nat) (x : Option Inst) : (setInst s n k x).reqs = s.reqs := rfl
@[simp] theorem setInst_freqs (s : State) (n k : Nat) (x : Option Inst) : (setInst s n k x).freqs = s.freqs := rfl
@[simp] theorem setInst_nextId (s : State) (n k : Nat) (x : Option Inst) : (setInst s n k x).nextId = s.nextId := rfl
@[simp] theorem setInst_time (s : State) (n k : Nat) (x : Option Inst) : (setInst s n k x).time = s.time := rfl
@[simp] theorem setInst_cycle (s : State) (n k : Nat) (x : Option Inst) : (setInst s n k x).cycle = s.cycle := rfl
@[simp] theorem setInst_replay (s : State) (n k : Nat) (x : Option Inst) : (setInst s n k x).replay = s.replay := rfl
@[simp] theorem setInst_matrixBusy (s : State) (n k : Nat) (x : Option Inst) : (setInst s n k x).matrixBusy = s.matrixBusy := rfl
@[simp] theorem setInst_traffic (s : State) (n k : Nat) (x : Option Inst) : (setInst s n k x).traffic = s.traffic := rfl
@[simp] theorem setInst_unacked (s : State) (n k : Nat) (x : Option Inst) : (setInst s n k x).unacked = s.unacked := rfl
@[simp] theorem setInst_heldBack (s : State) (n k : Nat) (x : Option Inst) : (setInst s n k x).heldBack = s.heldBack := rfl
@[simp] theorem setInst_cur (s : State) (n k : Nat) (x : Option Inst) : (setInst s n k x).cur = s.cur := rfl
@[simp] theorem setInst_turns (s : State) (n k : Nat) (x : Option Inst) : (setInst s n k x).turns = s.turns := rfl
@[simp] theorem setInst_agenda (s : State) (n k : Nat) (x : Option Inst) : (setInst s n k x).agenda = s.agenda := rfl
@[simp] theorem setInst_drain (s : State) (n k : Nat) (x : Option Inst) : (setInst s n k x).drain = s.drain := rfl
@[simp] theorem setInst_ahead (s : State) (n k : Nat) (x : Option Inst) : (setInst s n k x).ahead = s.ahead := rfl
@[simp] theorem setInst_tick (s : State) (n k : Nat) (x : Option Inst) : (setInst s n k x).tick = s.tick := rfl
@[simp] theorem setInst_epoch (s : State) (n k : Nat) (x : Option Inst) : (setInst s n k x).epoch = s.epoch := rfl
@[simp] theorem setInst_openCnt (s : State) (n k : Nat) (x : Option Inst) : (setInst s n k x).openCnt = s.openCnt := rfl

@[simp] theorem setChan_mem (s : State) (n k : Nat) (x : Option Chan) : (setChan s n k x).mem = s.mem := rfl
@[simp] theorem setChan_clusters (s : State) (n k : Nat) (x : Option Chan) : (setChan s n k x).clusters = s.clusters := rfl
@[simp] theorem setChan_dies (s : State) (n k : Nat) (x : Option Chan) : (setChan s n k x).dies = s.dies := rfl
@[simp] theorem setChan_hbm (s : State) (n k : Nat) (x : Option Chan) : (setChan s n k x).hbm = s.hbm := rfl
@[simp] theorem setChan_dev (s : State) (n k : Nat) (x : Option Chan) : (setChan s n k x).dev = s.dev := rfl
@[simp] theorem setChan_mgmt (s : State) (n k : Nat) (x : Option Chan) : (setChan s n k x).mgmt = s.mgmt := rfl
@[simp] theorem setChan_reqs (s : State) (n k : Nat) (x : Option Chan) : (setChan s n k x).reqs = s.reqs := rfl
@[simp] theorem setChan_freqs (s : State) (n k : Nat) (x : Option Chan) : (setChan s n k x).freqs = s.freqs := rfl
@[simp] theorem setChan_nextId (s : State) (n k : Nat) (x : Option Chan) : (setChan s n k x).nextId = s.nextId := rfl
@[simp] theorem setChan_time (s : State) (n k : Nat) (x : Option Chan) : (setChan s n k x).time = s.time := rfl
@[simp] theorem setChan_cycle (s : State) (n k : Nat) (x : Option Chan) : (setChan s n k x).cycle = s.cycle := rfl
@[simp] theorem setChan_replay (s : State) (n k : Nat) (x : Option Chan) : (setChan s n k x).replay = s.replay := rfl
@[simp] theorem setChan_matrixBusy (s : State) (n k : Nat) (x : Option Chan) : (setChan s n k x).matrixBusy = s.matrixBusy := rfl
@[simp] theorem setChan_traffic (s : State) (n k : Nat) (x : Option Chan) : (setChan s n k x).traffic = s.traffic := rfl
@[simp] theorem setChan_unacked (s : State) (n k : Nat) (x : Option Chan) : (setChan s n k x).unacked = s.unacked := rfl
@[simp] theorem setChan_heldBack (s : State) (n k : Nat) (x : Option Chan) : (setChan s n k x).heldBack = s.heldBack := rfl
@[simp] theorem setChan_cur (s : State) (n k : Nat) (x : Option Chan) : (setChan s n k x).cur = s.cur := rfl
@[simp] theorem setChan_turns (s : State) (n k : Nat) (x : Option Chan) : (setChan s n k x).turns = s.turns := rfl
@[simp] theorem setChan_agenda (s : State) (n k : Nat) (x : Option Chan) : (setChan s n k x).agenda = s.agenda := rfl
@[simp] theorem setChan_drain (s : State) (n k : Nat) (x : Option Chan) : (setChan s n k x).drain = s.drain := rfl
@[simp] theorem setChan_ahead (s : State) (n k : Nat) (x : Option Chan) : (setChan s n k x).ahead = s.ahead := rfl
@[simp] theorem setChan_tick (s : State) (n k : Nat) (x : Option Chan) : (setChan s n k x).tick = s.tick := rfl
@[simp] theorem setChan_epoch (s : State) (n k : Nat) (x : Option Chan) : (setChan s n k x).epoch = s.epoch := rfl
@[simp] theorem setChan_openCnt (s : State) (n k : Nat) (x : Option Chan) : (setChan s n k x).openCnt = s.openCnt := rfl

end Sys2Proof.Machine
end

