-- ==== Sys2Proof/Laws/Ops.lean ====
section
/-!
SUPPORT. Sys2Proof/Laws/Ops.lean: what the shared operations of an instruction can do.
-/

namespace Sys2Proof.Machine

open Sys2Proof.Claims

/-- A source that is there reads as what it supplies. -/
theorem readOp_of_supply (s : State) (all : List Opnd) (o : Opnd) (v : VReg) (h : supply s o = some v) :
    readOp (curStream s) (curCtx s).queues all o = .ok v := by
  unfold supply phys at h
  unfold readOp
  cases hq : queueOf o with
  | some q =>
    simp only [hq] at h ⊢
    cases hl : tget [] (curCtx s).queues q with
    | nil => simp [hl] at h
    | cons a r => simp [hl] at h ⊢; exact h
  | none =>
    simp only [hq] at h ⊢
    cases hc : o.cls <;> simp [hc] at h ⊢
    · rw [if_pos h.1, h.2]
    · rw [if_pos h.1, h.2]
    · exact h

/-- Sources that are there are read in position order. -/
theorem readOps_of_supply (s : State) (all ops : List Opnd) (vs : List VReg)
    (h : (ops.filter isRead).map (supply s) = vs.map some) :
    readOps (curStream s) (curCtx s).queues all ops = .ok vs := by
  induction ops generalizing vs with
  | nil =>
    cases vs with
    | nil => rfl
    | cons a r => simp at h
  | cons o r ih =>
    unfold readOps
    cases hr : isRead o with
    | false =>
      rw [List.filter_cons_of_neg (by simp [hr])] at h
      simpa using ih vs h
    | true =>
      rw [List.filter_cons_of_pos hr] at h
      cases vs with
      | nil => simp at h
      | cons v vs =>
        simp only [List.map_cons, List.cons.injEq] at h
        rw [if_pos rfl, readOp_of_supply s all o v h.1, ih vs h.2]
        rfl

theorem find_none_of_forall {α : Type} (l : List α) (p : α → Bool) (h : ∀ a ∈ l, p a = false) : l.find? p = none := by
  rw [List.find?_eq_none]
  intro a ha
  simp [h a ha]

/-- The checks of R174 pass, and the sources have the values `vs`. -/
theorem start_of_ready {s : State} {p : Plan} {vs : List VReg} (h : OpsReady s p vs) : start s p = .ok vs := by
  have hill : ((p.cpOnly && s.cur.ap) || (p.apOnly && !s.cur.ap)) = false := by
    have h1 := h.cp
    have h2 := h.ap
    cases hc : p.cpOnly <;> cases ha : p.apOnly <;> cases hs : s.cur.ap <;> simp_all
  have hpriv : (p.priv && !(curStream s).mode.sup) = false := by
    have h1 := h.priv
    cases hp : p.priv <;> simp_all
  have hpred : p.ops.any (fun o => o.cls == .pred && predPending s s.cur o.code.toNat) = false := by
    rw [List.any_eq_false]
    intro o ho
    have h1 := h.preds o ho
    by_cases hc : o.cls = .pred
    · simp [h1 hc]
    · simp [hc]
  have hcodes : checkCodes s.cur.ap p.ops = .ok () := by
    unfold checkCodes; rw [find_none_of_forall _ _ h.codes]
  have hpar : checkParity s p.ops = .ok () := by
    unfold checkParity
    rw [find_none_of_forall _ _ (fun o ho => by simp [parityLost, h.parity o ho])]
  have hres : checkResidue (curStream s) p.ops = .ok () := by
    unfold checkResidue
    rw [find_none_of_forall]
    intro o ho
    by_cases h1 : (o.addr || o.data) = true
    · have := h.residue o ho (by
        rcases Bool.or_eq_true_iff.mp h1 with h2 | h2 <;> simp [h2])
      simp only [residueBad] at this
      rw [h1, Bool.true_and]
      exact this
    · simp_all
  simp [start, hill, hpriv, hcodes, readOps_of_supply s p.ops p.ops vs h.values, checkPreds, hpred, hpar, hres, bind,
    Except.bind]

/-- Operands without a parity error are not repaired. -/
theorem repairOperands_of_clean (s : State) (ops : List Opnd) (h : ∀ o ∈ ops, parityBad (curStream s) (curCtx s) o = false) :
    repairOperands s ops = s := by
  unfold repairOperands
  induction ops with
  | nil => rfl
  | cons o r ih =>
    rw [List.foldl_cons, show repairOperand s o = s by simp [repairOperand, h o (by simp)]]
    exact ih (fun x hx => h x (by simp [hx]))

/-- Sources that carry their own residues leave no other behind. -/
theorem carryResidue_of_clean (x : Stream) (p : Plan) (t : State)
    (h : ∀ o ∈ p.ops, (isRead o || o.addr || o.data) = true → residueBad x o = false) : carryResidue x p t = t := by
  have hn : p.ops.any (fun o => isRead o && residueBad x o) = false := by
    rw [List.any_eq_false]
    intro o ho
    by_cases hr : isRead o = true
    · simp [h o ho (by simp [hr])]
    · simp [hr]
  simp [carryResidue, hn]

/-- An instruction whose operands are ready ends as its own effect says. -/
theorem perform_of_ready {s : State} {p : Plan} {vs : List VReg} (i : Instr) (body : State → List VReg → Ex (State × Flow))
    (h : OpsReady s p vs) : perform s i p body = finish s i (body s vs >>= fun r => .ok (popRead r.1 p r.2, r.2)) := by
  unfold perform
  simp only [repairOperands_of_clean s p.ops h.parity, start_of_ready h, carryResidue_of_clean _ p _ h.residue]

/-- An instruction whose operands are ready and whose effect succeeds completes. -/
theorem perform_completes {s t : State} {p : Plan} {vs : List VReg} {f : Flow} (i : Instr)
    (body : State → List VReg → Ex (State × Flow)) (h : OpsReady s p vs) (hb : body s vs = .ok (t, f)) :
    perform s i p body = .next (completed i p t f) := by
  rw [perform_of_ready i body h, hb]
  rfl

/-- A scalar destination nothing is pending into is written. -/
theorem setReg_free {s : State} {c : BitVec 6} (h : FreeS s c) (v : W64) : setReg s c v = .ok (wrote s c v) := by
  unfold FreeS phys at h
  unfold setReg wrote phys
  simp [h]

theorem emptyReg_free {s : State} {c : BitVec 6} (h : FreeS s c) : emptyReg s c = .ok (emptied s c) := by
  unfold FreeS phys at h
  unfold emptyReg emptied phys
  simp [h]

theorem setVec_free {s : State} {c : BitVec 6} (h : FreeV s c) (v : VReg) : setVec s c v = .ok (wroteV s c v) := by
  unfold FreeV at h
  unfold setVec wroteV
  simp [h]

theorem emptyVec_free {s : State} {c : BitVec 6} (h : FreeV s c) : emptyVec s c = .ok (emptiedV s c) := by
  unfold FreeV at h
  unfold emptyVec emptiedV
  simp [h]

/-! ### Reads and the traffic counted -/

/-- The traffic counted stands in no view. -/
theorem physRead_traffic (s : State) (x : Tbl Nat) (n : Nat) :
    ∀ pa, physRead { s with traffic := x } pa n = physRead s pa n := by
  induction n with
  | zero => intro pa; rfl
  | succ k ih =>
    intro pa
    rw [physRead, physRead, ih]
    rfl

/-- Free bytes depend on the counter of free values alone. -/
theorem freeBytes_openCnt (s t : State) (n : Nat) (h : s.openCnt = t.openCnt) : (freeBytes s n).1 = (freeBytes t n).1 := by
  unfold freeBytes
  generalize upFrom 0 ((n + 7) / 8) = l
  suffices ∀ (l : List Nat) (a : Nat) (s t : State), s.openCnt = t.openCnt →
      (l.foldl (fun r k => let w := takeFree r.2; (r.1 + w.1.toNat * 2 ^ (64 * k), w.2)) (a, s)).1 =
        (l.foldl (fun r k => let w := takeFree r.2; (r.1 + w.1.toNat * 2 ^ (64 * k), w.2)) (a, t)).1 from this l 0 s t h
  intro l
  induction l with
  | nil => intros; rfl
  | cons k r ih =>
    intro a s t h
    simp only [List.foldl_cons]
    have e : (takeFree s).1 = (takeFree t).1 := by simp [takeFree, h]
    rw [e]
    exact ih _ _ _ (by simp [takeFree, h])

/-- What a read gives does not depend on the traffic counted. -/
theorem readSeg_addTraffic (s : State) (e : Nat) (gs : List Seg) (g : Seg) :
    (readSeg (addTraffic s e gs) g).1 = (readSeg s g).1 := by
  unfold addTraffic
  dsimp only
  split
  · rfl
  · simp only [readSeg, readRaw]
    split
    · rw [freeBytes_openCnt]; rfl
    · exact physRead_traffic s _ _ _

end Sys2Proof.Machine
end

