-- ==== Sys2Proof/Laws/PerInstr.lean ====
section
/-!
SUPPORT. Sys2Proof/Laws/PerInstr.lean: per instruction, that decoding the encoder's words gives the instruction back
(R170-R185); a 32-bit instruction ignores the word after it.
-/

namespace Sys2Proof.Laws.RoundTrip

/-- The decoder reads a well-formed instruction back from its words, whatever word follows a single one. -/
def Statement (i : Instr) : Prop :=
  i.wf = true → i.isEvent = false → ∀ z : W32, decodeWords ((encode i).headD 0) ((encode i).getD 1 z) = .ok i

theorem amo_ord (o : BitVec 2) : (8#4 ++ o : BitVec 6).toNat = 32 + o.toNat := by
  revert o; decide

theorem ord_cases (o : BitVec 2) : o = 0#2 ∨ o = 1#2 ∨ o = 2#2 ∨ o = 3#2 := by
  revert o; decide

theorem lea_scale (sc : BitVec 2) : (sc.setWidth 5).toNat ≤ 3 ∧ BitVec.ofNat 2 (sc.setWidth 5).toNat = sc := by
  revert sc; decide

theorem fcmb_op (op : BitVec 3) : (op.setWidth 5).toNat ≤ 7 ∧ BitVec.ofNat 3 (op.setWidth 5).toNat = op := by
  revert op; decide

theorem shift_kind (x : BitVec 12) (k : Nat) (h : (x.extractLsb' 6 6).toNat = k) (hk : k < 4) :
    (x.extractLsb' 6 2).toNat = k := by
  have h1 : x.extractLsb' 6 2 = (x.extractLsb' 6 6).setWidth 2 := by
    ext i hi
    interval_cases i <;> simp
  rw [h1, BitVec.toNat_setWidth, h]
  omega

theorem of_short {w z : W32} {i : Instr} (hw : w.getLsbD 31 = false) (hd : decode32 w = .ok i) (h : i.wf = true) :
    decodeWords w z = .ok i := by
  unfold decodeWords
  rw [hw, if_neg (by simp), hd]
  show (if acceptsFields i then _ else _) = _
  rw [acceptsFields, if_pos h]

theorem of_long {w z : W32} {i : Instr} (hw : w.getLsbD 31 = true) (hd : decode64 w z = .ok i) (h : i.wf = true) :
    decodeWords w z = .ok i := by
  unfold decodeWords
  rw [hw, if_pos rfl, hd]
  show (if acceptsFields i then _ else _) = _
  rw [acceptsFields, if_pos h]

theorem add (f : R3F) : Statement (.add f) := by
  intro h _ z
  refine of_short (w := encR3 1 0 f) (encR3_short _ _ _) ?_ h
  unfold decode32
  rw [encR3_major, encR3_fn, encR3_fields]
  rfl

theorem sub (f : R3F) : Statement (.sub f) := by
  intro h _ z
  refine of_short (w := encR3 1 1 f) (encR3_short _ _ _) ?_ h
  unfold decode32
  rw [encR3_major, encR3_fn, encR3_fields]
  rfl

theorem and (f : R3F) : Statement (.and f) := by
  intro h _ z
  refine of_short (w := encR3 1 2 f) (encR3_short _ _ _) ?_ h
  unfold decode32
  rw [encR3_major, encR3_fn, encR3_fields]
  rfl

theorem andn (f : R3F) : Statement (.andn f) := by
  intro h _ z
  refine of_short (w := encR3 1 3 f) (encR3_short _ _ _) ?_ h
  unfold decode32
  rw [encR3_major, encR3_fn, encR3_fields]
  rfl

theorem or (f : R3F) : Statement (.or f) := by
  intro h _ z
  refine of_short (w := encR3 1 4 f) (encR3_short _ _ _) ?_ h
  unfold decode32
  rw [encR3_major, encR3_fn, encR3_fields]
  rfl

theorem xor (f : R3F) : Statement (.xor f) := by
  intro h _ z
  refine of_short (w := encR3 1 5 f) (encR3_short _ _ _) ?_ h
  unfold decode32
  rw [encR3_major, encR3_fn, encR3_fields]
  rfl

theorem shl (f : R3F) : Statement (.shl f) := by
  intro h _ z
  refine of_short (w := encR3 2 0 f) (encR3_short _ _ _) ?_ h
  unfold decode32
  rw [encR3_major, encR3_fn, encR3_fields]
  rfl

theorem shr (f : R3F) : Statement (.shr f) := by
  intro h _ z
  refine of_short (w := encR3 2 1 f) (encR3_short _ _ _) ?_ h
  unfold decode32
  rw [encR3_major, encR3_fn, encR3_fields]
  rfl

theorem sra (f : R3F) : Statement (.sra f) := by
  intro h _ z
  refine of_short (w := encR3 2 2 f) (encR3_short _ _ _) ?_ h
  unfold decode32
  rw [encR3_major, encR3_fn, encR3_fields]
  rfl

theorem clz (f : R3F) : Statement (.clz f) := by
  intro h _ z
  refine of_short (w := encR3 2 3 f) (encR3_short _ _ _) ?_ h
  unfold decode32
  rw [encR3_major, encR3_fn, encR3_fields]
  rfl

theorem popc (f : R3F) : Statement (.popc f) := by
  intro h _ z
  refine of_short (w := encR3 2 4 f) (encR3_short _ _ _) ?_ h
  unfold decode32
  rw [encR3_major, encR3_fn, encR3_fields]
  rfl

theorem mul (f : R3F) : Statement (.mul f) := by
  intro h _ z
  refine of_short (w := encR3 3 0 f) (encR3_short _ _ _) ?_ h
  unfold decode32
  rw [encR3_major, encR3_fn, encR3_fields]
  rfl

theorem mulhS64 (f : R3F) : Statement (.mulhS64 f) := by
  intro h _ z
  refine of_short (w := encR3 3 1 f) (encR3_short _ _ _) ?_ h
  unfold decode32
  rw [encR3_major, encR3_fn, encR3_fields]
  rfl

theorem mulhZ64 (f : R3F) : Statement (.mulhZ64 f) := by
  intro h _ z
  refine of_short (w := encR3 3 2 f) (encR3_short _ _ _) ?_ h
  unfold decode32
  rw [encR3_major, encR3_fn, encR3_fields]
  rfl

theorem divS64 (f : R3F) : Statement (.divS64 f) := by
  intro h _ z
  refine of_short (w := encR3 3 3 f) (encR3_short _ _ _) ?_ h
  unfold decode32
  rw [encR3_major, encR3_fn, encR3_fields]
  rfl

theorem divZ64 (f : R3F) : Statement (.divZ64 f) := by
  intro h _ z
  refine of_short (w := encR3 3 4 f) (encR3_short _ _ _) ?_ h
  unfold decode32
  rw [encR3_major, encR3_fn, encR3_fields]
  rfl

theorem remS64 (f : R3F) : Statement (.remS64 f) := by
  intro h _ z
  refine of_short (w := encR3 3 5 f) (encR3_short _ _ _) ?_ h
  unfold decode32
  rw [encR3_major, encR3_fn, encR3_fields]
  rfl

theorem remZ64 (f : R3F) : Statement (.remZ64 f) := by
  intro h _ z
  refine of_short (w := encR3 3 6 f) (encR3_short _ _ _) ?_ h
  unfold decode32
  rw [encR3_major, encR3_fn, encR3_fields]
  rfl

theorem minS64 (f : R3F) : Statement (.minS64 f) := by
  intro h _ z
  refine of_short (w := encR3 4 0 f) (encR3_short _ _ _) ?_ h
  unfold decode32
  rw [encR3_major, encR3_fn, encR3_fields]
  rfl

theorem minZ64 (f : R3F) : Statement (.minZ64 f) := by
  intro h _ z
  refine of_short (w := encR3 4 1 f) (encR3_short _ _ _) ?_ h
  unfold decode32
  rw [encR3_major, encR3_fn, encR3_fields]
  rfl

theorem maxS64 (f : R3F) : Statement (.maxS64 f) := by
  intro h _ z
  refine of_short (w := encR3 4 2 f) (encR3_short _ _ _) ?_ h
  unfold decode32
  rw [encR3_major, encR3_fn, encR3_fields]
  rfl

theorem maxZ64 (f : R3F) : Statement (.maxZ64 f) := by
  intro h _ z
  refine of_short (w := encR3 4 3 f) (encR3_short _ _ _) ?_ h
  unfold decode32
  rw [encR3_major, encR3_fn, encR3_fields]
  rfl

theorem sltS64 (f : R3F) : Statement (.sltS64 f) := by
  intro h _ z
  refine of_short (w := encR3 4 4 f) (encR3_short _ _ _) ?_ h
  unfold decode32
  rw [encR3_major, encR3_fn, encR3_fields]
  rfl

theorem sltZ64 (f : R3F) : Statement (.sltZ64 f) := by
  intro h _ z
  refine of_short (w := encR3 4 5 f) (encR3_short _ _ _) ?_ h
  unfold decode32
  rw [encR3_major, encR3_fn, encR3_fields]
  rfl

theorem sltz (f : R3F) : Statement (.sltz f) := by
  intro h _ z
  refine of_short (w := encR3 4 6 f) (encR3_short _ _ _) ?_ h
  unfold decode32
  rw [encR3_major, encR3_fn, encR3_fields]
  rfl

theorem sel (f : R3F) : Statement (.sel f) := by
  intro h _ z
  refine of_short (w := encR3 4 7 f) (encR3_short _ _ _) ?_ h
  unfold decode32
  rw [encR3_major, encR3_fn, encR3_fields]
  rfl

theorem lea (sc : BitVec 2) (f : R3F) : Statement (.lea sc f) := by
  intro h _ z
  refine of_short (w := encR3 5 (sc.setWidth 5) f) (encR3_short _ _ _) ?_ h
  unfold decode32
  rw [encR3_major, encR3_fn, encR3_fields]
  show (if _ ≤ 3 then _ else _) = _
  rw [if_pos (lea_scale sc).1, (lea_scale sc).2]

theorem sete (f : R3F) : Statement (.sete f) := by
  intro h _ z
  refine of_short (w := encR3 6 0 f) (encR3_short _ _ _) ?_ h
  unfold decode32
  rw [encR3_major, encR3_fn, encR3_fields]
  rfl

theorem setf (f : R3F) : Statement (.setf f) := by
  intro h _ z
  refine of_short (w := encR3 6 1 f) (encR3_short _ _ _) ?_ h
  unfold decode32
  rw [encR3_major, encR3_fn, encR3_fields]
  rfl

theorem testfe (f : R3F) : Statement (.testfe f) := by
  intro h _ z
  refine of_short (w := encR3 6 2 f) (encR3_short _ _ _) ?_ h
  unfold decode32
  rw [encR3_major, encR3_fn, encR3_fields]
  rfl

theorem addi (f : I12F) : Statement (.addi f) := by
  intro h _ z
  refine of_short (w := encI12 8 f) (encI12_short _ _) ?_ h
  unfold decode32
  rw [encI12_major, encI12_fields]
  rfl

theorem andi (f : I12F) : Statement (.andi f) := by
  intro h _ z
  refine of_short (w := encI12 9 f) (encI12_short _ _) ?_ h
  unfold decode32
  rw [encI12_major, encI12_fields]
  rfl

theorem ori (f : I12F) : Statement (.ori f) := by
  intro h _ z
  refine of_short (w := encI12 10 f) (encI12_short _ _) ?_ h
  unfold decode32
  rw [encI12_major, encI12_fields]
  rfl

theorem xori (f : I12F) : Statement (.xori f) := by
  intro h _ z
  refine of_short (w := encI12 11 f) (encI12_short _ _) ?_ h
  unfold decode32
  rw [encI12_major, encI12_fields]
  rfl

theorem shli (f : I12F) : Statement (.shli f) := by
  intro h _ z
  have hk := shift_kind f.imm12 0 (by simpa [Instr.wf, I12F.wfShift] using h) (by omega)
  refine of_short (w := encI12 12 f) (encI12_short _ _) ?_ h
  unfold decode32
  rw [encI12_major, encI12_shift, encI12_fields, hk]
  rfl

theorem shri (f : I12F) : Statement (.shri f) := by
  intro h _ z
  have hk := shift_kind f.imm12 1 (by simpa [Instr.wf, I12F.wfShift] using h) (by omega)
  refine of_short (w := encI12 12 f) (encI12_short _ _) ?_ h
  unfold decode32
  rw [encI12_major, encI12_shift, encI12_fields, hk]
  rfl

theorem srai (f : I12F) : Statement (.srai f) := by
  intro h _ z
  have hk := shift_kind f.imm12 2 (by simpa [Instr.wf, I12F.wfShift] using h) (by omega)
  refine of_short (w := encI12 12 f) (encI12_short _ _) ?_ h
  unfold decode32
  rw [encI12_major, encI12_shift, encI12_fields, hk]
  rfl

theorem slti (f : I12F) : Statement (.slti f) := by
  intro h _ z
  refine of_short (w := encI12 13 f) (encI12_short _ _) ?_ h
  unfold decode32
  rw [encI12_major, encI12_fields]
  rfl

theorem lui (f : U19F) : Statement (.lui f) := by
  intro h _ z
  refine of_short (w := u19Word f) (u19Word_short _) ?_ h
  unfold decode32
  rw [u19Word_major, u19Word_fields]
  rfl

theorem bc (f : BcF) : Statement (.bc f) := by
  intro h _ z
  refine of_short (w := bcWord f) (bcWord_short _) ?_ h
  unfold decode32
  rw [bcWord_major, bcWord_fields]
  rfl

theorem loop (f : LpF) : Statement (.loop f) := by
  intro h _ z
  refine of_short (w := lpWord f) (lpWord_short _) ?_ h
  unfold decode32
  rw [lpWord_major, lpWord_fields]
  rfl

theorem jmp (f : J25F) : Statement (.jmp f) := by
  intro h _ z
  refine of_short (w := j25Word 18 f) (j25Word_short _ _) ?_ h
  unfold decode32
  rw [j25Word_major, j25Word_fields]
  rfl

theorem call (f : J25F) : Statement (.call f) := by
  intro h _ z
  refine of_short (w := j25Word 19 f) (j25Word_short _ _) ?_ h
  unfold decode32
  rw [j25Word_major, j25Word_fields]
  rfl

theorem jmpr (f : R3F) : Statement (.jmpr f) := by
  intro h _ z
  refine of_short (w := encR3 20 0 f) (encR3_short _ _ _) ?_ h
  unfold decode32
  rw [encR3_major, encR3_fn, encR3_fields]
  rfl

theorem callr (f : R3F) : Statement (.callr f) := by
  intro h _ z
  refine of_short (w := encR3 20 1 f) (encR3_short _ _ _) ?_ h
  unfold decode32
  rw [encR3_major, encR3_fn, encR3_fields]
  rfl

theorem ret (f : R3F) : Statement (.ret f) := by
  intro h _ z
  refine of_short (w := encR3 20 2 f) (encR3_short _ _ _) ?_ h
  unfold decode32
  rw [encR3_major, encR3_fn, encR3_fields]
  rfl

theorem fireEnd (f : R3F) : Statement (.fireEnd f) := by
  intro h _ z
  refine of_short (w := encR3 21 0 f) (encR3_short _ _ _) ?_ h
  unfold decode32
  rw [encR3_major, encR3_fn, encR3_fields]
  rfl

theorem yield (f : R3F) : Statement (.yield f) := by
  intro h _ z
  refine of_short (w := encR3 21 1 f) (encR3_short _ _ _) ?_ h
  unfold decode32
  rw [encR3_major, encR3_fn, encR3_fields]
  rfl

theorem ld8 (f : I12F) : Statement (.ld8 f) := by
  intro h _ z
  refine of_short (w := encI12 24 f) (encI12_short _ _) ?_ h
  unfold decode32
  rw [encI12_major, encI12_fields]
  rfl

theorem ld16 (f : I12F) : Statement (.ld16 f) := by
  intro h _ z
  refine of_short (w := encI12 25 f) (encI12_short _ _) ?_ h
  unfold decode32
  rw [encI12_major, encI12_fields]
  rfl

theorem ld32 (f : I12F) : Statement (.ld32 f) := by
  intro h _ z
  refine of_short (w := encI12 26 f) (encI12_short _ _) ?_ h
  unfold decode32
  rw [encI12_major, encI12_fields]
  rfl

theorem ld64 (f : I12F) : Statement (.ld64 f) := by
  intro h _ z
  refine of_short (w := encI12 27 f) (encI12_short _ _) ?_ h
  unfold decode32
  rw [encI12_major, encI12_fields]
  rfl

theorem st8 (f : I12F) : Statement (.st8 f) := by
  intro h _ z
  refine of_short (w := encI12 28 f) (encI12_short _ _) ?_ h
  unfold decode32
  rw [encI12_major, encI12_fields]
  rfl

theorem st16 (f : I12F) : Statement (.st16 f) := by
  intro h _ z
  refine of_short (w := encI12 29 f) (encI12_short _ _) ?_ h
  unfold decode32
  rw [encI12_major, encI12_fields]
  rfl

theorem st32 (f : I12F) : Statement (.st32 f) := by
  intro h _ z
  refine of_short (w := encI12 30 f) (encI12_short _ _) ?_ h
  unfold decode32
  rw [encI12_major, encI12_fields]
  rfl

theorem st64 (f : I12F) : Statement (.st64 f) := by
  intro h _ z
  refine of_short (w := encI12 31 f) (encI12_short _ _) ?_ h
  unfold decode32
  rw [encI12_major, encI12_fields]
  rfl

theorem amoadd (f : AmoF) : Statement (.amoadd f) := by
  intro h _ z
  obtain ⟨o, zz, r⟩ := f
  refine of_short (w := encAmo 0 ⟨o, zz, r⟩) (encAmo_short _ _) ?_ h
  unfold decode32
  rcases ord_cases o with rfl | rfl | rfl | rfl <;>
    (rw [encAmo_major, amo_ord]; unfold decodeAmo; rw [encAmo_op, encAmo_width, encAmo_fields]; rfl)

theorem amominS (f : AmoF) : Statement (.amominS f) := by
  intro h _ z
  obtain ⟨o, zz, r⟩ := f
  refine of_short (w := encAmo 1 ⟨o, zz, r⟩) (encAmo_short _ _) ?_ h
  unfold decode32
  rcases ord_cases o with rfl | rfl | rfl | rfl <;>
    (rw [encAmo_major, amo_ord]; unfold decodeAmo; rw [encAmo_op, encAmo_width, encAmo_fields]; rfl)

theorem amominZ (f : AmoF) : Statement (.amominZ f) := by
  intro h _ z
  obtain ⟨o, zz, r⟩ := f
  refine of_short (w := encAmo 2 ⟨o, zz, r⟩) (encAmo_short _ _) ?_ h
  unfold decode32
  rcases ord_cases o with rfl | rfl | rfl | rfl <;>
    (rw [encAmo_major, amo_ord]; unfold decodeAmo; rw [encAmo_op, encAmo_width, encAmo_fields]; rfl)

theorem amomaxS (f : AmoF) : Statement (.amomaxS f) := by
  intro h _ z
  obtain ⟨o, zz, r⟩ := f
  refine of_short (w := encAmo 3 ⟨o, zz, r⟩) (encAmo_short _ _) ?_ h
  unfold decode32
  rcases ord_cases o with rfl | rfl | rfl | rfl <;>
    (rw [encAmo_major, amo_ord]; unfold decodeAmo; rw [encAmo_op, encAmo_width, encAmo_fields]; rfl)

theorem amomaxZ (f : AmoF) : Statement (.amomaxZ f) := by
  intro h _ z
  obtain ⟨o, zz, r⟩ := f
  refine of_short (w := encAmo 4 ⟨o, zz, r⟩) (encAmo_short _ _) ?_ h
  unfold decode32
  rcases ord_cases o with rfl | rfl | rfl | rfl <;>
    (rw [encAmo_major, amo_ord]; unfold decodeAmo; rw [encAmo_op, encAmo_width, encAmo_fields]; rfl)

theorem amoand (f : AmoF) : Statement (.amoand f) := by
  intro h _ z
  obtain ⟨o, zz, r⟩ := f
  refine of_short (w := encAmo 5 ⟨o, zz, r⟩) (encAmo_short _ _) ?_ h
  unfold decode32
  rcases ord_cases o with rfl | rfl | rfl | rfl <;>
    (rw [encAmo_major, amo_ord]; unfold decodeAmo; rw [encAmo_op, encAmo_width, encAmo_fields]; rfl)

theorem amoor (f : AmoF) : Statement (.amoor f) := by
  intro h _ z
  obtain ⟨o, zz, r⟩ := f
  refine of_short (w := encAmo 6 ⟨o, zz, r⟩) (encAmo_short _ _) ?_ h
  unfold decode32
  rcases ord_cases o with rfl | rfl | rfl | rfl <;>
    (rw [encAmo_major, amo_ord]; unfold decodeAmo; rw [encAmo_op, encAmo_width, encAmo_fields]; rfl)

theorem amoxchg (f : AmoF) : Statement (.amoxchg f) := by
  intro h _ z
  obtain ⟨o, zz, r⟩ := f
  refine of_short (w := encAmo 7 ⟨o, zz, r⟩) (encAmo_short _ _) ?_ h
  unfold decode32
  rcases ord_cases o with rfl | rfl | rfl | rfl <;>
    (rw [encAmo_major, amo_ord]; unfold decodeAmo; rw [encAmo_op, encAmo_width, encAmo_fields]; rfl)

theorem amosnap (f : AmoF) : Statement (.amosnap f) := by
  intro h _ z
  obtain ⟨o, zz, r⟩ := f
  refine of_short (w := encAmo 8 ⟨o, zz, r⟩) (encAmo_short _ _) ?_ h
  unfold decode32
  rcases ord_cases o with rfl | rfl | rfl | rfl <;>
    (rw [encAmo_major, amo_ord]; unfold decodeAmo; rw [encAmo_op, encAmo_width, encAmo_fields]; rfl)

theorem amocas (f : AmoF) : Statement (.amocas f) := by
  intro h _ z
  obtain ⟨o, zz, r⟩ := f
  refine of_short (w := encAmo 9 ⟨o, zz, r⟩) (encAmo_short _ _) ?_ h
  unfold decode32
  rcases ord_cases o with rfl | rfl | rfl | rfl <;>
    (rw [encAmo_major, amo_ord]; unfold decodeAmo; rw [encAmo_op, encAmo_width, encAmo_fields]; rfl)

theorem fenceCore (f : R3F) : Statement (.fenceCore f) := by
  intro h _ z
  refine of_short (w := encR3 36 0 f) (encR3_short _ _ _) ?_ h
  unfold decode32
  rw [encR3_major, encR3_fn, encR3_fields]
  rfl

theorem fenceCluster (f : R3F) : Statement (.fenceCluster f) := by
  intro h _ z
  refine of_short (w := encR3 36 1 f) (encR3_short _ _ _) ?_ h
  unfold decode32
  rw [encR3_major, encR3_fn, encR3_fields]
  rfl

theorem fenceDevice (f : R3F) : Statement (.fenceDevice f) := by
  intro h _ z
  refine of_short (w := encR3 36 2 f) (encR3_short _ _ _) ?_ h
  unfold decode32
  rw [encR3_major, encR3_fn, encR3_fields]
  rfl

theorem fenceDomain (f : R3F) : Statement (.fenceDomain f) := by
  intro h _ z
  refine of_short (w := encR3 36 3 f) (encR3_short _ _ _) ?_ h
  unfold decode32
  rw [encR3_major, encR3_fn, encR3_fields]
  rfl

theorem fenceEng (f : R3F) : Statement (.fenceEng f) := by
  intro h _ z
  refine of_short (w := encR3 36 4 f) (encR3_short _ _ _) ?_ h
  unfold decode32
  rw [encR3_major, encR3_fn, encR3_fields]
  rfl

theorem marm (f : R3F) : Statement (.marm f) := by
  intro h _ z
  refine of_short (w := encR3 37 0 f) (encR3_short _ _ _) ?_ h
  unfold decode32
  rw [encR3_major, encR3_fn, encR3_fields]
  rfl

theorem mwait (f : R3F) : Statement (.mwait f) := by
  intro h _ z
  refine of_short (w := encR3 37 1 f) (encR3_short _ _ _) ?_ h
  unfold decode32
  rw [encR3_major, encR3_fn, encR3_fields]
  rfl

theorem mwaitAcq (f : R3F) : Statement (.mwaitAcq f) := by
  intro h _ z
  refine of_short (w := encR3 37 2 f) (encR3_short _ _ _) ?_ h
  unfold decode32
  rw [encR3_major, encR3_fn, encR3_fields]
  rfl

theorem finit (f : R3F) : Statement (.finit f) := by
  intro h _ z
  refine of_short (w := encR3 40 0 f) (encR3_short _ _ _) ?_ h
  unfold decode32
  rw [encR3_major, encR3_fn, encR3_fields]
  rfl

theorem flen (f : R3F) : Statement (.flen f) := by
  intro h _ z
  refine of_short (w := encR3 40 1 f) (encR3_short _ _ _) ?_ h
  unfold decode32
  rw [encR3_major, encR3_fn, encR3_fields]
  rfl

theorem fprobe (f : R3F) : Statement (.fprobe f) := by
  intro h _ z
  refine of_short (w := encR3 40 2 f) (encR3_short _ _ _) ?_ h
  unfold decode32
  rw [encR3_major, encR3_fn, encR3_fields]
  rfl

theorem fdel (f : R3F) : Statement (.fdel f) := by
  intro h _ z
  refine of_short (w := encR3 40 3 f) (encR3_short _ _ _) ?_ h
  unfold decode32
  rw [encR3_major, encR3_fn, encR3_fields]
  rfl

theorem fpack (f : R3F) : Statement (.fpack f) := by
  intro h _ z
  refine of_short (w := encR3 40 4 f) (encR3_short _ _ _) ?_ h
  unfold decode32
  rw [encR3_major, encR3_fn, encR3_fields]
  rfl

theorem fins (f : R3F) : Statement (.fins f) := by
  intro h _ z
  refine of_short (w := encR3 41 0 f) (encR3_short _ _ _) ?_ h
  unfold decode32
  rw [encR3_major, encR3_fn, encR3_fields]
  rfl

theorem fcmb (op : BitVec 3) (f : R3F) : Statement (.fcmb op f) := by
  intro h _ z
  refine of_short (w := encR3 42 (op.setWidth 5) f) (encR3_short _ _ _) ?_ h
  unfold decode32
  rw [encR3_major, encR3_fn, encR3_fields]
  show (if _ ≤ 7 then _ else _) = _
  rw [if_pos (fcmb_op op).1, (fcmb_op op).2]

theorem mfsr (f : SysF) : Statement (.mfsr f) := by
  intro h _ z
  refine of_short (w := sysWord 48 f) (sysWord_short _ _) ?_ h
  unfold decode32
  rw [sysWord_major, sysWord_fields]
  rfl

theorem mtsr (f : SysF) : Statement (.mtsr f) := by
  intro h _ z
  refine of_short (w := sysWord 49 f) (sysWord_short _ _) ?_ h
  unfold decode32
  rw [sysWord_major, sysWord_fields]
  rfl

theorem nop (f : R3F) : Statement (.nop f) := by
  intro h _ z
  refine of_short (w := encR3 50 0 f) (encR3_short _ _ _) ?_ h
  unfold decode32
  rw [encR3_major, encR3_fn, encR3_fields]
  rfl

theorem eret (f : R3F) : Statement (.eret f) := by
  intro h _ z
  refine of_short (w := encR3 50 1 f) (encR3_short _ _ _) ?_ h
  unfold decode32
  rw [encR3_major, encR3_fn, encR3_fields]
  rfl

theorem wdrain (f : R3F) : Statement (.wdrain f) := by
  intro h _ z
  refine of_short (w := encR3 50 2 f) (encR3_short _ _ _) ?_ h
  unfold decode32
  rw [encR3_major, encR3_fn, encR3_fields]
  rfl

theorem halt (f : R3F) : Statement (.halt f) := by
  intro h _ z
  refine of_short (w := encR3 50 3 f) (encR3_short _ _ _) ?_ h
  unfold decode32
  rw [encR3_major, encR3_fn, encR3_fields]
  rfl

theorem trap (f : I12F) : Statement (.trap f) := by
  intro h _ z
  refine of_short (w := encI12 51 f) (encI12_short _ _) ?_ h
  unfold decode32
  rw [encI12_major, encI12_fields]
  rfl

theorem barInit (f : R3F) : Statement (.barInit f) := by
  intro h _ z
  refine of_short (w := encR3 52 0 f) (encR3_short _ _ _) ?_ h
  unfold decode32
  rw [encR3_major, encR3_fn, encR3_fields]
  rfl

theorem barArr (f : R3F) : Statement (.barArr f) := by
  intro h _ z
  refine of_short (w := encR3 52 1 f) (encR3_short _ _ _) ?_ h
  unfold decode32
  rw [encR3_major, encR3_fn, encR3_fields]
  rfl

theorem barWait (f : R3F) : Statement (.barWait f) := by
  intro h _ z
  refine of_short (w := encR3 52 2 f) (encR3_short _ _ _) ?_ h
  unfold decode32
  rw [encR3_major, encR3_fn, encR3_fields]
  rfl

theorem li (f : LF) : Statement (.li f) := by
  intro h _ z
  refine of_long (w := lWord0 0 f) (z := f.imm32) (lWord0_long _ _) ?_ h
  unfold decode64
  rw [lWord0_major, lWord0_fn, lWords_fields]
  rfl

theorem lih (f : LF) : Statement (.lih f) := by
  intro h _ z
  refine of_long (w := lWord0 1 f) (z := f.imm32) (lWord0_long _ _) ?_ h
  unfold decode64
  rw [lWord0_major, lWord0_fn, lWords_fields]
  rfl

theorem addl (f : LF) : Statement (.addl f) := by
  intro h _ z
  refine of_long (w := lWord0 2 f) (z := f.imm32) (lWord0_long _ _) ?_ h
  unfold decode64
  rw [lWord0_major, lWord0_fn, lWords_fields]
  rfl

theorem loopi (f : LxF) : Statement (.loopi f) := by
  intro h _ z
  refine of_long (w := lxWord0 f) (z := lxWord1 f) (lxWord0_long _) ?_ h
  unfold decode64
  rw [lxWord0_major, lxWords_fields]
  rfl

theorem vadd (f : VF) : Statement (.vadd f) := by
  intro h _ z
  refine of_long (w := vWord0 1 f) (z := vWord1 0 f) (vWord0_long _ _) ?_ h
  unfold decode64
  rw [vWord0_major, vWord1_fn, vWords_fields]
  rfl

theorem vsub (f : VF) : Statement (.vsub f) := by
  intro h _ z
  refine of_long (w := vWord0 1 f) (z := vWord1 1 f) (vWord0_long _ _) ?_ h
  unfold decode64
  rw [vWord0_major, vWord1_fn, vWords_fields]
  rfl

theorem vmul (f : VF) : Statement (.vmul f) := by
  intro h _ z
  refine of_long (w := vWord0 1 f) (z := vWord1 2 f) (vWord0_long _ _) ?_ h
  unfold decode64
  rw [vWord0_major, vWord1_fn, vWords_fields]
  rfl

theorem vfma (f : VF) : Statement (.vfma f) := by
  intro h _ z
  refine of_long (w := vWord0 1 f) (z := vWord1 3 f) (vWord0_long _ _) ?_ h
  unfold decode64
  rw [vWord0_major, vWord1_fn, vWords_fields]
  rfl

theorem vmin (f : VF) : Statement (.vmin f) := by
  intro h _ z
  refine of_long (w := vWord0 1 f) (z := vWord1 4 f) (vWord0_long _ _) ?_ h
  unfold decode64
  rw [vWord0_major, vWord1_fn, vWords_fields]
  rfl

theorem vmax (f : VF) : Statement (.vmax f) := by
  intro h _ z
  refine of_long (w := vWord0 1 f) (z := vWord1 5 f) (vWord0_long _ _) ?_ h
  unfold decode64
  rw [vWord0_major, vWord1_fn, vWords_fields]
  rfl

theorem vabs (f : VF) : Statement (.vabs f) := by
  intro h _ z
  refine of_long (w := vWord0 1 f) (z := vWord1 6 f) (vWord0_long _ _) ?_ h
  unfold decode64
  rw [vWord0_major, vWord1_fn, vWords_fields]
  rfl

theorem vneg (f : VF) : Statement (.vneg f) := by
  intro h _ z
  refine of_long (w := vWord0 1 f) (z := vWord1 7 f) (vWord0_long _ _) ?_ h
  unfold decode64
  rw [vWord0_major, vWord1_fn, vWords_fields]
  rfl

theorem vand (f : VF) : Statement (.vand f) := by
  intro h _ z
  refine of_long (w := vWord0 2 f) (z := vWord1 0 f) (vWord0_long _ _) ?_ h
  unfold decode64
  rw [vWord0_major, vWord1_fn, vWords_fields]
  rfl

theorem vor (f : VF) : Statement (.vor f) := by
  intro h _ z
  refine of_long (w := vWord0 2 f) (z := vWord1 1 f) (vWord0_long _ _) ?_ h
  unfold decode64
  rw [vWord0_major, vWord1_fn, vWords_fields]
  rfl

theorem vxor (f : VF) : Statement (.vxor f) := by
  intro h _ z
  refine of_long (w := vWord0 2 f) (z := vWord1 2 f) (vWord0_long _ _) ?_ h
  unfold decode64
  rw [vWord0_major, vWord1_fn, vWords_fields]
  rfl

theorem vshl (f : VF) : Statement (.vshl f) := by
  intro h _ z
  refine of_long (w := vWord0 2 f) (z := vWord1 3 f) (vWord0_long _ _) ?_ h
  unfold decode64
  rw [vWord0_major, vWord1_fn, vWords_fields]
  rfl

theorem vshr (f : VF) : Statement (.vshr f) := by
  intro h _ z
  refine of_long (w := vWord0 2 f) (z := vWord1 4 f) (vWord0_long _ _) ?_ h
  unfold decode64
  rw [vWord0_major, vWord1_fn, vWords_fields]
  rfl

theorem vsra (f : VF) : Statement (.vsra f) := by
  intro h _ z
  refine of_long (w := vWord0 2 f) (z := vWord1 5 f) (vWord0_long _ _) ?_ h
  unfold decode64
  rw [vWord0_major, vWord1_fn, vWords_fields]
  rfl

theorem vcmp (f : VF) : Statement (.vcmp f) := by
  intro h _ z
  refine of_long (w := vWord0 3 f) (z := vWord1 0 f) (vWord0_long _ _) ?_ h
  unfold decode64
  rw [vWord0_major, vWord1_fn, vWords_fields]
  rfl

theorem vsel (f : VF) : Statement (.vsel f) := by
  intro h _ z
  refine of_long (w := vWord0 3 f) (z := vWord1 1 f) (vWord0_long _ _) ?_ h
  unfold decode64
  rw [vWord0_major, vWord1_fn, vWords_fields]
  rfl

theorem vmov (f : VF) : Statement (.vmov f) := by
  intro h _ z
  refine of_long (w := vWord0 3 f) (z := vWord1 2 f) (vWord0_long _ _) ?_ h
  unfold decode64
  rw [vWord0_major, vWord1_fn, vWords_fields]
  rfl

theorem vsplat (f : VF) : Statement (.vsplat f) := by
  intro h _ z
  refine of_long (w := vWord0 3 f) (z := vWord1 3 f) (vWord0_long _ _) ?_ h
  unfold decode64
  rw [vWord0_major, vWord1_fn, vWords_fields]
  rfl

theorem vbcast (f : VF) : Statement (.vbcast f) := by
  intro h _ z
  refine of_long (w := vWord0 3 f) (z := vWord1 4 f) (vWord0_long _ _) ?_ h
  unfold decode64
  rw [vWord0_major, vWord1_fn, vWords_fields]
  rfl

theorem vperm (f : VF) : Statement (.vperm f) := by
  intro h _ z
  refine of_long (w := vWord0 4 f) (z := vWord1 0 f) (vWord0_long _ _) ?_ h
  unfold decode64
  rw [vWord0_major, vWord1_fn, vWords_fields]
  rfl

theorem vins (f : VF) : Statement (.vins f) := by
  intro h _ z
  refine of_long (w := vWord0 4 f) (z := vWord1 1 f) (vWord0_long _ _) ?_ h
  unfold decode64
  rw [vWord0_major, vWord1_fn, vWords_fields]
  rfl

theorem vext (f : VF) : Statement (.vext f) := by
  intro h _ z
  refine of_long (w := vWord0 4 f) (z := vWord1 2 f) (vWord0_long _ _) ?_ h
  unfold decode64
  rw [vWord0_major, vWord1_fn, vWords_fields]
  rfl

theorem vred (f : VF) : Statement (.vred f) := by
  intro h _ z
  refine of_long (w := vWord0 5 f) (z := vWord1 0 f) (vWord0_long _ _) ?_ h
  unfold decode64
  rw [vWord0_major, vWord1_fn, vWords_fields]
  rfl

theorem vscan (f : VF) : Statement (.vscan f) := by
  intro h _ z
  refine of_long (w := vWord0 5 f) (z := vWord1 1 f) (vWord0_long _ _) ?_ h
  unfold decode64
  rw [vWord0_major, vWord1_fn, vWords_fields]
  rfl

theorem vhist (f : VF) : Statement (.vhist f) := by
  intro h _ z
  refine of_long (w := vWord0 5 f) (z := vWord1 2 f) (vWord0_long _ _) ?_ h
  unfold decode64
  rw [vWord0_major, vWord1_fn, vWords_fields]
  rfl

theorem vexp2 (f : VF) : Statement (.vexp2 f) := by
  intro h _ z
  refine of_long (w := vWord0 6 f) (z := vWord1 0 f) (vWord0_long _ _) ?_ h
  unfold decode64
  rw [vWord0_major, vWord1_fn, vWords_fields]
  rfl

theorem vrcp (f : VF) : Statement (.vrcp f) := by
  intro h _ z
  refine of_long (w := vWord0 6 f) (z := vWord1 1 f) (vWord0_long _ _) ?_ h
  unfold decode64
  rw [vWord0_major, vWord1_fn, vWords_fields]
  rfl

theorem vrsq (f : VF) : Statement (.vrsq f) := by
  intro h _ z
  refine of_long (w := vWord0 6 f) (z := vWord1 2 f) (vWord0_long _ _) ?_ h
  unfold decode64
  rw [vWord0_major, vWord1_fn, vWords_fields]
  rfl

theorem vlog2 (f : VF) : Statement (.vlog2 f) := by
  intro h _ z
  refine of_long (w := vWord0 6 f) (z := vWord1 3 f) (vWord0_long _ _) ?_ h
  unfold decode64
  rw [vWord0_major, vWord1_fn, vWords_fields]
  rfl

theorem pand (f : VF) : Statement (.pand f) := by
  intro h _ z
  refine of_long (w := vWord0 7 f) (z := vWord1 0 f) (vWord0_long _ _) ?_ h
  unfold decode64
  rw [vWord0_major, vWord1_fn, vWords_fields]
  rfl

theorem por (f : VF) : Statement (.por f) := by
  intro h _ z
  refine of_long (w := vWord0 7 f) (z := vWord1 1 f) (vWord0_long _ _) ?_ h
  unfold decode64
  rw [vWord0_major, vWord1_fn, vWords_fields]
  rfl

theorem pnot (f : VF) : Statement (.pnot f) := by
  intro h _ z
  refine of_long (w := vWord0 7 f) (z := vWord1 2 f) (vWord0_long _ _) ?_ h
  unfold decode64
  rw [vWord0_major, vWord1_fn, vWords_fields]
  rfl

theorem pcnt (f : VF) : Statement (.pcnt f) := by
  intro h _ z
  refine of_long (w := vWord0 7 f) (z := vWord1 3 f) (vWord0_long _ _) ?_ h
  unfold decode64
  rw [vWord0_major, vWord1_fn, vWords_fields]
  rfl

theorem pfirst (f : VF) : Statement (.pfirst f) := by
  intro h _ z
  refine of_long (w := vWord0 7 f) (z := vWord1 4 f) (vWord0_long _ _) ?_ h
  unfold decode64
  rw [vWord0_major, vWord1_fn, vWords_fields]
  rfl

theorem ldv (f : VF) : Statement (.ldv f) := by
  intro h _ z
  refine of_long (w := vWord0 16 f) (z := vWord1 0 f) (vWord0_long _ _) ?_ h
  unfold decode64
  rw [vWord0_major, vWord1_fn, vWords_fields]
  rfl

theorem stv (f : VF) : Statement (.stv f) := by
  intro h _ z
  refine of_long (w := vWord0 16 f) (z := vWord1 1 f) (vWord0_long _ _) ?_ h
  unfold decode64
  rw [vWord0_major, vWord1_fn, vWords_fields]
  rfl

theorem ldvs (f : VF) : Statement (.ldvs f) := by
  intro h _ z
  refine of_long (w := vWord0 16 f) (z := vWord1 2 f) (vWord0_long _ _) ?_ h
  unfold decode64
  rw [vWord0_major, vWord1_fn, vWords_fields]
  rfl

theorem gather (f : VF) : Statement (.gather f) := by
  intro h _ z
  refine of_long (w := vWord0 16 f) (z := vWord1 3 f) (vWord0_long _ _) ?_ h
  unfold decode64
  rw [vWord0_major, vWord1_fn, vWords_fields]
  rfl

theorem scatter (f : VF) : Statement (.scatter f) := by
  intro h _ z
  refine of_long (w := vWord0 16 f) (z := vWord1 4 f) (vWord0_long _ _) ?_ h
  unfold decode64
  rw [vWord0_major, vWord1_fn, vWords_fields]
  rfl

theorem qpush (f : VF) : Statement (.qpush f) := by
  intro h _ z
  refine of_long (w := vWord0 16 f) (z := vWord1 5 f) (vWord0_long _ _) ?_ h
  unfold decode64
  rw [vWord0_major, vWord1_fn, vWords_fields]
  rfl

theorem vcvt (f : VF) : Statement (.vcvt f) := by
  intro h _ z
  refine of_long (w := vWord0 24 f) (z := vWord1 0 f) (vWord0_long _ _) ?_ h
  unfold decode64
  rw [vWord0_major, vWord1_fn, vWords_fields]
  rfl

theorem vqmx (f : VF) : Statement (.vqmx f) := by
  intro h _ z
  refine of_long (w := vWord0 24 f) (z := vWord1 1 f) (vWord0_long _ _) ?_ h
  unfold decode64
  rw [vWord0_major, vWord1_fn, vWords_fields]
  rfl

theorem vdqmx (f : VF) : Statement (.vdqmx f) := by
  intro h _ z
  refine of_long (w := vWord0 24 f) (z := vWord1 2 f) (vWord0_long _ _) ?_ h
  unfold decode64
  rw [vWord0_major, vWord1_fn, vWords_fields]
  rfl

theorem vlut (f : VF) : Statement (.vlut f) := by
  intro h _ z
  refine of_long (w := vWord0 24 f) (z := vWord1 3 f) (vWord0_long _ _) ?_ h
  unfold decode64
  rw [vWord0_major, vWord1_fn, vWords_fields]
  rfl

theorem mldb (f : EF) : Statement (.mldb f) := by
  intro h _ z
  refine of_long (w := eWord0 32 f) (z := eWord1 0 f) (eWord0_long _ _) ?_ h
  unfold decode64
  rw [eWord0_major, eWord1_fn, eWords_fields]
  rfl

theorem mldm (f : EF) : Statement (.mldm f) := by
  intro h _ z
  refine of_long (w := eWord0 32 f) (z := eWord1 1 f) (eWord0_long _ _) ?_ h
  unfold decode64
  rw [eWord0_major, eWord1_fn, eWords_fields]
  rfl

theorem mma (f : EF) : Statement (.mma f) := by
  intro h _ z
  refine of_long (w := eWord0 32 f) (z := eWord1 2 f) (eWord0_long _ _) ?_ h
  unfold decode64
  rw [eWord0_major, eWord1_fn, eWords_fields]
  rfl

theorem mmaS (f : EF) : Statement (.mmaS f) := by
  intro h _ z
  refine of_long (w := eWord0 32 f) (z := eWord1 3 f) (eWord0_long _ _) ?_ h
  unfold decode64
  rw [eWord0_major, eWord1_fn, eWords_fields]
  rfl

theorem mclr (f : EF) : Statement (.mclr f) := by
  intro h _ z
  refine of_long (w := eWord0 32 f) (z := eWord1 4 f) (eWord0_long _ _) ?_ h
  unfold decode64
  rw [eWord0_major, eWord1_fn, eWords_fields]
  rfl

theorem mrd (f : EF) : Statement (.mrd f) := by
  intro h _ z
  refine of_long (w := eWord0 32 f) (z := eWord1 5 f) (eWord0_long _ _) ?_ h
  unfold decode64
  rw [eWord0_major, eWord1_fn, eWords_fields]
  rfl

theorem tdclass (f : EF) : Statement (.tdclass f) := by
  intro h _ z
  refine of_long (w := eWord0 32 f) (z := eWord1 6 f) (eWord0_long _ _) ?_ h
  unfold decode64
  rw [eWord0_major, eWord1_fn, eWords_fields]
  rfl

theorem tdquery (f : EF) : Statement (.tdquery f) := by
  intro h _ z
  refine of_long (w := eWord0 32 f) (z := eWord1 7 f) (eWord0_long _ _) ?_ h
  unfold decode64
  rw [eWord0_major, eWord1_fn, eWords_fields]
  rfl

theorem mtest (f : EF) : Statement (.mtest f) := by
  intro h _ z
  refine of_long (w := eWord0 32 f) (z := eWord1 8 f) (eWord0_long _ _) ?_ h
  unfold decode64
  rw [eWord0_major, eWord1_fn, eWords_fields]
  rfl

theorem cpy (f : EF) : Statement (.cpy f) := by
  intro h _ z
  refine of_long (w := eWord0 40 f) (z := eWord1 0 f) (eWord0_long _ _) ?_ h
  unfold decode64
  rw [eWord0_major, eWord1_fn, eWords_fields]
  rfl

theorem cpystat (f : EF) : Statement (.cpystat f) := by
  intro h _ z
  refine of_long (w := eWord0 40 f) (z := eWord1 1 f) (eWord0_long _ _) ?_ h
  unfold decode64
  rw [eWord0_major, eWord1_fn, eWords_fields]
  rfl

theorem cpycancel (f : EF) : Statement (.cpycancel f) := by
  intro h _ z
  refine of_long (w := eWord0 40 f) (z := eWord1 2 f) (eWord0_long _ _) ?_ h
  unfold decode64
  rw [eWord0_major, eWord1_fn, eWords_fields]
  rfl

theorem chpush (f : EF) : Statement (.chpush f) := by
  intro h _ z
  refine of_long (w := eWord0 40 f) (z := eWord1 3 f) (eWord0_long _ _) ?_ h
  unfold decode64
  rw [eWord0_major, eWord1_fn, eWords_fields]
  rfl

theorem chpop (f : EF) : Statement (.chpop f) := by
  intro h _ z
  refine of_long (w := eWord0 40 f) (z := eWord1 4 f) (eWord0_long _ _) ?_ h
  unfold decode64
  rw [eWord0_major, eWord1_fn, eWords_fields]
  rfl

theorem chpeek (f : EF) : Statement (.chpeek f) := by
  intro h _ z
  refine of_long (w := eWord0 40 f) (z := eWord1 5 f) (eWord0_long _ _) ?_ h
  unfold decode64
  rw [eWord0_major, eWord1_fn, eWords_fields]
  rfl

theorem chmark (f : EF) : Statement (.chmark f) := by
  intro h _ z
  refine of_long (w := eWord0 40 f) (z := eWord1 6 f) (eWord0_long _ _) ?_ h
  unfold decode64
  rw [eWord0_major, eWord1_fn, eWords_fields]
  rfl

theorem chstat (f : EF) : Statement (.chstat f) := by
  intro h _ z
  refine of_long (w := eWord0 40 f) (z := eWord1 7 f) (eWord0_long _ _) ?_ h
  unfold decode64
  rw [eWord0_major, eWord1_fn, eWords_fields]
  rfl

theorem cbload (f : EF) : Statement (.cbload f) := by
  intro h _ z
  refine of_long (w := eWord0 40 f) (z := eWord1 8 f) (eWord0_long _ _) ?_ h
  unfold decode64
  rw [eWord0_major, eWord1_fn, eWords_fields]
  rfl

theorem fmrgv (f : EF) : Statement (.fmrgv f) := by
  intro h _ z
  refine of_long (w := eWord0 48 f) (z := eWord1 0 f) (eWord0_long _ _) ?_ h
  unfold decode64
  rw [eWord0_major, eWord1_fn, eWords_fields]
  rfl

theorem fscan (f : EF) : Statement (.fscan f) := by
  intro h _ z
  refine of_long (w := eWord0 48 f) (z := eWord1 1 f) (eWord0_long _ _) ?_ h
  unfold decode64
  rw [eWord0_major, eWord1_fn, eWords_fields]
  rfl

theorem fprobev (f : EF) : Statement (.fprobev f) := by
  intro h _ z
  refine of_long (w := eWord0 48 f) (z := eWord1 2 f) (eWord0_long _ _) ?_ h
  unfold decode64
  rw [eWord0_major, eWord1_fn, eWords_fields]
  rfl

theorem funion (f : EF) : Statement (.funion f) := by
  intro h _ z
  refine of_long (w := eWord0 48 f) (z := eWord1 3 f) (eWord0_long _ _) ?_ h
  unfold decode64
  rw [eWord0_major, eWord1_fn, eWords_fields]
  rfl

theorem asyncTrap (who : StreamId) : Statement (.asyncTrap who) := by
  intro _ h; cases h

theorem registerFill (id : Nat) : Statement (.registerFill id) := by
  intro _ h; cases h

theorem heldWriteDelivery (core : Nat) (idx : Nat) : Statement (.heldWriteDelivery core idx) := by
  intro _ h; cases h

theorem windowWrite (id : Nat) : Statement (.windowWrite id) := by
  intro _ h; cases h

theorem spillWrite (core : Nat) (ctx : Nat) : Statement (.spillWrite core ctx) := by
  intro _ h; cases h

theorem fillArrive (core : Nat) (ctx : Nat) (reg : Nat) : Statement (.fillArrive core ctx reg) := by
  intro _ h; cases h

theorem storeAtHome (id : Nat) : Statement (.storeAtHome id) := by
  intro _ h; cases h

theorem loadAtHome (id : Nat) : Statement (.loadAtHome id) := by
  intro _ h; cases h

theorem atomicAtHome (id : Nat) : Statement (.atomicAtHome id) := by
  intro _ h; cases h

theorem monitorRegister (id : Nat) : Statement (.monitorRegister id) := by
  intro _ h; cases h

theorem mwaitTimeout (who : StreamId) : Statement (.mwaitTimeout who) := by
  intro _ h; cases h

theorem fenceAck (who : StreamId) (path : Nat) : Statement (.fenceAck who path) := by
  intro _ h; cases h

theorem mergeAtHome (id : Nat) : Statement (.mergeAtHome id) := by
  intro _ h; cases h

theorem deleteAtHome (id : Nat) : Statement (.deleteAtHome id) := by
  intro _ h; cases h

theorem finitAtHome (id : Nat) : Statement (.finitAtHome id) := by
  intro _ h; cases h

theorem fpackAtHome (id : Nat) : Statement (.fpackAtHome id) := by
  intro _ h; cases h

theorem probeAtHome (id : Nat) : Statement (.probeAtHome id) := by
  intro _ h; cases h

theorem scanAtHome (id : Nat) : Statement (.scanAtHome id) := by
  intro _ h; cases h

theorem funionAtHome (id : Nat) : Statement (.funionAtHome id) := by
  intro _ h; cases h

theorem stalledMergeResume (pool : Nat) : Statement (.stalledMergeResume pool) := by
  intro _ h; cases h

theorem poolTimeout (pool : Nat) : Statement (.poolTimeout pool) := by
  intro _ h; cases h

theorem donate (pool : Nat) (v : W64) (drv : Bool) : Statement (.donate pool v drv) := by
  intro _ h; cases h

theorem poolReset (pool : Nat) (v : W64) (drv : Bool) : Statement (.poolReset pool v drv) := by
  intro _ h; cases h

theorem faultctlResume (pool : Nat) (drv : Bool) : Statement (.faultctlResume pool drv) := by
  intro _ h; cases h

theorem faultctlAbandon (pool : Nat) (drv : Bool) : Statement (.faultctlAbandon pool drv) := by
  intro _ h; cases h

theorem schedulingEvent (core : Nat) (launch : Nat) : Statement (.schedulingEvent core launch) := by
  intro _ h; cases h

theorem channelCommit (id : Nat) : Statement (.channelCommit id) := by
  intro _ h; cases h

theorem channelRelease (id : Nat) : Statement (.channelRelease id) := by
  intro _ h; cases h

theorem tableTokenTake (core : Nat) (slot : Nat) (port : Nat) : Statement (.tableTokenTake core slot port) := by
  intro _ h; cases h

theorem eosForward (core : Nat) (slot : Nat) : Statement (.eosForward core slot) := by
  intro _ h; cases h

theorem instanceRetire (core : Nat) (slot : Nat) : Statement (.instanceRetire core slot) := by
  intro _ h; cases h

theorem poisonReinject (core : Nat) (ch : Nat) (cons : Nat) : Statement (.poisonReinject core ch cons) := by
  intro _ h; cases h

theorem rateSample (core : Nat) (ch : Nat) : Statement (.rateSample core ch) := by
  intro _ h; cases h

theorem rateParamWrite (core : Nat) (ch : Nat) (word : Nat) (v : W64) (drv : Bool) : Statement (.rateParamWrite core ch word v drv) := by
  intro _ h; cases h

theorem sinkDataSlot (core : Nat) (ch : Nat) (cons : Nat) : Statement (.sinkDataSlot core ch cons) := by
  intro _ h; cases h

theorem sinkEndOfStream (core : Nat) (ch : Nat) (cons : Nat) : Statement (.sinkEndOfStream core ch cons) := by
  intro _ h; cases h

theorem markerInject (core : Nat) (slot : Nat) : Statement (.markerInject core slot) := by
  intro _ h; cases h

theorem snapshotAlign (core : Nat) (slot : Nat) : Statement (.snapshotAlign core slot) := by
  intro _ h; cases h

theorem snapshotUnalignedSwitch (core : Nat) (slot : Nat) : Statement (.snapshotUnalignedSwitch core slot) := by
  intro _ h; cases h

theorem unalignedMarkerArrive (core : Nat) (slot : Nat) (port : Nat) : Statement (.unalignedMarkerArrive core slot port) := by
  intro _ h; cases h

theorem snapreq (launch : Nat) (v : W64) (drv : Bool) : Statement (.snapreq launch v drv) := by
  intro _ h; cases h

theorem snapshotComplete (launch : Nat) : Statement (.snapshotComplete launch) := by
  intro _ h; cases h

theorem snapdataResend (session : Nat) (seq : Nat) : Statement (.snapdataResend session seq) := by
  intro _ h; cases h

theorem snapdataSessionLost (session : Nat) : Statement (.snapdataSessionLost session) := by
  intro _ h; cases h

theorem snapdataAck (session : Nat) (seq : Nat) (ack : Ack) : Statement (.snapdataAck session seq ack) := by
  intro _ h; cases h

theorem watchdog (launch : Nat) : Statement (.watchdog launch) := by
  intro _ h; cases h

theorem launchPacket (die : Nat) (queue : Nat) : Statement (.launchPacket die queue) := by
  intro _ h; cases h

theorem copyPacket (die : Nat) (queue : Nat) : Statement (.copyPacket die queue) := by
  intro _ h; cases h

theorem waitStampPacket (die : Nat) (queue : Nat) : Statement (.waitStampPacket die queue) := by
  intro _ h; cases h

theorem signalPacket (die : Nat) (queue : Nat) : Statement (.signalPacket die queue) := by
  intro _ h; cases h

theorem launchStart (launch : Nat) : Statement (.launchStart launch) := by
  intro _ h; cases h

theorem launchCompletion (launch : Nat) : Statement (.launchCompletion launch) := by
  intro _ h; cases h

theorem completionStamp (launch : Nat) : Statement (.completionStamp launch) := by
  intro _ h; cases h

theorem intensityWindow (launch : Nat) (cycles : Nat) (bytes : Nat) : Statement (.intensityWindow launch cycles bytes) := by
  intro _ h; cases h

theorem tileTaskIssue (core : Nat) (id : Nat) : Statement (.tileTaskIssue core id) := by
  intro _ h; cases h

theorem tileTaskComplete (core : Nat) (id : Nat) : Statement (.tileTaskComplete core id) := by
  intro _ h; cases h

theorem selfTest (core : Nat) (slot : Nat) (pass : Bool) : Statement (.selfTest core slot pass) := by
  intro _ h; cases h

theorem sectorIssue (eng : Nat) (slot : Nat) : Statement (.sectorIssue eng slot) := by
  intro _ h; cases h

theorem copyStamp (eng : Nat) (slot : Nat) : Statement (.copyStamp eng slot) := by
  intro _ h; cases h

theorem copyCtrlResume (eng : Nat) (slot : Nat) (drv : Bool) : Statement (.copyCtrlResume eng slot drv) := by
  intro _ h; cases h

theorem copyCtrlAbandon (eng : Nat) (slot : Nat) (drv : Bool) : Statement (.copyCtrlAbandon eng slot drv) := by
  intro _ h; cases h

theorem ienable (core : Nat) (slot : Nat) (v : W64) : Statement (.ienable core slot v) := by
  intro _ h; cases h

theorem lctlPreempt (launch : Nat) (drv : Bool) : Statement (.lctlPreempt launch drv) := by
  intro _ h; cases h

theorem preemptComplete (launch : Nat) : Statement (.preemptComplete launch) := by
  intro _ h; cases h

theorem lctlResume (launch : Nat) (drv : Bool) : Statement (.lctlResume launch drv) := by
  intro _ h; cases h

theorem lctlKill (launch : Nat) (drv : Bool) : Statement (.lctlKill launch drv) := by
  intro _ h; cases h

theorem killStamp (launch : Nat) : Statement (.killStamp launch) := by
  intro _ h; cases h

theorem lcorePreempt (launch : Nat) (core : Nat) (drv : Bool) : Statement (.lcorePreempt launch core drv) := by
  intro _ h; cases h

theorem lcoreResume (launch : Nat) (core : Nat) (drv : Bool) : Statement (.lcoreResume launch core drv) := by
  intro _ h; cases h

theorem doorbell (core : Nat) (v : W64) (drv : Bool) : Statement (.doorbell core v drv) := by
  intro _ h; cases h

theorem tinvVa (asid : Nat) (va : Nat) (drv : Bool) : Statement (.tinvVa asid va drv) := by
  intro _ h; cases h

theorem tinvAsid (asid : Nat) (drv : Bool) : Statement (.tinvAsid asid drv) := by
  intro _ h; cases h

theorem tinvAll (drv : Bool) : Statement (.tinvAll drv) := by
  intro _ h; cases h

theorem invalidationComplete : Statement (.invalidationComplete ) := by
  intro _ h; cases h

theorem translationWalk (id : Nat) : Statement (.translationWalk id) := by
  intro _ h; cases h

theorem tilePageTableWrite (m : Nat) (v : W64) (drv : Bool) : Statement (.tilePageTableWrite m v drv) := by
  intro _ h; cases h

theorem hashRowWrite (row : Nat) (v : W64) (drv : Bool) : Statement (.hashRowWrite row v drv) := by
  intro _ h; cases h

theorem pinsizeWrite (v : W64) (drv : Bool) : Statement (.pinsizeWrite v drv) := by
  intro _ h; cases h

theorem planeTableWrite (off : Nat) (v : W64) (drv : Bool) : Statement (.planeTableWrite off v drv) := by
  intro _ h; cases h

theorem planeDeadSet (mask : BitVec 8) (drv : Bool) : Statement (.planeDeadSet mask drv) := by
  intro _ h; cases h

theorem quiesceClear (drv : Bool) : Statement (.quiesceClear drv) := by
  intro _ h; cases h

theorem linkFlit (f : Flit) : Statement (.linkFlit f) := by
  intro _ h; cases h

theorem migrationGo (m : Nat) (drv : Bool) : Statement (.migrationGo m drv) := by
  intro _ h; cases h

theorem migrationSectorCopy (m : Nat) : Statement (.migrationSectorCopy m) := by
  intro _ h; cases h

theorem migrationClr (m : Nat) (drv : Bool) : Statement (.migrationClr m drv) := by
  intro _ h; cases h

theorem counterClear (addr : Nat) (v : W64) : Statement (.counterClear addr v) := by
  intro _ h; cases h

theorem refresh (stack : Nat) (splits : Bool) : Statement (.refresh stack splits) := by
  intro _ h; cases h

theorem scrubRead (addr : Nat) (found : EccResult) : Statement (.scrubRead addr found) := by
  intro _ h; cases h

theorem scrubWriteback (addr : Nat) : Statement (.scrubWriteback addr) := by
  intro _ h; cases h

theorem powerReqFull (drv : Bool) : Statement (.powerReqFull drv) := by
  intro _ h; cases h

theorem powerReqHalf (drv : Bool) : Statement (.powerReqHalf drv) := by
  intro _ h; cases h

theorem powerReqIdle (drv : Bool) : Statement (.powerReqIdle drv) := by
  intro _ h; cases h

theorem powerTransitionDone : Statement (.powerTransitionDone ) := by
  intro _ h; cases h

theorem sensorSample (sensor : Nat) (sample : Nat) : Statement (.sensorSample sensor sample) := by
  intro _ h; cases h

theorem telemetryRefresh (words : List Nat) : Statement (.telemetryRefresh words) := by
  intro _ h; cases h

theorem powerUp (env : StartEnv) : Statement (.powerUp env) := by
  intro _ h; cases h

theorem clusterStart (k : Nat) (pass : Bool) : Statement (.clusterStart k pass) := by
  intro _ h; cases h

theorem stackPairStart (p : Nat) (lo : Training) (hi : Training) : Statement (.stackPairStart p lo hi) := by
  intro _ h; cases h

theorem attestationReport (session : Nat) (nonce : List Byte) : Statement (.attestationReport session nonce) := by
  intro _ h; cases h

theorem read (d : Datagram) : Statement (.read d) := by
  intro _ h; cases h

theorem write (d : Datagram) : Statement (.write d) := by
  intro _ h; cases h

theorem fadd (d : Datagram) : Statement (.fadd d) := by
  intro _ h; cases h

theorem cas (d : Datagram) : Statement (.cas d) := by
  intro _ h; cases h

theorem close (d : Datagram) : Statement (.close d) := by
  intro _ h; cases h

theorem hello (h : Hello) : Statement (.hello h) := by
  intro _ h; cases h

theorem watch (d : Datagram) : Statement (.watch d) := by
  intro _ h; cases h

theorem grant (d : Datagram) : Statement (.grant d) := by
  intro _ h; cases h

theorem otherFrame (tags : Nat) : Statement (.otherFrame tags) := by
  intro _ h; cases h

theorem registerWrite (addr : Nat) (size : Nat) (v : W64) (drv : Bool) : Statement (.registerWrite addr size v drv) := by
  intro _ h; cases h

theorem powerLoss : Statement (.powerLoss ) := by
  intro _ h; cases h

theorem unallocatedKindPacket (die : Nat) (queue : Nat) : Statement (.unallocatedKindPacket die queue) := by
  intro _ h; cases h

end Sys2Proof.Laws.RoundTrip
end

