-- ==== Sys2Proof/Tests/Slice0.lean ====
section
/-!
SUPPORT. Sys2Proof/Tests/Slice0.lean: tests of the model, each a named theorem: ill-formed terms refused, words of the
spec decoded, and for every statement with hypotheses a state and operands that meet them.
-/

namespace Sys2Proof.Tests

set_option maxRecDepth 100000
set_option Elab.async false

open Sys2Proof Sys2Proof.Machine Sys2Proof.Claims

/-! ### States for the tests -/

/-- Every field of `OpsReady` as one test. -/
def readyB (s : State) (p : Plan) (vs : List VReg) : Bool := decide (
  (p.cpOnly = true → s.cur.ap = false) ∧ (p.apOnly = true → s.cur.ap = true) ∧
  (p.priv = true → (curStream s).mode.sup = true) ∧ (∀ o ∈ p.ops, reservedCode s.cur.ap o = false) ∧
  (p.ops.filter isRead).map (supply s) = vs.map some ∧
  (∀ o ∈ p.ops, o.cls = .pred → predPending s s.cur o.code.toNat = false) ∧
  (∀ o ∈ p.ops, parityBad (curStream s) (curCtx s) o = false) ∧
  (∀ o ∈ p.ops, (isRead o || o.addr || o.data) = true → residueBad (curStream s) o = false))

theorem ready_of {s : State} {p : Plan} {vs : List VReg} (h : readyB s p vs = true) : OpsReady s p vs := by
  obtain ⟨a, b, c, d, e, f, g, i⟩ := of_decide_eq_true h
  exact ⟨a, b, c, d, e, f, g, i⟩

/-- A stream at 0x1000 in supervisor mode, every register full: g1 = 5, g2 = 7, g3 = 0x2000, v1 and v2 with a few lanes. -/
def x0 : Stream :=
  { run := .running, pc := 0x1000, sreg := [(1, 5), (2, 7), (3, 0x2000)], sfull := BitVec.allOnes 136,
    vreg := [(1, 0x0000000300000002), (2, 0x0000000500000004)], vfull := BitVec.allOnes 32,
    mode := { sup := true }, trap := { vec := 0x8000 } }

/-- Core 0 with one stream on context 0, and what the test adds. -/
def at0 (x : Stream := x0) (c : Ctx := {}) (k : Core := {}) : State :=
  { cores := [(0, { k with ctxs := if c = {} then [] else [(0, c)], cps := [(0, x)] })] }

/-- The same with the stream an AP stream. -/
def atA (x : Stream := x0) (c : Ctx := {}) : State :=
  { cores := [(0, { ctxs := if c = {} then [] else [(0, c)], aps := [(0, x)] })], cur := { core := 0, ctx := 0, ap := true } }

def r3 : R3F := { rd := 4, rs1 := 1, rs2 := 2, w1 := false, w2 := false }

theorem free_of {s : State} {c : BitVec 6} (h : scalarPending s s.cur (phys s c) = false) : FreeS s c := h
theorem freeV_of {s : State} {c : BitVec 6} (h : vectorPending s s.cur c.toNat = false) : FreeV s c := h
/-- A stream that is not in MWAIT. -/
theorem no_mwait {x : Stream} (h : x.wait = .none) : ∀ d p full, x.wait ≠ .mwait d p full := by
  intro d p f e; rw [h] at e; cases e

/-! ### Witnesses: scalar members -/

def i12 (imm : BitVec 12) : I12F := { rd := 4, rs1 := 1, w1 := false, imm12 := imm }
def lf : LF := { rd := 4, rs1 := 1, w1 := false, res := 0, imm32 := 0x80000000 }

theorem wit_IntegerResults : OpsReady at0 { ops := ops3 r3 } [5, 7] ∧ FreeS at0 r3.rd :=
  ⟨ready_of (by decide +kernel), free_of (by decide +kernel)⟩

/-- R155: g0 as the destination is as free, and reads 0. -/
theorem wit_IntegerResults_g0 :
    OpsReady at0 { ops := ops3 { r3 with rd := 0, rs2 := 0 } } [5, 0] ∧ FreeS at0 0 :=
  ⟨ready_of (by decide +kernel), free_of (by decide +kernel)⟩

theorem wit_CountResults : OpsReady at0 { ops := ops2 r3 } [5] ∧ FreeS at0 r3.rd ∧ (61 : Nat) ≤ 64 ∧
    (sval [5] 0).toNat < 2 ^ (64 - 61) ∧ 2 ^ (63 - 61) ≤ (sval [5] 0).toNat :=
  ⟨ready_of (by decide +kernel), free_of (by decide +kernel), by decide +kernel⟩

/-- A divisor of 7, and one of 0. -/
theorem wit_DivideResults : (OpsReady at0 { ops := ops3 r3 } [5, 7] ∧ sval [5, 7] 1 ≠ 0 ∧ FreeS at0 r3.rd) ∧
    OpsReady at0 { ops := ops3 { r3 with rs2 := 0 } } [5, 0] ∧ sval [5, 0] 1 = 0 :=
  ⟨⟨ready_of (by decide +kernel), by decide +kernel, free_of (by decide +kernel)⟩, ready_of (by decide +kernel), by decide +kernel⟩

theorem wit_ImmediateMembers : (OpsReady at0 { ops := opsI (i12 0xFFF) } [5] ∧ FreeS at0 (i12 0xFFF).rd) ∧
    OpsReady at0 { ops := [dstS 4] } [] ∧ OpsReady at0 { ops := [bothS 4] } [0] ∧
    OpsReady at0 { ops := [dstS lf.rd, srcS 1 lf.rs1 lf.w1] } [5] ∧ FreeS at0 4 :=
  ⟨⟨ready_of (by decide +kernel), free_of (by decide +kernel)⟩, ready_of (by decide +kernel), ready_of (by decide +kernel),
    ready_of (by decide +kernel), free_of (by decide +kernel)⟩

theorem wit_SelectResult : OpsReady at0 { ops := [bothS r3.rd, srcS 1 r3.rs1 r3.w1, srcS 2 r3.rs2 r3.w2] } [0, 5, 7] ∧ FreeS at0 r3.rd :=
  ⟨ready_of (by decide +kernel), free_of (by decide +kernel)⟩

/-- Registers, and the last of the four queues of a CP stream, which holds an entry. -/
def held (c q : Nat) (id : Nat) : HeldWrite := { ctx := c, reg := q, data := 9, id := id }
/-- Two writes that the port holds: one for a register of another context, one for g4. -/
def sHeld : State := at0 x0 {} { heldWrites := [held 1 4 0, held 0 4 1] }

theorem wit_FullEmptyMembers : OpsReady at0 { ops := [dstS r3.rd] } [] ∧ FreeS at0 r3.rd ∧ (∀ h ∈ (getCore at0 at0.cur.core).heldWrites, ¬ (h.ctx = at0.cur.ctx ∧ h.reg = phys at0 r3.rd)) ∧
    (OpsReady sHeld { ops := [dstS r3.rd] } [] ∧ FreeS sHeld r3.rd ∧ sHeld.cur.ap = false ∧ (getCore sHeld sHeld.cur.core).heldWrites = [held 1 4 0] ++ held 0 4 1 :: [] ∧
      (held 0 4 1).ctx = sHeld.cur.ctx ∧ (held 0 4 1).reg = phys sHeld r3.rd ∧ (∀ k ∈ [held 1 4 0], ¬ (k.ctx = sHeld.cur.ctx ∧ k.reg = phys sHeld r3.rd)) ∧
      phys sHeld r3.rd ≠ 0 ∧ phys sHeld r3.rd < 136 ∧ streamStopped sHeld sHeld.cur = false) ∧
    OpsReady at0 { ops := [dstS r3.rd, { pos := 1, code := 1, cls := .scalar, role := .named }] } [] ∧ r3.rs1.toNat < 32 ∧
    OpsReady (at0 x0 { queues := [(3, [9])] }) { ops := [dstS 4, { pos := 1, code := 35, cls := .scalar, role := .named }] } [] ∧
    (35 : BitVec 6).toNat = 32 + 3 :=
  ⟨ready_of (by decide +kernel), free_of (by decide +kernel), by decide +kernel,
    ⟨ready_of (by decide +kernel), free_of (by decide +kernel), by decide +kernel⟩, ready_of (by decide +kernel), by decide +kernel,
    ready_of (by decide +kernel), by decide +kernel⟩

/-- A stream whose g1 is empty. -/
def xEmpty : Stream := { x0 with sfull := x0.sfull ^^^ 2 }

theorem wit_EmptySource : (∀ o ∈ ops3 r3, reservedCode (at0 xEmpty).cur.ap o = false) ∧ r3.rs1.toNat < 32 ∧
    sfullAt (curStream (at0 xEmpty)) (phys (at0 xEmpty) r3.rs1) = false := by decide +kernel

theorem wit_EmptyQueue : (∀ o ∈ ops3 { r3 with rs1 := 35 }, reservedCode at0.cur.ap o = false) ∧ (3 : Nat) < 4 ∧
    (35 : BitVec 6).toNat = 32 + 3 ∧ tget [] (curCtx at0).queues 3 = [] ∧ r3.rs2.toNat < 32 := by decide +kernel

theorem wit_EmptySecondQueue : (∀ o ∈ ops3 { r3 with rs2 := 35 }, reservedCode at0.cur.ap o = false) ∧ (3 : Nat) < 4 ∧
    (35 : BitVec 6).toNat = 32 + 3 ∧ tget [] (curCtx at0).queues 3 = [] ∧ r3.rs1.toNat < 32 ∧ sfullAt (curStream at0) (phys at0 r3.rs1) = true := by
  decide +kernel

/-- The first reserved code of each position: a queue as rd, code 36 as rs1, a queue as rs1 or rs2 in an AP stream, code 36 as
rs2 behind a queue as rs1 in a CP stream. -/
theorem wit_ReservedRegister : 32 ≤ (32 : BitVec 6).toNat ∧ (r3.rd.toNat < 32 ∧ 36 ≤ (36 : BitVec 6).toNat) ∧
    (atA).cur.ap = true ∧ r3.rs1.toNat < 32 ∧ 32 ≤ (32 : BitVec 6).toNat ∧ (at0.cur.ap = false ∧ (35 : BitVec 6).toNat < 36) := by decide +kernel

/-! ### Witnesses: control transfer -/

/-- BC at both ends of its conditions; JMPR to an aligned address and to one that is not. -/
theorem wit_Branches :
    (OpsReady at0 { ops := [srcS 1 1 false] } [5] ∧ ¬ bcTaken 0 (sval [5] 0) ∧ bcTaken 4 (sval [5] 0) ∧ ¬ bcTaken 5 (sval [5] 0)) ∧
    OpsReady at0 {} [] ∧ (OpsReady at0 { ops := [addrS 1 3 false] } [0x2000] ∧ (sval [0x2000] 0).toNat % 4 = 0) ∧
    OpsReady at0 { ops := [addrS 1 1 false] } [5] ∧ (sval [5] 0).toNat % 4 ≠ 0 :=
  ⟨⟨ready_of (by decide +kernel), by show ¬ (sval [5] 0).toInt = 0; decide +kernel,
      by show 0 < (sval [5] 0).toInt; decide +kernel, by show ¬ (sval [5] 0).toInt ≤ 0; decide +kernel⟩,
    ready_of (by decide +kernel), ⟨ready_of (by decide +kernel), by decide +kernel⟩, ready_of (by decide +kernel), by decide +kernel⟩

def xDeep (d b : Nat) : Stream := { x0 with cwp := { win := d % 8, depth := d, below := b } }

/-- A call from the first frame, one at the deepest, also with all its windows resident; a call to a register. -/
theorem wit_Calls :
    (windowPending at0 at0.cur (((curStream at0).cwp.depth + 1) % 8) true = false ∧ (curStream at0).cwp.below < 7 ∧
      OpsReady at0 { cpOnly := true } [] ∧ (curStream at0).cwp.depth < 255) ∧
    (windowPending (at0 (xDeep 255 6)) (at0 (xDeep 255 6)).cur 0 true = false ∧ (curStream (at0 (xDeep 255 6))).cwp.below < 7 ∧
      OpsReady (at0 (xDeep 255 6)) { cpOnly := true } [] ∧ (curStream (at0 (xDeep 255 6))).cwp.depth = 255 ∧
      OpsReady (at0 (xDeep 255 7)) { cpOnly := true } [] ∧ (curStream (at0 (xDeep 255 7))).cwp.depth = 255 ∧
      OpsReady (at0 (xDeep 255 7)) { cpOnly := true, ops := [addrS 1 3 false] } [0x2000]) ∧
    (OpsReady at0 { cpOnly := true, ops := [addrS 1 3 false] } [0x2000] ∧ (sval [0x2000] 0).toNat % 4 = 0) ∧
    OpsReady at0 { cpOnly := true, ops := [addrS 1 1 false] } [5] ∧ (sval [5] 0).toNat % 4 ≠ 0 :=
  ⟨⟨by decide +kernel, by decide +kernel, ready_of (by decide +kernel), by decide +kernel⟩,
    ⟨by decide +kernel, by decide +kernel, ready_of (by decide +kernel), by decide +kernel, ready_of (by decide +kernel), by decide +kernel, ready_of (by decide +kernel)⟩,
    ⟨ready_of (by decide +kernel), by decide +kernel⟩, ready_of (by decide +kernel), by decide +kernel⟩

/-- A return whose caller is resident, a LINK that is no instruction address, and a return at DEPTH 0. -/
theorem wit_Returns :
    (OpsReady (at0 (xDeep 1 2)) { cpOnly := true } [] ∧ (linkOf (curStream (at0 (xDeep 1 2)))).toNat % 4 = 0 ∧
      0 < (curStream (at0 (xDeep 1 2))).cwp.depth ∧ 1 < (curStream (at0 (xDeep 1 2))).cwp.below) ∧
    (OpsReady (at0 { x0 with link := [(0, 2)] }) { cpOnly := true } [] ∧ (linkOf (curStream (at0 { x0 with link := [(0, 2)] }))).toNat % 4 ≠ 0) ∧
    OpsReady at0 { cpOnly := true } [] ∧ (linkOf (curStream at0)).toNat % 4 = 0 ∧ (curStream at0).cwp.depth = 0 :=
  ⟨⟨ready_of (by decide +kernel), by decide +kernel⟩, ⟨ready_of (by decide +kernel), by decide +kernel⟩, ready_of (by decide +kernel), by decide +kernel⟩

/-- Three pages that allow every access: the scratchpad at virtual 0, fibres of the scratchpad at 0x10000, the cluster window
at 0x20000. -/
def pages : List TlbEntry :=
  [{ asid := 0, vbase := 0, log2 := 16, pte := 0xC00000000003F }, { asid := 0, vbase := 0x10000, log2 := 16, pte := 0xC0000000100BF },
    { asid := 0, vbase := 0x20000, log2 := 16, pte := 0xD00000000003F }]
/-- `at0` and `atA` with the pages cached. -/
def atP (x : Stream := x0) (c : Ctx := {}) (k : Core := {}) : State := { at0 x c k with clusters := [(0, { tlb := pages })] }
def atQ (x : Stream := x0) (c : Ctx := {}) : State := { atA x c with clusters := [(0, { tlb := pages })] }
/-- The scratchpad of core 0. -/
def pad : Nat := 0xC000000000000

/-- A call from the eighth frame, whose lowest frame is spilled to its record. -/
def sSpill : State := atP (xDeep 7 7) { winspill := 0x100 }
/-- The first call that spills, from the seventh. -/
def sSpill0 : State := atP (xDeep 6 7) { winspill := 0x100 }
/-- The same with the residue of the last register to be spilled, r23, altered. -/
def sSpillBad : State := atP { xDeep 7 7 with residue := [(23, 3)] } { winspill := 0x100 }

/-- A return to the frame of record 0, its caller's registers spilled. -/
def sFillR : State := atP (xDeep 1 1) { winspill := 0x100 }
theorem wit_FillingReturn : OpsReady sFillR { cpOnly := true } [] ∧ (linkOf (curStream sFillR)).toNat % 4 = 0 ∧ (curStream sFillR).cwp.depth = 1 ∧
    (curStream sFillR).cwp.below = 1 ∧ recordSegs sFillR .load (1 - 1) = .ok [{ pa := pad + 0x100, len := 0x90, off := 0 }] ∧
    windowPending sFillR sFillR.cur ((1 - 1 + 7) % 8) true = false ∧ issueReady sFillR .load false false [segAt [{ pa := pad + 0x100, len := 0x90, off := 0 }] 0x88 8] = true ∧
    tableRoom sFillR sFillR.cur.core [{ pa := pad + 0x100, len := 0x90, off := 0 }] = true :=
  ⟨ready_of (by decide +kernel), by decide +kernel, by decide +kernel, by decide +kernel, by decide +kernel, by decide +kernel, by decide +kernel, by decide +kernel⟩

theorem wit_SpillingCall : OpsReady sSpill { cpOnly := true, ops := [addrS 1 3 false] } [0x2000] ∧ OpsReady sSpill { cpOnly := true } [] ∧ (curStream sSpill).cwp.depth = 7 ∧ (curStream sSpill).cwp.below = 7 ∧
      recordSegs sSpill .store (7 - 6) = .ok [{ pa := pad + 0x190, len := 0x90, off := 0 }] ∧ windowPending sSpill sSpill.cur ((7 - 6 + 7) % 8) true = false ∧
      windowPending sSpill sSpill.cur ((7 + 1) % 8) true = false ∧ (curCtx sSpill).spills.length < 2 ∧
      tableRoom sSpill sSpill.cur.core [{ pa := pad + 0x190, len := 0x90, off := 0 }] = true ∧
      (∀ k, k < 16 → tget 15 (curStream sSpill).residue (8 + 16 * ((7 - 6 + 7) % 8) + k) = 15) ∧
    (OpsReady sSpill0 { cpOnly := true } [] ∧ (curStream sSpill0).cwp.depth = 6 ∧ (curStream sSpill0).cwp.below = 7 ∧
      recordSegs sSpill0 .store (6 - 6) = .ok [{ pa := pad + 0x100, len := 0x90, off := 0 }] ∧ windowPending sSpill0 sSpill0.cur ((6 - 6 + 7) % 8) true = false ∧
      windowPending sSpill0 sSpill0.cur ((6 + 1) % 8) true = false ∧ (curCtx sSpill0).spills.length < 2 ∧
      tableRoom sSpill0 sSpill0.cur.core [{ pa := pad + 0x100, len := 0x90, off := 0 }] = true) ∧
    (OpsReady sSpillBad { cpOnly := true } [] ∧ recordSegs sSpillBad .store (7 - 6) = .ok [{ pa := pad + 0x190, len := 0x90, off := 0 }] ∧
      windowPending sSpillBad sSpillBad.cur ((7 - 6 + 7) % 8) true = false ∧ windowPending sSpillBad sSpillBad.cur ((7 + 1) % 8) true = false ∧
      tget 15 (curStream sSpillBad).residue (8 + 16 * ((7 - 6 + 7) % 8) + 15) ≠ 15 ∧
      ∀ k, k < 15 → tget 15 (curStream sSpillBad).residue (8 + 16 * ((7 - 6 + 7) % 8) + k) = 15) :=
  ⟨ready_of (by decide +kernel), ready_of (by decide +kernel), by decide +kernel, by decide +kernel, by decide +kernel, by decide +kernel, by decide +kernel, by decide +kernel,
    by decide +kernel, by decide +kernel, ⟨ready_of (by decide +kernel), by decide +kernel⟩, ready_of (by decide +kernel), by decide +kernel⟩

def lp (rs1 : BitVec 6) : LpF := { rs1 := rs1, w1 := false, res := 0, off16 := 4 }
def lx (step : BitVec 16) : LxF := { rs1 := 1, rs2 := 2, w1 := false, w2 := false, res := 0, simm16 := step, off16 := 2 }

/-- A count of 5 and one of 0; LOOPI from 5 to 7 by 1, which runs 2 times, and by -1, which runs none. -/
theorem wit_LoopsOpen :
    (curStream at0).levels.length < 4 ∧
    (OpsReady at0 { ops := [srcS 1 (lp 1).rs1 (lp 1).w1] } [5] ∧ (lp 1).off16 ≠ 0 ∧ (sval [5] 0).toNat % 2 ^ 32 ≠ 0) ∧
    (OpsReady at0 { ops := [srcS 1 (lp 0).rs1 (lp 0).w1] } [0] ∧ (sval [0] 0).toNat % 2 ^ 32 = 0) ∧
    (∀ l ∈ (curStream at0).levels, levelCurrent (curStream at0) l = true → (pcOf at0 + 4 + (lp 1).off16.setWidth 64 * 4).toNat ≤ l.e.toNat) ∧
    (OpsReady at0 { ops := [srcS 1 (lx 1).rs1 (lx 1).w1, srcS 2 (lx 1).rs2 (lx 1).w2] } [5, 7] ∧ (lx 1).off16 ≠ 0 ∧ (lx 1).simm16 ≠ 0 ∧
      (sval [5, 7] 1).toInt ≤ (sval [5, 7] 0).toInt + 2 * (lx 1).simm16.toInt ∧ (sval [5, 7] 0).toInt + (2 - 1) * (lx 1).simm16.toInt < (sval [5, 7] 1).toInt) ∧
    (¬ 0 < (lx (-1)).simm16.toInt ∧ (sval [5, 7] 0).toInt + 0 * (lx (-1)).simm16.toInt ≤ (sval [5, 7] 1).toInt) :=
  ⟨by decide +kernel, ⟨ready_of (by decide +kernel), by decide +kernel⟩, ⟨ready_of (by decide +kernel), by decide +kernel⟩, by decide +kernel,
    ⟨ready_of (by decide +kernel), by decide +kernel⟩, by decide +kernel⟩

/-- Four levels, the innermost of which ends at 0x1004. -/
def fourLevels : List Level := (List.range 4).map (fun k => { k := 3 - k, s := 0xF00, e := 0x1004, dtag := 0, itag := false })
def xFour : Stream := { x0 with levels := fourLevels, lc := (List.range 4).map (fun k => (k, 2)) }
def xThree : Stream := { x0 with levels := fourLevels.drop 1, lc := (List.range 3).map (fun k => (k, 2)) }

/-- An empty body; a fifth level; an end past a current level's; of LOOPI also a step of 0, a count of 2^32 - 1, which opens, and
one more, which does not. -/
theorem wit_LoopLimits :
    (OpsReady (at0 xFour) { ops := [srcS 1 (lp 1).rs1 (lp 1).w1] } [5] ∧ { lp 1 with off16 := 0 }.off16 = 0 ∧ (lp 1).off16 ≠ 0 ∧ 4 ≤ (curStream (at0 xFour)).levels.length) ∧
    (OpsReady (at0 xThree) { ops := [srcS 1 (lp 1).rs1 (lp 1).w1] } [5] ∧ (curStream (at0 xThree)).levels.length < 4 ∧
      ∃ l ∈ (curStream (at0 xThree)).levels, levelCurrent (curStream (at0 xThree)) l = true ∧ l.e.toNat < (pcOf (at0 xThree) + 4 + (lp 1).off16.setWidth 64 * 4).toNat) ∧
    (OpsReady (at0 xFour) { ops := [srcS 1 (lx 1).rs1 (lx 1).w1, srcS 2 (lx 1).rs2 (lx 1).w2] } [5, 7] ∧ (lx 0).simm16 = 0 ∧ (lx 1).simm16 ≠ 0 ∧
      ¬ (sval [5, 7] 0).toInt + (2 ^ 32 - 1) * (lx 1).simm16.toInt < (sval [5, 7] 1).toInt) ∧
    (OpsReady (at0 { x0 with sreg := [(1, 5), (2, 0x100000005)] }) { ops := [srcS 1 (lx 1).rs1 (lx 1).w1, srcS 2 (lx 1).rs2 (lx 1).w2] } [5, 0x100000005] ∧
      (sval [5, 0x100000005] 0).toInt + (2 ^ 32 - 1) * (lx 1).simm16.toInt < (sval [5, 0x100000005] 1).toInt ∧
      ¬ (sval [5, 0x100000004] 0).toInt + (2 ^ 32 - 1) * (lx 1).simm16.toInt < (sval [5, 0x100000004] 1).toInt) :=
  ⟨⟨ready_of (by decide +kernel), by decide +kernel⟩, ⟨ready_of (by decide +kernel), by decide +kernel⟩, ⟨ready_of (by decide +kernel), by decide +kernel⟩,
    ready_of (by decide +kernel), by decide +kernel⟩

/-- Of three levels a transfer to 0x1800 leaves the innermost, is held by the next, and passes over none; to 0x3000 it leaves
both current ones and keeps the one of another frame. -/
def xNest : Stream :=
  { x0 with levels := [{ k := 2, s := 0x1100, e := 0x1200, dtag := 0, itag := false }, { k := 1, s := 0x1000, e := 0x2000, dtag := 0, itag := false },
                       { k := 0, s := 0x100, e := 0x200, dtag := 3, itag := false }], lc := [(0, 7), (1, 8), (2, 9)] }
def holdsT (t : W64) (l : Level) : Prop := l.s.toNat ≤ t.toNat ∧ t.toNat < l.e.toNat
theorem wit_LevelsLeft : (xNest.levels.map (·.k)).Nodup ∧
    (xNest.levels = xNest.levels.take 1 ++ xNest.levels.drop 1 ∧ (∀ m ∈ xNest.levels.take 1, levelCurrent xNest m = true → ¬ holdsT 0x1800 m) ∧
      (xNest.levels.drop 1).head?.any (fun l => levelCurrent xNest l && decide (l.s.toNat ≤ 0x1800) && decide (0x1800 < l.e.toNat)) = true) ∧
    (xNest.levels = xNest.levels ++ [] ∧ ∀ m ∈ xNest.levels, levelCurrent xNest m = true → ¬ holdsT 0x3000 m) ∧
    (curStream (at0 xNest) = xNest ∧ OpsReady (at0 xNest) {} [] ∧ pcOf (at0 xNest) + (0x200 : BitVec 25).signExtend 64 * 4 = 0x1800) := by
  unfold holdsT
  exact ⟨by decide +kernel, by decide +kernel, by decide +kernel, by decide +kernel, ready_of (by decide +kernel), by decide +kernel⟩

/-- A stream inside the body of its one level, at its last instruction. -/
def xLoop (n : W32) : Stream := { x0 with levels := [{ k := 0, s := 0xF00, e := 0x1004, dtag := 0, itag := false }], lc := [(0, n)] }

def lv : Level := { k := 0, s := 0xF00, e := 0x1004, dtag := 0, itag := false }

theorem wit_LoopEnds : (xLoop 1).levels = [lv] ∧ levelCurrent (xLoop 1) lv = true ∧ (xLoop 1).pc.toNat < lv.e.toNat ∧
    lv.e.toNat ≤ ((xLoop 1).pc + BitVec.ofNat 64 4).toNat ∧ tget 0 (xLoop 1).lc lv.k = 1 ∧ tget 0 (xLoop 2).lc lv.k ≠ 1 := by decide +kernel

/-! ### Witnesses: traps, modes, system registers -/

theorem wit_TrapEntry : (curStream at0).mode.intrap = false ∧ cTRAP < 256 ∧ (∀ d p full, (curStream at0).wait ≠ .mwait d p full) ∧
    (curStream (at0 { x0 with wait := .mwait 9 135 true })).wait = .mwait 9 135 true :=
  ⟨by decide +kernel, by decide +kernel, no_mwait (by decide +kernel), by decide +kernel⟩

/-- A firing of launch 3 inside a trap. -/
def sTrap : State := { at0 { x0 with mode := { sup := true, intrap := true } } { firing := some { launch := 3, slot := 0, fir := 0, asid := 0, window := none } }
  with dev := { launches := [(3, { lstate := 2 })] } }

theorem wit_DoubleTrap : (curStream sTrap).mode.intrap = true ∧ (curStream sTrap).run = .running ∧
    launchOf sTrap sTrap.cur = some 3 ∧ (getLaunch sTrap 3).failed = false := by decide +kernel

def xUser : Stream := { x0 with mode := {} }
def sys (sel : BitVec 13) : SysF := { rd := 4, rs1 := 1, sel13 := sel }

/-- The least selector of each privileged range, and WINSPILL. -/
theorem wit_Privilege : (curStream (at0 xUser)).mode.sup = false ∧
    (reservedCode (at0 xUser).cur.ap (dstS (sys 0x21).rd) = false ∧ 0x21 ≤ (sys 0x21).sel13.toNat) ∧
    (reservedCode (at0 xUser).cur.ap (srcS 1 (sys 4).rs1 false) = false ∧ (sys 4).sel13.toNat = 4 ∧ 0x20 ≤ (sys 0x20).sel13.toNat) := by decide +kernel

theorem wit_StreamOnlyMembers : atA.cur.ap = true ∧ at0.cur.ap = false ∧ ({ rd := 4, rs1 := 1, rs2 := 2, rs3 := 3, w := false, x := 0 } : EF).bits 25 1 = 0 := by decide +kernel

/-- Two MMA tasks of the stream in the table: FPFLAGS waits. -/
def sMma : State := at0 x0 {} { tasks := [{ id := 0, who := { core := 0, ctx := 0, ap := false }, kind := .mma 0 0 0 { pa := 0, len := 0, off := 0 } none, reads := [], writes := [] }] }

theorem wit_SystemReads : (∀ k ∈ [(0x029 : BitVec 13), 9], OpsReady at0 { priv := decide (0x21 ≤ (sys k).sel13.toNat), ops := [dstS (sys k).rd] } [] ∧ FreeS at0 (sys k).rd) ∧
    (sys 9).sel13.toNat = 9 ∧ mmaPending at0 = false ∧
    (OpsReady sMma { priv := decide (0x21 ≤ (sys 9).sel13.toNat), ops := [dstS (sys 9).rd] } [] ∧ FreeS sMma (sys 9).rd ∧ mmaPending sMma = true) := by
  refine ⟨?_, by decide +kernel, by decide +kernel, ready_of (by decide +kernel), free_of (by decide +kernel), by decide +kernel⟩
  intro k h
  have : k = 0x029 ∨ k = 9 := by simpa using h
  rcases this with rfl | rfl
  · exact ⟨ready_of (by decide +kernel), free_of (by decide +kernel)⟩
  · exact ⟨ready_of (by decide +kernel), free_of (by decide +kernel)⟩

/-- Reg(rs1) at a legal rounding mode, 4, and at the first illegal one, 5; a read-only register; the table's base. -/
theorem wit_SystemWrites :
    (OpsReady at0 { priv := sysPrivWrite 8, ops := [srcS 1 (sys 8).rs1 false] } [5] ∧ (sys 8).sel13.toNat = 8 ∧ 5 ≤ (sval [5] 0).toNat % 8) ∧
    (OpsReady (at0 { x0 with sreg := [(1, 4)] }) { priv := sysPrivWrite 8, ops := [srcS 1 (sys 8).rs1 false] } [4] ∧ (sval [4] 0).toNat % 8 < 5) ∧
    (OpsReady at0 { priv := sysPrivWrite 0x11, ops := [srcS 1 (sys 0x11).rs1 false] } [5] ∧ (sys 0x11).sel13.toNat ∈ [0, 1, 2, 3, 0x10, 0x11]) ∧
    (OpsReady at0 { priv := sysPrivWrite 9, ops := [srcS 1 (sys 9).rs1 false] } [5] ∧ (sys 9).sel13.toNat = 9 ∧ mmaPending at0 = false) ∧
    (OpsReady at0 { priv := sysPrivWrite 0x18, ops := [srcS 1 (sys 0x18).rs1 false] } [5] ∧ (sys 0x18).sel13.toNat = 0x18 ∧
      (sval [5] 0).toNat / 4096 % 128 + (getCore at0 at0.cur.core).tdsize ≤ 128 ∧ tableEmpty at0 at0.cur.core = true) ∧
    (OpsReady sMma { priv := sysPrivWrite 9, ops := [srcS 1 (sys 9).rs1 false] } [5] ∧ mmaPending sMma = true) ∧
    (OpsReady sMma { priv := sysPrivWrite 0x19, ops := [srcS 1 (sys 0x19).rs1 false] } [5] ∧ (sys 0x19).sel13.toNat = 0x19 ∧
      tableEmpty sMma sMma.cur.core = false ∧ (getCore sMma 0).tdbase + (sval [0x80000] 0).toNat / 4096 % 256 ≤ 128 ∧
      128 < (getCore sMma 0).tdbase + (sval [0x81000] 0).toNat / 4096 % 256) ∧
    (OpsReady at0 { priv := sysPrivWrite 0x28, ops := [srcS 1 (sys 0x28).rs1 false] } [5] ∧ (sys 0x28).sel13.toNat = 0x28 ∧
      Memory.wf at0.epoch at0.mem = true ∧ bankOf ((sval [5] 0).setWidth 55) (0x7FF00 + 8 * 31) = bankOf 0 (0x7FF00 + 8 * 31)) :=
  ⟨⟨ready_of (by decide +kernel), by decide +kernel⟩, ⟨ready_of (by decide +kernel), by decide +kernel⟩, ⟨ready_of (by decide +kernel), by decide +kernel⟩,
    ⟨ready_of (by decide +kernel), by decide +kernel⟩, ⟨ready_of (by decide +kernel), by decide +kernel⟩, ⟨ready_of (by decide +kernel), by decide +kernel⟩,
    ⟨ready_of (by decide +kernel), by decide +kernel⟩, ready_of (by decide +kernel), by decide +kernel⟩

theorem wit_SystemMembers : OpsReady at0 {} [] ∧ OpsReady at0 { cpOnly := true } [] ∧ OpsReady at0 { priv := true } [] ∧ at0.cur.ap = false ∧
    (curStream at0).run = .running :=
  ⟨ready_of (by decide +kernel), ready_of (by decide +kernel), ready_of (by decide +kernel), by decide +kernel, by decide +kernel⟩

theorem wit_ReturnFromTrap : OpsReady at0 { priv := true } [] := ready_of (by decide +kernel)

/-- One frame left, with and without a spill under way; and two frames. -/
def sDrain : State := at0 x0 { spills := [{ segs := [], regs := [], full := 0, link := 0, id := 0 }] }
def sDrain2 : State := atP (xDeep 1 2) { winspill := 0x100 }

theorem wit_WindowDrain :
    (OpsReady at0 { cpOnly := true } [] ∧ (curStream at0).cwp.below = 1 ∧ (curCtx at0).spills = []) ∧
    (OpsReady sDrain { cpOnly := true } [] ∧ (curStream sDrain).cwp.below = 1 ∧ (curCtx sDrain).spills ≠ []) ∧
    (OpsReady sDrain2 { cpOnly := true } [] ∧ (curStream sDrain2).cwp.below = 2 ∧ (curStream sDrain2).cwp.depth = 1 ∧
      recordSegs sDrain2 .store (1 + 1 - 2) = .ok [{ pa := pad + 0x100, len := 0x90, off := 0 }] ∧
      windowPending sDrain2 sDrain2.cur ((1 + 1 - 2 + 7) % 8) true = false ∧ (curCtx sDrain2).spills.length < 2 ∧
      tableRoom sDrain2 sDrain2.cur.core [{ pa := pad + 0x100, len := 0x90, off := 0 }] = true ∧
      ∀ k, k < 16 → tget 15 (curStream sDrain2).residue (8 + 16 * ((1 + 1 - 2 + 7) % 8) + k) = 15) :=
  ⟨⟨ready_of (by decide +kernel), by decide +kernel⟩, ⟨ready_of (by decide +kernel), by decide +kernel⟩, ready_of (by decide +kernel), by decide +kernel⟩

/-! ### Witnesses: translation and scalar accesses -/

/-- A page that only loads may use, for a supervisor. -/
def ro : TlbEntry := { asid := 0, vbase := 0, log2 := 16, pte := 0xC000000000007 }
def sRo : State := { at0 with clusters := [(0, { tlb := [ro] })] }

/-- The first address past 48 bits; a page that refuses a store and permits a load; an address nothing covers. -/
theorem wit_TranslateAddress : 2 ^ 48 ≤ (0x1000000000000 : W64).toNat ∧
    ((0xFFFF : W64).toNat < 2 ^ 48 ∧ inWindow (curWindow sRo) 0xFFFF = none ∧
      tlbFind (getCluster sRo (sRo.cur.core / 64)).tlb ((curStream sRo).ttroot.toNat % 2 ^ 16) 0xFFFF = some ro ∧
      permitted ro.pte .store (curStream sRo).mode.sup true = false ∧ permitted ro.pte .load (curStream sRo).mode.sup false = true ∧
      xlate sRo .load 0xFFF8 8 false false = .ok { pa := pad + 0xFFF8 }) ∧
    (tlbFind (getCluster sRo (sRo.cur.core / 64)).tlb ((curStream sRo).ttroot.toNat % 2 ^ 16) 0x10000 = none ∧ (curStream sRo).walkFault = none) := by
  decide +kernel

/-- A table in the scratchpad whose first entry is `e`. -/
def sPte (e : W64) : State := { mem := (List.range 8).map (fun k => (pad + k, BitVec.ofNat 8 (e.toNat / 256 ^ k))) }

/-- An invalid entry, a malformed one, a leaf of the lowest level, and a pointer to a table of the level below. -/
theorem wit_WalkOneLevel :
    (readPte (sPte 2) (pad + levelIndex 3 0 * 8) = .ok 2 ∧ (2 : W64).getLsbD 0 = false) ∧
    (readPte (sPte 0x203) (pad + levelIndex 0 0 * 8) = .ok 0x203 ∧ (0x203 : W64).getLsbD 0 = true ∧ malformed 0 0x203 = true) ∧
    (readPte (sPte 0x10003) (pad + levelIndex 0 0 * 8) = .ok 0x10003 ∧ malformed 0 0x10003 = false ∧ (0x10003 : W64).getLsbD 1 = true) ∧
    (readPte (sPte 0x10001) (pad + levelIndex 3 0 * 8) = .ok 0x10001 ∧ malformed 3 0x10001 = false ∧ (0x10001 : W64).getLsbD 1 = false) := by
  decide +kernel

/-- Code 4 as the destination, g3 as the base. -/
def ldf : I12F := { rd := 4, rs1 := 3, w1 := false, imm12 := 0 }
def ldq (q : BitVec 6) : I12F := { ldf with rd := q }
/-- 32 entries in the table of core 0, and a page of its accumulators at virtual 0x80000. -/
def sFull : State :=
  { at0 { x0 with sreg := [(2, 7), (3, 0x80000)] } {} { tasks := (List.range 32).map (fun k => { id := k, who := { core := 0, ctx := 0, ap := false }, kind := .mclr 0, reads := [], writes := [.acc 0] }) }
    with clusters := [(0, { tlb := [{ asid := 0, vbase := 0x80000, log2 := 16, pte := 0xC00000008003F }] })], nextId := 32 }
def accSeg : Seg := { pa := pad + 0x80000, len := 8, off := 0 }
/-- A load from the view of v1 of context 1, whose word has a parity error that no producer repairs. -/
def sViewBad : State :=
  { atP { x0 with sreg := [(2, 7), (3, 0x92100)] } with
    cores := [(0, { cps := [(0, { x0 with sreg := [(2, 7), (3, 0x92100)] }), (1, { x0 with parity := [1] })] })]
    clusters := [(0, { tlb := [{ asid := 0, vbase := 0x90000, log2 := 16, pte := 0xC0000000C003F }] })] }
/-- A load of 8 bytes: misaligned at 5; at 0x10000 where only page 0 is cached a wait; past 48 bits a trap; at 0x2000 it goes, to
a register or to the last queue of an AP stream. -/
theorem wit_LoadsIssue :
    (OpsReady (atP { x0 with sreg := [(3, 5)] }) { ops := [dstSQ ldf.rd, addrS 1 ldf.rs1 ldf.w1] } [5] ∧ (unitAddr (sval [5] 0) ldf 8).toNat % 8 ≠ 0) ∧
    (OpsReady sRo { ops := [dstSQ ldf.rd, addrS 1 ldf.rs1 ldf.w1] } [0x2000] ∧ (unitAddr (sval [0x2000] 0) ldf 8).toNat % 8 = 0 ∧
      xlate sRo .load (unitAddr (sval [0x2000] 0) ldf 8) 8 false false = .ok { pa := pad + 0x2000 } ∧ viewParity sRo [piece { pa := pad + 0x2000 } 8] = .ok sRo ∧
      poisonIn sRo [piece { pa := pad + 0x2000 } 8] = none ∧ tableRoom sRo 0 [piece { pa := pad + 0x2000 } 8] = true ∧ ldf.rd.toNat < 32 ∧ FreeS sRo ldf.rd) ∧
    (OpsReady sFull { ops := [dstSQ ldf.rd, addrS 1 ldf.rs1 ldf.w1] } [0x80000] ∧
      xlate sFull .load (unitAddr (sval [0x80000] 0) ldf 8) 8 false false = .ok { pa := accSeg.pa } ∧ poisonIn sFull [accSeg] = none ∧ viewParity sFull [accSeg] = .ok sFull ∧
      tableRoom sFull sFull.cur.core [accSeg] = false) ∧
    (OpsReady (at0 { x0 with sreg := [(3, 0x10000)] }) { ops := [dstSQ ldf.rd, addrS 1 ldf.rs1 ldf.w1] } [0x10000] ∧
      xlate (at0 { x0 with sreg := [(3, 0x10000)] }) .load (unitAddr (sval [0x10000] 0) ldf 8) 8 false false = .error (.wait (.walk 0 0x10000))) ∧
    (OpsReady (at0 { x0 with sreg := [(3, 0x1000000000000)] }) { ops := [dstSQ ldf.rd, addrS 1 ldf.rs1 ldf.w1] } [0x1000000000000] ∧
      xlate (at0 { x0 with sreg := [(3, 0x1000000000000)] }) .load (unitAddr (sval [0x1000000000000] 0) ldf 8) 8 false false =
        .error (.trap cLOAD 0x3000000000000000)) ∧
    (OpsReady atQ { ops := [dstSQ 35, addrS 1 ldf.rs1 ldf.w1] } [0x2000] ∧ (ldq 35).rd.toNat = 32 + 3 ∧ pushReady atQ 3 = .ok () ∧
      xlate atQ .load (unitAddr (sval [0x2000] 0) (ldq 35) 8) 8 false false = .ok { pa := pad + 0x2000 } ∧ viewParity atQ [piece { pa := pad + 0x2000 } 8] = .ok atQ) ∧
    (OpsReady sViewBad { ops := [dstSQ ldf.rd, addrS 1 ldf.rs1 ldf.w1] } [0x92100] ∧ xlate sViewBad .load 0x92100 8 false false = .ok { pa := pad + 0xC2100 } ∧
      poisonIn sViewBad [piece { pa := pad + 0xC2100 } 8] = none ∧ viewParity sViewBad [piece { pa := pad + 0xC2100 } 8] = .error (.trap cPARITY 1)) :=
  ⟨⟨ready_of (by decide +kernel), by decide +kernel⟩,
    ⟨ready_of (by decide +kernel), by decide +kernel, by decide +kernel, by decide +kernel, by decide +kernel, by decide +kernel, by decide +kernel, free_of (by decide +kernel)⟩,
    ⟨ready_of (by decide +kernel), by decide +kernel⟩,
    ⟨ready_of (by decide +kernel), by decide +kernel⟩, ⟨ready_of (by decide +kernel), by decide +kernel⟩,
    ⟨ready_of (by decide +kernel), by decide +kernel⟩, ready_of (by decide +kernel), by decide +kernel⟩

theorem wit_StoresIssue :
    (OpsReady (atP { x0 with sreg := [(3, 5)] }) { ops := [dataS 0 ldf.rd false, addrS 1 ldf.rs1 ldf.w1] } [0, 5] ∧ (unitAddr (sval [0, 5] 1) ldf 8).toNat % 8 ≠ 0) ∧
    (OpsReady atP { ops := [dataS 0 ldf.rd false, addrS 1 ldf.rs1 ldf.w1] } [0, 0x2000] ∧ (unitAddr (sval [0, 0x2000] 1) ldf 8).toNat % 8 = 0 ∧
      xlate atP .store (unitAddr (sval [0, 0x2000] 1) ldf 8) 8 true false = .ok { pa := pad + 0x2000 } ∧
      tableRoom atP atP.cur.core [piece { pa := pad + 0x2000 } 8] = true) ∧
    (OpsReady sFull { ops := [dataS 0 ldf.rd false, addrS 1 ldf.rs1 ldf.w1] } [0, 0x80000] ∧
      xlate sFull .store (unitAddr (sval [0, 0x80000] 1) ldf 8) 8 true false = .ok { pa := accSeg.pa } ∧ tableRoom sFull sFull.cur.core [accSeg] = false) ∧
    (OpsReady sRo { ops := [dataS 0 ldf.rd false, addrS 1 ldf.rs1 ldf.w1] } [0, 0x2000] ∧
      xlate sRo .store (unitAddr (sval [0, 0x2000] 1) ldf 8) 8 true false = .error (.trap cSTORE 0x1000000000002000)) :=
  ⟨⟨ready_of (by decide +kernel), by decide +kernel⟩, ⟨ready_of (by decide +kernel), by decide +kernel⟩, ⟨ready_of (by decide +kernel), by decide +kernel⟩,
    ready_of (by decide +kernel), by decide +kernel⟩

def amf (z : Bool) : AmoF := { ord := 0, z := z, r := { rd := 4, rs1 := 3, rs2 := 2, w1 := false, w2 := false } }

/-- AMOADD of 8 bytes at 0x2000, AMOCAS of 4 bytes there, a misaligned one, and one in a page that takes no store. -/
theorem wit_AtomicsIssue :
    (OpsReady atP { ops := amoOps .add (amf false).r } [0x2000, 7] ∧ (amoVals .add [0x2000, 7]).1.toNat % 8 = 0 ∧
      xlate atP .atomic (amoVals .add [0x2000, 7]).1 8 true false = .ok { pa := pad + 0x2000 } ∧ poisonIn atP [piece { pa := pad + 0x2000 } 8] = none ∧
      tableRoom atP atP.cur.core [piece { pa := pad + 0x2000 } 8] = true ∧ FreeS atP (amf false).r.rd) ∧
    (OpsReady atP { ops := amoOps .cas (amf true).r } [0, 0x2000, 7] ∧ (amoVals .cas [0, 0x2000, 7]).1.toNat % 4 = 0 ∧
      xlate atP .atomic (amoVals .cas [0, 0x2000, 7]).1 4 true false = .ok { pa := pad + 0x2000 }) ∧
    (OpsReady (atP { x0 with sreg := [(2, 7), (3, 5)] }) { ops := amoOps .add (amf false).r } [5, 7] ∧ (amoVals .add [5, 7]).1.toNat % 8 ≠ 0) ∧
    (OpsReady sRo { ops := amoOps .add (amf false).r } [0x2000, 7] ∧
      xlate sRo .atomic (amoVals .add [0x2000, 7]).1 8 true false = .error (.trap cSTORE 0x1000000000002000)) :=
  ⟨⟨ready_of (by decide +kernel), by decide +kernel, by decide +kernel, by decide +kernel, by decide +kernel, free_of (by decide +kernel)⟩,
    ⟨ready_of (by decide +kernel), by decide +kernel⟩, ⟨ready_of (by decide +kernel), by decide +kernel⟩, ready_of (by decide +kernel), by decide +kernel⟩

/-! ### Witnesses: fences, monitors, barriers -/

/-- A load of core 0's stream still under way in its scratchpad, and one in HBM. -/
def rq (id : Nat) (pa : Nat) : Req := { id := id, agent := .stream { core := 0, ctx := 0, ap := false }, kind := .load, todo := [{ pa := pa, len := 8, off := 0 }] }
def sBusy : State := { at0 with reqs := [rq 0 (pad + 0x100), rq 1 0x1000], nextId := 2 }
def fen (ps : List Nat) (s : State) : State := modCur s (fun x => { x with fence := some { upto := s.nextId, paths := ps } })
/-- An FLEN-less fibre operation of the stream: FENCE.ENG waits. -/
def sEng : State := { at0 with freqs := [{ id := 0, agent := .stream { core := 0, ctx := 0, ap := false }, core := 0, launch := 64, asid := 0, hdr := 0, va := 0, op := .pack }], nextId := 1 }

theorem wit_Fences : OpsReady at0 {} [] ∧ OpsReady sBusy {} [] ∧ OpsReady sEng {} [] ∧ OpsReady (fen [] at0) {} [] ∧ OpsReady (fen [8] sBusy) {} [] ∧
    (∀ c ∈ [Scope.core, .cluster, .device, .domain], outstanding at0 at0.cur c at0.nextId = false ∧ outstanding sBusy sBusy.cur c sBusy.nextId = true) ∧
    (curStream sBusy).fence = none ∧ (curStream (fen [] at0)).fence = some { upto := 0, paths := [] } ∧ outstanding (fen [] at0) at0.cur .domain 0 = false ∧
    (curStream (fen [8] sBusy)).fence = some { upto := 2, paths := [8] } ∧ engineBusy at0 at0.cur at0.nextId = false ∧
    engineBusy sEng sEng.cur sEng.nextId = true :=
  ⟨ready_of (by decide +kernel), ready_of (by decide +kernel), ready_of (by decide +kernel), ready_of (by decide +kernel), ready_of (by decide +kernel), by decide +kernel⟩

theorem wit_MonitorArms : (OpsReady atP { ops := [addrS 1 3 false] } [0x2000] ∧ (sval [0x2000] 0).toNat % 8 = 0 ∧
      xlate atP .marm (sval [0x2000] 0) 8 false false = .ok { pa := pad + 0x2000 }) ∧
    OpsReady atP { ops := [addrS 1 1 false] } [5] ∧ (sval [5] 0).toNat % 8 ≠ 0 :=
  ⟨⟨ready_of (by decide +kernel), by decide +kernel⟩, ready_of (by decide +kernel), by decide +kernel⟩

/-- A monitor armed on a word of the scratchpad, before MWAIT, in it with time left, hit, over time, and hit while an earlier
store of the stream to its word is under way. -/
def monSeg : Seg := { pa := pad + 0x2000, len := 8, off := 0 }
def sMonHeld : State := { at0 { x0 with monitor := { armed := true, placed := true, hit := true, pa := pad + 0x2000, va := 0x2000 }, wait := .mwait 9 4 true }
  with reqs := [{ id := 0, agent := .stream { core := 0, ctx := 0, ap := false }, kind := .store, todo := [monSeg] }], nextId := 1 }
def xMon (hit : Bool) (w : Wait) : Stream := { x0 with monitor := { armed := true, placed := true, hit := hit, pa := pad + 0x2000, va := 0x2000 }, wait := w }
def mwf : R3F := { rd := 4, rs1 := 1, rs2 := 0, w1 := false, w2 := false }

theorem wit_MonitorWaits :
    (OpsReady at0 { ops := mwaitOps at0 mwf } [5] ∧ (curStream at0).monitor.armed = false) ∧
    (OpsReady (at0 (xMon false .none)) { ops := mwaitOps (at0 (xMon false .none)) mwf } [5] ∧ (curStream (at0 (xMon false .none))).monitor.armed = true ∧
      (∀ d p full, (curStream (at0 (xMon false .none))).wait ≠ .mwait d p full) ∧ FreeS (at0 (xMon false .none)) mwf.rd) ∧
    (OpsReady (at0 (xMon false (.mwait 9 4 true))) { ops := mwaitOps (at0 (xMon false (.mwait 9 4 true))) mwf } [5] ∧
      (curStream (at0 (xMon false (.mwait 9 4 true)))).wait = .mwait 9 4 true ∧ (curStream (at0 (xMon false (.mwait 9 4 true)))).monitor.hit = false) ∧
    (OpsReady (at0 (xMon true (.mwait 9 4 true))) { ops := mwaitOps (at0 (xMon true (.mwait 9 4 true))) mwf } [5] ∧
      (curStream (at0 (xMon true (.mwait 9 4 true)))).monitor.hit = true ∧ issueReady (at0 (xMon true (.mwait 9 4 true))) .load true false [monSeg] = true ∧
      poisonIn (at0 (xMon true (.mwait 9 4 true))) [monSeg] = none) ∧
    (OpsReady sMonHeld { ops := mwaitOps sMonHeld mwf } [5] ∧ (curStream sMonHeld).wait = .mwait 9 4 true ∧ (curStream sMonHeld).monitor.hit = true ∧
      issueReady sMonHeld .load false false [monSeg] = false) ∧
    (OpsReady (at0 (xMon false (.mwait 0 4 true))) { ops := mwaitOps (at0 (xMon false (.mwait 0 4 true))) mwf } [5] ∧
      (curStream (at0 (xMon false (.mwait 0 4 true)))).wait = .mwait 0 4 true) :=
  ⟨⟨ready_of (by decide +kernel), by decide +kernel⟩,
    ⟨ready_of (by decide +kernel), by decide +kernel, no_mwait (by decide +kernel), free_of (by decide +kernel)⟩,
    ⟨ready_of (by decide +kernel), by decide +kernel⟩, ⟨ready_of (by decide +kernel), by decide +kernel⟩, ⟨ready_of (by decide +kernel), by decide +kernel⟩,
    ready_of (by decide +kernel), by decide +kernel⟩

/-- Barrier object 0 of cluster 0 at virtual 0x20000: its count, its arrivals, its phase; Reg(rs1) the address, Reg(rs2) `v`. -/
def sBar (o : Barrier) (v : W64) : State :=
  { at0 { x0 with sreg := [(1, 0x20000), (2, v)] } with clusters := [(0, { tlb := pages, barriers := [(0, o)] })] }
def barOps : List Opnd := [addrS 1 r3.rs1 r3.w1, srcS 2 r3.rs2 r3.w2]

def bars (o : Barrier) (v : W64) (rd : Bool) : Bool :=
  readyB (sBar o v) { ops := if rd then dstS r3.rd :: barOps else barOps } [0x20000, v.setWidth 2048] &&
    decide (barrierAt (sBar o v) 0x20000 true false rd = .ok (.here 0 0)) && decide (barrierAt (sBar o v) 0x20000 false true false = .ok (.here 0 0))

/-- Counts at both ends, and beyond; a wait at the phase, and past it; the first arrival and the last. -/
theorem wit_Barriers :
    (bars {} 1 false = true ∧ bars {} 4096 false = true ∧ (getBarrier (sBar {} 1) 0 0).arrived = 0) ∧
    (bars {} 0 false = true ∧ bars {} 4097 false = true) ∧
    (bars { count := 2 } 1 false = true ∧ bars { count := 2 } 0 false = true ∧ (getBarrier (sBar { count := 2 } 1) 0 0).count ≠ 0 ∧
      (getBarrier (sBar { count := 2 } 1) 0 0).phase = false ∧ (sBar { count := 2 } 1).reqs = []) ∧
    (bars { count := 2 } 0 true = true ∧ bars { count := 2, arrived := 1 } 0 true = true ∧
      scalarPending (sBar { count := 2, arrived := 1 } 0) { core := 0, ctx := 0, ap := false } 4 = false ∧
      outstanding (sBar { count := 2, arrived := 1 } 0) { core := 0, ctx := 0, ap := false } .domain 0 = false) := by decide +kernel

/-! ### Witnesses: vector members -/

def vf : VF := { vd := 3, vs1 := 1, vs2 := 2, vs3 := 4, pm := 0, w1 := false, w2 := false, w3 := false, zm := false, ty4 := 9, rnd3 := 7, imm13 := 0 }
def V1 : VReg := 0x0000000300000002
def V2 : VReg := 0x0000000500000004
/-- Predicate p1 has lanes 0 and 1. -/
def xp : Stream := { x0 with preg := [(1, 3)] }
/-- Enables for every flag. -/
def cEn : Ctx := { fpctl := 0x1F0 }
/-- One active lane, p1 = 1. -/
def xOne : Stream := { x0 with preg := [(1, 1)] }
def vOne : VF := { vf with pm := 1, zm := true, ty4 := 0 }

/-- Every lane; and merging under p1, where the old vd is read first. -/
theorem wit_VectorLanes : FreeV at0 vf.vd ∧ OpsReady at0 (planV2 at0 vf) [V1, V2] ∧ OpsReady at0 (planV1 at0 vf) [V1] ∧
    OpsReady (at0 xp) (planV2 (at0 xp) { vf with pm := 1 }) [0, V1, V2] ∧ OpsReady at0 { ops := [vdOp at0 vf, srcS 1 vf.vs1 vf.w1, pmOp vf.pm] } [5] :=
  ⟨freeV_of (by decide +kernel), ready_of (by decide +kernel), ready_of (by decide +kernel), ready_of (by decide +kernel), ready_of (by decide +kernel)⟩

/-- With no trap enabled; and a product that underflows with all of them enabled. -/
theorem wit_VectorFloat :
    (vOne.ty4 = 0 ∧ FreeV (at0 xOne) vOne.vd ∧ OpsReady (at0 xOne) (planV2 (at0 xOne) vOne) [V1, V2] ∧ trapEnables (curCtx (at0 xOne)) = 0) ∧
    (FreeV (at0 xOne cEn) vOne.vd ∧ OpsReady (at0 xOne cEn) (planV2 (at0 xOne cEn) vOne) [V1, V2] ∧
      ((fpRows2 (at0 xOne cEn) vOne (lane V1) (lane V2))[2]?).map (fun r => r.1 == .vmul vOne &&
        trapEnables (curCtx (at0 xOne cEn)) &&& lanesRaise (at0 xOne cEn) vOne r.2.2 != 0) = some true) :=
  ⟨⟨by decide +kernel, freeV_of (by decide +kernel), ready_of (by decide +kernel), by decide +kernel⟩,
    freeV_of (by decide +kernel), ready_of (by decide +kernel), by decide +kernel⟩

theorem wit_VectorFused : FreeV at0 vf.vd ∧ OpsReady at0 (planFma at0 { vf with ty4 := 0 }) [V1, V2, 0] ∧ OpsReady at0 (planV2 at0 { vf with ty4 := 4 }) [V1, V2] ∧
    trapEnables (curCtx at0) = 0 :=
  ⟨freeV_of (by decide +kernel), ready_of (by decide +kernel), ready_of (by decide +kernel), by decide +kernel⟩

theorem wit_Transcendentals : FreeV at0 vf.vd ∧ OpsReady at0 (planV1 at0 { vf with ty4 := 0 }) [V1] ∧ trapEnables (curCtx at0) = 0 :=
  ⟨freeV_of (by decide +kernel), ready_of (by decide +kernel), by decide +kernel⟩

/-- A signalling comparison with a NaN in lane 0 traps NV. -/
theorem wit_VectorCompare :
    (OpsReady at0 (planCmp vf) [V1, V2] ∧ predPending at0 at0.cur vf.vd.toNat = false ∧ trapEnables (curCtx at0) = 0) ∧
    (OpsReady (at0 { xOne with vreg := [(1, 0x7FC00000)] } cEn) (planCmp { vOne with imm13 := 2 }) [0x7FC00000, 0] ∧
      (cmpFP false 2 0x7FC00000 0).flags ≠ 0) :=
  ⟨⟨ready_of (by decide +kernel), by decide +kernel, by decide +kernel⟩, ready_of (by decide +kernel), by decide +kernel⟩

theorem wit_VectorSelect : FreeV at0 vf.vd ∧ OpsReady at0 { ops := [dstV vf.vd, srcV 1 vf.vs1 vf.w1, srcV 2 vf.vs2 vf.w2, pmOp vf.pm] } [V1, V2] ∧
    OpsReady at0 { ops := [bothV 0 vf.vd false, srcS 1 vf.vs1 vf.w1] } [0, 5] ∧ FreeS at0 vf.vd ∧
    OpsReady at0 { ops := [dstS vf.vd, srcV 1 vf.vs1 vf.w1] } [V1] :=
  ⟨freeV_of (by decide +kernel), ready_of (by decide +kernel), ready_of (by decide +kernel), free_of (by decide +kernel), ready_of (by decide +kernel)⟩

/-- Both ends of the operations that are integer reductions. -/
theorem wit_VectorReduceInteger : vf.ty4 = 9 ∧ vf.immBits 0 2 < 3 ∧ ({ vf with imm13 := 2 } : VF).immBits 0 2 < 3 ∧ FreeS at0 vf.vd ∧
    OpsReady at0 { ops := [dstS vf.vd, srcV 1 vf.vs1 vf.w1, pmOp vf.pm] } [V1] ∧ FreeV at0 vf.vd ∧ OpsReady at0 (planScan at0 vf) [V1, 7] ∧
    OpsReady at0 (planScan at0 { vf with imm13 := 2 }) [V1] :=
  ⟨by decide +kernel, by decide +kernel, by decide +kernel, free_of (by decide +kernel), ready_of (by decide +kernel), freeV_of (by decide +kernel),
    ready_of (by decide +kernel), ready_of (by decide +kernel)⟩

/-- A sum, and a least, over FP32; the sum of both infinities traps NV. -/
def VInf : VReg := 0xFF8000007F800000
def xInf : Stream := { x0 with vreg := [(1, VInf)], preg := [(1, 3)] }
def vRed (op : BitVec 13) : VF := { vf with ty4 := 0, pm := 1, imm13 := op }
def ScanReady (op : BitVec 13) (vs : List VReg) : Prop :=
  (vRed op).ty4 = 0 ∧ (vRed op).immBits 0 2 < 3 ∧ FreeV (at0 xp) (vRed op).vd ∧ OpsReady (at0 xp) (planScan (at0 xp) (vRed op)) vs
theorem wit_VectorReduceFloat :
    (FreeS (at0 xp) (vRed 0).vd ∧ OpsReady (at0 xp) { ops := [dstS (vRed 0).vd, srcV 1 (vRed 0).vs1 (vRed 0).w1, pmOp (vRed 0).pm] } [V1] ∧
      trapEnables (curCtx (at0 xp)) = 0) ∧ ScanReady 0 [0, V1, 7] ∧ ScanReady 2 [0, V1] ∧
    (FreeS (at0 xInf cEn) (vRed 0).vd ∧ OpsReady (at0 xInf cEn) { ops := [dstS (vRed 0).vd, srcV 1 (vRed 0).vs1 (vRed 0).w1, pmOp (vRed 0).pm] } [VInf] ∧
      trapEnables (curCtx (at0 xInf cEn)) &&& (reducedFP (at0 xInf cEn) (vRed 0) 0 (chosen (at0 xInf cEn) (vRed 0) VInf)).flags ≠ 0) :=
  ⟨⟨free_of (by decide +kernel), ready_of (by decide +kernel), by decide +kernel⟩,
    ⟨by decide +kernel, by decide +kernel, freeV_of (by decide +kernel), ready_of (by decide +kernel)⟩,
    ⟨by decide +kernel, by decide +kernel, freeV_of (by decide +kernel), ready_of (by decide +kernel)⟩,
    free_of (by decide +kernel), ready_of (by decide +kernel), by decide +kernel⟩

theorem wit_VectorHistogram : OpsReady at0 { cpOnly := true, ops := [srcV 1 vf.vs1 vf.w1, pmOp vf.pm] } [V1] ∧ vf.imm13.getLsbD 0 = false ∧
    OpsReady at0 { cpOnly := true, ops := [srcV 1 vf.vs1 vf.w1, srcV 2 vf.vs2 vf.w2, pmOp vf.pm] } [V1, V2] ∧
    (activeMask at0 vf.pm).getLsbD 63 = true ∧ (lane V1 63).toNat = 0 :=
  ⟨ready_of (by decide +kernel), by decide +kernel, ready_of (by decide +kernel), by decide +kernel, by decide +kernel⟩

/-- p1 AND p2 into p3; the lowest one bit of 3, and none of 0. -/
theorem wit_PredicateMembers : predPending (at0 xp) (at0 xp).cur vf.vd.toNat = false ∧
    OpsReady (at0 xp) { ops := [dstP vf.vd, srcP 1 vf.vs1, srcP 2 vf.vs2] } [3, 0] ∧ OpsReady (at0 xp) { ops := [dstP vf.vd, srcP 1 vf.vs1] } [3] ∧
    FreeS (at0 xp) vf.vd ∧ OpsReady (at0 xp) { ops := [dstS vf.vd, srcP 1 vf.vs1] } [3] ∧ (sval [3] 0).getLsbD 0 = true ∧
    OpsReady at0 { ops := [dstS vf.vd, srcP 1 vf.vs1] } [0] ∧ sval [0] 0 = 0 :=
  ⟨by decide +kernel, ready_of (by decide +kernel), ready_of (by decide +kernel), free_of (by decide +kernel), ready_of (by decide +kernel),
    by decide +kernel, ready_of (by decide +kernel), by decide +kernel⟩

/-- VCVT to FP32 and to a narrow format, which reads vd; VQMX with vs3 apart from, and as, vd and vs1. -/
theorem wit_VectorConvert : FreeV at0 vf.vd ∧ OpsReady at0 (planCvt at0 { vf with ty4 := 0 }) [V1] ∧ OpsReady at0 (planCvt at0 { vf with ty4 := 4 }) [0, V1] ∧
    OpsReady at0 (planV1 at0 vf) [V1] ∧ (curCtx at0).cbBusy = 0 ∧ OpsReady at0 (planQmx vf) [0, V1, 0] ∧ vf.vs3 ≠ vf.vd ∧ vf.vs3 ≠ vf.vs1 ∧
    FreeV at0 vf.vs3 ∧ trapEnables (curCtx at0) = 0 ∧ OpsReady at0 (planQmx { vf with vs3 := 3 }) [0, V1, 0] ∧
    OpsReady at0 (planQmx { vf with vs3 := 1 }) [0, V1, V1] :=
  ⟨freeV_of (by decide +kernel), ready_of (by decide +kernel), ready_of (by decide +kernel), ready_of (by decide +kernel), by decide +kernel,
    ready_of (by decide +kernel), by decide +kernel, by decide +kernel, freeV_of (by decide +kernel), by decide +kernel,
    ready_of (by decide +kernel), ready_of (by decide +kernel)⟩

/-- LDV of lanes 0 and 1 at 0x2000 into v3, whose other lanes are kept; lane 0 misaligned at 5; into the last queue. -/
def vld : VF := { vf with vs1 := 3, pm := 1 }
theorem wit_VectorLoads :
    (OpsReady (atP xp) { ops := loadVd (atP xp) vld :: [addrS 1 vld.vs1 vld.w1] ++ [pmOp vld.pm] } [0, 0x2000] ∧ isRead (loadVd (atP xp) vld) = true ∧
      accessLanes (atP xp) vld = [0, 1] ∧
      laneSegs (atP xp) .load (fun k => sval [0x2000] 0 + vld.imm13.signExtend 64 * 4 + BitVec.ofNat 64 (4 * k)) [0, 1] =
        .ok [{ pa := pad + 0x2000, len := 4, off := 0 }, { pa := pad + 0x2004, len := 4, off := 4 }] ∧
      poisonIn (atP xp) [{ pa := pad + 0x2000, len := 4, off := 0 }, { pa := pad + 0x2004, len := 4, off := 4 }] = none ∧
      viewParity (atP xp) [{ pa := pad + 0x2000, len := 4, off := 0 }, { pa := pad + 0x2004, len := 4, off := 4 }] = .ok (atP xp) ∧
      tableRoom (atP xp) 0 [{ pa := pad + 0x2000, len := 4, off := 0 }, { pa := pad + 0x2004, len := 4, off := 4 }] = true ∧ vld.vd.toNat < 32 ∧ FreeV (atP xp) vld.vd) ∧
    (OpsReady (atP xp) { ops := loadVd (atP xp) { vld with vs1 := 1 } :: [addrS 1 1 false] ++ [pmOp 1] } [0, 5] ∧ (sval [5] 0).toNat % 4 ≠ 0) ∧
    (OpsReady (atQ xp) { ops := loadVd (atQ xp) { vld with vd := 39 } :: [addrS 1 3 false] ++ [pmOp 1] } [0x2000] ∧
      (39 : BitVec 6).toNat = 32 + 7 ∧ pushReady (atQ xp) 7 = .ok ()) :=
  ⟨⟨ready_of (by decide +kernel), by decide +kernel, by decide +kernel, by decide +kernel, by decide +kernel, by decide +kernel, by decide +kernel, by decide +kernel,
      freeV_of (by decide +kernel)⟩,
    ⟨ready_of (by decide +kernel), by decide +kernel⟩, ready_of (by decide +kernel), by decide +kernel⟩

/-- STV of two lanes to the scratchpad; a whole STV to the view of v0 of context 0 through the local window; SCATTER. -/
def vst : VF := { vf with vs1 := 3, vs3 := 1, pm := 1 }
def sView : State := atP { x0 with sreg := [(3, 0xC0000)] } { firing := some { launch := 0, slot := 0, fir := 0, asid := 0, window := some 0 } }
theorem wit_VectorStores :
    (OpsReady (atP xp) { ops := [addrS 1 vst.vs1 vst.w1, srcV 3 vst.vs3 vst.w3, pmOp vst.pm] } [0x2000, V1] ∧ accessLanes (atP xp) vst = [0, 1] ∧
      activeMask (atP xp) vst.pm ≠ BitVec.allOnes 64 ∧
      laneSegs (atP xp) .lanes (fun k => sval [0x2000, V1] 0 + vst.imm13.signExtend 64 * 4 + BitVec.ofNat 64 (4 * k)) [0, 1] =
        .ok [{ pa := pad + 0x2000, len := 4, off := 0 }, { pa := pad + 0x2004, len := 4, off := 4 }] ∧
      tableRoom (atP xp) (atP xp).cur.core [{ pa := pad + 0x2000, len := 4, off := 0 }, { pa := pad + 0x2004, len := 4, off := 4 }] = true) ∧
    (OpsReady sView { ops := [addrS 1 3 false, srcV 3 1 false, pmOp 0] } [0xC0000, V1] ∧ activeMask sView 0 = BitVec.allOnes 64 ∧
      wholeView sView 0xC0000 = some { pa := pad + 0xC0000, len := 256, off := 0 }) ∧
    (OpsReady (atP xp) { ops := [addrS 1 3 false, srcV 2 2 false, srcV 3 1 false, pmOp 1] } [0x2000, V2, V1] ∧
      laneSegs (atP xp) .lanes (fun k => sval [0x2000, V2, V1] 0 + (lane (vval [0x2000, V2, V1] 1) k).signExtend 64 <<< 2) [0, 1] =
        .ok [{ pa := pad + 0x2010, len := 4, off := 0 }, { pa := pad + 0x2014, len := 4, off := 4 }] ∧
      tableRoom (atP xp) (atP xp).cur.core [{ pa := pad + 0x2010, len := 4, off := 0 }, { pa := pad + 0x2014, len := 4, off := 4 }] = true) :=
  ⟨⟨ready_of (by decide +kernel), by decide +kernel⟩, ⟨ready_of (by decide +kernel), by decide +kernel⟩, ready_of (by decide +kernel), by decide +kernel⟩

def qp (vd : BitVec 6) (sc : BitVec 13) : VF := { vf with vd := vd, imm13 := sc }
/-- A scalar to q3, a vector to q7, and codes that name no queue. -/
theorem wit_QueuePushes :
    (OpsReady atA { apOnly := true, ops := [dstSQ 35, srcS 1 1 false] } [5] ∧ (qp 35 1).imm13.getLsbD 0 = true ∧ pushReady atA 3 = .ok ()) ∧
    (OpsReady atA { apOnly := true, ops := [dstVQ 39, srcV 1 1 false] } [V1] ∧ (qp 39 0).imm13.getLsbD 0 = false ∧ pushReady atA 7 = .ok ()) ∧
    (OpsReady atA { apOnly := true, ops := [dstSQ 31, srcS 1 1 false] } [5] ∧ (31 : BitVec 6).toNat < 32) :=
  ⟨⟨ready_of (by decide +kernel), by decide +kernel⟩, ⟨ready_of (by decide +kernel), by decide +kernel⟩, ready_of (by decide +kernel), by decide +kernel⟩

/-! ### Witnesses: fibre, matrix, copy and channel members -/

/-- g1 = a coordinate, g2 a FINIT parameter or coordinate, g3 the fibre header at 0x10040. -/
def xf (a b : W64) : Stream := { x0 with sreg := [(1, 0x10040), (2, b), (4, a)] }
def fx : Xlated := { pa := pad + 0x10040, fib := true }

/-- FLEN, and FCMB with a coordinate at its greatest and one beyond, OP 7, and a header that is not aligned. -/
theorem wit_FibreMembers :
    (OpsReady (atP (xf 0 0)) { ops := [dstS r3.rd, addrS 1 r3.rs1 r3.w1] } [0x10040] ∧ (sval [0x10040] 0).toNat % 64 = 0 ∧
      xlate (atP (xf 0 0)) .fibre (sval [0x10040] 0) 64 false false = .ok fx ∧ FreeS (atP (xf 0 0)) r3.rd) ∧
    (OpsReady (atP (xf 9 0xFFFFFFFF)) { ops := [dataS 0 r3.rd false, addrS 1 r3.rs1 r3.w1, srcS 2 r3.rs2 r3.w2] } [9, 0x10040, 0xFFFFFFFF] ∧
      (sval [9, 0x10040, 0xFFFFFFFF] 2).toNat < 2 ^ 32 ∧ xlate (atP (xf 9 0xFFFFFFFF)) .fibre 0x10040 64 true false = .ok fx) ∧
    (OpsReady (atP (xf 9 0x100000000)) { ops := [dataS 0 r3.rd false, addrS 1 r3.rs1 r3.w1, srcS 2 r3.rs2 r3.w2] } [9, 0x10040, 0x100000000] ∧
      ¬ (sval [9, 0x10040, 0x100000000] 2).toNat < 2 ^ 32) ∧
    (OpsReady (atP (xf 9 0)) { ops := [srcS 0 r3.rd false, addrS 1 r3.rs1 r3.w1, srcS 2 r3.rs2 r3.w2] } [9, 0x10040, 0] ∧ finitOk (sval [9, 0x10040, 0] 2) = true) ∧
    (OpsReady at0 { ops := [dstS r3.rd, addrS 1 r3.rs1 r3.w1] } [5] ∧ (sval [5] 0).toNat % 64 ≠ 0) :=
  ⟨⟨ready_of (by decide +kernel), by decide +kernel, by decide +kernel, free_of (by decide +kernel)⟩, ⟨ready_of (by decide +kernel), by decide +kernel⟩,
    ⟨ready_of (by decide +kernel), by decide +kernel⟩, ⟨ready_of (by decide +kernel), by decide +kernel⟩, ready_of (by decide +kernel), by decide +kernel⟩

def ef (x : BitVec 26) : EF := { rd := 4, rs1 := 1, rs2 := 2, rs3 := 3, w := false, x := x }
/-- rd, rs1, rs2 name fibres at 0x10040, 0x10080 and 0x100C0; rs3 the stamp. -/
def xu : Stream := { x0 with sreg := [(1, 0x10080), (2, 0x100C0), (3, 0x2000), (4, 0x10040)] }

theorem wit_FibreVectorMembers :
    (OpsReady (atP (xf 0 0)) (planE (srcV 0 (ef 0).rd false) (ef 0)) [0, 0x10040, V2] ∧ predPending (atP (xf 0 0)) (atP (xf 0 0)).cur ((ef 0).bits 15 3) = false ∧
      (ef 0).bits 22 4 ≠ 7 ∧ xlate (atP (xf 0 0)) .fibre (sval [0, 0x10040, V2] 1) 64 true false = .ok fx) ∧
    (OpsReady (atP (xf 0 0)) (planE (dstV (ef 0).rd) (ef 0)) [0x10040, V2] ∧ predPending (atP (xf 0 0)) (atP (xf 0 0)).cur ((ef 0).bits 20 3) = false ∧
      predPending (atP (xf 0 0)) (atP (xf 0 0)).cur ((ef 0).bits 23 3) = false ∧ FreeV (atP (xf 0 0)) (ef 0).rd ∧
      xlate (atP (xf 0 0)) .fibre (sval [0x10040, V2] 0) 64 false false = .ok fx) ∧
    (OpsReady (atQ (xf 0 0)) (planScanQ { ef 0 with rd := 35, rs2 := 0, rs3 := 0 }) [0x10040, 0, 0] ∧ (ef 0).bits 25 1 = 0 ∧
      scanInto (atQ (xf 0 0)) (atQ (xf 0 0)).cur 3 = false ∧ xlate (atQ (xf 0 0)) .fibre (sval [0x10040, 0, 0] 0) 64 false false = .ok fx) ∧
    OpsReady (atQ (xf 0 0)) (planScanQ { ef 0 with rs2 := 0, rs3 := 0 }) [0x10040, 0, 0] :=
  ⟨⟨ready_of (by decide +kernel), by decide +kernel⟩,
    ⟨ready_of (by decide +kernel), by decide +kernel, by decide +kernel, freeV_of (by decide +kernel), by decide +kernel⟩,
    ⟨ready_of (by decide +kernel), by decide +kernel⟩, ready_of (by decide +kernel)⟩

/-- Combine rule 7 of FMRGV and FUNION, and headers that are not aligned. -/
theorem wit_FibreVectorMembers_traps :
    ((ef 0x1C00000).bits 22 4 = 7 ∧ (ef 0x1C00000).bits 15 3 = 0 ∧ predPending (atP (xf 0 0)) (atP (xf 0 0)).cur 0 = false) ∧
    OpsReady (atP (xf 0 0)) (planE (srcV 0 (ef 0x1C00000).rd false) (ef 0x1C00000)) [0, 0x10040, V2] ∧
    (OpsReady at0 (planE (srcV 0 (ef 0).rd false) (ef 0)) [0, 5, V2] ∧ (sval [0, 5, V2] 1).toNat % 64 ≠ 0) ∧
    (OpsReady at0 (planE (dstV (ef 0).rd) (ef 0)) [5, V2] ∧ (sval [5, V2] 0).toNat % 64 ≠ 0) ∧
    OpsReady (atP xu) (planUnion (ef 0x1C00000)) [0x10040, 0x10080, 0x100C0, 0x2000] :=
  ⟨by decide +kernel, ready_of (by decide +kernel), ⟨ready_of (by decide +kernel), by decide +kernel⟩, ⟨ready_of (by decide +kernel), by decide +kernel⟩,
    ready_of (by decide +kernel)⟩

/-- A scan to memory at 0x2000, and a union with a stamp there. -/
theorem wit_FibreVectorMembers_memory :
    (OpsReady (atP { xu with sreg := [(1, 0x10080), (4, 0x2000)] }) (planScanM { ef 0x2000000 with rs2 := 0, rs3 := 0 }) [0x2000, 0x10080, 0, 0] ∧ (ef 0x2000000).bits 25 1 = 1 ∧
      xlate (atP { xu with sreg := [(1, 0x10080), (4, 0x2000)] }) .fibre 0x10080 64 false false = .ok { pa := pad + 0x10080, fib := true } ∧
      xlate (atP { xu with sreg := [(1, 0x10080), (4, 0x2000)] }) .store 0x2000 8 true false = .ok { pa := pad + 0x2000 }) ∧
    (OpsReady (atP xu) (planUnion (ef 0)) [0x10040, 0x10080, 0x100C0, 0x2000] ∧ (ef 0).bits 22 4 ≠ 7 ∧
      (∀ k, k < 3 → (sval [0x10040, 0x10080, 0x100C0, 0x2000] k).toNat % 64 = 0) ∧
      xlate (atP xu) .fibre 0x10040 64 true false = .ok fx ∧ xlate (atP xu) .fibre 0x10080 64 false false = .ok { pa := pad + 0x10080, fib := true } ∧
      xlate (atP xu) .fibre 0x100C0 64 false false = .ok { pa := pad + 0x100C0, fib := true } ∧
      xlate (atP xu) .store 0x2000 8 true false = .ok { pa := pad + 0x2000 }) :=
  ⟨⟨ready_of (by decide +kernel), by decide +kernel⟩, ready_of (by decide +kernel), by decide +kernel⟩

/-- Reg(rs1) an operand in the scratchpad, Reg(rs2) 0: no scales. -/
def xm (a : W64) : Stream := { x0 with sreg := [(1, a)] }
/-- A core whose slot masks hold a half in each byte: slot 0 has 32 ones, slots 2 and 3 have 64. -/
def masks : List Host.Cell := (List.range 4).map (fun k => (pad + 0xB0000 + k, 0xFF)) ++
  (List.range 8).map (fun k => (pad + 0xB0020 + k, 0xFF)) ++ (List.range 8).map (fun k => (pad + 0xB0030 + k, 0xFF))
def sMask : State := { atP (xm 0x4000) with mem := masks }
/-- An HBM page of tiles, whose stack is in service. -/
def sPage : State :=
  { at0 (xm 0x30000) with
    clusters := [(0, { tlb := [{ asid := 0, vbase := 0x30000, log2 := 16, pte := 0x1003F }] })], dev := { tilePages := [(0, { v := true, ppn := 1 })] }
    hbm := (List.range 8).map (fun k => (k, { inService := true })) }

/-- The page's tile is named, and in no core's table. -/
def pageTile : Bool :=
  match namedTile sPage (ef 0x800) 0x30000 with
  | .ok (some c) => tableTile c == none
  | _ => false

theorem wit_MatrixMembers :
    (RoomFor (atP (xm 0x1000)) ∧ OpsReady (atP (xm 0x1000)) (planTile (ef 0)) [0x1000, 0] ∧ TileAligned 0 (sval [0x1000, 0] 0) (sval [0x1000, 0] 1) (128 * fmtWidth 0) 32 ∧
      tileSeg (atP (xm 0x1000)) (sval [0x1000, 0] 0) (128 * fmtWidth 0) = .ok { pa := pad + 0x1000, len := 4096, off := 0 } ∧
      scaleSeg (atP (xm 0x1000)) 0 (sval [0x1000, 0] 1) 32 = .ok none ∧ (curCtx (atP (xm 0x1000))).cbBusy = 0 ∧ Sound (atP (xm 0x1000)) [64 + 0, 0]) ∧
    (RoomFor sMask ∧ OpsReady sMask (planTile (ef 0)) [0x4000, 0] ∧ TileAligned 0 (sval [0x4000, 0] 0) (sval [0x4000, 0] 1) (512 * fmtWidth 0) 128 ∧
      tileSeg sMask (sval [0x4000, 0] 0) (512 * fmtWidth 0) = .ok { pa := pad + 0x4000, len := 16384, off := 0 } ∧
      slotWritten sMask 0 0 = false ∧ popNat 128 (slotMask sMask 0 0) = 32 ∧ (ef 0x20800).bits 16 5 = 2 ∧ (ef 0x20800).bits 11 1 = 1 ∧
      sparseSlots 2 true = [2, 3] ∧ popNat 128 (slotMask sMask 0 2) = 64 ∧ slotMask sMask 0 3 = slotMask sMask 0 2 ∧ popNat 128 (slotMask sMask 0 4) = 0 ∧
      Sound sMask ((sparseSlots 2 true).map (64 + ·) ++ [0])) :=
  ⟨⟨by unfold RoomFor; decide +kernel, ready_of (by decide +kernel), by unfold TileAligned; decide +kernel, by unfold Sound; decide +kernel⟩,
    by unfold RoomFor; decide +kernel, ready_of (by decide +kernel), by unfold TileAligned; decide +kernel, by unfold Sound; decide +kernel⟩

/-- MLDM, MCLR, MRD, MTEST; TDCLASS and TDQUERY of an accumulator, of a page of HBM, and of an address that nothing covers. -/
theorem wit_MatrixMembers_more :
    (OpsReady (atP (xm 0x1000)) (planM [addrS 1 (ef 0).rs1 (ef 0).w]) [0x1000] ∧ xlate (atP (xm 0x1000)) .load (sval [0x1000] 0) 16 false false = .ok { pa := pad + 0x1000 }) ∧
    OpsReady at0 (planM []) [] ∧ OpsReady at0 (planM [dstV (ef 0).rd]) [] ∧ FreeV at0 (ef 0).rd ∧ Sound at0 [0] ∧ OpsReady at0 (planM [dstS (ef 0).rd]) [] ∧ FreeS at0 (ef 0).rd ∧
    (OpsReady at0 (planM (tdOps (ef 0))) [] ∧ namedTile at0 (ef 0) 0 = .ok (some (accTile 0 0)) ∧ tableTile (accTile 0 0) = some (0, .acc 0) ∧ tableCount at0 0 < 32 ∧
      writesAhead at0 0 (.acc 0) = false) ∧
    (OpsReady sPage (planM (tdOps (ef 0x800))) [0x30000] ∧ RoomFor sPage ∧ pageTile = true) ∧
    (OpsReady (atP (xm 0x1000)) (planM (dstS 4 :: tdOps (ef 0x800))) [0x1000] ∧ namedTile (atP (xm 0x1000)) (ef 0x800) 0x1000 = .ok none) :=
  ⟨⟨ready_of (by decide +kernel), by decide +kernel⟩, ready_of (by decide +kernel), ready_of (by decide +kernel), freeV_of (by decide +kernel),
    by unfold Sound; decide +kernel, ready_of (by decide +kernel), free_of (by decide +kernel), ⟨ready_of (by decide +kernel), by decide +kernel⟩,
    ⟨ready_of (by decide +kernel), by unfold RoomFor; decide +kernel, by decide +kernel⟩, ready_of (by decide +kernel), by decide +kernel⟩

/-- A descriptor at 0x2000 of zeros but for its control word. -/
def sCpy (ctl : Byte) : State := { atP (xm 0x2000) with mem := if ctl = 0 then [] else [(pad + 0x2018, ctl)] }
def cpySeg : List Seg := [{ pa := pad + 0x2000, len := 128, off := 0 }]
def descOf (s : State) : CopyDesc :=
  CopyDesc.ofWords ((List.range 16).map (fun j => BitVec.ofNat 64 ((readPieces s { id := 0, agent := .stream s.cur, kind := .load, todo := cpySeg } cpySeg).1.data.toNat / 2 ^ (64 * j))))

/-- A firing, in which a descriptor of formats that are not accepted makes COPY_FAULT pending. -/
def sCpyFmt : State := { atP (xm 0x2000) { firing := some { launch := 0, slot := 0, fir := 0, asid := 0, window := none } } with mem := [(pad + 0x2018, 0x60)] }
/-- The engine's last slot: a copy of generation 1 between its sectors. -/
def sLive : State := at0 (xm 383) {} { copies := [(127, { gen := 1, state := 2, nsec := 2, next := 1 })] }

/-- A descriptor in breach, and one of FP32; handles at both ends, stale, live and ended. -/
theorem wit_CopyMembers :
    (OpsReady (sCpy 3) (planM [dstS (ef 0).rd, addrS 1 (ef 0).rs1 (ef 0).w]) [0x2000] ∧
      RoomFor (sCpy 3) ∧ xlatePieces (sCpy 3) .load 64 false false (pagePieces (sval [0x2000] 0) 128 0) = .ok cpySeg ∧ freeCopySlot (sCpy 3) 0 = some 0 ∧
      issueReady (sCpy 3) .load false false cpySeg = true ∧ poisonIn (sCpy 3) cpySeg = none ∧ FreeS (sCpy 3) (ef 0).rd ∧ descBreach (descOf (sCpy 3)) = false ∧
      (descOf (sCpy 3)).ch = false ∧ descBreach (descOf (sCpy 0)) = true ∧ (curCtx (sCpy 3)).cbBusy = 0) ∧
    (OpsReady sCpyFmt (planM [dstS (ef 0).rd, addrS 1 (ef 0).rs1 (ef 0).w]) [0x2000] ∧ RoomFor sCpyFmt ∧
      xlatePieces sCpyFmt .load 64 false false (pagePieces (sval [0x2000] 0) 128 0) = .ok cpySeg ∧ issueReady sCpyFmt .load false false cpySeg = true ∧
      copyFmt (descOf sCpyFmt).sfmt = false ∧ (curCtx sCpyFmt).firing ≠ none) ∧
    (OpsReady (at0 (xm 127)) (planM [dstS (ef 0).rd, srcS 1 (ef 0).rs1 (ef 0).w]) [127] ∧ FreeS (at0 (xm 127)) (ef 0).rd ∧ (sval [127] 0).toNat < 2 ^ 40 ∧ (sval [127] 0).toNat % 256 < 128) ∧
    (OpsReady (at0 (xm 128)) (planM [dstS (ef 0).rd, srcS 1 (ef 0).rs1 (ef 0).w]) [128] ∧ 128 ≤ (sval [128] 0).toNat % 256) ∧
    (OpsReady (at0 (xm 127)) (planM [srcS 1 (ef 0).rs1 (ef 0).w]) [127] ∧ (getCopy (at0 (xm 127)) 0 127).state = 0) ∧
    (OpsReady sLive (planM [srcS 1 (ef 0).rs1 (ef 0).w]) [383] ∧ (sval [383] 0).toNat % 256 = 127 ∧ (getCopy sLive 0 127).gen = (sval [383] 0).toNat / 256 ∧
      (getCopy sLive 0 127).state = 2 ∧ copyEnding (getCopy sLive 0 127) = false) :=
  ⟨⟨ready_of (by decide +kernel), by unfold RoomFor; decide +kernel, by decide +kernel, by decide +kernel, by decide +kernel, by decide +kernel, free_of (by decide +kernel),
      by decide +kernel⟩,
    ⟨ready_of (by decide +kernel), by unfold RoomFor; decide +kernel, by decide +kernel⟩,
    ⟨ready_of (by decide +kernel), free_of (by decide +kernel), by decide +kernel⟩, ⟨ready_of (by decide +kernel), by decide +kernel⟩,
    ⟨ready_of (by decide +kernel), by decide +kernel⟩, ready_of (by decide +kernel), by decide +kernel⟩

/-- An instance with an output port on channel 0 and an input port on channel 1, in a firing that has two slots of each. -/
def ch0 : Chan :=
  { launch := 0, chan := 0, base := 0x10000, dbase := 0, cmask := 1, dfmt := 0, pfmt := 0, log2n := 2, log2z := 6, dlog2z := 6, head := 2, tails := [], pslot := 0, pport := 0, prod := 2, reserved := 2,
    consumers := [some (0, 0, 1, 2)] }
def in0 : Inst :=
  { launch := 0, actor := 0, n := 0, kind := .ordinary, en := true, state := 4, wid := 0, block := 0x20000, blockSize := 96,
    ports := [{ output := true, count := 2, core := 0, ch := 0 }, { output := false, count := 2, core := 0, ch := 1 }], baseWeight := 1, priv := false, entry := 0x1000, aentry := 0, replayable := false }
def fr0 : Firing := { launch := 0, slot := 0, fir := 0, asid := 0, window := none, ports := [{ res := 2 }, { res := 2 }] }
def kCh : Core := { insts := [(0, some in0)], chans := [(0, some ch0), (1, some { ch0 with chan := 1, reserved := 0 })] }
def sCh (n : W64) : State := at0 (xm n) { firing := some fr0 } kCh
def portB (k : Nat) (out : Bool) : Bool :=
  match portOf (sCh 0) k (some out) with
  | .ok p => p.left == 2 && p.res.eos == false && p.res.base == none
  | .error _ => false

theorem wit_ChannelMembers :
    (OpsReady (sCh 2) (planM [srcS 1 (ef 0).rs1 (ef 0).w]) [2] ∧ (sval [2] 0).toNat ≤ 2 ∧ portB 0 true = true ∧ portBits (ef 0) = 0) ∧ OpsReady (sCh 2) (planM []) [] ∧
    (OpsReady (sCh 2) (planM [dstS (ef 0x400000).rd, srcS 1 (ef 0x400000).rs1 (ef 0x400000).w]) [2] ∧ portB 1 false = true ∧ portBits (ef 0x400000) = 1 ∧ sval [2] 0 ≠ 0 ∧ FreeS (sCh 2) 4) ∧
    (OpsReady (sCh 3) (planM [dstS 4, srcS 1 1 false]) [3] ∧ 2 < (sval [3] 0).toNat) ∧ OpsReady (sCh 2) (planM [dstS 4]) [] ∧
    (OpsReady (atP (xm 0x1000)) (planM [addrS 1 1 false]) [0x1000] ∧ (sval [0x1000] 0).toNat % 32 = 0 ∧
      xlate (atP (xm 0x1000)) .load (sval [0x1000] 0) 8 false false = .ok { pa := pad + 0x1000 } ∧ poisonIn (atP (xm 0x1000)) [piece { pa := pad + 0x1000 } 32] = none ∧
      tableRoom (atP (xm 0x1000)) (atP (xm 0x1000)).cur.core [piece { pa := pad + 0x1000 } 32] = true ∧ (curCtx (atP (xm 0x1000))).cbBusy = 0) ∧
    (OpsReady (sCh 1) (planM [dstS (ef 0x400000).rd, srcS 1 (ef 0x400000).rs1 (ef 0x400000).w]) [1] ∧ (sval [1] 0).toNat < 2) :=
  ⟨⟨ready_of (by decide +kernel), by decide +kernel⟩, ready_of (by decide +kernel),
    ⟨ready_of (by decide +kernel), by decide +kernel, by decide +kernel, by decide +kernel, free_of (by decide +kernel)⟩,
    ⟨ready_of (by decide +kernel), by decide +kernel⟩, ready_of (by decide +kernel), ⟨ready_of (by decide +kernel), by decide +kernel⟩, ready_of (by decide +kernel),
    by decide +kernel⟩

/-- A reservation that ended its stream, one slot too many, a port of the other direction, and CHPOP of no slot. -/
theorem wit_ChannelMembers_more :
    (OpsReady (at0 (xm 2) { firing := some { fr0 with ports := [{ res := 2, eos := true }, { res := 2 }] } } kCh) (planM [srcS 1 (ef 0).rs1 (ef 0).w]) [2] ∧
      (match portOf (at0 (xm 2) { firing := some { fr0 with ports := [{ res := 2, eos := true }, { res := 2 }] } } kCh) 0 (some true) with
        | .ok p => p.res.eos | .error _ => false) = true) ∧
    (OpsReady (sCh 3) (planM [srcS 1 (ef 0).rs1 (ef 0).w]) [3] ∧ 2 < (sval [3] 0).toNat) ∧
    ((match portOf (sCh 2) 0 (some false) with | .ok _ => false | .error _ => true) = true ∧ OpsReady (sCh 2) (planM [dstS 4, srcS 1 1 false]) [2]) ∧
    ((match portOf (sCh 2) 1 (some true) with | .ok _ => false | .error _ => true) = true ∧ OpsReady (sCh 2) (planM [srcS 1 1 false]) [2] ∧ OpsReady (sCh 2) (planM []) []) ∧
    (OpsReady (sCh 0) (planM [dstS 4, srcS 1 1 false]) [0] ∧ portB 1 false = true ∧ sval [0] 0 = 0 ∧ FreeS (sCh 0) 4) :=
  ⟨⟨ready_of (by decide +kernel), by decide +kernel⟩, ⟨ready_of (by decide +kernel), by decide +kernel⟩, ⟨by decide +kernel, ready_of (by decide +kernel)⟩,
    ⟨by decide +kernel, ready_of (by decide +kernel), ready_of (by decide +kernel)⟩, ready_of (by decide +kernel), by decide +kernel, by decide +kernel, free_of (by decide +kernel)⟩

/-- FIRE.END of an AP stream, and of the CP stream of a firing with an input. -/
theorem wit_FiringEnds : (OpsReady atA {} [] ∧ atA.cur.ap = true) ∧
    (OpsReady (sCh 0) {} [] ∧ (sCh 0).cur.ap = false ∧ (curCtx (sCh 0)).firing = some fr0 ∧ fr0.poisoned = false ∧ fr0.replay = false ∧
      (curCtx (sCh 0)).pending = [] ∧ getInst (sCh 0) 0 fr0.slot = some in0 ∧ in0.ports.any (fun p => !p.output) = true) :=
  ⟨⟨ready_of (by decide +kernel), by decide +kernel⟩, ready_of (by decide +kernel), by decide +kernel⟩

/-! ### Witnesses: accesses at their homes -/

theorem awake_of {s : State} (h : s.mgmt.power.tripped = false) : Awake s := h

def atHomeB (s : State) (r : Req) (g : Seg) : Bool := decide (
  findReq s r.id = some r ∧ r.todo = [g] ∧ r.byLine = false ∧ pieceReady s r g = true ∧ g.dev = 0 ∧ g.off + g.len ≤ 256 ∧
  0 < g.len ∧ g.pa / 4096 = (g.pa + g.len - 1) / 4096)
theorem home_of {s : State} {r : Req} {g : Seg} (h : atHomeB s r g = true) : AtHome s r g := by
  obtain ⟨a, b, c, d, e, f, i, j⟩ := of_decide_eq_true h
  exact ⟨a, b, c, d, e, f, i, j⟩

def w0 : StreamId := { core := 0, ctx := 0, ap := false }
/-- A request of the stream for one piece, and the state that holds it. -/
def rqk (k : ReqKind) (d : Dest) (g : Seg) : Req := { id := 0, agent := .stream w0, kind := k, todo := [g], dest := d }
def sR (r : Req) (s : State := at0) : State := { s with reqs := [r], nextId := 1 }
def g8 : Seg := { pa := pad + 0x2000, len := 8, off := 0 }
def h8 : Seg := { pa := 0x2000, len := 8, off := 0 }
def rLd : Req := rqk .load (.scalar 4) g8
def rAm : Req := rqk (.atomic .add 1 0) (.scalar 4) h8
def rMon : Req := rqk .monitor .none g8
def rDone : Req := { id := 0, agent := .stream w0, kind := .load, todo := [], dest := .scalar 135, data := 7, size := 8 }
def fill0 : Fill := { reg := 135, val := { pa := pad, len := 8, off := 0 }, full := { pa := pad + 0x80, len := 2, off := 0 }, bit := 15, id := 0 }
def sFill : State := { at0 x0 { fills := [fill0] } with nextId := 1 }

theorem wit_ReadsAtHome :
    Awake (sR rLd) ∧ (AtHome (sR rLd) rLd g8 ∧ isMemory (place g8.pa) = true ∧ (∀ i, i < g8.len → isMemory (place (g8.pa + i)) = true)) ∧
    (AtHome (sR rAm) rAm h8 ∧ place h8.pa = .hbm ∧ h8.pa % h8.len = 0) ∧
    (findReq (sR rDone) rDone.id = some rDone ∧ sameFiring (sR rDone) w0 rDone.slot rDone.fir = true ∧
      responseTurn (sR rDone) rDone = true ∧ rDone.size ∈ [1, 2, 4, 8]) ∧
    (AtHome (sR rMon (at0 (xMon false .none))) rMon g8 ∧ (getStream (sR rMon (at0 (xMon false .none))) w0).monitor.armed = true) ∧
    ((getCtx sFill 0 0).fills.find? (fun f => f.reg == 135) = some fill0 ∧ pieceReady sFill (fillReq sFill 0 0 fill0) fill0.val = true ∧
      pieceReady sFill (fillReq sFill 0 0 fill0) fill0.full = true) :=
  ⟨awake_of rfl, ⟨home_of (by decide +kernel), by decide +kernel⟩, ⟨home_of (by decide +kernel), by decide +kernel⟩, by decide +kernel,
    ⟨home_of (by decide +kernel), by decide +kernel⟩, by decide +kernel⟩

def rSt : Req := rqk .store .none g8
/-- A write of the last window register of context 0, and the stream with that register empty. -/
def gW : Seg := { pa := pad + 0xB1000 + 0x100 + 8 * 127, len := 8, off := 0 }
def rW : Req := { rqk .store .none gW with agent := .stream { core := 1, ctx := 0, ap := false } }
def xNo : Stream := { x0 with sfull := 1 }
def sHeldW : State := at0 xNo {} { heldWrites := [{ ctx := 0, reg := 135, data := 9, id := 5 }] }
def spill0 : SpillBuf := { segs := [g8], regs := List.replicate 16 7, full := 0, link := 0, id := 0 }
def sSp : State := { at0 x0 { spills := [spill0] } with nextId := 1 }

theorem wit_WritesAtHome :
    (AtHome (sR rSt) rSt g8 ∧ PlainMemory g8.pa) ∧
    (AtHome (sR rW (at0 xNo)) rW gW ∧ windowPiece gW = true ∧ regView (place gW.pa) = some (0, 0, 135) ∧ heldPiece (sR rW (at0 xNo)) rW gW = false ∧
      regStopped (sR rW (at0 xNo)) 0 0 = false ∧ regOpen (sR rW (at0 xNo)) 0 0 135 = true) ∧
    (AtHome (sR rW) rW gW ∧ heldPiece (sR rW) rW gW = false ∧ regOpen (sR rW) 0 0 135 = false ∧ (getCore (sR rW) 0).heldWrites.length < 64) ∧
    ((getCore sHeldW 0).heldWrites[0]? = some { ctx := 0, reg := 135, data := 9, id := 5 } ∧ regFull sHeldW 0 0 135 = false ∧ regPending sHeldW 0 0 135 = false ∧
      regStopped sHeldW 0 0 = false) ∧
    ((getCtx sSp 0 0).spills = spill0 :: [] ∧ ctxSaved sSp 0 0 = false ∧ isMemory (place g8.pa) = true ∧ windowPiece g8 = false ∧ pieceReady sSp (spillReq sSp 0 0 spill0 [g8]) g8 = true ∧
      sSp.reqs = [] ∧ spill0.regs.length = 16) :=
  ⟨⟨home_of (by decide +kernel), .inr ⟨0, 0x2000, by decide +kernel⟩⟩, ⟨home_of (by decide +kernel), by decide +kernel⟩, ⟨home_of (by decide +kernel), by decide +kernel⟩,
    by decide +kernel, by decide +kernel⟩

/-- MWAIT until CYCLE 9, at 8 and at 9; a fence with nothing before it; a pending COPY_FAULT; a walk that finds a leaf and one that does not. -/
def sMw (cyc : Nat) : State := { at0 (xMon false (.mwait 9 4 true)) with cycle := cyc }
def sPend : State := at0 x0 { pending := [{ cause := 0x14, val := 1, inst := 0, slot := 0 }] }
def wk : Walk := { id := 0, cluster := 0, asid := 1, root := pad, va := 0x10000, waiters := [w0] }
def sWalk (e : W64) (va : Nat := 0x10000) : State := { sPte e with dev := { walks := [wk] }, cores := [(0, { cps := [(0, { x0 with wait := .walk 1 va })] })] }
theorem wit_WaitsEnd :
    ((getStream (sMw 9) w0).wait = .mwait 9 4 true ∧ streamStopped (sMw 9) w0 = false ∧ (sMw 8).cycle < 9) ∧
    ((getStream (fen [8] at0) w0).fence = some { upto := 0, paths := [8] } ∧ (fen [8] at0).reqs = [] ∧ spillSegs (fen [8] at0) w0 = [] ∧ (fen [8] at0).freqs = []) ∧
    ((getCtx sPend 0 0).pending = [{ cause := 0x14, val := 1, inst := 0, slot := 0 }] ∧ w0.ap = false ∧ trappable (getStream sPend w0) = true ∧ streamStopped sPend w0 = false) ∧
    ((sWalk 0x803).dev.walks.find? (fun x => x.id == wk.id) = some wk ∧
      ((sWalk 0x803).dev.walks.filter (fun j => j.cluster / 4 == wk.cluster / 4)).take 64 = [wk] ∧
      (∀ a ∈ (walk (sWalk 0x3) (getDie (sWalk 0x3) 0).ptrs wk.asid wk.root wk.va).reads, pathDead (sWalk 0x3) none { pa := a, len := 8, off := 0 } = false) ∧
      (walk (sWalk 0x3) (getDie (sWalk 0x3) 0).ptrs wk.asid wk.root wk.va).leaf = .ok { asid := 1, vbase := 0, log2 := 35, pte := 3 } ∧
      (walk (sWalk 0) (getDie (sWalk 0) 0).ptrs wk.asid wk.root wk.va).leaf = .error 0 ∧
      ((getStream (sWalk 0) w0).wait = .walk 1 0x10000 ∧ w0 ∈ wk.waiters ∧ wk.asid = 1 ∧ (0x10000 : Nat) / 65536 = wk.va / 65536) ∧
      ((getStream (sWalk 0 0x30000) w0).wait = .walk 1 0x30000 ∧ (0x30000 : Nat) / 65536 ≠ wk.va / 65536)) := by decide +kernel

/-! ### Witnesses: fibres at their homes -/

/-- A header in HBM at 0x4000, and what a state needs for a pool's pods at 0x10000. -/
def hdrMem (pa : Nat) (x : FHdr) : List Host.Cell :=
  (List.range 64).filterMap (fun k => if encodeHdr x / 256 ^ k % 256 = 0 then none else some (pa + k, BitVec.ofNat 8 (encodeHdr x / 256 ^ k)))
def hd : FHdr := { op := 0, cap := 10, maxc := 100 }
def podTlb : List TlbEntry := [{ asid := 0, vbase := 0, log2 := 16, pte := 0x100BF }]
def pl (n : Nat) : Pool := { npods := 8, freecnt := n, freehead := 0, runs := [(1, n - 1)], wmark := 1, timeout := 2 }
def fq (op : FOp) (d : Dest := .none) : FReq := { id := 0, agent := .stream w0, core := 0, launch := 3, asid := 0, hdr := 0x4000, va := 0x40, op := op, dest := d }
def sF (f : FReq) (x : FHdr := hd) (p : Pool := pl 8) : State :=
  { at0 with mem := hdrMem 0x4000 x, freqs := [f], nextId := 1, dev := { pools := [(0, p)], launches := [(3, { lstate := 2 })] },
             hbm := (List.range 8).map (fun k => (k, { inService := true, tlb := podTlb })) }

def turnB (s : State) (f : FReq) : Bool := decide (findF s f.id = some f ∧ f.dev = 0 ∧ f.held = .no ∧ fibTurn s f = true)
theorem turn_of {s : State} {f : FReq} (h : turnB s f = true) : Turn s f := by
  obtain ⟨a, b, c, d⟩ := of_decide_eq_true h
  exact ⟨a, b, c, d⟩
def hdrB (s : State) (pa : Nat) : Bool := decide (place pa = .hbm ∧ pa % 64 = 0 ∧ poisonedAt s pa 64 = none ∧
  redirectHeld s.dev pa 64 = false ∧ hdrBad (decodeHdr (memRead s pa 64)) = false)
theorem hdr_of {s : State} {pa : Nat} (h : hdrB s pa = true) : HdrAt s pa := by
  obtain ⟨a, b, c, d, e⟩ := of_decide_eq_true h
  exact ⟨.inl a, b, c, d, e⟩
/-- Whether an act is accepted. -/
def accepts (m : FM Unit) (s : State) : Bool := match m.exec s with | .ok _ => true | .error _ => false

/-- A fibre of one pod, 1, at 0x10100, that holds coordinate 3 with FP32 1.0 and coordinate 5 with 2.0. -/
def hd1 : FHdr := { hd with len := 2, npod := 1, dir := [(0, 1)] }
def podMem : List Host.Cell :=
  (List.range 4).map (fun k => (0x10100 + k, 0xFF)) ++ [(0x10104, 2), (0x10108, 3), (0x1010E, 0x80), (0x1010F, 0x3F), (0x10110, 5), (0x10117, 0x40)]
def sP (f : FReq) : State := { sF f hd1 with mem := hdrMem 0x4000 hd1 ++ podMem }
def podX (s : State) (f : FReq) (wr : Bool) : Option Xlated :=
  match unitXlate s (homeUnit (fibHome s f.hdr)) (homeTlb s (fibHome s f.hdr)) (homePtrs s (fibHome s f.hdr)) (getPool s (hdrOf s f.hdr).pool).asid
    ((getPool s (hdrOf s f.hdr).pool).base + 1 * 256) .fibre 256 wr with
  | .ok (x, none) => some x
  | _ => none
theorem podX_of {s : State} {f : FReq} {wr : Bool} {x : Xlated} (h : podX s f wr = some x) :
    unitXlate s (homeUnit (fibHome s f.hdr)) (homeTlb s (fibHome s f.hdr)) (homePtrs s (fibHome s f.hdr)) (getPool s (hdrOf s f.hdr).pool).asid
      ((getPool s (hdrOf s f.hdr).pool).base + 1 * 256) .fibre 256 wr = .ok (x, none) := by
  unfold podX at h
  split at h
  · rename_i y e; rw [e]; cases h; rfl
  · cases h
def onePodB (s : State) (f : FReq) (wr : Bool) : Bool := hdrB s f.hdr && decide (
  (hdrOf s f.hdr).lv = false ∧ (hdrOf s f.hdr).dir = [(0, 1)] ∧ podX s f wr = some { pa := 0x10100, fib := true } ∧
  tlbFind (homeTlb s (fibHome s f.hdr)) (getPool s (hdrOf s f.hdr).pool).asid ((getPool s (hdrOf s f.hdr).pool).base + 1 * 256) = podTlb.head? ∧
  place 0x10100 = .hbm ∧ poisonedAt s 0x10100 256 = none ∧ f.hdr + 64 ≤ 0x10100 ∧ s.dev.migrations = [])
theorem onePod_of {s : State} {f : FReq} {wr : Bool} (h : onePodB s f wr = true) : OnePod s f wr 1 0x10100 := by
  obtain ⟨h1, h2⟩ := Bool.and_eq_true_iff.mp h
  obtain ⟨a, b, c, d, e, g, i, j⟩ := of_decide_eq_true h2
  exact ⟨hdr_of h1, a, b, ⟨_, podX_of c, rfl, rfl⟩, ⟨_, d⟩, .inl e, by decide, g, .inr i, by rw [j]; intro m hm; cases hm⟩

def fM (c : Nat) : FReq := fq (.merge 0 16 [(c, 7)])
/-- A merge into an empty fibre at MAXC, one past it, one into a pool below its watermark; merges into a fibre of one pod, of a
coordinate it holds and of a new one. -/
theorem wit_MergesAtHome :
    Awake (sF (fM 100)) ∧ (Turn (sF (fM 100)) (fM 100) ∧ accepts (mergeAct (fibHome (sF (fM 100)) 0x4000) 0x4000 0x40 0 16 100 7) (sF (fM 100)) = true) ∧
    (Turn (sF (fM 101)) (fM 101) ∧ HdrAt (sF (fM 101)) 0x4000 ∧ (hdrOf (sF (fM 101)) 0x4000).maxc = 100 ∧
      (hdrOf (sF (fM 101)) 0x4000).pool = 0 ∧ (getPool (sF (fM 101)) 0).wmark ≤ (getPool (sF (fM 101)) 0).freecnt) ∧
    (Turn (sF (fM 1) hd (pl 0)) (fM 1) ∧ HdrAt (sF (fM 1) hd (pl 0)) 0x4000 ∧ (getPool (sF (fM 1) hd (pl 0)) 0).freecnt < (getPool (sF (fM 1) hd (pl 0)) 0).wmark ∧
      (hdrOf (sF (fM 1) hd (pl 0)) 0x4000).pool = 0) ∧
    (∀ c ∈ [3, 4], Turn (sP (fM c)) (fM c) ∧ OnePod (sP (fM c)) (fM c) true 1 0x10100 ∧ c ≤ (hdrOf (sP (fM c)) 0x4000).maxc ∧ c < noneIdx) ∧
    (hdrOf (sP (fM 3)) 0x4000).fmt = 0 ∧ (hdrOf (sP (fM 3)) 0x4000).op = 0 ∧ (hdrOf (sP (fM 3)) 0x4000).zp = false ∧
      (getPool (sP (fM 3)) 0).wmark ≤ (getPool (sP (fM 3)) 0).freecnt ∧ enterValue 0 16 (getPool (sP (fM 3)) 0).scale 7 ≠ none ∧
      (podAt (sP (fM 3)) 0 0x10100).ents = [(3, 0x3F800000), (5, 0x40000000)] ∧ (hdrOf (sP (fM 4)) 0x4000).len = 2 ∧ (hdrOf (sP (fM 4)) 0x4000).cap = 10 := by
  refine ⟨awake_of rfl, ⟨turn_of (by decide +kernel), by decide +kernel⟩, ⟨turn_of (by decide +kernel), hdr_of (by decide +kernel), by decide +kernel⟩,
    ⟨turn_of (by decide +kernel), hdr_of (by decide +kernel), by decide +kernel⟩, ?_, by decide +kernel⟩
  intro c h
  have : c = 3 ∨ c = 4 := by simpa using h
  rcases this with rfl | rfl
  · exact ⟨turn_of (by decide +kernel), onePod_of (by decide +kernel), by decide +kernel⟩
  · exact ⟨turn_of (by decide +kernel), onePod_of (by decide +kernel), by decide +kernel⟩

def fD (c : Nat) : FReq := fq (.delete c)
/-- A deletion in an empty fibre; in one of one pod, of a coordinate it holds and of one it does not. -/
theorem wit_DeletesAtHome :
    (Turn (sF (fD 5)) (fD 5) ∧ accepts (deleteAct (fibHome (sF (fD 5)) 0x4000) 0x4000 0x40 5) (sF (fD 5)) = true ∧ HdrAt (sF (fD 5)) 0x4000 ∧
      (hdrOf (sF (fD 5)) 0x4000).dir = []) ∧
    (Turn (sP (fD 5)) (fD 5) ∧ OnePod (sP (fD 5)) (fD 5) true 1 0x10100 ∧ (podAt (sP (fD 5)) 0 0x10100).ents.any (fun e => e.1 == 5) = true ∧
      (podAt (sP (fD 5)) 0 0x10100).ents.filter (fun e => e.1 != 5) ≠ []) ∧
    (Turn (sP (fD 4)) (fD 4) ∧ OnePod (sP (fD 4)) (fD 4) true 1 0x10100 ∧ (podAt (sP (fD 4)) 0 0x10100).ents.any (fun e => e.1 == 4) = false) :=
  ⟨⟨turn_of (by decide +kernel), by decide +kernel, hdr_of (by decide +kernel), by decide +kernel⟩,
    ⟨turn_of (by decide +kernel), onePod_of (by decide +kernel), by decide +kernel⟩, turn_of (by decide +kernel), onePod_of (by decide +kernel), by decide +kernel⟩

def fI : FReq := fq (.init 10 100 0 0 0 false)
def fK : FReq := fq .pack
theorem wit_HeadersAtHome :
    (Turn (sF fI) fI ∧ PlainMemory fI.hdr ∧ redirectHeld (sF fI).dev fI.hdr 64 = false) ∧
    (Turn (sF fK) fK ∧ accepts (packAct (fibHome (sF fK) 0x4000) 0x4000 0x40) (sF fK) = true ∧ HdrAt (sF fK) 0x4000 ∧ (hdrOf (sF fK) 0x4000).dir = [] ∧
      (hdrOf (sF fK) 0x4000).lv = false) ∧
    (Turn (sP fK) fK ∧ OnePod (sP fK) fK true 1 0x10100 ∧ (podAt (sP fK) 0 0x10100).ents ≠ []) :=
  ⟨⟨turn_of (by decide +kernel), .inl (by decide +kernel), by decide +kernel⟩,
    ⟨turn_of (by decide +kernel), by decide +kernel, hdr_of (by decide +kernel), by decide +kernel⟩,
    turn_of (by decide +kernel), onePod_of (by decide +kernel), by decide +kernel⟩

def fL : FReq := fq .len (.scalar 4)
def fB (c : Nat) : FReq := fq (.probe c) (.scalar 4)
def fV : FReq := fq (.probev 3 1) (.probe 5 1 0)
theorem wit_ProbesAtHome :
    (Turn (sF fL) fL ∧ HdrAt (sF fL) 0x4000) ∧ (Turn (sF (fB 3)) (fB 3) ∧ (hdrOf (sF (fB 3)) 0x4000).dir = []) ∧
    (Turn (sP (fB 3)) (fB 3) ∧ OnePod (sP (fB 3)) (fB 3) false 1 0x10100 ∧ (podAt (sP (fB 3)) 0 0x10100).ents.find? (fun e => e.1 == 3) = some (3, 0x3F800000)) ∧
    (Turn (sF fV) fV ∧ (hdrOf (sF fV) 0x4000).dir = []) ∧ (Turn (sP fV) fV ∧ OnePod (sP fV) fV false 1 0x10100) :=
  ⟨⟨turn_of (by decide +kernel), hdr_of (by decide +kernel)⟩, ⟨turn_of (by decide +kernel), by decide +kernel⟩,
    ⟨turn_of (by decide +kernel), onePod_of (by decide +kernel), by decide +kernel⟩, ⟨turn_of (by decide +kernel), by decide +kernel⟩,
    turn_of (by decide +kernel), onePod_of (by decide +kernel)⟩

/-- The page at 0x30000 that a scan to memory writes into. -/
def pgS : Seg := { pa := 0x30000, len := 65536, off := 0 }
def fS (next left q dst : Nat) (buf : List W64) : FReq := { fq (.scan next left q dst 2 pgS buf) with launch := 64 }
/-- A scan of an empty fibre, and of one pod; its words to the last queue and to memory; its end. -/
theorem wit_ScansAtHome :
    (Turn (sF (fS 0 1 3 0 [])) (fS 0 1 3 0 []) ∧ HdrAt (sF (fS 0 1 3 0 [])) 0x4000 ∧ (hdrOf (sF (fS 0 1 3 0 [])) 0x4000).dir = []) ∧
    (Turn (sP (fS 4 1 3 0 [])) (fS 4 1 3 0 []) ∧ OnePod (sP (fS 4 1 3 0 [])) (fS 4 1 3 0 []) false 1 0x10100 ∧
      ((podAt (sP (fS 4 1 3 0 [])) 0 0x10100).ents.filter (fun e => 4 ≤ e.1)).take 1 ≠ []) ∧
    (Turn (sF (fS 6 0 3 0 [5])) (fS 6 0 3 0 [5]) ∧ streamStopped (sF (fS 6 0 3 0 [5])) w0 = false ∧ sameFiring (sF (fS 6 0 3 0 [5])) w0 64 0 = true ∧
      pushTurn (sF (fS 6 0 3 0 [5])) w0 0 3 = true) ∧
    (Turn (sF (fS 6 0 8 0x20010 [5])) (fS 6 0 8 0x20010 [5]) ∧ 0x20010 / 65536 = 2 ∧ pgS.dev = 0 ∧ PlainMemory 0x30010 ∧
      0x30010 % 8 = 0 ∧ stackOut (sF (fS 6 0 8 0x20010 [5])) 0x30010 = false ∧
      wordReady (sF (fS 6 0 8 0x20010 [5])) (fS 6 0 8 0x20010 [5]) { pa := 0x30010, len := 8, off := 0 } = true ∧
      partsLeft (sF (fS 6 0 8 0x20010 [5])) (fS 6 0 8 0x20010 [5]) = false) ∧
    (Turn (sF (fS 6 0 8 0x20018 [])) (fS 6 0 8 0x20018 []) ∧ partsLeft (sF (fS 6 0 8 0x20018 [])) (fS 6 0 8 0x20018 []) = false) :=
  ⟨⟨turn_of (by decide +kernel), hdr_of (by decide +kernel), by decide +kernel⟩, ⟨turn_of (by decide +kernel), onePod_of (by decide +kernel), by decide +kernel⟩,
    ⟨turn_of (by decide +kernel), by decide +kernel⟩, ⟨turn_of (by decide +kernel), by decide +kernel, by decide +kernel, .inl (by decide +kernel), by decide +kernel⟩,
    turn_of (by decide +kernel), by decide +kernel⟩

def gH (pa : Nat) : Seg := { pa := pa, len := 64, off := 0 }
def gSt : Seg := { pa := 0x4100, len := 8, off := 0 }
def fU (stva : Nat) : FReq := fq (.union (gH 0x4040) (gH 0x4080) 0x80 0xC0 8 false gSt 0 stva 9)
def fUO : FReq := { fU 0x100 with begun := true, outcome := some true }
/-- A union of two empty fibres; of one in another format; of one with a pod; the stamp of one that failed. -/
def sU (x y : FHdr) (f : FReq) : State := { sF f with mem := hdrMem 0x4000 hd ++ hdrMem 0x4040 x ++ hdrMem 0x4080 y ++ podMem }
/-- Its acts behind the check: with the next of neither source read, of A read, of both. -/
def fUc : FReq := { fU 0 with begun := true, checked := true }
def fUa (es : List (Nat × Nat)) : FReq := { fUc with bufA := some es }
def fUb (as bs : List (Nat × Nat)) : FReq := { fUa as with bufB := some bs }
/-- A destination of one pod, which takes the entries of the sources. -/
def sUp (f : FReq) : State := { sU hd hd f with mem := hdrMem 0x4000 hd1 ++ hdrMem 0x4040 hd ++ hdrMem 0x4080 hd ++ podMem }
def unionFinds (s : State) (f : FReq) (pa : Nat) (va : Nat) : Bool :=
  match (unionRead (fibHome s f.hdr) f.hdr (gH pa) va 0).exec s with
  | .ok (some es, _) => es == [(3, 0x3F800000), (5, 0x40000000)]
  | _ => false
theorem wit_UnionsAtHome :
    (∀ x ∈ [hd, { hd with fmt := 1 }], Turn (sU x hd (fU 0)) (fU 0) ∧ partsLeft (sU x hd (fU 0)) (fU 0) = false ∧ HdrAt (sU x hd (fU 0)) 0x4000 ∧
      HdrAt (sU x hd (fU 0)) 0x4040 ∧ HdrAt (sU x hd (fU 0)) 0x4080) ∧
    ((hdrOf (sU hd hd (fU 0)) 0x4040).dir = [] ∧ (hdrOf (sU hd hd (fU 0)) 0x4080).dir = [] ∧ (hdrOf (sU hd hd (fU 0)) 0x4000).len = 0 ∧
      (hdrOf (sU hd hd (fU 0)) 0x4040).fmt = (hdrOf (sU hd hd (fU 0)) 0x4000).fmt ∧ (hdrOf (sU hd hd (fU 0)) 0x4080).fmt = (hdrOf (sU hd hd (fU 0)) 0x4000).fmt ∧
      (hdrOf (sU hd hd (fU 0)) 0x4000).op ≠ 7) ∧
    (hdrOf (sU { hd with fmt := 1 } hd (fU 0)) 0x4040).fmt ≠ (hdrOf (sU { hd with fmt := 1 } hd (fU 0)) 0x4000).fmt ∧
    (∀ x ∈ [hd, { hd with fmt := 1 }], Turn (sU x hd fUc) fUc ∧ partsLeft (sU x hd fUc) fUc = false ∧ HdrAt (sU x hd fUc) 0x4000 ∧
      HdrAt (sU x hd fUc) 0x4040 ∧ ((hdrOf (sU x hd fUc) 0x4040).fmt = (hdrOf (sU x hd fUc) 0x4000).fmt ↔ x.fmt = 0) ∧ (hdrOf (sU x hd fUc) 0x4040).dir = []) ∧
    (Turn (sU hd1 hd fUc) fUc ∧ partsLeft (sU hd1 hd fUc) fUc = false ∧ unionFinds (sU hd1 hd fUc) fUc 0x4040 0x80 = true) ∧
    (Turn (sU hd hd (fUa [])) (fUa []) ∧ partsLeft (sU hd hd (fUa [])) (fUa []) = false ∧ HdrAt (sU hd hd (fUa [])) 0x4000 ∧ HdrAt (sU hd hd (fUa [])) 0x4080 ∧
      (hdrOf (sU hd hd (fUa [])) 0x4080).fmt = (hdrOf (sU hd hd (fUa [])) 0x4000).fmt ∧ (hdrOf (sU hd hd (fUa [])) 0x4080).dir = []) ∧
    (Turn (sU hd hd1 (fUa [])) (fUa []) ∧ partsLeft (sU hd hd1 (fUa [])) (fUa []) = false ∧ unionFinds (sU hd hd1 (fUa [])) (fUa []) 0x4080 0xC0 = true) ∧
    (Turn (sU hd hd (fUb [] [])) (fUb [] []) ∧ partsLeft (sU hd hd (fUb [] [])) (fUb [] []) = false ∧ HdrAt (sU hd hd (fUb [] [])) 0x4000) ∧
    (∀ bs ∈ [[], [(7, 0x3F800000)]], Turn (sUp (fUb [(7, 0x40000000)] bs)) (fUb [(7, 0x40000000)] bs) ∧
      partsLeft (sUp (fUb [(7, 0x40000000)] bs)) (fUb [(7, 0x40000000)] bs) = false ∧ unionNext [(7, 0x40000000)] bs = some 7 ∧
      accepts (unionPut (fibHome (sUp (fUb [(7, 0x40000000)] bs)) 0x4000) 0x4000 8 false 7 [(7, 0x40000000)] bs) (sUp (fUb [(7, 0x40000000)] bs)) = true ∧
      OnePod (sUp (fUb [(7, 0x40000000)] bs)) (fUb [(7, 0x40000000)] bs) true 1 0x10100 ∧
      (hdrOf (sUp (fUb [(7, 0x40000000)] bs)) 0x4000).len = 2 ∧ (hdrOf (sUp (fUb [(7, 0x40000000)] bs)) 0x4000).cap = 10 ∧
      (podAt (sUp (fUb [(7, 0x40000000)] bs)) 0 0x10100).ents.length < podCap 0) ∧
    (Turn (sU hd hd fUO) fUO ∧ partsLeft (sU hd hd fUO) fUO = false ∧ PlainMemory gSt.pa ∧ wordReady (sU hd hd fUO) fUO gSt = true) := by
  refine ⟨?_, by decide +kernel, by decide +kernel, ?_, ⟨turn_of (by decide +kernel), by decide +kernel⟩,
    ⟨turn_of (by decide +kernel), by decide +kernel, hdr_of (by decide +kernel), hdr_of (by decide +kernel), by decide +kernel⟩,
    ⟨turn_of (by decide +kernel), by decide +kernel⟩, ⟨turn_of (by decide +kernel), by decide +kernel, hdr_of (by decide +kernel)⟩, ?_,
    turn_of (by decide +kernel), by decide +kernel, .inl (by decide +kernel), by decide +kernel⟩
  · intro x h
    have : x = hd ∨ x = { hd with fmt := 1 } := by simpa using h
    rcases this with rfl | rfl
    · exact ⟨turn_of (by decide +kernel), by decide +kernel, hdr_of (by decide +kernel), hdr_of (by decide +kernel), hdr_of (by decide +kernel)⟩
    · exact ⟨turn_of (by decide +kernel), by decide +kernel, hdr_of (by decide +kernel), hdr_of (by decide +kernel), hdr_of (by decide +kernel)⟩
  · intro x h
    have : x = hd ∨ x = { hd with fmt := 1 } := by simpa using h
    rcases this with rfl | rfl
    · exact ⟨turn_of (by decide +kernel), by decide +kernel, hdr_of (by decide +kernel), hdr_of (by decide +kernel), by decide +kernel⟩
    · exact ⟨turn_of (by decide +kernel), by decide +kernel, hdr_of (by decide +kernel), hdr_of (by decide +kernel), by decide +kernel⟩
  · intro bs h
    have : bs = [] ∨ bs = [(7, 0x3F800000)] := by simpa using h
    rcases this with rfl | rfl
    · exact ⟨turn_of (by decide +kernel), by decide +kernel, by decide +kernel, by decide +kernel, onePod_of (by decide +kernel), by decide +kernel⟩
    · exact ⟨turn_of (by decide +kernel), by decide +kernel, by decide +kernel, by decide +kernel, onePod_of (by decide +kernel), by decide +kernel⟩

def fStall : FReq := { fM 1 with held := .stalled 0 }
def fPark : FReq := { fM 1 with held := .parked 0x50 }
def sStall (n : Nat) : State := { sF fStall hd (pl n) with time := 2000 }
def sPark : State := sF fPark hd { pl 8 with parked := true }
/-- A merge stalled for its TIMEOUT of 2 µs; a pool with nothing held; a parked operation. -/
theorem wit_FibrePools :
    Awake (sStall 8) ∧ ((getPool (sStall 8) 0).wmark ≤ (getPool (sStall 8) 0).freecnt ∧ oldestStalled (sStall 8) 0 = some fStall) ∧
    (oldestStalled (sStall 0) 0 = some fStall ∧ stalledSince fStall = some 0 ∧ 0 + (getPool (sStall 0) 0).timeout * 1000 ≤ (sStall 0).time ∧
      stillStalled (sStall 0) 0 fStall = true ∧ fStall.launch < 64 ∧ (getLaunch (sStall 0) fStall.launch).failed = false) ∧
    (poolNamed 0 = true ∧ poolNamed (2 ^ 28 + 15 * 65536 + 63) = true ∧ (0x100000000 : W64).toNat / 2 ^ 32 ≠ 0) ∧
    ((getPool (sF (fM 1)) 0).parked = false ∧ (fM 1).held = .no ∧ (sF (fM 1)).freqs = [fM 1]) ∧
    ((getPool sPark 0).parked = true ∧ sPark.freqs.find? (fun f => parkedAt f && poolOfHdr sPark f.hdr == 0) = some fPark ∧ (getLaunch sPark fPark.launch).failed = false) :=
  ⟨awake_of rfl, by decide +kernel⟩

/-! ### Witnesses: channels, firings, rates, snapshots -/

/-- Core 0 with instances and channels of launch 0, which runs in an address space with a handler. -/
def dv (snap : Snap) : Dev := { launches := [(0, { lstate := 2, snap := snap, image := { snaparea := 1, watchdog := 1 } })], spaces := [(0, { v := true, tvec := 0x8000 })] }
def sK (is : List (Nat × Inst)) (c0 c1 : Chan) (cs : List Commit := []) (rs : List Release := []) (snap : Snap := {}) : State :=
  { cores := [(0, { insts := is.map (fun e => (e.1, some e.2)), chans := [(0, some c0), (1, some c1)], commits := cs, releases := rs })], dev := dv snap, nextId := 1 }
def c0 : Chan := { ch0 with reserved := 0 }
/-- Channel 1 with two tokens, the first of a kind, marked poisoned or not. -/
def c1 (kind : Nat) (p : Bool := false) : Chan := { c0 with chan := 1, hdrs := [(0, header 0 0 kind 0 p)], pslot := 1 }
def iRest : Inst := { in0 with state := 2 }
def cm : Commit := { id := 0, core := 0, ch := 0, kind := 1, eod := some 0, ctx := 0, slot := 0 }
def rl : Release := { id := 0, core := 0, ch := 1, cons := 0, n := 1, agent := w0, slot := 0, fir := 0 }

def nextB (s : State) (c : Commit) (h : Chan) : Bool := decide (findCommit s c.id = some c ∧ getChan s c.core c.ch = some h ∧
  (getCore s c.core).commits.find? (fun x => x.ch == c.ch) = some c ∧ commitClear s c h h.head = true ∧ occupancy h < chN h)
theorem next_of {s : State} {c : Commit} {h : Chan} (e : nextB s c h = true) : CommitNext s c h := by
  obtain ⟨a, b, c, d, f⟩ := of_decide_eq_true e
  exact ⟨a, b, c, d, f⟩
theorem rest_of {s : State} {n slot : Nat} {i : Inst} (a : getInst s n slot = some i) (b : atRest s n i = true) : AtRest s n slot i := ⟨a, b⟩

theorem wit_CommitsAndReleases :
    (CommitNext (sK [(0, iRest)] ch0 (c1 0) [cm]) cm ch0 ∧ ch0.dfmt = ch0.pfmt ∧ ch0.shadow = none ∧ noteOf ch0 ch0.head = none) ∧
    (findRelease (sK [(0, iRest)] c0 (c1 0) [] [rl]) rl.id = some rl ∧ getChan (sK [(0, iRest)] c0 (c1 0) [] [rl]) 0 1 = some (c1 0) ∧
      (getCore (sK [(0, iRest)] c0 (c1 0) [] [rl]) 0).releases.find? (fun x => x.ch == 1 && x.cons == 0) = some rl ∧
      readsDone (sK [(0, iRest)] c0 (c1 0) [] [rl]) rl (c1 0) = true ∧ productionDone (sK [(0, iRest)] c0 (c1 0) [] [rl]) 0 0 0 = true) ∧
    (AtRest (sK [(0, iRest)] c0 (c1 3)) 0 0 iRest ∧ iRest.ports[1]? = some { output := false, count := 2, core := 0, ch := 1 } ∧
      headOf (sK [(0, iRest)] c0 (c1 3)) { output := false, count := 2, core := 0, ch := 1 } = some (0, header 0 0 3 0 false) ∧
      hdrKind (header 0 0 3 0 false) = 3 ∧ (ringOf (c1 3) 0).fmt = (c1 3).pfmt) ∧
    (AtRest (sK [(0, iRest)] c0 (c1 1)) 0 0 iRest ∧ inputs iRest = [{ output := false, count := 2, core := 0, ch := 1 }] ∧
      headOf (sK [(0, iRest)] c0 (c1 1)) { output := false, count := 2, core := 0, ch := 1 } = some (0, header 0 0 1 0 false) ∧ hdrKind (header 0 0 1 0 false) = 1) ∧
    (getInst (sK [(0, { in0 with state := 5 })] c0 c0) 0 0 = some { in0 with state := 5 } ∧ coreStopped (sK [(0, { in0 with state := 5 })] c0 c0) 0 0 = false ∧
      instBusy (sK [(0, { in0 with state := 5 })] c0 c0) 0 0 0 = false) :=
  ⟨⟨next_of (by decide +kernel), by decide +kernel⟩, by decide +kernel, ⟨rest_of (by decide +kernel) (by decide +kernel), by decide +kernel⟩,
    ⟨rest_of (by decide +kernel) (by decide +kernel), by decide +kernel⟩, by decide +kernel⟩

def firesB (s : State) (n e x : Nat) : Bool := decide (launchRuns s n e = true ∧ freeCtx s n e = some x ∧
  (tget {} s.dev.spaces (getLaunch s e).asid).v = true ∧ (tget {} s.dev.spaces (getLaunch s e).asid).tvec ≠ 0)
theorem fires_of {s : State} {n e x : Nat} (h : firesB s n e x = true) : Fires s n e x := by
  obtain ⟨a, b, c, d⟩ := of_decide_eq_true h
  exact ⟨a, b, c, d⟩

def iRes : Inst := { in0 with kind := .reserve, en := false, state := 1 }
/-- The producer of channel 1, whose firing 5 wrote its tokens. -/
def iRep (r : Bool) : Inst := { in0 with state := 2, replayable := r, hist := [{ fir := 5, spans := [(0, 2), (0, 0)], ended := true }] }
theorem wit_Scheduling :
    (Fires (sK [(0, iRest), (63, iRest)] c0 (c1 0)) 0 0 0 ∧ permittedOf (sK [(0, iRest), (63, iRest)] c0 (c1 0)) 0 0 = [(0, iRest), (63, iRest)]) ∧
    (getInst (sK [(0, iRes)] c0 c0) 0 0 = some iRes ∧ (1 : W64).getLsbD 0 = true ∧ iRes.launch < 64 ∧ savedOn (sK [(0, iRes)] c0 c0) 0 0 = false) ∧
    (poisonedHead (sK [(1, iRep true)] c0 (c1 0 true)) 0 1 0 = some 0 ∧ getChan (sK [(1, iRep true)] c0 (c1 0 true)) 0 1 = some (c1 0 true) ∧
      getInst (sK [(1, iRep true)] c0 (c1 0 true)) 0 1 = some (iRep true) ∧ tget 0 (c1 0 true).reinjected 0 < 3 ∧
      (iRep true).hist.find? (fun r => r.ended && (match r.spans[(c1 0 true).pport]? with | some y => decide (past 0 y.1 < y.2) | none => false)) =
        some { fir := 5, spans := [(0, 2), (0, 0)], ended := true } ∧
      poisonedInput (sK [(1, iRep true)] c0 (c1 0 true)) (iRep true) { fir := 5, spans := [(0, 2), (0, 0)], ended := true } = none) ∧
    Fires (sK [(1, iRep true)] c0 (c1 0 true)) 0 0 0 ∧
    (poisonedHead (sK [(1, iRep false)] c0 (c1 0 true)) 0 1 0 = some 0 ∧ (getLaunch (sK [(1, iRep false)] c0 (c1 0 true)) 0).failed = false) ∧
    3 ≤ tget 0 ({ c1 0 true with reinjected := [(0, 3)] } : Chan).reinjected 0 :=
  ⟨⟨fires_of (by decide +kernel), by decide +kernel⟩, by decide +kernel, by decide +kernel, fires_of (by decide +kernel), by decide +kernel, by decide +kernel⟩

/-- A sink, channel 1's consumer 1. -/
def c1s (kind : Nat) : Chan := { c1 kind with consumers := [some (0, 0, 1, 2), none], sinks := [(1, 0, 0, 0)] }
def sSink (kind : Nat) : State := sK [(0, iRest)] c0 (c1s kind)
/-- The same sink with a buffer at 0x2000, in reach of its launch processor or not. -/
def sBuf (ok : Bool) : State := { sSink 0 with
  dev := { dv {} with launches := [(0, { lstate := 2, image := { sinks := [{ off := 0, expect := 1, ch := 0, buffer := 0x2000 }] } })], spaces := [] }
  dies := [(0, { lpTlb := if ok then [{ asid := 0, vbase := 0, log2 := 35, pte := 0x3F }] else [] })], hbm := (List.range 8).map (fun k => (k, { inService := true })) }
def bufPieces (ok : Bool) : Nat := match sinkPieces (sBuf ok) 0 0x2000 0 (c1s 0) with
  | some (.ok gs, _) => if gs.all (fun g => g.dev == 0 && place g.pa == .hbm) then gs.length else 0
  | some (.error v, _) => v
  | none => 0
/-- Parameters in force, whose second word is refused when WMIN is 0. -/
def cRate : Chan := { c0 with gshift := 15, log2t := 8 }
theorem wit_RatesAndSinks :
    (getChan (sK [(0, iRest)] c0 c0) 0 0 = some c0 ∧ c0.cycles ≤ 0 ∧ allEos c0 = false ∧ c0.launch < 64 ∧ coreStopped (sK [(0, iRest)] c0 c0) 0 0 = false ∧ c0.wmin ≤ c0.wmax) ∧
    (paramsOk (sK [(0, iRest)] cRate c0) 0 0 { cRate with sp := 4, w0p := 1, w0c := 64, wmin := 1, wmax := 64 } = true ∧
      paramsOk (sK [(0, iRest)] cRate c0) 0 0 { cRate with sp := 4, w0p := 1, w0c := 1, wmin := 0, wmax := 64 } = false) ∧
    (sinkToken (sSink 0) 0 1 1 = some (c1s 0, 0, header 0 0 0 0 false, (0, 0, 0)) ∧ (c1s 0).sinks.find? (fun y => y.1 == 1) = some (1, 0, 0, 0) ∧
      ((getLaunch (sSink 0) 0).image.sinks[0]?.map (·.buffer)).getD 0 = 0) ∧
    (sinkToken (sBuf true) 0 1 1 = some (c1s 0, 0, header 0 0 0 0 false, (0, 0, 0)) ∧ sinkWaits (sBuf true) 0 0x2000 0 0 (c1s 0) = false ∧
      bufPieces true = 1 ∧ (sBuf true).dev.migrations = []) ∧
    (sinkToken (sBuf false) 0 1 1 = some (c1s 0, 0, header 0 0 0 0 false, (0, 0, 0)) ∧ sinkWaits (sBuf false) 0 0x2000 0 0 (c1s 0) = false ∧ bufPieces false = 0x2000) ∧
    (sinkToken (sSink 1) 0 1 1 = some (c1s 1, 0, header 0 0 1 0 false, (0, 0, 0)) ∧ hdrKind (header 0 0 1 0 false) = 1) :=
  ⟨by decide +kernel, by decide +kernel, by decide +kernel, by decide +kernel, by decide +kernel, by decide +kernel⟩

/-- Snapshot 1 of launch 0 under way; channel 1 holds its marker, or is full of data. -/
def sn1 : Snap := { cur := 1 }
def sMark (i : Inst) (c : Chan) : State := { sK [(0, i)] c0 c [] [] sn1 with mem := [(payloadPa (ringOf c 0) 0, 1)] }
def cFull : Chan := { c1 2 with head := 4 }
def iUn : Inst := { iRest with unaligned := true, recorded := true }
/-- One that has retired and not recorded. -/
def iEnd : Inst := { iRest with state := 5 }
theorem wit_Snapshots :
    ((0 : W64).toNat / 2 ^ 16 = 0 ∧ (getLaunch (sK [(0, iRest)] c0 c0) 0).lstate = 2 ∧ (getLaunch (sK [(0, iRest)] c0 c0) 0).snap.cur = 0 ∧
      (getLaunch (sK [(0, iRest)] c0 c0) 0).image.snaparea ≠ 0) ∧
    (AtRest (sMark { iRest with inject := true } (c1 0)) 0 0 { iRest with inject := true } ∧ (getLaunch (sMark { iRest with inject := true } (c1 0)) 0).snap.cur ≠ 0 ∧ iRest.ports.all (fun p => !p.output || !p.eos) = true) ∧
    (AtRest (sMark iRest (c1 2)) 0 0 iRest ∧ (getLaunch (sMark iRest (c1 2)) 0).snap.cur ≠ 0 ∧
      (inputs iRest).all (fun p => markerAt (sMark iRest (c1 2)) p 1) = true ∧ inputs iRest ≠ []) ∧
    (AtRest (sMark iRest cFull) 0 0 iRest ∧ (inputs iRest).any (fun p => markerAt (sMark iRest cFull) p 1) = true ∧ inputFull (sMark iRest cFull) iRest = true) ∧
    (getInst (sMark iUn (c1 2)) 0 0 = some iUn ∧ iUn.ports[1]? = some { output := false, count := 2, core := 0, ch := 1 } ∧
      markerAt (sMark iUn (c1 2)) { output := false, count := 2, core := 0, ch := 1 } 1 = true) ∧
    (getInst (sMark iEnd (c1 0)) 0 0 = some iEnd ∧ iEnd.state = 5 ∧ iEnd.recorded = false ∧ iEnd.launch < 64 ∧ (getLaunch (sMark iEnd (c1 0)) iEnd.launch).snap.cur ≠ 0 ∧
      coreStopped (sMark iEnd (c1 0)) iEnd.launch 0 = false ∧ clocksOff (sMark iEnd (c1 0)) = false) ∧
    ((getLaunch (sMark { iRest with recorded := true } (c1 0)) 0).snap.broken = false ∧ (getLaunch (sMark { iRest with recorded := true } (c1 0)) 0).lstate = 2 ∧
      (getLaunch (sMark { iRest with recorded := true } (c1 0)) 0).heldCores = [] ∧ clocksOff (sMark { iRest with recorded := true } (c1 0)) = false ∧
      snapOwed (sMark { iRest with recorded := true } (c1 0)) 0 0 = false ∧ (sMark { iRest with recorded := true } (c1 0)).reqs = [] ∧
      snapDone { iRest with recorded := true } = true ∧ (getCore (sMark { iRest with recorded := true } (c1 0)) 0).records = [] ∧
      (getCore (sMark { iRest with recorded := true } (c1 0)) 0).copies = []) :=
  ⟨by decide +kernel, ⟨rest_of (by decide +kernel) (by decide +kernel), by decide +kernel⟩, ⟨rest_of (by decide +kernel) (by decide +kernel), by decide +kernel⟩,
    ⟨rest_of (by decide +kernel) (by decide +kernel), by decide +kernel⟩, by decide +kernel, by decide +kernel, by decide +kernel⟩

def sm (q : Nat) : SnapMsg := { seq := q, launch := 0, off := 0, sent := 0, payload := [1] }
def ses (q : Nat) : Session := { driver := true, asid := 0, prio := 0, key := 0, snapdata := [sm q] }
/-- A datagram just before, and at, 200 µs, and the session at 1 s. -/
def sEg (q t : Nat) : State := { mgmt := { sessions := [(1, some (ses q))], boot := { stage := 8 }, portsUp := 1 }, time := t }
theorem wit_SnapshotEgress :
    (hqtOpen (sEg 5 0) = true ∧ portUp (sEg 5 0) (ses 5).port = true) ∧
    (getSession (sEg 5 200000) 1 = some (ses 5) ∧ (ses 5).snapdata.find? (fun y => y.seq == 5) = some (sm 5) ∧ (sm 5).seq < 2 ^ 64 ∧ (ses 5).lost = false ∧
      (∀ y ∈ (ses 5).snapdata, y.seq < 2 ^ 64) ∧ (sm 5).sent + 200000 ≤ (sEg 5 200000).time ∧ (sEg 5 199999).time < (sm 5).sent + 200000) ∧
    ((∃ m ∈ (ses 5).snapdata, m.seq ≠ 2 ^ 64) ∧ (ses 5).lastAck + 1000000000 ≤ (sEg 5 1000000000).time) := by
  refine ⟨?_, ?_, ?_⟩ <;> decide +kernel
/-- Each tag has one that it is not. -/
theorem wit_SnapshotEgress_tags : Config.kmac128 (ses 5).key (tagBytes 10 1 5 0 0 0 []) + 1 ≠ Config.kmac128 (ses 5).key (tagBytes 10 1 5 0 0 0 []) := by omega

/-! ### Witnesses: engines, queues, launches -/

def tk (k : TaskKind) (issued : Bool) (res : List W32 := []) : Task := { id := 0, who := w0, slot := 0, fir := 0, kind := k, reads := [], writes := [], issued := issued, result := res }
/-- A task in core 0's table, of a firing that still runs. -/
def sT (t : Task) (sp : Nat := 2) : State := at0 x0 { firing := some fr0 } { tasks := [t], spares := sp }
def kMma : TaskKind := .mma 31 0 0 { pa := pad, len := 4096, off := 0 } none
theorem wit_MatrixTasks :
    (taskOf (sT (tk (.mrd 31 15) false)) 0 0 = some (tk (.mrd 31 15) false) ∧ canIssueTask (sT (tk (.mrd 31 15) false)) 0 (tk (.mrd 31 15) false) = true) ∧
    (taskOf (sT (tk kMma false)) 0 0 = some (tk kMma false) ∧ canIssueTask (sT (tk kMma false)) 0 (tk kMma false) = true ∧ 4096 = 128 * fmtWidth 0 ∧
      rewriteOf (sT (tk kMma false)) 0 31 0 0 pad [] = .full ∧ isMx 0 = false) ∧
    (taskOf (sT (tk (.mclr 31) true)) 0 0 = some (tk (.mclr 31) true) ∧ canComplete (sT (tk (.mclr 31) true)) 0 (tk (.mclr 31) true) = true ∧
      recordHeld (sT (tk (.mclr 31) true)) 0 (tk (.mclr 31) true) = false) ∧
    (canComplete (sT (tk kMma true)) 0 (tk kMma true) = true ∧ recordHeld (sT (tk kMma true)) 0 (tk kMma true) = false) ∧
    ((getCore (sT (tk (.mtest 3) true)) 0).tasks.find? (fun t => t.issued && t.result.isEmpty && t.kind == .mtest 3) = some (tk (.mtest 3) true) ∧
      0 < (getCore (sT (tk (.mtest 3) true)) 0).spares ∧ (getCore (sT (tk (.mtest 3) true) 0) 0).spares = 0) := by
  refine ⟨?_, ?_, ?_, ?_, ?_⟩ <;> decide +kernel

/-- A copy of 32 words from 0x1000 to 0x2000 of the scratchpad, FP32 on both sides. -/
def cd : CopyDesc := { src := 0x1000, dst := 0x2000, ctl := 3, levels := [0x10000010020] }
def cp (st next : Nat) (stamp : W64 := 0) : Copy := { state := st, desc := cd, nsec := 1, next := next, stampva := stamp, seq := 9 }
def sC (c : Copy) : State := { atP x0 {} { copies := [(127, c)] } with hbm := (List.range 8).map (fun k => (k, { inService := true })) }
/-- The same with virtual 0 an HBM page. -/
def sCh2 (c : Copy) : State := { sC c with clusters := [(0, { tlb := [{ asid := 0, vbase := 0, log2 := 16, pte := 0x3F }] })] }
def bad (c : Copy) : Copy := { c with desc := { cd with src := 0x1000000000000 } }
def goodPieces (s : State) (c : Copy) : Bool := match xlateSector s 0 127 c 0 with | (.ok _, _) => true | _ => false
def badPieces (s : State) (c : Copy) : Bool := match xlateSector s 0 127 c 0 with | (.error _, _) => true | _ => false
def stampHome (s : State) (c : Copy) : Bool :=
  match copyAddress s 0 127 c c.stampva.toNat .store with
  | (.ok x, u) => checkTarget u .store x 8 false == none && x.dev == 0 && x.pa == 0x3000 &&
      stampOpen u 0 c { id := u.nextId, agent := .copyEngine 0 127, kind := .store, todo := [{ pa := x.pa, len := 8, off := 0 }], drv := c.sup } { pa := x.pa, len := 8, off := 0 }
  | _ => false
theorem wit_CopyEngines :
    (pickCopy (sC (cp 1 0)) 0 = some (127, 0, []) ∧ sectorWaits (sC (cp 1 0)) 0 127 (cp 1 0) 0 = none ∧ (cp 1 0).residueBad = false ∧ (cp 1 0).suspend = false ∧ goodPieces (setEngTurn (sC (cp 1 0)) 0 0 []) (cp 1 0) = true) ∧
    pickCopy (sC { cp 1 0 with residueBad := true }) 0 = some (127, 0, []) ∧
    (pickCopy (sC (bad (cp 1 0))) 0 = some (127, 0, []) ∧ badPieces (setEngTurn (sC (bad (cp 1 0))) 0 0 []) (bad (cp 1 0)) = true) ∧
    (getCopy (sC (cp 2 1)) 0 127 = cp 2 1 ∧ copyEnding (cp 2 1) = true ∧ sectorsInFlight (sC (cp 2 1)) 0 127 = false ∧ copyOrdered (sC (cp 2 1)) 0 (cp 2 1) = true ∧
      clocksOff (sC (cp 2 1)) = false ∧ copyWaits (sC (cp 2 1)) 0 127 (cp 2 1) 0 = false ∧ (getCore (sC (cp 2 1)) 0).records = []) ∧
    (copyEnding (cp 2 1 0x3000) = true ∧ sectorsInFlight (sCh2 (cp 2 1 0x3000)) 0 127 = false ∧
      copyWaits (sCh2 (cp 2 1 0x3000)) 0 127 (cp 2 1 0x3000) 0x3000 = false ∧ stampHome (sCh2 (cp 2 1 0x3000)) (cp 2 1 0x3000) = true) ∧
    ((cp 4 0).stampFault = false ∧ ({ cp 4 1 with stampFault := true } : Copy).state = 4) := by
  refine ⟨?_, ?_, ?_, ?_, ?_, ?_⟩ <;> decide +kernel

/-- Die 0 with the first 32 GiB mapped as they stand; queue 31 at 0x1000 with its control block at 0x2000. -/
def bigPage : TlbEntry := { asid := 0, vbase := 0, log2 := 35, pte := 0x3F }
def sLp (mem : List Host.Cell) (d : Dev := {}) : State := { mem := mem, dies := [(0, { lpTlb := [bigPage] })], hbm := (List.range 8).map (fun k => (k, { inService := true })), dev := d }
def words (pa : Nat) (ws : List Nat) : List Host.Cell :=
  ((ws.zipIdx).flatMap (fun w => (List.range 8).map (fun k => (pa + 8 * w.2 + k, BitVec.ofNat 8 (w.1 / 256 ^ k))))).filter (fun c => c.2 != 0)
def sQ (ws : List Nat) : State := sLp (words 0x1000 ws) { queues := [(31, { base := 0x1000, ctlb := 0x2000, en := true })] }
def ws8 (ws : List Nat) : List Nat := ws ++ List.replicate (8 - ws.length) 0
/-- The state with the reads of the packet counted. -/
def sQh (ws : List Nat) : State := (queueHead (sQ ws) 0 31).2
def takesB (ws : List Nat) : Bool := decide (nextQueue (sQ ws) 0 = some 31 ∧ takeable (sQ ws) 0 31 = true ∧
  (queueHead (sQ ws) 0 31).1 = some (0, ws8 ws) ∧ packetOpen (sQ ws) 0 31 0 (ws8 ws) = true ∧
  (lpXlate (sQh ws) 0 0 0x2008 .atomic 8).1 = .ok { pa := 0x2008 } ∧ (lpXlate (sQh ws) 0 0 0x2008 .atomic 8).2 = sQh ws ∧
  place 0x2008 = .hbm ∧ redirectHeld (sQ ws).dev 0x2008 8 = false)
theorem takes_of {ws : List Nat} (h : takesB ws = true) : Takes (sQ ws) (sQh ws) 0 31 0 (ws8 ws) { pa := 0x2008 } := by
  obtain ⟨a, b, c, d, e, f, g, i⟩ := of_decide_eq_true h
  exact ⟨by decide, a, b, Prod.ext c rfl, d, Prod.ext e f, ⟨.inl g, rfl, by decide⟩, i⟩
def errOf (ws : List Nat) : Nat := (packetErr (takenFrom (sQh ws) 0 31 0 { pa := 0x2008 }) 0 0 (ws8 ws)).1
/-- A LAUNCH, a COPY, a WAIT-STAMP that is met and one that failed, a SIGNAL; a kind of no packet, and a misaligned address. -/
theorem wit_QueuePackets :
    (∀ ws ∈ [[1, 0x4000, 0x8000, 7], [2, 0x4000], [3, 0x4000, 0, 0], [4, 0x4000, 5, 0]], Takes (sQ ws) (sQh ws) 0 31 0 (ws8 ws) { pa := 0x2008 } ∧ errOf ws = 0) ∧
    (Takes (sQ [5]) (sQh [5]) 0 31 0 (ws8 [5]) { pa := 0x2008 } ∧ errOf [5] = 1) ∧
    (Takes (sQ [4, 0x4001]) (sQh [4, 0x4001]) 0 31 0 (ws8 [4, 0x4001]) { pa := 0x2008 } ∧ errOf [4, 0x4001] = 5) ∧
    freeCopySlot (sQh [2, 0x4000]) 1024 = some 0 ∧ (lpBytes (sQh [2, 0x4000]) 0 0 0x4000 128).1.isSome = true ∧
    (waitStamp { sQ [3, 0x4000, 0, 4] with mem := words 0x4000 [2 ^ 63] } 0 0 [3, 0x4000, 0, 4]).1 = .failed := by
  refine ⟨?_, ⟨takes_of (by decide +kernel), by decide +kernel⟩, ⟨takes_of (by decide +kernel), by decide +kernel⟩, by decide +kernel, by decide +kernel, by decide +kernel⟩
  intro ws h
  have : ws = [1, 0x4000, 0x8000, 7] ∨ ws = [2, 0x4000] ∨ ws = [3, 0x4000, 0, 0] ∨ ws = [4, 0x4000, 5, 0] := by simpa using h
  rcases this with rfl | rfl | rfl | rfl <;> exact ⟨takes_of (by decide +kernel), by decide +kernel⟩


/-! ### Witnesses: launches and the device's control -/

/-- The least configuration stream: LAUNCH, LEVELS, END, as 64-bit words. -/
def cfg : List Nat :=
  let w : List Nat := [0x04100001 - 1, 1, 0, 0, 0x20000, 0, 0x10000, 0, 0, 0, 0x30000, 0, 1, 0x100, 0, 0, 0x08070000, 0, 0, 0, 0, 0, 0, 0xFC010000]
  (List.range 12).map (fun k => w.getD (2 * k) 0 + 2 ^ 32 * w.getD (2 * k + 1) 0)
/-- Launch 0 waits, its stream at 0x4000 and its stamp at 0x8000; its space is valid or not. -/
def sLa (l : Launch) (v : Bool := true) : State :=
  sLp (words 0x4000 cfg) { launches := [(0, l)], logWr := 1, spaces := if v then [(0, { v := true, tvec := 0x8000 })] else [] }
def lWait : Launch := { lstate := 1, packet := [1, 0x4000, 0x8000, 7, 24, 0, 0, 0], stampVa := 0x8000 }
def starts (s : State) : Bool := match checkLaunch s 0 with | (.inr p, _) => p.seats.isEmpty && !redirectHeld s.dev p.macrec macroBytes | _ => false
def failsB (s : State) : Bool := match checkLaunch s 0 with | (.inl _, u) => !(getLaunch u 0).failed | _ => false
def lRun : Launch := { lWait with lstate := 2, cores := [5], watch := some 9 }
def lEnd (code : Nat) : Launch := { lWait with lstate := 6, failed := code != 0, err := { code := code }, watch := some 9 }
def mayB (s : State) : Bool := decide (mayStart s 0 = true ∧ s.mgmt.power.cur ≠ 2 ∧ (s.dev.quiesce = false ∨ s.dev.dead = 0) ∧
  (s.dev.walks.filter (fun k => decide (k.cluster < 4))).length < 64)
theorem may_of {s : State} (h : mayB s = true) : MayStart s 0 := by
  obtain ⟨a, b, c, d⟩ := of_decide_eq_true h
  exact ⟨a, b, c, d⟩
def dueX (s : State) : Except Nat Xlated × State := lpXlate s (homeDie (getLaunch s 0)) (getLaunch s 0).asid (getLaunch s 0).stampVa .store 8
def dueB (s : State) : Bool := decide (stampReady s 0 = true ∧ lpWaits s (homeDie (getLaunch s 0)) (getLaunch s 0).asid (getLaunch s 0).stampVa = false ∧
  (dueX s).1 = .ok { pa := 0x8000 } ∧ (dueX s).2 = s ∧ lpOpen s (homeDie (getLaunch s 0)) .store true [{ pa := 0x8000, len := 8, off := 0 }] = true ∧ place 0x8000 = .hbm)
theorem due_of {s : State} (h : dueB s = true) : StampDue s 0 { pa := 0x8000 } := by
  obtain ⟨a, b, c, d, e, f⟩ := of_decide_eq_true h
  exact ⟨a, b, Prod.ext c d, e, .inl f, rfl, by decide⟩
theorem wit_LaunchLife :
    MayStart (sLa lWait) 0 ∧ MayStart (sLa lWait false) 0 ∧ starts (sLa lWait) = true ∧ failsB (sLa lWait false) = true ∧
    launchDone (getLaunch (sLa { lRun with image := {} }) 0) = true ∧ (getLaunch (sLa { lRun with failed := true }) 0).failed = true ∧
    StampDue (sLa (lEnd 0)) 0 { pa := 0x8000 } ∧ StampDue (sLa (lEnd 0x16)) 0 { pa := 0x8000 } ∧ (getLaunch (sLa lRun) 0).watch = some 9 ∧
    (getLaunch (sLa (lEnd 0)) 0).watch = some 9 ∧ (getLaunch (sLa lRun) 0).windowAt ≤ (sLa lRun).time ∧
    (sLa { lRun with windowAt := 1 }).time < (getLaunch (sLa { lRun with windowAt := 1 }) 0).windowAt := by
  refine ⟨may_of (by decide +kernel), may_of (by decide +kernel), ?_, ?_, ?_, ?_, due_of (by decide +kernel), due_of (by decide +kernel), ?_, ?_, ?_, ?_⟩ <;>
    decide +kernel

def sPs (l : Launch) : State := { sLa l with cores := [(5, { psave := 1 })] }
theorem wit_LaunchControl :
    (pairLaunches (sPs lRun) 0 = [0] ∧ (getCore (sPs lRun) 5).psave ≠ 0 ∧ lRun.heldCores = [] ∧ 5 ∈ lRun.cores ∧ 5 ∉ lRun.heldCores) ∧
    (areasRead (sPs { lRun with lstate := 4 }) = true ∧ pairLaunches (sPs { lRun with lstate := 4 }) 0 = [0] ∧ (getLaunch (sPs { lRun with lstate := 4 }) 0).lstate = 4) ∧
    (coreAtRest (sPs { lRun with lstate := 3, toSave := [5] }) 0 5 = true ∧ areaMoving (sPs { lRun with lstate := 3, toSave := [5] }) 5 = false) ∧
    (1 ≤ lWait.lstate ∧ lWait.lstate ≤ 5 ∧ lWait.failed = false) ∧ 5 ∈ ({ lRun with heldCores := [5] } : Launch).heldCores ∧
    (3 ≤ ({ lRun with lstate := 5, heldCores := [5] } : Launch).lstate ∧ ({ lRun with lstate := 5, heldCores := [5] } : Launch).lstate ≤ 5) := by
  refine ⟨?_, ?_, ?_, ?_, ?_, ?_⟩ <;> decide +kernel

/-- Rows at both ends; PINSIZE at 80, past it, and as it stands; QUIESCE clear and set; a dead plane that a bucket names, and one that none does. -/
def sQu (dead : BitVec 8) (bk : Tbl Nat) : State := { dev := { quiesce := true, dead := dead, deadNew := dead, buckets := bk } }
/-- An atomic applied, a load and a probe performed, whose responses were lost. -/
def sRe : State := { sQu 0x80 ((List.range 8).map (fun j => (8 * j + 7, 0))) with
  reqs := [{ rAm with todo := [], path := [h8] }, { rLd with id := 1, todo := [], path := [h8] }, { rLd with id := 2, kind := .ready, todo := [], path := [h8], again := some { fq .len (.scalar 4) with id := 2 } }]
  replay := [{ home := .stack 0, agent := rAm.agent, id := 0, response := 5 }], unacked := [0, 1, 2], nextId := 3 }
theorem wit_PlacementControl :
    ((0 : Nat) < 13 ∧ (forceRow 0 0).toNat = hashRow {} 0 ∧ (forceRow 12 0x3FF00000).toNat ≠ hashRow {} 12) ∧
    (80 < (81 : W64).toNat % 128 ∧ (80 : W64).toNat % 128 ≤ 80 ∧ (80 : W64).toNat % 128 ≠ ({} : Dev).pinsize ∧ (0 : W64).toNat % 128 = ({} : Dev).pinsize) ∧
    (({} : Dev).quiesce = false ∧ (sQu 0 []).dev.quiesce = true) ∧ ((0 : BitVec 8) &&& ~~~({} : Dev).dead = 0 ∧ (0x80 : BitVec 8) &&& ~~~({} : Dev).dead ≠ 0) ∧
    (agentCore rAm.agent = some 0 ∧ onCrossbar (clusterOf 0) h8 = false ∧ (0xFF &&& ~~~({} : Dev).dead).getLsbD (planeOf {} h8.pa) = true) ∧
    ((63 : Nat) < 64 ∧ (sQu 0x80 []).dev.dead.getLsbD (planeOfBucket (sQu 0x80 []).dev 63) = true) ∧
    (List.range 64).all (fun b => !(sQu 0x80 ((List.range 8).map (fun j => (8 * j + 7, 0)))).dev.dead.getLsbD
      (planeOfBucket (sQu 0x80 ((List.range 8).map (fun j => (8 * j + 7, 0)))).dev b)) = true ∧
    ((List.range 64).all (fun b => !sRe.dev.dead.getLsbD (planeOfBucket sRe.dev b)) = true ∧ (∀ q ∈ sRe.reqs, q.id ∈ sRe.unacked) ∧
      (sRe.replay.find? (fun e => e.agent == rAm.agent && e.id == 0)).isSome = true ∧ (sRe.replay.find? (fun e => e.agent == rAm.agent && e.id == 1)) = none ∧
      sRe.reqs.any (fun q => q.again.isSome) = true) := by
  refine ⟨?_, ?_, ?_, ?_, ?_, ?_, ?_, ?_⟩ <;> decide +kernel
/-- t5 of R389's table: the atomic is not applied again and takes the saved response, the load is performed afresh (R389). -/
theorem test_reissue : (match exec (.quiesceClear true) sRe with
    | .next t => t.reqs.map (fun r => (r.id, r.todo, r.data)) == [(0, [], 5), (1, [h8], 0)] && t.freqs.map (·.id) == [2]
    | _ => false) = true := by decide +kernel

/-- An invalidation with nothing before it, and one that a request of the device still holds up. -/
def sTi (rs : List Req) : State := { dev := { tinv := [{ scope := 2, asid := 0, va := 0, upto := 1 }] }, reqs := rs, nextId := 1 }
theorem wit_DeviceControl :
    Awake (sTi []) ∧ ((sTi []).dev.tinv = [{ scope := 2, asid := 0, va := 0, upto := 1 }] ∧ tinvBusy (sTi []) { scope := 2, asid := 0, va := 0, upto := 1 } = false ∧
      tinvBusy (sTi [rLd]) { scope := 2, asid := 0, va := 0, upto := 1 } = true) ∧
    (1023 < 1024 ∧ 4095 < 4096 ∧ 2 ^ 16 - 1 < 2 ^ 16) ∧
    (RegAt (devBase + 0x1B03000) (.corrected 0) ∧ RegAt (devBase + 0x1B03020) (.corrected 4)) ∧ RegAt (devBase + 0x1608000) .intensity ∧
    RegAt (devBase + 0x3000000 + 16 * 65535) (.space 65535 0) ∧
    (RegAt (devBase + 0x1600000 + 63 * 0x100 + 0x48) (.log 63 0x48) ∧ pairLaunches (sPs { lRun with lstate := 4 }) 0 = [0] ∧ (getLaunch (sPs { lRun with lstate := 4 }) 0).lstate = 4) := by
  refine ⟨rfl, ?_, ?_, ?_, ?_, ?_, ?_⟩ <;> (try unfold RegAt) <;> decide +kernel

/-- Record 3 free with two pages of HBM; under way at its last sector; done. -/
def sMi (r : Migration) : State := { dev := { migrations := [(3, r)] } }
def mg (act : Bool) (p : Nat) : Migration := { mold := 1, mnew := 2, ptr := p, act := act, old := 1, new := 2 }
theorem wit_MigrationAndPower :
    (migrationOf (sMi (mg false 0)) 3 = mg false 0 ∧ (mg false 0).mold ≠ (mg false 0).mnew ∧ (mg false 0).mold * 65536 < hbmEnd ∧ (mg false 0).mnew * 65536 < hbmEnd ∧
      (sMi (mg false 0)).dev.migrations.all (fun e => e.1 == 3) = true) ∧
    (migrationOf (sMi (mg true 15)) 3 = mg true 15 ∧ (mg true 15).ptr < 16 ∧ Memory.wf (sMi (mg true 15)).epoch (sMi (mg true 15)).mem = true) ∧ 16 ≤ (mg true 16).ptr ∧
    (({} : State).mgmt.power.busy = false ∧ ({} : State).mgmt.boot.stage < 8 ∧ 8 ≤ ({ stage := 8 } : Boot).stage ∧ ({} : State).dev.launches = [] ∧
      (sLa lWait).dev.launches.any (fun e => [1, 2, 3, 5, 6].contains e.2.lstate) = true) ∧
    (({ busy := true } : Power).busy = true ∧ ({} : State).reqs = [] ∧ ({} : State).cores = []) := by
  refine ⟨?_, ?_, ?_, ?_, ?_⟩ <;> decide +kernel

/-! ### Witnesses: start, units, errors, heat -/

/-- Reads of the flash that go well, and one that fails at each step. -/
def envOk : StartEnv := { imageReads := true, helperReads := true, recordsRead := true }
def envBad : StartEnv := { envOk with imageReads := false }
def sFl (f : Flash) : State := { mgmt := { flash := f } }
def att (n : Nat) : Attempt := { counter := n, cause := 4, stage := 2, time := 0 }
/-- Two starts behind it, both recorded; three. -/
def f2 : Flash := { counter := 2, attempts := [att 1, att 2] }
def f3 : Flash := { counter := 3, attempts := [att 1, att 2, att 3] }
/-- A record under a key that the first-stage image does not carry, and one of the operators under none of Horpol's. -/
def fRec : Flash := { contents := { records := [{ key := [1] }] } }

theorem atReset_of {s : State} (h : (s.mgmt.boot == {} && s.mgmt.power.tripped == false) = true) : AtReset s := by
  simpa [AtReset] using h

theorem wit_StartSequence :
    (AtReset (sFl f2) ∧ AtReset (sFl f3) ∧ ¬ AtReset { mgmt := { boot := { stage := 8 } } }) ∧
    (Recorded f2 ∧ Recorded f3 ∧ 3 ≤ f3.counter ∧ f2.counter < 3) ∧
    ((imageCauses f2 envBad)[0]? = some ((false = true : Prop), 4) ∧ ¬ (false = true)) ∧
    (∃ c ∈ fRec.contents.records, recordVerified fRec.contents c = false) ∧ (∀ c ∈ f2.contents.records, recordVerified f2.contents c = true) := by
  refine ⟨⟨atReset_of rfl, atReset_of rfl, ?_⟩, ?_, ⟨rfl, by decide⟩, ⟨{ key := [1] }, by simp [fRec], ?_⟩, by simp [f2]⟩
  · simp [AtReset]
  · unfold Recorded; decide
  · simp [recordVerified, fRec]

/-- The clauses past the first check are about what the ciphers answer (log 13): a flash they accept meets them. -/
theorem wit_StartSequence_ciphers (hk : Config.sha3_256 [] = Config.horpolKeyHash)
    (hv : Config.mldsaVerify [] (digestBytes (headBytes {} ++ codeBytes {})) [] = true) :
    GoodImage {} envOk ∧ GoodImage {} { envOk with helperReads := false } ∧ GoodImage {} { envOk with recordsRead := false } ∧ (Config.pufResponse [] = none ∨ ∃ r, Config.pufResponse [] = some r) := by
  refine ⟨?_, ?_, ?_, ?_⟩
  iterate 3
    · intro row h
      simp [imageCauses, envOk] at h
      rcases h with rfl | rfl | rfl | rfl
      · trivial
      · exact hk
      · exact hv
      · decide
  · cases Config.pufResponse [] <;> simp

/-- Step 6 at a cluster's turn, a pair of stacks in service or none; the last turn of all. -/
def sSt (k p : Nat) (up : BitVec 8) (f : Flash := {}) (b : Boot := {}) : State :=
  { mgmt := { flash := f, boot := { b with stage := 6, nextCluster := k, nextPair := p, stacksUp := up } } }
def tr (t : Int) (ok : Bool) : Training := { temperature := t, trains := ok }
theorem wit_UnitsStart :
    (Awake (sSt 0 0 3) ∧ Starting (sSt 0 0 3) ∧ clusterOut (sSt 0 0 3) 0 = false ∧ pairUp (sSt 0 0 3).mgmt.boot = true) ∧
    (Starting (sSt 15 4 3) ∧ (sSt 15 4 3).mgmt.boot.nextCluster = 15 ∧ (15 : Nat) < 16 ∧ clusterOut (sSt 15 4 3) 15 = false ∧
      (sSt 15 4 3).mgmt.boot.nextPair = 4 ∧ pairUp (sSt 15 4 3).mgmt.boot = true) ∧
    (Starting (sSt 0 3 0) ∧ (sSt 0 3 0).mgmt.boot.nextPair = 3 ∧ (3 : Nat) < 4 ∧ restores (sSt 0 3 0) 6 (tr 40 true) = false ∧
      restores (sSt 0 3 0) 7 (tr 40 false) = false) := by
  unfold Starting; refine ⟨⟨rfl, ?_⟩, ?_, ?_⟩ <;> decide +kernel

/-- A record of the same temperature whose digest holds restores its stack. -/
theorem wit_UnitsStart_restores :
    restores (sSt 0 0 0 { training := [(0, { bytes := [], temperature := 40, digest := trainDigest [] 40 })] } { cold := false }) 0 (tr 55 false) = true := by
  simp [restores, sSt, tr]

def drv : Session := { driver := true, asid := 0, prio := 0, key := 0 }
def sSe (x : Session) : State := { mgmt := { sessions := [(1, some x)], identity := some 5, boot := { stage := 8 }, portsUp := 3 } }
theorem wit_AttestationReport : getSession (sSe drv) 1 = some drv ∧ drv.driver = true ∧ (sSe drv).mgmt.identity = some 5 ∧
    (sSe drv).mgmt.boot.sprout = false ∧ (List.replicate 32 (7 : Byte)).length = 32 := by
  refine ⟨?_, ?_, ?_, ?_, ?_⟩ <;> decide +kernel

def flit (crc : Bool) (q : Nat) (op : RemoteOp) : Flit := { group := 7, lane := 5, dev := 511, seq := q, crcOk := crc, request := op }
def sLk (n : Nat) : State := { dev := { links := [(7, { replays := n })] } }
def sSc (b : Bool) : State := { dev := { scrubs := [(0x2000, b)] } }
/-- Group 7 held to CYCLE `u`, its injector armed on lane 5 in a mode, for the nth flit. -/
def armed (u mode n delay : Nat) : State :=
  { dev := { links := [(7, { heldUntil := u })], injectors := [(7, { arm := true, lane := 5, mode := mode, n := n, delay := delay })] } }
/-- The stacks in service. -/
def sIn : State := { hbm := (List.range 8).map (fun k => (k, { inService := true })) }
theorem wit_RasEvents :
    (Awake {} ∧ (7 : Nat) < 8) ∧
    (isMemory (place 0x2000) = true ∧ unitBase 0x2000 = 0x2000 ∧ isMemory (place pad) = true ∧ unitBase pad = pad ∧
      (∀ e ∈ ({} : State).dev.scrubs, e.1 ≠ 0x2000) ∧ 0x2000 ∉ ({} : State).dev.poison) ∧
    ((sSc false).dev.scrubs.find? (fun e => e.1 == 0x2000) = some (0x2000, false) ∧ (sSc true).dev.scrubs.find? (fun e => e.1 == 0x2000) = some (0x2000, true)) ∧
    ((flit true 0 .none).group < 8 ∧ (flit true 0 .none).lane < 6 ∧ (flit true 0 .none).dev < 512 ∧ (sLk 16).dev.dead.getLsbD 7 = false ∧
      (tget {} (sLk 16).dev.injectors 7).arm = false ∧ (39 : Nat) < 40 ∧ remoteWaits (sLk 16) 511 .none = false ∧
      (flit true 0 .none).seq = (tget {} (sLk 16).dev.links 7).expected ∧ (flit true 1 .none).seq ≠ (tget {} (sLk 16).dev.links 7).expected) ∧
    ((List.range 64).any (fun k => planeOf (sLk 0).dev (0x2038 + 64 * k) == 7 && place (0x2038 + 64 * k) == .hbm && !stackOut sIn (0x2038 + 64 * k)) = true ∧
      0x2038 % 64 + (List.replicate 8 (1 : Byte)).length ≤ 64) ∧
    ((tget {} (sLk 15).dev.links 7).replays ≠ 16 ∧ (tget {} (sLk 16).dev.links 7).replays = 16 ∧ (flit false 0 .none).crcOk = false ∧
      (flit false 0 .none).seq = (tget {} (sLk 15).dev.links 7).expected ∧ (flit false 0 .none).seq = (tget {} (sLk 16).dev.links 7).expected ∧
      (flit false 0 .none).seq = (tget {} (armed 0 2 1 0).dev.links 7).expected ∧ (tget {} (armed 0 2 1 0).dev.links 7).replays ≠ 16) ∧
    (armed 5 1 2 0).cycle < (tget {} (armed 5 1 2 0).dev.links 7).heldUntil ∧
    ((tget {} (armed 0 1 2 0).dev.links 7).heldUntil ≤ (armed 0 1 2 0).cycle ∧ (tget {} (armed 0 1 2 0).dev.injectors 7).arm = true ∧
      (tget {} (armed 0 1 2 0).dev.injectors 7).lane = (flit true 1 .none).lane ∧ (tget {} (armed 0 1 2 0).dev.injectors 7).seen + 1 < 2 ∧
      (tget {} (armed 0 2 1 0).dev.injectors 7).n ≤ 0 + 1 ∧ (tget {} (armed 0 3 1 9).dev.injectors 7).mode = 3 ∧ (tget {} (armed 0 3 1 9).dev.injectors 7).delay ≠ 0) := by
  refine ⟨⟨rfl, by decide⟩, ?_, ?_, ?_, ?_, ?_, ?_, ?_⟩ <;> decide +kernel

/-- A sample at the limit, one past it, one past TWARN, and one that finds THWARN set. -/
theorem wit_HeatAndTelemetry :
    Awake {} ∧ (sensorLimit 3 = some 1760 ∧ sensorLimit 4 = some 1680 ∧ sensorLimit 15 = some 1520 ∧ (1520 : Nat) < 2 ^ 16) ∧
    (({} : State).mgmt.power.twarn < 1760 ∧ 1600 ≤ ({} : State).mgmt.power.twarn ∧ ({} : State).mgmt.power.thwarn = false ∧
      ({ thwarn := true } : Power).thwarn = true) ∧
    (getSession (sSe drv) 1 = some drv ∧ drv.driver = true) ∧ ([1, 2] : List Nat)[1]? = some 2 ∧
    (({ tripped := true } : Power).tripped = true ∧ ({ tripped := true } : Power).twarn < 1760 ∧ ({ tripped := true } : Power).thwarn = false) := by
  refine ⟨rfl, ?_, ?_, ?_, ?_, ?_⟩ <;> decide +kernel

/-! ### Witnesses: the host transport -/

/-- A request of session 1 with its tag under the key 0. -/
def untagged (op : BitVec 8) (seq addr : W64) (len : BitVec 16) (p : List Byte) : Datagram :=
  { port := 1, ver := 1, op := op, session := 1, seq := seq, addr := addr, len := len, payload := p, tag := 0 }
def dg (op : BitVec 8) (seq addr : W64) (len : BitVec 16) (p : List Byte) : Datagram :=
  { untagged op seq addr len p with tag := Config.kmac128 0 (datagramBytes (untagged op seq addr len p)) }
def usr : Session := { drv with driver := false }
def sSprt : State := { mgmt := { sessions := [(1, some drv)], identity := some 5, boot := { stage := 1, sprout := true }, portsUp := 3 } }

theorem inTurn_of {s : State} {op : BitVec 8} {k : Nat} {addr : W64} {len : BitVec 16} {p : List Byte} {x : Session} (hk : x.key = 0)
    (ho : hqtOpen s = true) (hp : portUp s 1 = true) (hs : datagramShape (untagged op 0 addr len p) k = true) (hg : getSession s 1 = some x)
    (h0 : x.seq = 0) (he : x.early = []) : InTurn s (dg op 0 addr len p) k x :=
  ⟨⟨ho, hp, hs, hg, by rw [hk]; rfl⟩, by rw [h0]; rfl, he⟩

def z8 : List Byte := List.replicate 8 0
def z16 : List Byte := List.replicate 16 0
def z35 : List Byte := List.replicate 35 0

theorem wit_RequestOrder :
    (hqtOpen (sSe drv) = true ∧ portUp (sSe drv) (dg 1 0 0 8 []).port = true ∧ datagramShape (dg 1 0 0 8 []) 1 = true ∧ getSession {} (dg 1 0 0 8 []).session.toNat = none ∧
      getSession (sSe drv) (dg 1 0 0 8 []).session.toNat = some drv) ∧
    Config.kmac128 drv.key (datagramBytes { dg 1 0 0 8 [] with tag := Config.kmac128 0 (datagramBytes (dg 1 0 0 8 [])) + 1 }) ≠
      ({ dg 1 0 0 8 [] with tag := Config.kmac128 0 (datagramBytes (dg 1 0 0 8 [])) + 1 } : Datagram).tag ∧
    (Config.kmac128 drv.key (datagramBytes (dg 2 1 0 8 z8)) = (dg 2 1 0 8 z8).tag ∧ drv.seq < (dg 2 1 0 8 z8).seq.toNat ∧ drv.early = []) ∧
    ((dg 1 0 0 8 []).seq.toNat < ({ drv with seq := 1, saved := [(0, 0, z8)] } : Session).seq ∧
      ({ drv with seq := 1, saved := [(0, 0, z8)] } : Session).saved.find? (fun r => r.1 == (dg 1 0 0 8 []).seq.toNat) = some (0, 0, z8)) := by
  refine ⟨⟨rfl, rfl, rfl, rfl, rfl⟩, ?_, ⟨rfl, by decide, rfl⟩, by decide, rfl⟩
  intro h
  exact absurd (show Config.kmac128 0 (datagramBytes (dg 1 0 0 8 [])) = Config.kmac128 0 (datagramBytes (dg 1 0 0 8 [])) + 1 from h) (by omega)

def hb (k : BitVec 64) : W64 := 0x1000000000000 + k
def readyYes (s : State) (k : ReqKind) (a : Access) (va : W64) (n : Nat) (g : Seg) : Bool := decide ((hqtReady s 1 drv k a va.toNat n).1 = .yes [g])
def readyNo (s : State) (k : ReqKind) (a : Access) (va : W64) (n : Nat) (v : W64) : Bool := decide ((hqtReady s 1 drv k a va.toNat n).1 = .status v)

theorem wit_RequestsPerformed :
    (InTurn (sSe drv) (dg 1 0 0 8 []) 1 drv ∧ InTurn (sSe drv) (dg 2 0 0 8 z8) 2 drv ∧ InTurn (sSe drv) (dg 3 0 0 8 z8) 3 drv ∧
      InTurn (sSe drv) (dg 4 0 0 16 z16) 4 drv ∧ InTurn (sSe drv) (dg 6 0 0 0 []) 6 drv ∧ InTurn (sSe drv) (dg 8 0 0 8 z8) 8 drv ∧
      InTurn (sSe usr) (dg 8 0 0 8 (bytesOf 8 2)) 8 usr ∧ InTurn (sSe drv) (dg 9 0 0 35 z35) 9 drv ∧ InTurn (sSe usr) (dg 9 0 0 35 z35) 9 usr ∧
      InTurn sSprt (dg 1 0 (w64 (devBase + 0x1A00000)) 8 []) 1 drv ∧ InTurn sSprt (dg 2 0 (w64 Config.counterAddr) 8 z8) 2 drv ∧
      InTurn sSprt (dg 2 0 (w64 Config.counterAddr) 16 z16) 2 drv ∧ InTurn sSprt (dg 2 0 0 0 []) 2 drv ∧
      InTurn sSprt (dg 3 0 0 8 z8) 3 drv ∧ InTurn sSprt (dg 4 0 0 16 z16) 4 drv) ∧
    (readyNo (sSe drv) .load .load 0 8 (faultVal 0 0) = true ∧ numOf z8 = 0 ∧ numOf (bytesOf 8 2) = 2) := by
  refine ⟨⟨?_, ?_, ?_, ?_, ?_, ?_, ?_, ?_, ?_, ?_, ?_, ?_, ?_, ?_, ?_⟩, ?_, ?_, ?_⟩
  iterate 15 exact inTurn_of rfl rfl rfl rfl rfl rfl rfl
  all_goals decide +kernel

/-- ASID 0's root with one leaf over the low pages of HBM, the stacks in service. -/
def sHq : State := { sSe drv with
  mem := words 0x10000 [0x3F], hbm := (List.range 8).map (fun k => (k, { inService := true })), dev := { spaces := [(0, { v := true, root := 1 })] } }
def c8 : Seg := { pa := 0x2000, len := 8, off := 0 }
theorem wit_RequestsPerformed_ready :
    (InTurn sHq (dg 1 0 0x2000 8 []) 1 drv ∧ InTurn sHq (dg 2 0 0x2000 8 z8) 2 drv ∧ InTurn sHq (dg 3 0 0x2000 8 z8) 3 drv ∧ InTurn sHq (dg 4 0 0x2000 16 z16) 4 drv) ∧
    readyYes sHq .load .load 0x2000 8 c8 = true ∧ readyYes sHq .store .store 0x2000 8 c8 = true ∧
    readyYes sHq (.atomic .add 0 0) .atomic 0x2000 8 c8 = true ∧ readyYes sHq (.atomic .cas 0 0) .atomic 0x2000 8 c8 = true ∧
    (place c8.pa = .hbm ∧ c8.pa / 65536 = (c8.pa + c8.len - 1) / 65536 ∧ c8.pa % 8 = 0 ∧ numOf (z16.drop 8) = 0) := by
  refine ⟨⟨?_, ?_, ?_, ?_⟩, ?_, ?_, ?_, ?_, ?_⟩
  iterate 4 exact inTurn_of rfl rfl rfl rfl rfl rfl rfl
  all_goals decide +kernel

def hello (d : Bool) : Hello :=
  { port := 0, driver := d, asid := 0, prio := 0, nonce := List.replicate 32 0, ek := [], grant := 4, key := [], sig := [] }
def sHi (full : Bool) : State := { mgmt := {
  identity := some 5, boot := { stage := 8 }, portsUp := 1, grants := [(4, some { asid := 0, prio := 0, hash := Config.sha3_256 [], issuer := 1 })]
  sessions := if full then (List.range 256).map (fun k => (k, some drv)) else [] } }

/-- A HELLO whose nonce is short is refused; one of a granted user, where its signature verifies (log 13), is accepted. -/
theorem wit_SessionsOpen :
    hqtOpen (sHi false) = true ∧ portUp (sHi false) 0 = true ∧ portUp (sHi true) 0 = true ∧ (sHi false).mgmt.identity = some 5 ∧ helloAccepted (sHi false) { hello false with nonce := [] } = false ∧
    (Config.mldsaVerify [] (helloSigned (hello false)) [] = true → helloAccepted (sHi false) (hello false) = true ∧ helloAccepted (sHi true) (hello false) = true) ∧
    256 ≤ (sHi true).mgmt.sessions.length ∧ (sHi false).mgmt.sessions.length < 256 ∧ (hello false).driver = false := by
  refine ⟨rfl, rfl, rfl, rfl, by simp [helloAccepted], ?_, by decide, by decide, rfl⟩
  intro h
  have hs : (hello false).sig = [] := rfl
  have hk : (hello false).key = [] := rfl
  constructor <;> simp [helloAccepted, hs, hk, h, sHi, tget] <;> simp [hello]

/-! ### Witnesses: encoding, the step, memory, the frame -/

theorem wit_RoundTrip : (Instr.sub { r3 with w1 := true }).wf = true ∧ (Instr.sub r3).isEvent = false := by decide
theorem wit_DecodeUnambiguous : (match decode (bytesOfWord 0x028A4981#32 ++ [0x55]) with | .ok (.sub _, r) => r == [0x55] | _ => false) = true := by decide

/-- NOP in a local window, the stream whose turn it is; a word of no instruction. -/
def sGo (w : Nat) : State := ({} : State).withFetchWord 32 w
def tGo (w : Nat) : Option StreamId × State := nextStream { tickClock (sGo w) with drain := true }
def vGo (w : Nat) : State := countTurn { (tGo w).2 with cur := w0 } w0
def fetchedB (w : Nat) (good : Bool) : Bool := match fetchInstr (vGo w) with
  | .ok (a, b, _) => (match decodeWords a b with | .ok i => good && i == .nop { rd := 0, rs1 := 0, rs2 := 0, w1 := false, w2 := false } | .error _ => !good)
  | .error _ => false
theorem wit_StepRunsDecoded :
    ((sGo 0x64000000).agenda = [] ∧ (sGo 0x64000000).drain = false ∧ (tGo 0x64000000).1 = some w0 ∧ asyncDue (vGo 0x64000000) w0 = false) ∧
    (fetchedB 0x64000000 true = true ∧ fetchedB 0x7FFFFFFF false = true) ∧
    ((curStream (vGo 0x64000000)).fetched = [] ∧ (match xlate (vGo 0x64000000) .fetch (curStream (vGo 0x64000000)).pc 4 false false with
      | .ok y => (memByte (vGo 0x64000000) (y.pa + 3)).msb == false | .error _ => false) = true) ∧ (Instr.powerLoss).isEvent = true := by
  refine ⟨⟨?_, ?_, ?_, ?_⟩, ⟨?_, ?_⟩, ⟨?_, ?_⟩, ?_⟩ <;> decide +kernel

theorem wit_MemoryStores : (∀ e ∈ ({} : State).dev.migrations, e.2.act = false) ∧ Memory.wf ({} : State).epoch ({} : State).mem = true := by decide +kernel
theorem wit_MemoryCanonical : Memory.wf ({} : State).epoch ({} : State).mem = true ∧ (∃ t, step ({} : State) = .next t) ∧
    (Instr.nop r3).isEvent = false ∧ (∀ f, Instr.nop r3 ≠ .fireEnd f) ∧ (∀ f, Instr.nop r3 = .mtsr f → f.sel13.toNat ≠ 0x28) ∧
    (∃ t, exec (.nop r3) at0 = .next t) := by
  refine ⟨by decide +kernel, ⟨_, rfl⟩, rfl, fun f h => ?_, fun f h => ?_, ⟨_, rfl⟩⟩ <;> cases h
theorem wit_RegisterFrame : (∃ row ∈ registerOnly 0 r3 (i12 0) { rd := 4, imm19 := 1 } lf, ∃ t, exec row.1 at0 = .next t) := by
  exact ⟨(.clz r3, 4), by simp [registerOnly, r3], _, rfl⟩

theorem wit_UpperImmediate : (OpsReady at0 { ops := [dstS 4] } [] ∧ FreeS at0 4) ∧ (-2 ^ 18 ≤ (-2 ^ 18 : Int) ∧ (-2 ^ 18 : Int) < 2 ^ 18) ∧
    (-2 ^ 30 ≤ (2 ^ 30 - 1 : Int) ∧ (2 ^ 30 - 1 : Int) < 2 ^ 30) :=
  ⟨⟨ready_of (by decide +kernel), free_of (by decide +kernel)⟩, by decide, by decide⟩
theorem wit_TrapInstruction : ((curStream at0).mode.intrap = false ∧ (∀ d p full, (curStream at0).wait ≠ .mwait d p full)) ∧
    OpsReady at0 { priv := true } [] ∧ ((4 : BitVec 6) ≠ 0) :=
  ⟨⟨by decide +kernel, no_mwait (by decide +kernel)⟩, ready_of (by decide +kernel), by decide⟩

/-! ### A load read early (R135, R138; log 17) -/

/-- LD64 of g4 at (g3) two words ahead of the pc, its page and its stack in reach; and how a number names it. -/
def ldE : I12F := { rd := 4, rs1 := 3, w1 := false, imm12 := 0 }
def xE : Stream := { x0 with fetched := [{ va := 0x1008, word := encI12 27 ldE, pa := 0x1008 }] }
def sE : State := { at0 xE with mem := words 0x2000 [77], hbm := (List.range 8).map (fun k => (k, { inService := true })), clusters := [(0, { tlb := [{ asid := 0, vbase := 0, log2 := 16, pte := 0x3F }] })] }
def sE' : State := loadAtHome sE (sE.nextId + 1 + 2 * (8192 * (0x1008 / 4)))
/-- The load issues after another agent has stored 99: with its branch passed, what it takes is what it read early. -/
def sIss : State := modStream (storeMem sE' 0x2000 8 99) w0 (fun x => { x with pc := 0x1008 })
theorem test_early_read : (curStream sE').early = [{ pc := 0x1008, srcs := [(0, 3, 0x2000)], segs := [{ pa := 0x2000, len := 8, off := 0 }], data := 77 }] := by decide +kernel
theorem test_early_taken : (match exec (.ld64 ldE) sIss with
    | .next t => (useEarly sIss t w0 (.ld64 ldE)).reqs.map (fun r => (r.todo, scalarResult r)) == [([], 77)] && (getStream (useEarly sIss t w0 (.ld64 ldE)) w0).early == []
    | _ => false) = true := by decide +kernel
/-- A fence between them drops it. -/
theorem test_early_fenced : (match exec (.fenceCluster r3) sE' with
    | .next t => (getStream (useEarly sE' t w0 (.fenceCluster r3)) w0).early == []
    | _ => false) = true := by decide +kernel

/-! ### Decoding: for every instruction a word written from the spec's tables (R171-R184), fields set apart from each other -/

/-- Words in memory order decode to the instruction and nothing is left. -/
def readsB (ws : List W32) (i : Instr) : Bool := match decode (ws.flatMap bytesOfWord) with | .ok (j, []) => j == i | _ => false

theorem test_decode_integer : [
    ([0x028A49C0#32], Instr.add { rd := 17, rs1 := 18, rs2 := 19, w1 := true, w2 := false }),
    ([0x028A49C1#32], Instr.sub { rd := 17, rs1 := 18, rs2 := 19, w1 := true, w2 := false }),
    ([0x028A49C2#32], Instr.and { rd := 17, rs1 := 18, rs2 := 19, w1 := true, w2 := false }),
    ([0x028A49C3#32], Instr.andn { rd := 17, rs1 := 18, rs2 := 19, w1 := true, w2 := false }),
    ([0x028A49C4#32], Instr.or { rd := 17, rs1 := 18, rs2 := 19, w1 := true, w2 := false }),
    ([0x028A49C5#32], Instr.xor { rd := 17, rs1 := 18, rs2 := 19, w1 := true, w2 := false }),
    ([0x048A49C0#32], Instr.shl { rd := 17, rs1 := 18, rs2 := 19, w1 := true, w2 := false }),
    ([0x048A49C1#32], Instr.shr { rd := 17, rs1 := 18, rs2 := 19, w1 := true, w2 := false }),
    ([0x048A49C2#32], Instr.sra { rd := 17, rs1 := 18, rs2 := 19, w1 := true, w2 := false }),
    ([0x048A4043#32], Instr.clz { rd := 17, rs1 := 18, rs2 := 0, w1 := true, w2 := false }),
    ([0x048A4044#32], Instr.popc { rd := 17, rs1 := 18, rs2 := 0, w1 := true, w2 := false }),
    ([0x068A49C0#32], Instr.mul { rd := 17, rs1 := 18, rs2 := 19, w1 := true, w2 := false }),
    ([0x068A49C1#32], Instr.mulhS64 { rd := 17, rs1 := 18, rs2 := 19, w1 := true, w2 := false }),
    ([0x068A49C2#32], Instr.mulhZ64 { rd := 17, rs1 := 18, rs2 := 19, w1 := true, w2 := false }),
    ([0x068A49C3#32], Instr.divS64 { rd := 17, rs1 := 18, rs2 := 19, w1 := true, w2 := false }),
    ([0x068A49C4#32], Instr.divZ64 { rd := 17, rs1 := 18, rs2 := 19, w1 := true, w2 := false }),
    ([0x068A49C5#32], Instr.remS64 { rd := 17, rs1 := 18, rs2 := 19, w1 := true, w2 := false }),
    ([0x068A49C6#32], Instr.remZ64 { rd := 17, rs1 := 18, rs2 := 19, w1 := true, w2 := false })
  ].all (fun (r : List W32 × Instr) => readsB r.1 r.2) = true := by decide +kernel

theorem test_decode_compare : [
    ([0x088A49C0#32], Instr.minS64 { rd := 17, rs1 := 18, rs2 := 19, w1 := true, w2 := false }),
    ([0x088A49C1#32], Instr.minZ64 { rd := 17, rs1 := 18, rs2 := 19, w1 := true, w2 := false }),
    ([0x088A49C2#32], Instr.maxS64 { rd := 17, rs1 := 18, rs2 := 19, w1 := true, w2 := false }),
    ([0x088A49C3#32], Instr.maxZ64 { rd := 17, rs1 := 18, rs2 := 19, w1 := true, w2 := false }),
    ([0x088A49C4#32], Instr.sltS64 { rd := 17, rs1 := 18, rs2 := 19, w1 := true, w2 := false }),
    ([0x088A49C5#32], Instr.sltZ64 { rd := 17, rs1 := 18, rs2 := 19, w1 := true, w2 := false }),
    ([0x088A4046#32], Instr.sltz { rd := 17, rs1 := 18, rs2 := 0, w1 := true, w2 := false }),
    ([0x088A49C7#32], Instr.sel { rd := 17, rs1 := 18, rs2 := 19, w1 := true, w2 := false }),
    ([0x0A8A49C2#32], Instr.lea 2 { rd := 17, rs1 := 18, rs2 := 19, w1 := true, w2 := false }),
    ([0x0C880000#32], Instr.sete { rd := 17, rs1 := 0, rs2 := 0, w1 := false, w2 := false }),
    ([0x0C880001#32], Instr.setf { rd := 17, rs1 := 0, rs2 := 0, w1 := false, w2 := false }),
    ([0x0C8A4002#32], Instr.testfe { rd := 17, rs1 := 18, rs2 := 0, w1 := false, w2 := false })
  ].all (fun (r : List W32 × Instr) => readsB r.1 r.2) = true := by decide +kernel

theorem test_decode_immediate : [
    ([0x108A5ABC#32], Instr.addi { rd := 17, rs1 := 18, w1 := true, imm12 := 0xABC }),
    ([0x128A5ABC#32], Instr.andi { rd := 17, rs1 := 18, w1 := true, imm12 := 0xABC }),
    ([0x148A5ABC#32], Instr.ori { rd := 17, rs1 := 18, w1 := true, imm12 := 0xABC }),
    ([0x168A5ABC#32], Instr.xori { rd := 17, rs1 := 18, w1 := true, imm12 := 0xABC }),
    ([0x188A502B#32], Instr.shli { rd := 17, rs1 := 18, w1 := true, imm12 := 0x2b }),
    ([0x188A506B#32], Instr.shri { rd := 17, rs1 := 18, w1 := true, imm12 := 0x6b }),
    ([0x188A50AB#32], Instr.srai { rd := 17, rs1 := 18, w1 := true, imm12 := 0xab }),
    ([0x1A8A5ABC#32], Instr.slti { rd := 17, rs1 := 18, w1 := true, imm12 := 0xABC }),
    ([0x1E8DA5A5#32], Instr.lui { rd := 17, imm19 := 0x5A5A5 })
  ].all (fun (r : List W32 × Instr) => readsB r.1 r.2) = true := by decide +kernel

theorem test_decode_control : [
    ([0x21695A5A#32], Instr.bc { cond := 5, w1 := true, rs1 := 18, off15 := 0x5A5A }),
    ([0x2294A5A5#32], Instr.loop { rs1 := 18, w1 := true, res := 0, off16 := 0xA5A5 }),
    ([0x25ABCDEF#32], Instr.jmp { off25 := 0x1ABCDEF }),
    ([0x27ABCDEF#32], Instr.call { off25 := 0x1ABCDEF }),
    ([0x28024040#32], Instr.jmpr { rd := 0, rs1 := 18, rs2 := 0, w1 := true, w2 := false }),
    ([0x28024041#32], Instr.callr { rd := 0, rs1 := 18, rs2 := 0, w1 := true, w2 := false }),
    ([0x28000002#32], Instr.ret { rd := 0, rs1 := 0, rs2 := 0, w1 := false, w2 := false }),
    ([0x2A000000#32], Instr.fireEnd { rd := 0, rs1 := 0, rs2 := 0, w1 := false, w2 := false }),
    ([0x2A000001#32], Instr.yield { rd := 0, rs1 := 0, rs2 := 0, w1 := false, w2 := false })
  ].all (fun (r : List W32 × Instr) => readsB r.1 r.2) = true := by decide +kernel

theorem test_decode_scalar_access : [
    ([0x308A5755#32], Instr.ld8 { rd := 17, rs1 := 18, w1 := true, imm12 := 0x755 }),
    ([0x328A5755#32], Instr.ld16 { rd := 17, rs1 := 18, w1 := true, imm12 := 0x755 }),
    ([0x348A5755#32], Instr.ld32 { rd := 17, rs1 := 18, w1 := true, imm12 := 0x755 }),
    ([0x368A5555#32], Instr.ld64 { rd := 17, rs1 := 18, w1 := true, imm12 := 0x555 }),
    ([0x388A5955#32], Instr.st8 { rd := 17, rs1 := 18, w1 := true, imm12 := 0x955 }),
    ([0x3A8A5955#32], Instr.st16 { rd := 17, rs1 := 18, w1 := true, imm12 := 0x955 }),
    ([0x3C8A5955#32], Instr.st32 { rd := 17, rs1 := 18, w1 := true, imm12 := 0x955 }),
    ([0x3E8A5955#32], Instr.st64 { rd := 17, rs1 := 18, w1 := true, imm12 := 0x955 })
  ].all (fun (r : List W32 × Instr) => readsB r.1 r.2) = true := by decide +kernel

theorem test_decode_atomic : [
    ([0x448A49D0#32], Instr.amoadd { ord := 2, z := true, r := { rd := 17, rs1 := 18, rs2 := 19, w1 := true, w2 := false } }),
    ([0x448A49D1#32], Instr.amominS { ord := 2, z := true, r := { rd := 17, rs1 := 18, rs2 := 19, w1 := true, w2 := false } }),
    ([0x448A49D2#32], Instr.amominZ { ord := 2, z := true, r := { rd := 17, rs1 := 18, rs2 := 19, w1 := true, w2 := false } }),
    ([0x448A49D3#32], Instr.amomaxS { ord := 2, z := true, r := { rd := 17, rs1 := 18, rs2 := 19, w1 := true, w2 := false } }),
    ([0x448A49D4#32], Instr.amomaxZ { ord := 2, z := true, r := { rd := 17, rs1 := 18, rs2 := 19, w1 := true, w2 := false } }),
    ([0x448A49D5#32], Instr.amoand { ord := 2, z := true, r := { rd := 17, rs1 := 18, rs2 := 19, w1 := true, w2 := false } }),
    ([0x448A49D6#32], Instr.amoor { ord := 2, z := true, r := { rd := 17, rs1 := 18, rs2 := 19, w1 := true, w2 := false } }),
    ([0x448A49D7#32], Instr.amoxchg { ord := 2, z := true, r := { rd := 17, rs1 := 18, rs2 := 19, w1 := true, w2 := false } }),
    ([0x448A4058#32], Instr.amosnap { ord := 2, z := true, r := { rd := 17, rs1 := 18, rs2 := 0, w1 := true, w2 := false } }),
    ([0x448A49D9#32], Instr.amocas { ord := 2, z := true, r := { rd := 17, rs1 := 18, rs2 := 19, w1 := true, w2 := false } })
  ].all (fun (r : List W32 × Instr) => readsB r.1 r.2) = true := by decide +kernel

theorem test_decode_ordering : [
    ([0x48000000#32], Instr.fenceCore { rd := 0, rs1 := 0, rs2 := 0, w1 := false, w2 := false }),
    ([0x48000001#32], Instr.fenceCluster { rd := 0, rs1 := 0, rs2 := 0, w1 := false, w2 := false }),
    ([0x48000002#32], Instr.fenceDevice { rd := 0, rs1 := 0, rs2 := 0, w1 := false, w2 := false }),
    ([0x48000003#32], Instr.fenceDomain { rd := 0, rs1 := 0, rs2 := 0, w1 := false, w2 := false }),
    ([0x48000004#32], Instr.fenceEng { rd := 0, rs1 := 0, rs2 := 0, w1 := false, w2 := false }),
    ([0x4A024040#32], Instr.marm { rd := 0, rs1 := 18, rs2 := 0, w1 := true, w2 := false }),
    ([0x4A8A4041#32], Instr.mwait { rd := 17, rs1 := 18, rs2 := 0, w1 := true, w2 := false }),
    ([0x4A8A4042#32], Instr.mwaitAcq { rd := 17, rs1 := 18, rs2 := 0, w1 := true, w2 := false })
  ].all (fun (r : List W32 × Instr) => readsB r.1 r.2) = true := by decide +kernel

theorem test_decode_scalar_fibre : [
    ([0x508A49C0#32], Instr.finit { rd := 17, rs1 := 18, rs2 := 19, w1 := true, w2 := false }),
    ([0x508A4041#32], Instr.flen { rd := 17, rs1 := 18, rs2 := 0, w1 := true, w2 := false }),
    ([0x508A49C2#32], Instr.fprobe { rd := 17, rs1 := 18, rs2 := 19, w1 := true, w2 := false }),
    ([0x500249C3#32], Instr.fdel { rd := 0, rs1 := 18, rs2 := 19, w1 := true, w2 := false }),
    ([0x50024044#32], Instr.fpack { rd := 0, rs1 := 18, rs2 := 0, w1 := true, w2 := false }),
    ([0x528A49C0#32], Instr.fins { rd := 17, rs1 := 18, rs2 := 19, w1 := true, w2 := false }),
    ([0x548A49C5#32], Instr.fcmb 5 { rd := 17, rs1 := 18, rs2 := 19, w1 := true, w2 := false })
  ].all (fun (r : List W32 × Instr) => readsB r.1 r.2) = true := by decide +kernel

theorem test_decode_system : [
    ([0x60880011#32], Instr.mfsr { rd := 17, rs1 := 0, sel13 := 0x11 }),
    ([0x62024011#32], Instr.mtsr { rd := 0, rs1 := 18, sel13 := 0x11 }),
    ([0x64000000#32], Instr.nop { rd := 0, rs1 := 0, rs2 := 0, w1 := false, w2 := false }),
    ([0x64000001#32], Instr.eret { rd := 0, rs1 := 0, rs2 := 0, w1 := false, w2 := false }),
    ([0x64000002#32], Instr.wdrain { rd := 0, rs1 := 0, rs2 := 0, w1 := false, w2 := false }),
    ([0x64000003#32], Instr.halt { rd := 0, rs1 := 0, rs2 := 0, w1 := false, w2 := false }),
    ([0x66000ABC#32], Instr.trap { rd := 0, rs1 := 0, w1 := false, imm12 := 0xABC }),
    ([0x680249C0#32], Instr.barInit { rd := 0, rs1 := 18, rs2 := 19, w1 := true, w2 := false }),
    ([0x688A49C1#32], Instr.barArr { rd := 17, rs1 := 18, rs2 := 19, w1 := true, w2 := false }),
    ([0x680249C2#32], Instr.barWait { rd := 0, rs1 := 18, rs2 := 19, w1 := true, w2 := false })
  ].all (fun (r : List W32 × Instr) => readsB r.1 r.2) = true := by decide +kernel

theorem test_decode_long_immediate : [
    ([0xF0880000#32, 0x89ABCDEF#32], Instr.li { rd := 17, rs1 := 0, w1 := false, res := 0, imm32 := 0x89ABCDEF }),
    ([0xF0880040#32, 0x89ABCDEF#32], Instr.lih { rd := 17, rs1 := 0, w1 := false, res := 0, imm32 := 0x89ABCDEF }),
    ([0xF08A5080#32, 0x89ABCDEF#32], Instr.addl { rd := 17, rs1 := 18, w1 := true, res := 0, imm32 := 0x89ABCDEF }),
    ([0xF28A5000#32, 0xFFFD1234#32], Instr.loopi { rs1 := 17, rs2 := 18, w1 := true, w2 := false, res := 0, simm16 := 0xFFFD, off16 := 0x1234 })
  ].all (fun (r : List W32 × Instr) => readsB r.1 r.2) = true := by decide +kernel

theorem test_decode_vector_arithmetic : [
    ([0x821882D9#32, 0x00096000#32], Instr.vadd { vd := 3, vs1 := 4, vs2 := 5, vs3 := 0, pm := 5, w1 := true, w2 := false, w3 := false, zm := true, ty4 := 9, rnd3 := 3, imm13 := 0x0 }),
    ([0x821882D9#32, 0x00196000#32], Instr.vsub { vd := 3, vs1 := 4, vs2 := 5, vs3 := 0, pm := 5, w1 := true, w2 := false, w3 := false, zm := true, ty4 := 9, rnd3 := 3, imm13 := 0x0 }),
    ([0x821882D9#32, 0x00296000#32], Instr.vmul { vd := 3, vs1 := 4, vs2 := 5, vs3 := 0, pm := 5, w1 := true, w2 := false, w3 := false, zm := true, ty4 := 9, rnd3 := 3, imm13 := 0x0 }),
    ([0x821882DB#32, 0x1830E000#32], Instr.vfma { vd := 3, vs1 := 4, vs2 := 5, vs3 := 6, pm := 5, w1 := true, w2 := false, w3 := true, zm := true, ty4 := 0, rnd3 := 7, imm13 := 0x0 }),
    ([0x821882D9#32, 0x004A0000#32], Instr.vmin { vd := 3, vs1 := 4, vs2 := 5, vs3 := 0, pm := 5, w1 := true, w2 := false, w3 := false, zm := true, ty4 := 10, rnd3 := 0, imm13 := 0x0 }),
    ([0x821882D9#32, 0x005A0000#32], Instr.vmax { vd := 3, vs1 := 4, vs2 := 5, vs3 := 0, pm := 5, w1 := true, w2 := false, w3 := false, zm := true, ty4 := 10, rnd3 := 0, imm13 := 0x0 }),
    ([0x82188059#32, 0x00690000#32], Instr.vabs { vd := 3, vs1 := 4, vs2 := 0, vs3 := 0, pm := 5, w1 := true, w2 := false, w3 := false, zm := true, ty4 := 9, rnd3 := 0, imm13 := 0x0 }),
    ([0x82188059#32, 0x00790000#32], Instr.vneg { vd := 3, vs1 := 4, vs2 := 0, vs3 := 0, pm := 5, w1 := true, w2 := false, w3 := false, zm := true, ty4 := 9, rnd3 := 0, imm13 := 0x0 }),
    ([0x841882D9#32, 0x00000000#32], Instr.vand { vd := 3, vs1 := 4, vs2 := 5, vs3 := 0, pm := 5, w1 := true, w2 := false, w3 := false, zm := true, ty4 := 0, rnd3 := 0, imm13 := 0x0 }),
    ([0x841882D9#32, 0x00100000#32], Instr.vor { vd := 3, vs1 := 4, vs2 := 5, vs3 := 0, pm := 5, w1 := true, w2 := false, w3 := false, zm := true, ty4 := 0, rnd3 := 0, imm13 := 0x0 }),
    ([0x841882D9#32, 0x00200000#32], Instr.vxor { vd := 3, vs1 := 4, vs2 := 5, vs3 := 0, pm := 5, w1 := true, w2 := false, w3 := false, zm := true, ty4 := 0, rnd3 := 0, imm13 := 0x0 }),
    ([0x841882D9#32, 0x00300000#32], Instr.vshl { vd := 3, vs1 := 4, vs2 := 5, vs3 := 0, pm := 5, w1 := true, w2 := false, w3 := false, zm := true, ty4 := 0, rnd3 := 0, imm13 := 0x0 }),
    ([0x84188059#32, 0x00401015#32], Instr.vshr { vd := 3, vs1 := 4, vs2 := 0, vs3 := 0, pm := 5, w1 := true, w2 := false, w3 := false, zm := true, ty4 := 0, rnd3 := 0, imm13 := 0x1015 }),
    ([0x84188059#32, 0x0050101F#32], Instr.vsra { vd := 3, vs1 := 4, vs2 := 0, vs3 := 0, pm := 5, w1 := true, w2 := false, w3 := false, zm := true, ty4 := 0, rnd3 := 0, imm13 := 0x101f })
  ].all (fun (r : List W32 × Instr) => readsB r.1 r.2) = true := by decide +kernel

theorem test_decode_vector_lanes : [
    ([0x861882D9#32, 0x00000007#32], Instr.vcmp { vd := 3, vs1 := 4, vs2 := 5, vs3 := 0, pm := 5, w1 := true, w2 := false, w3 := false, zm := true, ty4 := 0, rnd3 := 0, imm13 := 0x7 }),
    ([0x861882D8#32, 0x00100000#32], Instr.vsel { vd := 3, vs1 := 4, vs2 := 5, vs3 := 0, pm := 5, w1 := true, w2 := false, w3 := false, zm := false, ty4 := 0, rnd3 := 0, imm13 := 0x0 }),
    ([0x86188059#32, 0x00200000#32], Instr.vmov { vd := 3, vs1 := 4, vs2 := 0, vs3 := 0, pm := 5, w1 := true, w2 := false, w3 := false, zm := true, ty4 := 0, rnd3 := 0, imm13 := 0x0 }),
    ([0x86188059#32, 0x00300000#32], Instr.vsplat { vd := 3, vs1 := 4, vs2 := 0, vs3 := 0, pm := 5, w1 := true, w2 := false, w3 := false, zm := true, ty4 := 0, rnd3 := 0, imm13 := 0x0 }),
    ([0x86188059#32, 0x0040003F#32], Instr.vbcast { vd := 3, vs1 := 4, vs2 := 0, vs3 := 0, pm := 5, w1 := true, w2 := false, w3 := false, zm := true, ty4 := 0, rnd3 := 0, imm13 := 0x3f }),
    ([0x881882D9#32, 0x00000000#32], Instr.vperm { vd := 3, vs1 := 4, vs2 := 5, vs3 := 0, pm := 5, w1 := true, w2 := false, w3 := false, zm := true, ty4 := 0, rnd3 := 0, imm13 := 0x0 }),
    ([0x88188008#32, 0x0010003F#32], Instr.vins { vd := 3, vs1 := 4, vs2 := 0, vs3 := 0, pm := 0, w1 := true, w2 := false, w3 := false, zm := false, ty4 := 0, rnd3 := 0, imm13 := 0x3f }),
    ([0x88188008#32, 0x0020007F#32], Instr.vext { vd := 3, vs1 := 4, vs2 := 0, vs3 := 0, pm := 0, w1 := true, w2 := false, w3 := false, zm := false, ty4 := 0, rnd3 := 0, imm13 := 0x7f }),
    ([0x8A188058#32, 0x000A4002#32], Instr.vred { vd := 3, vs1 := 4, vs2 := 0, vs3 := 0, pm := 5, w1 := true, w2 := false, w3 := false, zm := false, ty4 := 10, rnd3 := 2, imm13 := 0x2 }),
    ([0x8A1882D9#32, 0x00192004#32], Instr.vscan { vd := 3, vs1 := 4, vs2 := 5, vs3 := 0, pm := 5, w1 := true, w2 := false, w3 := false, zm := true, ty4 := 9, rnd3 := 1, imm13 := 0x4 }),
    ([0x8A0082DC#32, 0x00201F81#32], Instr.vhist { vd := 0, vs1 := 4, vs2 := 5, vs3 := 0, pm := 5, w1 := true, w2 := true, w3 := false, zm := false, ty4 := 0, rnd3 := 0, imm13 := 0x1f81 })
  ].all (fun (r : List W32 × Instr) => readsB r.1 r.2) = true := by decide +kernel

theorem test_decode_vector_functions : [
    ([0x8C188059#32, 0x00008000#32], Instr.vexp2 { vd := 3, vs1 := 4, vs2 := 0, vs3 := 0, pm := 5, w1 := true, w2 := false, w3 := false, zm := true, ty4 := 0, rnd3 := 4, imm13 := 0x0 }),
    ([0x8C188059#32, 0x00108000#32], Instr.vrcp { vd := 3, vs1 := 4, vs2 := 0, vs3 := 0, pm := 5, w1 := true, w2 := false, w3 := false, zm := true, ty4 := 0, rnd3 := 4, imm13 := 0x0 }),
    ([0x8C188059#32, 0x00208000#32], Instr.vrsq { vd := 3, vs1 := 4, vs2 := 0, vs3 := 0, pm := 5, w1 := true, w2 := false, w3 := false, zm := true, ty4 := 0, rnd3 := 4, imm13 := 0x0 }),
    ([0x8C188059#32, 0x00308000#32], Instr.vlog2 { vd := 3, vs1 := 4, vs2 := 0, vs3 := 0, pm := 5, w1 := true, w2 := false, w3 := false, zm := true, ty4 := 0, rnd3 := 4, imm13 := 0x0 }),
    ([0x8E188280#32, 0x00000000#32], Instr.pand { vd := 3, vs1 := 4, vs2 := 5, vs3 := 0, pm := 0, w1 := false, w2 := false, w3 := false, zm := false, ty4 := 0, rnd3 := 0, imm13 := 0x0 }),
    ([0x8E188280#32, 0x00100000#32], Instr.por { vd := 3, vs1 := 4, vs2 := 5, vs3 := 0, pm := 0, w1 := false, w2 := false, w3 := false, zm := false, ty4 := 0, rnd3 := 0, imm13 := 0x0 }),
    ([0x8E188000#32, 0x00200000#32], Instr.pnot { vd := 3, vs1 := 4, vs2 := 0, vs3 := 0, pm := 0, w1 := false, w2 := false, w3 := false, zm := false, ty4 := 0, rnd3 := 0, imm13 := 0x0 }),
    ([0x8E888000#32, 0x00300000#32], Instr.pcnt { vd := 17, vs1 := 4, vs2 := 0, vs3 := 0, pm := 0, w1 := false, w2 := false, w3 := false, zm := false, ty4 := 0, rnd3 := 0, imm13 := 0x0 }),
    ([0x8E888000#32, 0x00400000#32], Instr.pfirst { vd := 17, vs1 := 4, vs2 := 0, vs3 := 0, pm := 0, w1 := false, w2 := false, w3 := false, zm := false, ty4 := 0, rnd3 := 0, imm13 := 0x0 })
  ].all (fun (r : List W32 × Instr) => readsB r.1 r.2) = true := by decide +kernel

theorem test_decode_vector_access : [
    ([0xA0188059#32, 0x00001ABC#32], Instr.ldv { vd := 3, vs1 := 4, vs2 := 0, vs3 := 0, pm := 5, w1 := true, w2 := false, w3 := false, zm := true, ty4 := 0, rnd3 := 0, imm13 := 0x1abc }),
    ([0xA002405A#32, 0x18101ABC#32], Instr.stv { vd := 0, vs1 := 18, vs2 := 0, vs3 := 6, pm := 5, w1 := true, w2 := false, w3 := true, zm := false, ty4 := 0, rnd3 := 0, imm13 := 0x1abc }),
    ([0xA01882D9#32, 0x00200ABC#32], Instr.ldvs { vd := 3, vs1 := 4, vs2 := 5, vs3 := 0, pm := 5, w1 := true, w2 := false, w3 := false, zm := true, ty4 := 0, rnd3 := 0, imm13 := 0xabc }),
    ([0xA01882D9#32, 0x00300003#32], Instr.gather { vd := 3, vs1 := 4, vs2 := 5, vs3 := 0, pm := 5, w1 := true, w2 := false, w3 := false, zm := true, ty4 := 0, rnd3 := 0, imm13 := 0x3 }),
    ([0xA00242DA#32, 0x18400002#32], Instr.scatter { vd := 0, vs1 := 18, vs2 := 5, vs3 := 6, pm := 5, w1 := true, w2 := false, w3 := true, zm := false, ty4 := 0, rnd3 := 0, imm13 := 0x2 }),
    ([0xA10A4008#32, 0x00500001#32], Instr.qpush { vd := 33, vs1 := 18, vs2 := 0, vs3 := 0, pm := 0, w1 := true, w2 := false, w3 := false, zm := false, ty4 := 0, rnd3 := 0, imm13 := 0x1 })
  ].all (fun (r : List W32 × Instr) => readsB r.1 r.2) = true := by decide +kernel

theorem test_decode_conversion : [
    ([0xB0188059#32, 0x00038191#32], Instr.vcvt { vd := 3, vs1 := 4, vs2 := 0, vs3 := 0, pm := 5, w1 := true, w2 := false, w3 := false, zm := true, ty4 := 3, rnd3 := 4, imm13 := 0x191 }),
    ([0xB018800A#32, 0x18150380#32], Instr.vqmx { vd := 3, vs1 := 4, vs2 := 0, vs3 := 6, pm := 0, w1 := true, w2 := false, w3 := true, zm := false, ty4 := 5, rnd3 := 0, imm13 := 0x380 }),
    ([0xB01882D9#32, 0x00240030#32], Instr.vdqmx { vd := 3, vs1 := 4, vs2 := 5, vs3 := 0, pm := 5, w1 := true, w2 := false, w3 := false, zm := true, ty4 := 4, rnd3 := 0, imm13 := 0x30 }),
    ([0xB0188059#32, 0x00360070#32], Instr.vlut { vd := 3, vs1 := 4, vs2 := 0, vs3 := 0, pm := 5, w1 := true, w2 := false, w3 := false, zm := true, ty4 := 6, rnd3 := 0, imm13 := 0x70 })
  ].all (fun (r : List W32 × Instr) => readsB r.1 r.2) = true := by decide +kernel

theorem test_decode_matrix : [
    ([0xC0024981#32, 0x00093000#32], Instr.mldb { rd := 0, rs1 := 18, rs2 := 19, rs3 := 0, w := true, x := 0x93000 }),
    ([0xC0024001#32, 0x04090000#32], Instr.mldm { rd := 0, rs1 := 18, rs2 := 0, rs3 := 0, w := true, x := 0x90000 }),
    ([0xC0024981#32, 0x0AA91000#32], Instr.mma { rd := 0, rs1 := 18, rs2 := 19, rs3 := 0, w := true, x := 0x2a91000 }),
    ([0xC0024981#32, 0x0EA92800#32], Instr.mmaS { rd := 0, rs1 := 18, rs2 := 19, rs3 := 0, w := true, x := 0x2a92800 }),
    ([0xC0000000#32, 0x12A00000#32], Instr.mclr { rd := 0, rs1 := 0, rs2 := 0, rs3 := 0, w := false, x := 0x2a00000 }),
    ([0xC0880000#32, 0x16A0F000#32], Instr.mrd { rd := 17, rs1 := 0, rs2 := 0, rs3 := 0, w := false, x := 0x2a0f000 }),
    ([0xC0000000#32, 0x1AA00000#32], Instr.tdclass { rd := 0, rs1 := 0, rs2 := 0, rs3 := 0, w := false, x := 0x2a00000 }),
    ([0xC08A4001#32, 0x1C000800#32], Instr.tdquery { rd := 17, rs1 := 18, rs2 := 0, rs3 := 0, w := true, x := 0x800 }),
    ([0xC0880000#32, 0x20090000#32], Instr.mtest { rd := 17, rs1 := 0, rs2 := 0, rs3 := 0, w := false, x := 0x90000 })
  ].all (fun (r : List W32 × Instr) => readsB r.1 r.2) = true := by decide +kernel

theorem test_decode_copy_and_channel : [
    ([0xD08A4001#32, 0x00000000#32], Instr.cpy { rd := 17, rs1 := 18, rs2 := 0, rs3 := 0, w := true, x := 0x0 }),
    ([0xD08A4001#32, 0x04000000#32], Instr.cpystat { rd := 17, rs1 := 18, rs2 := 0, rs3 := 0, w := true, x := 0x0 }),
    ([0xD0024001#32, 0x08000000#32], Instr.cpycancel { rd := 0, rs1 := 18, rs2 := 0, rs3 := 0, w := true, x := 0x0 }),
    ([0xD0024001#32, 0x0D694000#32], Instr.chpush { rd := 0, rs1 := 18, rs2 := 0, rs3 := 0, w := true, x := 0x1694000 }),
    ([0xD08A4001#32, 0x12800000#32], Instr.chpop { rd := 17, rs1 := 18, rs2 := 0, rs3 := 0, w := true, x := 0x2800000 }),
    ([0xD08A4001#32, 0x16800000#32], Instr.chpeek { rd := 17, rs1 := 18, rs2 := 0, rs3 := 0, w := true, x := 0x2800000 }),
    ([0xD0000000#32, 0x1AB00000#32], Instr.chmark { rd := 0, rs1 := 0, rs2 := 0, rs3 := 0, w := false, x := 0x2b00000 }),
    ([0xD0880000#32, 0x1EA00000#32], Instr.chstat { rd := 17, rs1 := 0, rs2 := 0, rs3 := 0, w := false, x := 0x2a00000 }),
    ([0xD0024001#32, 0x20000000#32], Instr.cbload { rd := 0, rs1 := 18, rs2 := 0, rs3 := 0, w := true, x := 0x0 })
  ].all (fun (r : List W32 × Instr) => readsB r.1 r.2) = true := by decide +kernel

theorem test_decode_vector_fibre : [
    ([0xE01A4281#32, 0x022A8000#32], Instr.fmrgv { rd := 3, rs1 := 18, rs2 := 5, rs3 := 0, w := true, x := 0x22a8000 }),
    ([0xE08A49A9#32, 0x06000000#32], Instr.fscan { rd := 17, rs1 := 18, rs2 := 19, rs3 := 20, w := true, x := 0x2000000 }),
    ([0xE01A4281#32, 0x09500000#32], Instr.fprobev { rd := 3, rs1 := 18, rs2 := 5, rs3 := 0, w := true, x := 0x1500000 }),
    ([0xE08A49A9#32, 0x0E201234#32], Instr.funion { rd := 17, rs1 := 18, rs2 := 19, rs3 := 20, w := true, x := 0x2201234 })
  ].all (fun (r : List W32 × Instr) => readsB r.1 r.2) = true := by decide +kernel

/-! ### Well-formedness: for each check a term that differs from a well-formed one in that check alone -/

def zR : R3F := { rd := 0, rs1 := 0, rs2 := 0, w1 := false, w2 := false }
def zI : I12F := { rd := 0, rs1 := 0, w1 := false, imm12 := 0 }
def zV : VF := { vd := 0, vs1 := 0, vs2 := 0, vs3 := 0, pm := 0, w1 := false, w2 := false, w3 := false, zm := false, ty4 := 0, rnd3 := 0, imm13 := 0 }
def zE : EF := { rd := 0, rs1 := 0, rs2 := 0, rs3 := 0, w := false, x := 0 }
def zL : LF := { rd := 4, rs1 := 0, w1 := false, res := 0, imm32 := 0 }

/-- A well-formed term, and terms that one check each refuses. -/
abbrev Smoke := Instr × List Instr
def smokeB (l : List Smoke) : Bool := l.all (fun r => r.1.wf && r.2.all (fun i => !i.wf))

theorem test_wf_register_members : smokeB [
    (.clz zR, [.clz { zR with rs2 := 1 }, .clz { zR with w2 := true }]),
    (.sete { zR with rd := 4 }, [.sete { zR with rs1 := 1 }, .sete { zR with rs2 := 1 }, .sete { zR with w1 := true }, .sete { zR with w2 := true }]),
    (.testfe { zR with rs1 := 35 }, [.testfe { zR with rs2 := 1 }, .testfe { zR with w1 := true }, .testfe { zR with w2 := true }]),
    (.jmpr zR, [.jmpr { zR with rd := 1 }, .jmpr { zR with rs2 := 1 }, .jmpr { zR with w2 := true }]),
    (.ret zR, [.ret { zR with rd := 1 }, .ret { zR with rs1 := 1 }, .ret { zR with rs2 := 1 }, .ret { zR with w1 := true }, .ret { zR with w2 := true }]),
    (.fdel zR, [.fdel { zR with rd := 1 }]), (.barInit zR, [.barInit { zR with rd := 1 }]),
    (.amosnap { ord := 0, z := false, r := zR }, [.amosnap { ord := 0, z := false, r := { zR with rs2 := 1 } }])] = true := by decide

theorem test_wf_immediate_members : smokeB [
    (.shli zI, [.shli { zI with imm12 := 0x40 }, .shli { zI with imm12 := 0x100 }]), (.shri { zI with imm12 := 0x40 }, [.shri { zI with imm12 := 0xC0 }]),
    (.srai { zI with imm12 := 0x80 }, [.srai { zI with imm12 := 0x800 }]),
    (.bc { cond := 5, w1 := false, rs1 := 0, off15 := 0 }, [.bc { cond := 6, w1 := false, rs1 := 0, off15 := 0 }, .bc { cond := 7, w1 := false, rs1 := 0, off15 := 0 }]),
    (.loop { rs1 := 0, w1 := false, res := 0, off16 := 2 }, [.loop { rs1 := 0, w1 := false, res := 1, off16 := 2 }]),
    (.ld32 { zI with imm12 := 0x600 }, [.ld32 { zI with imm12 := 0x800 }, .ld32 { zI with imm12 := 0xC00 }]),
    (.ld64 { zI with imm12 := 0x400 }, [.ld64 { zI with imm12 := 0x200 }, .ld64 { zI with imm12 := 0x800 }]),
    (.st8 { zI with imm12 := 0x800 }, [.st8 { zI with imm12 := 0xC00 }, .st8 { zI with imm12 := 0x200 }]),
    (.trap { zI with imm12 := 1 }, [.trap { zI with rd := 1 }, .trap { zI with rs1 := 1 }, .trap { zI with w1 := true }]),
    (.mfsr { rd := 4, rs1 := 0, sel13 := 9 }, [.mfsr { rd := 4, rs1 := 1, sel13 := 9 }]), (.mtsr { rd := 0, rs1 := 4, sel13 := 9 }, [.mtsr { rd := 1, rs1 := 4, sel13 := 9 }]),
    (.li zL, [.li { zL with rs1 := 1 }, .li { zL with w1 := true }, .li { zL with res := 1 }]), (.addl { zL with rs1 := 1 }, [.addl { zL with res := 32 }]),
    (.loopi { rs1 := 0, rs2 := 0, w1 := false, w2 := false, res := 0, simm16 := 1, off16 := 2 },
      [.loopi { rs1 := 0, rs2 := 0, w1 := false, w2 := false, res := 1, simm16 := 1, off16 := 2 }])] = true := by decide

theorem test_wf_vector_arithmetic : smokeB [
    (.vadd { zV with ty4 := 9, rnd3 := 4 }, [.vadd { zV with ty4 := 1 }, .vadd { zV with ty4 := 11 }, .vadd { zV with rnd3 := 5 }, .vadd { zV with rnd3 := 6 },
      .vadd { zV with vs3 := 1 }, .vadd { zV with w3 := true }, .vadd { zV with imm13 := 1 }]),
    (.vfma { zV with rnd3 := 7 }, [.vfma { zV with ty4 := 9 }, .vfma { zV with rnd3 := 5 }, .vfma { zV with imm13 := 1 }]),
    (.vabs { zV with ty4 := 9 }, [.vabs { zV with ty4 := 10 }, .vabs { zV with rnd3 := 6 }, .vabs { zV with vs2 := 1 }, .vabs { zV with w2 := true }, .vabs { zV with vs3 := 1 },
      .vabs { zV with imm13 := 1 }]),
    (.vand zV, [.vand { zV with ty4 := 1 }, .vand { zV with rnd3 := 1 }, .vand { zV with vs3 := 1 }, .vand { zV with imm13 := 1 }]),
    (.vshl { zV with imm13 := 0x101F }, [.vshl { zV with imm13 := 0x1040 }, .vshl { zV with imm13 := 0x1001, vs2 := 1 }, .vshl { zV with imm13 := 1 },
      .vshl { zV with rnd3 := 7 }, .vshl { zV with vs3 := 1 }]),
    (.vcmp { zV with imm13 := 7 }, [.vcmp { zV with ty4 := 9, imm13 := 6 }, .vcmp { zV with imm13 := 8 }, .vcmp { zV with ty4 := 3 }, .vcmp { zV with rnd3 := 5 }, .vcmp { zV with vs3 := 1 }]),
    (.vsel { zV with pm := 5 }, [.vsel { zV with zm := true }, .vsel { zV with ty4 := 9 }, .vsel { zV with vs3 := 1 }, .vsel { zV with imm13 := 1 }]),
    (.vmov zV, [.vmov { zV with rnd3 := 7 }, .vmov { zV with vs2 := 1 }, .vmov { zV with vs3 := 1 }, .vmov { zV with imm13 := 1 }]),
    (.vbcast { zV with imm13 := 63 }, [.vbcast { zV with imm13 := 64 }, .vbcast { zV with rnd3 := 7 }, .vbcast { zV with vs2 := 1 }, .vbcast { zV with vs3 := 1 }]),
    (.vins { zV with imm13 := 63 }, [.vins { zV with imm13 := 64 }, .vins { zV with pm := 1 }, .vins { zV with zm := true }]),
    (.vext { zV with imm13 := 127 }, [.vext { zV with imm13 := 128 }, .vext { zV with pm := 1 }, .vext { zV with rnd3 := 7 }, .vext { zV with vs2 := 1 }, .vext { zV with vs3 := 1 }])] = true := by decide

theorem test_wf_vector_others : smokeB [
    (.vred { zV with imm13 := 2 }, [.vred { zV with imm13 := 3 }, .vred { zV with imm13 := 4 }, .vred { zV with ty4 := 1 }, .vred { zV with rnd3 := 5 }, .vred { zV with vs2 := 1 },
      .vred { zV with vs3 := 1 }, .vred { zV with zm := true }]),
    (.vscan { zV with vs2 := 1, imm13 := 4 }, [.vscan { zV with vs2 := 1, imm13 := 1 }, .vscan { zV with imm13 := 3 }, .vscan { zV with imm13 := 8 }, .vscan { zV with ty4 := 1 },
      .vscan { zV with rnd3 := 6 }, .vscan { zV with vs3 := 1 }]),
    (.vhist { zV with vs2 := 1, imm13 := 0x1F81 }, [.vhist { zV with vs2 := 1 }, .vhist { zV with vd := 1 }, .vhist { zV with imm13 := 2 }, .vhist { zV with ty4 := 1 }, .vhist { zV with rnd3 := 5 },
      .vhist { zV with vs3 := 1 }, .vhist { zV with zm := true }]),
    (.vexp2 { zV with rnd3 := 7 }, [.vexp2 { zV with ty4 := 1 }, .vexp2 { zV with rnd3 := 5 }, .vexp2 { zV with vs2 := 1 }, .vexp2 { zV with vs3 := 1 }, .vexp2 { zV with imm13 := 1 }]),
    (.pand { zV with vs2 := 1 }, [.pand { zV with w1 := true }, .pand { zV with w2 := true }, .pand { zV with rnd3 := 1 }, .pand { zV with vs3 := 1 }, .pand { zV with imm13 := 1 }, .pand { zV with pm := 1 }]),
    (.pcnt zV, [.pcnt { zV with vs2 := 1 }, .pcnt { zV with w1 := true }, .pcnt { zV with ty4 := 9 }, .pcnt { zV with vs3 := 1 }, .pcnt { zV with imm13 := 1 }, .pcnt { zV with zm := true }]),
    (.vcvt { zV with ty4 := 3, imm13 := 0x180 }, [.vcvt { zV with ty4 := 6 }, .vcvt { zV with ty4 := 11 }, .vcvt { zV with imm13 := 6 }, .vcvt { zV with imm13 := 0x400 }, .vcvt { zV with rnd3 := 5 },
      .vcvt { zV with ty4 := 3, imm13 := 0x200 }, .vcvt { zV with imm13 := 0x43 }, .vcvt { zV with vs2 := 1 }, .vcvt { zV with vs3 := 1 }]),
    (.vqmx { zV with ty4 := 5, imm13 := 0x380 }, [.vqmx { zV with ty4 := 1 }, .vqmx { zV with ty4 := 3, imm13 := 0x200 }, .vqmx { zV with ty4 := 3, imm13 := 1 }, .vqmx { zV with ty4 := 3, imm13 := 0x400 },
      .vqmx { zV with ty4 := 3, rnd3 := 5 }, .vqmx { zV with ty4 := 3, vs2 := 1 }, .vqmx { zV with ty4 := 3, pm := 1 }]),
    (.vdqmx { zV with ty4 := 5, imm13 := 0x70 }, [.vdqmx { zV with ty4 := 6 }, .vdqmx { zV with ty4 := 4, imm13 := 0x40 }, .vdqmx { zV with ty4 := 4, imm13 := 1 }, .vdqmx { zV with ty4 := 4, imm13 := 0x80 },
      .vdqmx { zV with ty4 := 4, rnd3 := 6 }, .vdqmx { zV with ty4 := 4, vs3 := 1 }]),
    (.vlut { zV with ty4 := 6, imm13 := 0x70 }, [.vlut zV, .vlut { zV with ty4 := 6, imm13 := 1 }, .vlut { zV with ty4 := 6, imm13 := 0x80 }, .vlut { zV with ty4 := 6, rnd3 := 5 },
      .vlut { zV with ty4 := 6, vs2 := 1 }, .vlut { zV with ty4 := 6, vs3 := 1 }]),
    (.ldv { zV with imm13 := 0x1FFF }, [.ldv { zV with ty4 := 1 }, .ldv { zV with rnd3 := 5 }, .ldv { zV with vs2 := 1 }, .ldv { zV with vs3 := 1 }]),
    (.stv { zV with vs3 := 1 }, [.stv { zV with vd := 1 }, .stv { zV with vs2 := 1 }, .stv { zV with zm := true }, .stv { zV with ty4 := 1 }]),
    (.ldvs { zV with vs2 := 1 }, [.ldvs { zV with vs3 := 1 }, .ldvs { zV with ty4 := 1 }]), (.gather { zV with imm13 := 3 }, [.gather { zV with imm13 := 4 }, .gather { zV with vs3 := 1 }, .gather { zV with ty4 := 1 }]),
    (.scatter { zV with imm13 := 3 }, [.scatter { zV with imm13 := 4 }, .scatter { zV with vd := 1 }, .scatter { zV with zm := true }, .scatter { zV with ty4 := 1 }]),
    (.qpush { zV with imm13 := 1 }, [.qpush { zV with imm13 := 2 }, .qpush { zV with vs2 := 1 }, .qpush { zV with vs3 := 1 }, .qpush { zV with pm := 1 }, .qpush { zV with ty4 := 1 }])] = true := by decide

theorem test_wf_engine_members : smokeB [
    (.mldb { zE with x := 0x6000 }, [.mldb { zE with rd := 1, x := 0x6000 }, .mldb { zE with rs3 := 1, x := 0x6000 }, .mldb { zE with x := 0x206000 }, .mldb { zE with x := 0x6001 }, .mldb { zE with x := 0x7000 }]),
    (.mldm { zE with x := 0x90000 }, [.mldm { zE with rd := 1 }, .mldm { zE with rs2 := 1 }, .mldm { zE with rs3 := 1 }, .mldm { zE with x := 0x200000 }, .mldm { zE with x := 0x1000 }]),
    (.mma { zE with x := 0x1000 }, [.mma { zE with x := 0x1000, rd := 1 }, .mma { zE with x := 0x1000, rs3 := 1 }, .mma { zE with x := 0x1800 }, .mma { zE with x := 0x6000 }]),
    (.mmaS { zE with x := 0x1800 }, [.mmaS { zE with x := 0x1000, rd := 1 }, .mmaS { zE with x := 0x1000, rs3 := 1 }, .mmaS { zE with x := 0x1400 }, .mmaS zE]),
    (.mclr { zE with x := 0x200000 }, [.mclr { zE with rd := 1 }, .mclr { zE with rs1 := 1 }, .mclr { zE with rs2 := 1 }, .mclr { zE with rs3 := 1 }, .mclr { zE with w := true }, .mclr { zE with x := 0x10000 }]),
    (.mrd { zE with rd := 1, x := 0xF000 }, [.mrd { zE with rs1 := 1 }, .mrd { zE with rs2 := 1 }, .mrd { zE with rs3 := 1 }, .mrd { zE with w := true }, .mrd { zE with x := 0x10000 }, .mrd { zE with x := 0x800 }]),
    (.tdquery { zE with x := 0x200000 }, [.tdquery { zE with x := 0xC00 }, .tdquery { zE with x := 0x10000 }, .tdquery { zE with x := 0x200400 }, .tdquery { zE with x := 0x1000 }, .tdquery { zE with x := 1 },
      .tdquery { zE with rs1 := 1 }, .tdquery { zE with w := true }, .tdquery { zE with rs2 := 1 }, .tdquery { zE with rs3 := 1 }]),
    (.tdclass { zE with x := 0x800, rs1 := 1 }, [.tdclass { zE with x := 0x800, rd := 1 }]),
    (.mtest { zE with rd := 1 }, [.mtest { zE with rs1 := 1 }, .mtest { zE with rs2 := 1 }, .mtest { zE with rs3 := 1 }, .mtest { zE with w := true }, .mtest { zE with x := 0x200000 }, .mtest { zE with x := 1 }]),
    (.cpy zE, [.cpy { zE with rs2 := 1 }, .cpy { zE with rs3 := 1 }, .cpy { zE with x := 1 }]),
    (.cbload zE, [.cbload { zE with rd := 1 }, .cbload { zE with rs2 := 1 }, .cbload { zE with rs3 := 1 }, .cbload { zE with x := 1 }]),
    (.chpush { zE with x := 0x4000 }, [.chpush { zE with x := 1 }, .chpush { zE with rd := 1 }, .chpush { zE with rs2 := 1 }, .chpush { zE with rs3 := 1 }]),
    (.chpop { zE with x := 0x400000 }, [.chpop { zE with x := 0x200000 }, .chpop { zE with rs2 := 1 }, .chpop { zE with rs3 := 1 }]),
    (.chmark { zE with x := 0x300000 }, [.chmark zE, .chmark { zE with x := 0x200000 }, .chmark { zE with x := 0x100001 }, .chmark { zE with x := 0x100000, rd := 1 }, .chmark { zE with x := 0x100000, rs1 := 1 },
      .chmark { zE with x := 0x100000, rs2 := 1 }, .chmark { zE with x := 0x100000, rs3 := 1 }, .chmark { zE with x := 0x100000, w := true }]),
    (.chstat { zE with x := 0x300000 }, [.chstat { zE with x := 1 }, .chstat { zE with rs1 := 1 }, .chstat { zE with rs2 := 1 }, .chstat { zE with rs3 := 1 }, .chstat { zE with w := true }]),
    (.fmrgv { zE with x := 0x2000000 }, [.fmrgv { zE with x := 0x2400000 }, .fmrgv { zE with x := 0xC0000 }, .fmrgv { zE with x := 1 }, .fmrgv { zE with rs3 := 1 }]),
    (.fscan { zE with x := 0x2000000 }, [.fscan { zE with x := 1 }]), (.fprobev zE, [.fprobev { zE with x := 1 }, .fprobev { zE with rs3 := 1 }]),
    (.funion { zE with x := 0x2000000 }, [.funion { zE with x := 0x2400000 }, .funion { zE with x := 0x10000 }])] = true := by decide

/-- Words that are no instruction: all zero, an unallocated major, fn and fn6, and reserved bits set (R173, R175, R185). -/
theorem test_decode_refuses : ([[0x00000000], [0x80000000, 0], [0x0E000000], [0x7E000000], [0x02000006], [0x18000100], [0x20000000 ||| 6 <<< 22], [0x60000000 ||| 1 <<< 13],
    [0x82000000, 0x00800000], [0x82000000, 0x00030000], [0x90000000, 0], [0xF0000000, 0], [0xF0000000 ||| 3 <<< 6, 0], [0x66002000], [0x02000000, 1]] : List (List W32)).all (fun ws =>
      match decode (ws.flatMap bytesOfWord) with | .ok (_, []) => ws == [0xF0000000, 0] | .ok _ => ws == [0x02000000, 1] | .error _ => true) = true := by decide +kernel

/-! ### The spec's worked examples, each one step or one value -/

/-- A word with the fate the spec gives it: refused at step 2. -/
def refusedB (ws : List W32) : Bool := match decode (ws.flatMap bytesOfWord) with | .error .badField | .error (.noFn _) => true | _ => false

/-- "Encodings worked through" (R170-R185): ADD, the load and its .acq form, VADD in its bytes, and changed words with their
fates; an MFSR and an MTSR of a number that R166 does not list. -/
theorem test_worked_encodings :
    readsB [0x02536A00] (.add { rd := 10, rs1 := 27, rs2 := 20, w1 := false, w2 := false }) = true ∧
    readsB [0x34894202] (.ld32 { rd := 17, rs1 := 10, w1 := false, imm12 := 0x202 }) = true ∧
    readsB [0x34894602] (.ld32 { rd := 17, rs1 := 10, w1 := false, imm12 := 0x602 }) = true ∧ refusedB [0x34894E02] = true ∧
    (match decode [0x00, 0x21, 0x28, 0x82, 0x00, 0xE0, 0x00, 0x00] with
      | .ok (.vadd f, []) => f == { vd := 5, vs1 := 1, vs2 := 2, vs3 := 0, pm := 0, w1 := false, w2 := false, w3 := false, zm := false, ty4 := 0, rnd3 := 7, imm13 := 0 }
      | _ => false) = true ∧
    refusedB [0x82282100, 0x0003E000] = true ∧ refusedB [0x82282100, 0x0000A000] = true ∧ refusedB [0x82282100, 0x0080E000] = true ∧
    refusedB [0x60880012] = true ∧ refusedB [0x62024012] = true := by decide +kernel

/-- The next state of one instruction, or the state it started from. -/
def after (i : Instr) (s : State) : State := match exec i s with | .next t => t | _ => s
/-- The trap it took: cause and value. -/
def trapped (i : Instr) (s : State) : BitVec 64 × W64 := ((curStream (after i s)).trap.cause, (curStream (after i s)).trap.val)

/-- "An encoding worked through": an empty i3 with its w bit set, and the reserved code 40. -/
theorem test_worked_operand_traps :
    trapped (.add { rd := 10, rs1 := 27, rs2 := 20, w1 := true, w2 := false }) (at0 { x0 with sfull := 0xFFFFF }) = (0x03, 0x11B) ∧
    trapped (.add { rd := 10, rs1 := 40, rs2 := 20, w1 := false, w2 := false }) at0 = (0x02, 0x68) ∧
    trapped (.vadd { zV with vd := 12, vs1 := 1, vs2 := 2, rnd3 := 7 }) atA = (0x02, 0x0C) := by
  refine ⟨?_, ?_, ?_⟩ <;> decide +kernel

/-- R188-R190, by hand: wrap, a shift by the register's width, the high half of a signed product. -/
theorem test_integer_corners :
    sget (curStream (after (.sub r3) at0)) (phys at0 4) = 0xFFFFFFFFFFFFFFFE ∧ sraOp 0x8000000000000000 64 = 0xFFFFFFFFFFFFFFFF ∧ shlOp 1 64 = 0 ∧
    mulhS 0xFFFFFFFFFFFFFFFF 2 = 0xFFFFFFFFFFFFFFFF ∧ mulhZ 0xFFFFFFFFFFFFFFFF 2 = 1 ∧ divS 0xFFFFFFFFFFFFFFF9 2 = 0xFFFFFFFFFFFFFFFD ∧
    remS 0xFFFFFFFFFFFFFFF9 2 = 0xFFFFFFFFFFFFFFFF ∧ clzOp 0 = 64 := by
  refine ⟨?_, ?_, ?_, ?_, ?_, ?_, ?_, ?_⟩ <;> decide +kernel

/-- R204's counts. -/
theorem test_loopi_counts : loopCount 10 0 (-3) = 4 ∧ loopCount 0 10 (-1) = 0 := by decide +kernel

/-- R54's example: the address 0x0012_3456_7880 lies on stack 3, its channel 24, its location 0x91_A280. -/
theorem test_hash_example : (stackOf {} 0x1234567880).1 = 3 ∧ pcIndex {} 0x1234567880 = 24 * 2 + 1 ∧ hbmLocation {} 0x1234567880 = 0x91A280 := by decide +kernel

def blockOf : List FVal := [0x40400000, 0x3F800000, 0xBDCCCCCD].map (readFloat 0) ++ List.replicate 29 (readFloat 0 0)

/-- R94's block: its scale code, the first elements, and NX; the third element read back is -0.1015625, -13 at 2^-7. -/
theorem test_mx_block :
    (quantBlock 3 0 (List.replicate 32 0) blockOf).1 = 0x78 ∧ (quantBlock 3 0 (List.replicate 32 0) blockOf).2.1.take 4 = [0x7C, 0x70, 0xD5, 0] ∧ (quantBlock 3 0 (List.replicate 32 0) blockOf).2.2 = flagNX ∧
    cmpVal (mxValue 3 0xD5 0x78) (.fin true 13 (-7)) = 0 := by
  refine ⟨?_, ?_, ?_, ?_⟩ <;> decide +kernel

/-- R234's example: the words of VQMX leave bytes 0 to 2 of v8, the scale codes in v9, and NX. -/
theorem test_vqmx_example :
    let s := at0 { x0 with vreg := [(1, 0xBDCCCCCD3F80000040400000)] }
    let t := after (.vqmx { zV with vd := 8, vs1 := 1, vs3 := 9, ty4 := 3, rnd3 := 7 }) s
    (vget (curStream t) 8).toNat = 0xD5707C ∧ (vget (curStream t) 9).toNat = 0x0078 ∧ (curCtx t).fpflags = flagNX := by
  refine ⟨?_, ?_, ?_⟩ <;> decide +kernel

/-- R95's two cases of the single rounding, and the three words of the table of R108. -/
theorem test_matrix_sum :
    mmaElem 0x80000000 ([.fin false 1 0, .fin true 1 0] ++ List.replicate 30 FVal.zero) = (0x80000000, 0) ∧
    mmaElem 0x3F800000 (List.replicate 3 (.fin false 1 (-25)) ++ List.replicate 29 FVal.zero) = (0x3F800001, flagNX) ∧
    mmaElem 0x3F800000 (.fin false 1 (-24) :: List.replicate 31 FVal.zero) = (0x3F800000, flagNX) ∧
    mmaElem 0x40400000 (.fin true 1 1 :: List.replicate 31 FVal.zero) = (0x3F800000, 0) := by
  refine ⟨?_, ?_, ?_, ?_⟩ <;> decide +kernel

/-- R197: the branch of the example, six words back from 0x1000. -/
theorem test_branch_back : (curStream (after (.bc { cond := 1, w1 := false, rs1 := 1, off15 := 0x7FFA }) at0)).pc = 0x1000 - 24 := by decide +kernel

/-- R212: `trap 0x2A`. -/
theorem test_trap_example : trapped (.trap { rd := 0, rs1 := 0, w1 := false, imm12 := 0x2A }) at0 = (0x10, 0x2A) ∧
    (curStream (after (.trap { rd := 0, rs1 := 0, w1 := false, imm12 := 0x2A }) at0)).pc = 0x8000 := by decide +kernel

/-- R222: lane 1 of the sum of 3 and 5 as S32. -/
theorem test_vadd_lane : lane (vget (curStream (after (.vadd { zV with vd := 3, vs1 := 1, vs2 := 2, ty4 := 9 }) at0)) 3) 1 = 8 := by decide +kernel

/-- R196: LI sign-extends its constant. -/
theorem test_li_sign : sget (curStream (after (.li { zL with imm32 := 0x80000000 }) at0)) (phys at0 4) = 0xFFFFFFFF80000000 := by decide +kernel

end Sys2Proof.Tests
end

/-!
# Stores to memory (R4, R44, R45)

What a store of `n` bytes does to the bytes of memory, once for all: the fold over `Memory.set` that
performs it, the byte it leaves at every address, and the number read back. The bookkeeping a store does beside its bytes
(poison and scrubber marks, monitors) moves no byte.
-/

namespace Sys2Proof.Machine.Memory

/-- Any sequence of bytes stored keeps the canonical form. -/
theorem wf_foldl_set (e : Nat) (addr : Nat → Nat) (byte : Nat → Byte) (is : List Nat) (m : List Host.Cell)
    (h : wf e m = true) : wf e (is.foldl (fun m i => set e m (addr i) (byte i)) m) = true := by
  induction is generalizing m with
  | nil => exact h
  | cons i is ih => exact ih _ (wf_set e m (addr i) (byte i) h)

/-- Consecutive bytes stored one after the other: a later store of the run falls on another address, so each byte stays. -/
theorem get_foldl_set_upFrom (e pa : Nat) (byte : Nat → Byte) (i n : Nat) (m : List Host.Cell) (a : Nat) :
    get e ((upFrom i n).foldl (fun m j => set e m (pa + j) (byte j)) m) a =
      if pa + i ≤ a ∧ a < pa + i + n then byte (a - pa) else get e m a := by
  induction n generalizing i m with
  | zero =>
    have hout : ¬ (pa + i ≤ a ∧ a < pa + i + 0) := by omega
    rw [if_neg hout]
    rfl
  | succ k ih =>
    rw [upFrom, List.foldl_cons, ih (i + 1)]
    by_cases ha : a = pa + i
    · have hlater : ¬ (pa + (i + 1) ≤ a ∧ a < pa + (i + 1) + k) := by omega
      have hhere : pa + i ≤ a ∧ a < pa + i + (k + 1) := by omega
      rw [if_neg hlater, if_pos hhere, ha, get_set_same, Nat.add_sub_cancel_left]
    · have hsame : (pa + (i + 1) ≤ a ∧ a < pa + (i + 1) + k) ↔ (pa + i ≤ a ∧ a < pa + i + (k + 1)) := by omega
      rw [get_set_ne e m (pa + i) a (byte i) ha]
      simp only [hsame]

end Sys2Proof.Machine.Memory

namespace Sys2Proof.Machine

/-! ### Where a byte stands while no page migrates -/

/-- R362: with no active migration no address is redirected. -/
theorem redirectRead_of_inactive (d : Dev) (pa : Nat) (h : ∀ e ∈ d.migrations, e.2.act = false) : redirectRead d pa = pa := by
  have hnone : d.migrations.find? (fun e => e.2.act && e.2.old == pa / 65536) = none := by
    simp +contextual [List.find?_eq_none, h]
  unfold redirectRead
  rw [hnone]

theorem homePa_of_inactive (s : State) (pa : Nat) (h : ∀ e ∈ s.dev.migrations, e.2.act = false) : homePa s pa = pa := by
  unfold homePa
  rw [redirectRead_of_inactive s.dev pa h, ite_self]

/-! ### What a store leaves alone -/

@[simp] theorem spoil_mem (s : State) (pa n : Nat) : (spoil s pa n).mem = s.mem := by unfold spoil; split <;> rfl
@[simp] theorem spoil_epoch (s : State) (pa n : Nat) : (spoil s pa n).epoch = s.epoch := by unfold spoil; split <;> rfl
@[simp] theorem spoil_migrations (s : State) (pa n : Nat) : (spoil s pa n).dev.migrations = s.dev.migrations := by
  unfold spoil; split <;> rfl
@[simp] theorem hitMonitors_mem (s : State) (pa n : Nat) : (hitMonitors s pa n).mem = s.mem := rfl
@[simp] theorem hitMonitors_epoch (s : State) (pa n : Nat) : (hitMonitors s pa n).epoch = s.epoch := rfl
@[simp] theorem hitMonitors_dev (s : State) (pa n : Nat) : (hitMonitors s pa n).dev = s.dev := rfl

@[simp] theorem memWrite_epoch (s : State) (pa n x : Nat) : (memWrite s pa n x).epoch = s.epoch := by simp [memWrite]
@[simp] theorem memWrite_migrations (s : State) (pa n x : Nat) : (memWrite s pa n x).dev.migrations = s.dev.migrations := by
  simp [memWrite]

/-! ### The bytes of a store -/

/-- The cells after a store: its bytes set one after the other, each at its home. -/
theorem memWrite_mem (s : State) (pa n x : Nat) : (memWrite s pa n x).mem =
    (upFrom 0 n).foldl (fun m i => Memory.set s.epoch m (homePa s (pa + i)) (BitVec.ofNat 8 (x >>> (8 * i)))) s.mem := by
  simp [memWrite]

/-- Byte `i` of a number, as a shift and as a quotient. -/
theorem shiftRight_eight_mul (x i : Nat) : x >>> (8 * i) = x / 256 ^ i := by
  rw [Nat.shiftRight_eq_div_pow, pow_mul]
  norm_num

/-- A store keeps the canonical form of memory, wherever its bytes stand. -/
theorem memWrite_wf (s : State) (pa n x : Nat) (h : Memory.wf s.epoch s.mem = true) :
    Memory.wf (memWrite s pa n x).epoch (memWrite s pa n x).mem = true := by
  rw [memWrite_epoch, memWrite_mem]
  exact Memory.wf_foldl_set s.epoch _ _ _ s.mem h

/-- R44, R45: the byte at any address after a store. -/
theorem memByte_memWrite (s : State) (pa n x a : Nat) (h : ∀ e ∈ s.dev.migrations, e.2.act = false) :
    memByte (memWrite s pa n x) a =
      if pa ≤ a ∧ a < pa + n then BitVec.ofNat 8 (x / 256 ^ (a - pa)) else memByte s a := by
  have ht : ∀ e ∈ (memWrite s pa n x).dev.migrations, e.2.act = false := by rwa [memWrite_migrations]
  unfold memByte
  rw [homePa_of_inactive _ a ht, homePa_of_inactive s a h, memWrite_epoch, memWrite_mem]
  simp only [homePa_of_inactive s _ h, shiftRight_eight_mul]
  exact Memory.get_foldl_set_upFrom s.epoch pa (fun i => BitVec.ofNat 8 (x / 256 ^ i)) 0 n s.mem a

/-- R4: bytes that are a number's digits in base 256, lowest first, read as that number. -/
theorem memRead_of_memByte (s : State) (pa n x : Nat) (h : ∀ i, i < n → memByte s (pa + i) = BitVec.ofNat 8 (x / 256 ^ i)) :
    memRead s pa n = x % 256 ^ n := by
  induction n generalizing pa x with
  | zero => simp [memRead, Nat.mod_one]
  | succ k ih =>
    have hfirst : (memByte s pa).toNat = x % 256 := by
      have h0 := h 0 (Nat.succ_pos k)
      rw [Nat.add_zero, pow_zero, Nat.div_one] at h0
      rw [h0, BitVec.toNat_ofNat]
    have hrest : memRead s (pa + 1) k = x / 256 % 256 ^ k := by
      apply ih
      intro i hi
      rw [Nat.add_assoc, Nat.add_comm 1 i, h (i + 1) (Nat.succ_lt_succ hi), Nat.div_div_eq_div_mul, pow_succ']
    rw [memRead, hfirst, hrest, pow_succ', Nat.mod_mul]

/-- R4, R44: a store read back. -/
theorem memRead_memWrite_same (s : State) (pa n x : Nat) (h : ∀ e ∈ s.dev.migrations, e.2.act = false) :
    memRead (memWrite s pa n x) pa n = x % 256 ^ n := by
  apply memRead_of_memByte
  intro i hi
  rw [memByte_memWrite s pa n x (pa + i) h, if_pos ⟨Nat.le_add_right pa i, Nat.add_lt_add_left hi pa⟩, Nat.add_sub_cancel_left]

/-- Settles O58: the byte at every address, the number read back, and the canonical form, each from its own lemma. -/
theorem memoryStores : Obligations.MemoryStores := by
  unfold Obligations.MemoryStores
  intro s pa n x hstill
  exact ⟨fun a => memByte_memWrite s pa n x a hstill, memRead_memWrite_same s pa n x hstill, memWrite_wf s pa n x⟩

end Sys2Proof.Machine

/-!
# The units of step 6 (R9, R112, R366, R368-R372)

A cluster's turn and a stack pair's turn each change their own units and then let the start sequence move on. Each of
those acts has its rule here: what it sets, and, for any view of the state that its parts leave alone, that it leaves the
view alone.
-/

namespace Sys2Proof.Machine

open Sys2Proof.Claims

/-! ### Numbers in order, and single bits -/

theorem upFrom_eq_range' (i n : Nat) : upFrom i n = List.range' i n := by
  induction n generalizing i with
  | zero => rfl
  | succ n ih => rw [upFrom, ih, List.range'_succ]

theorem getLsbD_one_shiftLeft {w : Nat} (k : Nat) {j : Nat} (hj : j < w) : (1#w <<< k).getLsbD j = decide (j = k) := by
  have h : (1#w <<< k).getLsbD j = (decide (k < w) && decide (k = j)) := BitVec.getLsbD_twoPow k j
  rw [h]
  by_cases hjk : j = k
  · simp [hjk, hjk ▸ hj]
  · simp [hjk, Ne.symm hjk]

theorem or_one_shiftLeft_ne_zero {w : Nat} (x : BitVec w) {k : Nat} (hk : k < w) : x ||| (1#w <<< k) ≠ 0 := by
  intro h
  have hbit : (x ||| (1#w <<< k)).getLsbD k = true := by simp [getLsbD_one_shiftLeft k hk]
  simp [h] at hbit

/-- The cores of cluster `k` are those whose number divided by 64 is `k`. -/
theorem getLsbD_clusterCores (k : Nat) {c : Nat} (hc : c < 1024) : (clusterCores k).getLsbD c = decide (c / 64 = k) := by
  have hdiv : c / 64 = k ↔ ¬ c < 64 * k ∧ c - 64 * k < 64 := by omega
  have hwide : c - 64 * k < 1024 := by omega
  simp only [clusterCores, BitVec.getLsbD_shiftLeft, BitVec.getLsbD_setWidth, BitVec.getLsbD_allOnes, hc, hwide, hdiv,
    decide_true, Bool.true_and, Bool.decide_and, decide_not]

/-! ### An event of a machine that has not tripped (R391) -/

theorem event_of_awake {s : State} (h : Awake s) (f : State → State) : event s f = .next (f s) := by
  have hcool : s.mgmt.power.tripped = false := h
  simp [event, hcool]

theorem exec_clusterStart_of_awake {s : State} (h : Awake s) (k : Nat) (pass : Bool) :
    exec (.clusterStart k pass) s = .next (clusterStart s k pass) := by
  rw [exec_clusterStart, execClusterStart, event_of_awake h]

theorem exec_stackPairStart_of_awake {s : State} (h : Awake s) (p : Nat) (lo hi : Training) :
    exec (.stackPairStart p lo hi) s = .next (stackPairStart s p lo hi) := by
  rw [exec_stackPairStart, execStackPairStart, event_of_awake h]

/-- Step 6 under way, as the model tests it. -/
theorem starting_of_Starting {s : State} (h : Starting s) : starting s = true := by
  obtain ⟨hstage, hopen⟩ := h
  simpa [starting, hopen] using hstage

/-! ### Where the start sequence stands after a turn (R371, R372) -/

/-- What a failed start and the stages 7 and 8 leave alone, the end of a turn leaves alone. -/
theorem nextStage_keeps {α : Type} (view : State → α) (hfail : ∀ s cause, view (failStart s cause) = view s)
    (hreduce : ∀ s, view (reduceService s) = view s) (hfull : ∀ s, view (fullService s) = view s) (s : State) :
    view (nextStage s) = view s := by
  unfold nextStage
  dsimp only
  split_ifs <;> simp only [hfail, hreduce, hfull]

@[simp] theorem nextStage_cores (s : State) : (nextStage s).cores = s.cores :=
  nextStage_keeps (·.cores) (fun _ _ => rfl) (fun _ => rfl) (fun _ => rfl) s
@[simp] theorem nextStage_clusters (s : State) : (nextStage s).clusters = s.clusters :=
  nextStage_keeps (·.clusters) (fun _ _ => rfl) (fun _ => rfl) (fun _ => rfl) s
@[simp] theorem nextStage_dies (s : State) : (nextStage s).dies = s.dies :=
  nextStage_keeps (·.dies) (fun _ _ => rfl) (fun _ => rfl) (fun _ => rfl) s
@[simp] theorem nextStage_boot_clusters (s : State) : (nextStage s).mgmt.boot.clusters = s.mgmt.boot.clusters :=
  nextStage_keeps (·.mgmt.boot.clusters) (fun _ _ => rfl) (fun _ => rfl) (fun _ => rfl) s
@[simp] theorem nextStage_boot_nextCluster (s : State) : (nextStage s).mgmt.boot.nextCluster = s.mgmt.boot.nextCluster :=
  nextStage_keeps (·.mgmt.boot.nextCluster) (fun _ _ => rfl) (fun _ => rfl) (fun _ => rfl) s
@[simp] theorem nextStage_boot_nextPair (s : State) : (nextStage s).mgmt.boot.nextPair = s.mgmt.boot.nextPair :=
  nextStage_keeps (·.mgmt.boot.nextPair) (fun _ _ => rfl) (fun _ => rfl) (fun _ => rfl) s

/-- Every unit has had its turn. -/
def LastTurn (s : State) : Prop := s.mgmt.boot.nextPair = 4 ∧ s.mgmt.boot.nextCluster = 16

/-- R371: at stage 6, with a cluster and a pair of stacks up, stage 7 comes, and stage 8 with it where no turn is left. -/
theorem nextStage_of_six {s : State} (h6 : s.mgmt.boot.stage = 6) (hpair : pairUp s.mgmt.boot = true)
    (hcluster : s.mgmt.boot.clusters ≠ 0) :
    (LastTurn s → nextStage s = fullService (reduceService s)) ∧ (¬ LastTurn s → nextStage s = reduceService s) := by
  have h7 : (reduceService s).mgmt.boot.stage = 7 := rfl
  have hnoPair : ¬ (s.mgmt.boot.stage = 6 ∧ s.mgmt.boot.nextPair = 4 ∧ (!pairUp s.mgmt.boot) = true) := by simp [hpair]
  have hnoCluster : ¬ (s.mgmt.boot.stage = 6 ∧ s.mgmt.boot.nextCluster = 16 ∧ s.mgmt.boot.clusters = 0) := fun h => hcluster h.2.2
  have hthrough : s.mgmt.boot.stage = 6 ∧ s.mgmt.boot.clusters ≠ 0 ∧ pairUp s.mgmt.boot = true := ⟨h6, hcluster, hpair⟩
  unfold nextStage
  dsimp only
  rw [if_neg hnoPair, if_neg hnoCluster, if_pos hthrough]
  exact ⟨fun hlast => if_pos ⟨h7, hlast⟩, fun hlast => if_neg (fun h => hlast h.2)⟩

/-- R371: at stage 7 the last turn brings stage 8. -/
theorem nextStage_of_seven {s : State} (h7 : s.mgmt.boot.stage = 7) (hlast : LastTurn s) : nextStage s = fullService s := by
  obtain ⟨hnextPair, hnextCluster⟩ := hlast
  simp [nextStage, h7, hnextPair, hnextCluster]

/-- R372: the newest record is the one appended, however many are kept. -/
theorem appendAttempt_getLast? (s : State) (counter cause stage : Nat) :
    (appendAttempt s counter cause stage).mgmt.flash.attempts.getLast? =
      some { counter := counter, cause := cause, stage := stage, time := s.time } := by
  have hkept : ¬ s.mgmt.flash.attempts.length + 1 ≤ s.mgmt.flash.attempts.length - 7 := by omega
  simp [appendAttempt, List.getLast?_drop, hkept]

/-- R372: a start that has got through: stage 7 or later, the counter cleared, the attempt on record with cause 0. -/
def GotThrough (t : State) : Prop :=
  7 ≤ t.mgmt.boot.stage ∧ t.mgmt.flash.counter = 0 ∧ ∃ a, t.mgmt.flash.attempts.getLast? = some a ∧ a.cause = 0 ∧ a.stage = 7

theorem gotThrough_reduceService (s : State) : GotThrough (reduceService s) :=
  ⟨le_rfl, rfl, _, appendAttempt_getLast? _ _ _ _, rfl, rfl⟩

theorem gotThrough_fullService {s : State} (h : GotThrough s) : GotThrough (fullService s) := by
  obtain ⟨-, hcounter, hrecord⟩ := h
  exact ⟨Nat.le_succ 7, hcounter, hrecord⟩

theorem gotThrough_nextStage {s : State} (h6 : s.mgmt.boot.stage = 6) (hpair : pairUp s.mgmt.boot = true)
    (hcluster : s.mgmt.boot.clusters ≠ 0) : GotThrough (nextStage s) := by
  obtain ⟨hlastTurn, hotherTurn⟩ := nextStage_of_six h6 hpair hcluster
  by_cases hlast : LastTurn s
  · rw [hlastTurn hlast]
    exact gotThrough_fullService (gotThrough_reduceService s)
  · rw [hotherTurn hlast]
    exact gotThrough_reduceService s

/-- R366, R371: the last turn brings stage 8, and MINSVN follows the image. -/
theorem nextStage_lastTurn {s : State} (hstage : s.mgmt.boot.stage = 6 ∨ s.mgmt.boot.stage = 7)
    (hpair : pairUp s.mgmt.boot = true) (hcluster : s.mgmt.boot.clusters ≠ 0) (hlast : LastTurn s) :
    (nextStage s).mgmt.boot.stage = 8 ∧
      (nextStage s).mgmt.flash.minsvn = max s.mgmt.flash.minsvn s.mgmt.flash.contents.svn.toNat := by
  rcases hstage with h6 | h7
  · rw [(nextStage_of_six h6 hpair hcluster).1 hlast]
    exact ⟨rfl, rfl⟩
  · rw [nextStage_of_seven h7 hlast]
    exact ⟨rfl, rfl⟩

/-! ### The fence map's next generation (R20, R371) -/

theorem getDie_modDie_ne (s : State) {d e : Nat} (f : Die → Die) (h : e ≠ d) : getDie (modDie s d f) e = getDie s e := by
  simp [getDie, modDie, tget_tset_ne _ _ _ _ _ h]

/-- An update of each die of a list, once: a listed die has its update, and another stays. -/
theorem getDie_foldl_modDie (f : Die → Die) (ds : List Nat) (hds : ds.Nodup) (s : State) (d : Nat) :
    getDie (ds.foldl (fun s d => modDie s d f) s) d = if d ∈ ds then f (getDie s d) else getDie s d := by
  induction ds generalizing s with
  | nil => rfl
  | cons e ds ih =>
    obtain ⟨he, hrest⟩ := List.nodup_cons.mp hds
    rw [List.foldl_cons, ih hrest]
    by_cases hd : d = e
    · subst hd
      simp [he]
    · simp [hd, getDie_modDie_ne s f hd]

theorem advanceFence_fenceMap (s : State) (f : BitVec 1024 → BitVec 1024) {d : Nat} (hd : d < 4) :
    (getDie (advanceFence s f) d).fenceMap = f (getDie s d).fenceMap := by
  have hmem : d ∈ upFrom 0 4 := by simp [upFrom_eq_range', hd]
  have hnodup : (upFrom 0 4).Nodup := by decide
  have hdie := getDie_foldl_modDie
    (fun x => { x with oldMaps := tset 0 x.oldMaps s.dev.fenceGen x.fenceMap, fenceMap := f x.fenceMap }) _ hnodup s d
  rw [if_pos hmem] at hdie
  exact congrArg Die.fenceMap hdie

@[simp] theorem advanceFence_cores (s : State) (f : BitVec 1024 → BitVec 1024) : (advanceFence s f).cores = s.cores := rfl
@[simp] theorem advanceFence_clusters (s : State) (f : BitVec 1024 → BitVec 1024) : (advanceFence s f).clusters = s.clusters := rfl
@[simp] theorem advanceFence_mgmt (s : State) (f : BitVec 1024 → BitVec 1024) : (advanceFence s f).mgmt = s.mgmt := rfl

/-! ### A cluster's self-tests (R107, R112; log 79) -/

/-- The self-tests of core `n`, as its MTESTRUN counts them. -/
def coreTests (s : State) (n : Nat) : State :=
  modCore s n (fun c => { c with meCount := tset 0 c.meCount 4 ((tget 0 c.meCount 4 + (34 - macrosOutOf s n)) % 2 ^ 64) })

theorem clusterTests_eq_foldl (s : State) (k : Nat) : clusterTests s k = (upFrom (64 * k) 64).foldl coreTests s := rfl

/-- What a core's tests leave alone, the tests of a cluster leave alone. -/
theorem clusterTests_keeps {α : Type} (view : State → α) (hcore : ∀ s n, view (coreTests s n) = view s) (s : State) (k : Nat) :
    view (clusterTests s k) = view s :=
  List.foldlRecOn (motive := fun t => view t = view s) _ coreTests rfl (fun t ht n _ => (hcore t n).trans ht)

@[simp] theorem clusterTests_clusters (s : State) (k : Nat) : (clusterTests s k).clusters = s.clusters :=
  clusterTests_keeps (·.clusters) (fun _ _ => rfl) s k
@[simp] theorem clusterTests_dies (s : State) (k : Nat) : (clusterTests s k).dies = s.dies :=
  clusterTests_keeps (·.dies) (fun _ _ => rfl) s k
@[simp] theorem clusterTests_mgmt (s : State) (k : Nat) : (clusterTests s k).mgmt = s.mgmt :=
  clusterTests_keeps (·.mgmt) (fun _ _ => rfl) s k

/-- MTESTRUN of a core. -/
def testRuns (s : State) (n : Nat) : Nat := tget 0 (getCore s n).meCount 4

theorem testRuns_coreTests_same (s : State) (n : Nat) :
    testRuns (coreTests s n) n = (testRuns s n + (34 - macrosOutOf s n)) % 2 ^ 64 := by
  simp [testRuns, coreTests]

theorem testRuns_coreTests_ne (s : State) {n m : Nat} (h : m ≠ n) : testRuns (coreTests s n) m = testRuns s m := by
  simp [testRuns, coreTests, getCore_modCore_ne s n m _ h]

/-- The tests of a list of cores: each core of it counts its own, once. -/
theorem testRuns_foldl_coreTests (ns : List Nat) (hns : ns.Nodup) (s : State) (n : Nat) :
    testRuns (ns.foldl coreTests s) n =
      if n ∈ ns then (testRuns s n + (34 - macrosOutOf s n)) % 2 ^ 64 else testRuns s n := by
  induction ns generalizing s with
  | nil => rfl
  | cons m ns ih =>
    obtain ⟨hm, hrest⟩ := List.nodup_cons.mp hns
    have hout : macrosOutOf (coreTests s m) n = macrosOutOf s n := rfl
    rw [List.foldl_cons, ih hrest, hout]
    by_cases hn : n = m
    · subst hn
      simp [hm, testRuns_coreTests_same]
    · simp [hn, testRuns_coreTests_ne s hn]

theorem testRuns_clusterTests (s : State) {k n : Nat} (hn : n / 64 = k) :
    testRuns (clusterTests s k) n = (testRuns s n + (34 - macrosOutOf s n)) % 2 ^ 64 := by
  have hmem : n ∈ upFrom (64 * k) 64 := by
    rw [upFrom_eq_range', List.mem_range'_1]
    omega
  have hnodup : (upFrom (64 * k) 64).Nodup := by
    rw [upFrom_eq_range']
    exact List.nodup_range'
  rw [clusterTests_eq_foldl, testRuns_foldl_coreTests _ hnodup, if_pos hmem]

/-- MTESTRUN stands in the core's registers alone. -/
theorem testRuns_congr {s t : State} (h : s.cores = t.cores) (n : Nat) : testRuns s n = testRuns t n := by
  simp [testRuns, getCore, h]

/-! ### A cluster qualified (R371) -/

/-- Cluster `k` out of reset and counted among those in service, its cores not yet placed. -/
def clusterOpened (s : State) (k : Nat) : State :=
  modBoot (modCluster s k (fun c => { c with outOfReset := true })) (fun b => { b with clusters := b.clusters ||| (1#16 <<< k) })

theorem qualify_eq_advanceFence (s : State) (k : Nat) :
    qualify s k = advanceFence (clusterOpened s k) (fun m => m &&& ~~~(clusterCores k &&& ~~~(recordMap s))) := rfl

@[simp] theorem qualify_cores (s : State) (k : Nat) : (qualify s k).cores = s.cores := by
  rw [qualify_eq_advanceFence, advanceFence_cores]
  rfl

@[simp] theorem qualify_mgmt (s : State) (k : Nat) :
    (qualify s k).mgmt = { s.mgmt with boot := { s.mgmt.boot with clusters := s.mgmt.boot.clusters ||| (1#16 <<< k) } } := by
  rw [qualify_eq_advanceFence, advanceFence_mgmt]
  rfl

theorem qualify_outOfReset (s : State) (k : Nat) : (getCluster (qualify s k) k).outOfReset = true := by
  have h : getCluster (clusterOpened s k) k = getCluster (modCluster s k (fun c => { c with outOfReset := true })) k := rfl
  rw [qualify_eq_advanceFence, getCluster, advanceFence_clusters, ← getCluster, h, getCluster_modCluster]

/-- The cores of the cluster leave the fence map, but for those the records keep in it. -/
theorem qualify_fenceMap (s : State) (k : Nat) {d c : Nat} (hd : d < 4) (hc : c < 1024) :
    (getDie (qualify s k) d).fenceMap.getLsbD c =
      ((getDie s d).fenceMap.getLsbD c && !(c / 64 == k && !(recordMap s).getLsbD c)) := by
  have hdie : getDie (clusterOpened s k) d = getDie s d := rfl
  rw [qualify_eq_advanceFence, advanceFence_fenceMap _ _ hd, hdie]
  simp only [BitVec.getLsbD_and, BitVec.getLsbD_not, hc, getLsbD_clusterCores k hc, beq_eq_decide, decide_true, Bool.true_and]

/-! ### A cluster's turn (R369, R371) -/

/-- The turn taken, nothing else done yet. -/
def clusterTurn (s : State) (k : Nat) : State := modBoot s (fun b => { b with nextCluster := k + 1 })

theorem clusterStart_turn {s : State} {k : Nat} (hs : Starting s) (hk : s.mgmt.boot.nextCluster = k) (hlt : k < 16) (pass : Bool) :
    clusterStart s k pass = nextStage (if clusterOut s k then clusterTurn s k
      else if pass then qualify (clusterTests (clusterTurn s k) k) k else clusterTests (clusterTurn s k) k) := by
  have hnotPast : ¬ 16 ≤ k := Nat.not_le.mpr hlt
  have hturn : (!starting s || s.mgmt.boot.nextCluster != k || decide (16 ≤ k)) = false := by
    simp [starting_of_Starting hs, hk, hnotPast]
  unfold clusterStart
  rw [hturn]
  rfl

/-- The state before the start sequence moves on, where the tests of a cluster in service pass. -/
def clusterPassed (s : State) (k : Nat) : State := qualify (clusterTests (clusterTurn s k) k) k

theorem clusterPassed_boot (s : State) (k : Nat) : (clusterPassed s k).mgmt.boot =
    { s.mgmt.boot with nextCluster := k + 1, clusters := s.mgmt.boot.clusters ||| (1#16 <<< k) } := by
  simp [clusterPassed, clusterTurn, modBoot]

theorem clusterPassed_flash (s : State) (k : Nat) : (clusterPassed s k).mgmt.flash = s.mgmt.flash := by
  simp [clusterPassed, clusterTurn, modBoot]

theorem clusterPassed_fenceMap (s : State) (k : Nat) {d c : Nat} (hd : d < 4) (hc : c < 1024) :
    (getDie (clusterPassed s k) d).fenceMap.getLsbD c =
      ((getDie s d).fenceMap.getLsbD c && !(c / 64 == k && !(recordMap s).getLsbD c)) := by
  have hdies : getDie (clusterTests (clusterTurn s k) k) d = getDie s d :=
    clusterTests_keeps (getDie · d) (fun _ _ => rfl) (clusterTurn s k) k
  have hrecords : recordMap (clusterTests (clusterTurn s k) k) = recordMap s :=
    clusterTests_keeps recordMap (fun _ _ => rfl) (clusterTurn s k) k
  rw [clusterPassed, qualify_fenceMap _ k hd hc, hdies, hrecords]

section ClusterTurn

variable {s : State} {k : Nat} (hs : Starting s) (hk : s.mgmt.boot.nextCluster = k) (hlt : k < 16)
include hs hk hlt

theorem clusterStart_pass (hin : clusterOut s k = false) : clusterStart s k true = nextStage (clusterPassed s k) := by
  simp [clusterStart_turn hs hk hlt, hin, clusterPassed]

theorem clusterStart_fail_frame :
    (clusterStart s k false).clusters = s.clusters ∧ (clusterStart s k false).dies = s.dies ∧
      (clusterStart s k false).mgmt.boot.clusters = s.mgmt.boot.clusters ∧
      (clusterStart s k false).mgmt.boot.nextCluster = k + 1 := by
  rw [clusterStart_turn hs hk hlt]
  cases clusterOut s k <;> simp [clusterTurn, modBoot]

/-- R112: the tests of a cluster in service are counted, pass or fail. -/
theorem clusterStart_testRuns (hin : clusterOut s k = false) (pass : Bool) {n : Nat} (hn : n / 64 = k) :
    testRuns (clusterStart s k pass) n = (testRuns s n + (34 - macrosOutOf s n)) % 2 ^ 64 := by
  have hcores : (clusterStart s k pass).cores = (clusterTests (clusterTurn s k) k).cores := by
    cases pass <;> simp [clusterStart_turn hs hk hlt, hin]
  rw [testRuns_congr hcores, testRuns_clusterTests _ hn]
  rfl

theorem clusterStart_pass_units (hin : clusterOut s k = false) :
    (getCluster (clusterStart s k true) k).outOfReset = true ∧
      (clusterStart s k true).mgmt.boot.clusters = s.mgmt.boot.clusters ||| (1#16 <<< k) ∧
      (clusterStart s k true).mgmt.boot.nextCluster = k + 1 ∧
      (∀ d c, d < 4 → c < 1024 → (getDie (clusterStart s k true) d).fenceMap.getLsbD c =
        ((getDie s d).fenceMap.getLsbD c && !(c / 64 == k && !(recordMap s).getLsbD c))) := by
  rw [clusterStart_pass hs hk hlt hin]
  refine ⟨?_, ?_, ?_, fun d c hd hc => ?_⟩
  · rw [getCluster, nextStage_clusters]
    exact qualify_outOfReset _ k
  · rw [nextStage_boot_clusters, clusterPassed_boot]
  · rw [nextStage_boot_nextCluster, clusterPassed_boot]
  · rw [getDie, nextStage_dies]
    exact clusterPassed_fenceMap s k hd hc

theorem clusterStart_pass_gotThrough (hin : clusterOut s k = false) (h6 : s.mgmt.boot.stage = 6)
    (hpair : pairUp s.mgmt.boot = true) : GotThrough (clusterStart s k true) := by
  have hboot := clusterPassed_boot s k
  rw [clusterStart_pass hs hk hlt hin]
  apply gotThrough_nextStage
  · rw [hboot, h6]
  · rw [hboot]
    exact hpair
  · rw [hboot]
    exact or_one_shiftLeft_ne_zero _ hlt

theorem clusterStart_pass_lastTurn (hin : clusterOut s k = false) (h15 : k = 15) (hpairs : s.mgmt.boot.nextPair = 4)
    (hpair : pairUp s.mgmt.boot = true) :
    (clusterStart s k true).mgmt.boot.stage = 8 ∧
      (clusterStart s k true).mgmt.flash.minsvn = max s.mgmt.flash.minsvn s.mgmt.flash.contents.svn.toNat := by
  have hboot := clusterPassed_boot s k
  have hlast : LastTurn (clusterPassed s k) := by
    rw [LastTurn, hboot, h15]
    exact ⟨hpairs, rfl⟩
  rw [clusterStart_pass hs hk hlt hin, ← clusterPassed_flash s k]
  apply nextStage_lastTurn _ _ _ hlast
  · rw [hboot]
    exact hs.1
  · rw [hboot]
    exact hpair
  · rw [hboot]
    exact or_one_shiftLeft_ne_zero _ hlt

end ClusterTurn

/-! ### Training records (R370) -/

theorem find?_tins_same {α : Type} (t : Tbl α) (k : Nat) (v : α) (h : ∀ e ∈ t, e.1 ≠ k) :
    (tins t k v).find? (fun e => e.1 == k) = some (k, v) := by
  induction t with
  | nil => simp [tins]
  | cons e r ih =>
    have hhead : e.1 ≠ k := h e (by simp)
    have hrest := ih (fun x hx => h x (by simp [hx]))
    unfold tins
    split_ifs
    · simp
    · simp [hhead, hrest]

theorem find?_tins_ne {α : Type} (t : Tbl α) {k j : Nat} (v : α) (h : j ≠ k) :
    (tins t k v).find? (fun e => e.1 == j) = t.find? (fun e => e.1 == j) := by
  induction t with
  | nil => simp [tins, h.symm]
  | cons e r ih =>
    unfold tins
    split_ifs
    · simp [h.symm]
    · simp only [List.find?_cons, ih]

theorem find?_filter_ne {α : Type} (t : Tbl α) {k j : Nat} (h : j ≠ k) :
    (t.filter (fun e => e.1 != k)).find? (fun e => e.1 == j) = t.find? (fun e => e.1 == j) := by
  rw [List.find?_filter]
  congr 1
  funext e
  by_cases he : e.1 = j <;> simp [he, h]

/-- The training record of a stack. -/
def trainingOf (s : State) (k : Nat) : Option (Nat × TrainRec) := s.mgmt.flash.training.find? (fun e => e.1 == k)

theorem trainingOf_putTraining_same (s : State) (k : Nat) (r : TrainRec) : trainingOf (putTraining s k r) k = some (k, r) :=
  find?_tins_same _ k r (fun e he => by simpa using (List.mem_filter.mp he).2)

theorem trainingOf_putTraining_ne (s : State) {k j : Nat} (r : TrainRec) (h : j ≠ k) :
    trainingOf (putTraining s k r) j = trainingOf s j :=
  (find?_tins_ne _ r h).trans (find?_filter_ne _ h)

/-! ### A stack's turn (R9, R370) -/

/-- A stack put in service. -/
def bringUp (s : State) (k : Nat) : State :=
  modBoot (modStack s k (fun x => { x with inService := true })) (fun b => { b with stacksUp := b.stacksUp ||| (1#8 <<< k) })

/-- The record of a stack that trained, its bytes a free word (log 68). -/
def trainedRecord (s : State) (y : Training) : TrainRec :=
  let bytes := bytesOf 8 (takeFree s).1.toNat
  { bytes := bytes, temperature := y.temperature, digest := trainDigest bytes y.temperature }

/-- The record of a stack that did not train. -/
def failedRecord (k : Nat) (y : Training) : TrainRec :=
  { bytes := [], temperature := y.temperature, digest := trainDigest [] y.temperature, failedStack := some k }

theorem stackStart_out {s : State} {k : Nat} (y : Training) (hout : stackOutOf s k = true) : stackStart s k y = s := by
  simp [stackStart, hout]

theorem stackStart_restored {s : State} {k : Nat} {y : Training} (hin : stackOutOf s k = false) (hr : restores s k y = true) :
    stackStart s k y = bringUp s k := by
  simp [stackStart, hin, hr, bringUp]

theorem stackStart_trained {s : State} {k : Nat} {y : Training} (hin : stackOutOf s k = false) (hr : restores s k y = false)
    (ht : y.trains = true) : stackStart s k y = putTraining (bringUp (takeFree s).2 k) k (trainedRecord s y) := by
  simp [stackStart, hin, hr, ht, bringUp, trainedRecord]

theorem stackStart_failed {s : State} {k : Nat} {y : Training} (hin : stackOutOf s k = false) (hr : restores s k y = false)
    (ht : y.trains = false) : stackStart s k y = putTraining s k (failedRecord k y) := by
  simp [stackStart, hin, hr, ht, failedRecord]

/-- What the parts of a stack's turn leave alone, the turn leaves alone. -/
theorem stackStart_keeps {α : Type} (view : State → α) {k : Nat} (hup : ∀ s, view (bringUp s k) = view s)
    (hput : ∀ s r, view (putTraining s k r) = view s) (hfree : ∀ s, view (takeFree s).2 = view s) (s : State) (y : Training) :
    view (stackStart s k y) = view s := by
  cases hout : stackOutOf s k with
  | true => rw [stackStart_out y hout]
  | false =>
    cases hr : restores s k y with
    | true => rw [stackStart_restored hout hr, hup]
    | false =>
      cases ht : y.trains with
      | true => rw [stackStart_trained hout hr ht, hput, hup, hfree]
      | false => rw [stackStart_failed hout hr ht, hput]

@[simp] theorem stackStart_boot_nextPair (s : State) (k : Nat) (y : Training) :
    (stackStart s k y).mgmt.boot.nextPair = s.mgmt.boot.nextPair :=
  stackStart_keeps (·.mgmt.boot.nextPair) (fun _ => rfl) (fun _ _ => rfl) (fun _ => rfl) s y

/-- All of a state that a stack's turn reads or sets of its stack. -/
structure StackView where
  stack : Stack
  up : Bool
  cold : Bool
  training : Option (Nat × TrainRec)
  records : List RecordContent

def stackView (s : State) (k : Nat) : StackView :=
  { stack := getStack s k, up := s.mgmt.boot.stacksUp.getLsbD k, cold := s.mgmt.boot.cold
    training := trainingOf s k, records := contents s }

theorem getStack_modStack_ne (s : State) {k j : Nat} (f : Stack → Stack) (h : j ≠ k) : getStack (modStack s k f) j = getStack s j := by
  simp [getStack, modStack, tget_tset_ne _ _ _ _ _ h]

theorem stackView_bringUp_ne (s : State) {k j : Nat} (hj : j < 8) (h : j ≠ k) : stackView (bringUp s k) j = stackView s j := by
  have hstack : getStack (bringUp s k) j = getStack s j :=
    getStack_modStack_ne s (fun x => { x with inService := true }) h
  have hbit : (bringUp s k).mgmt.boot.stacksUp.getLsbD j = s.mgmt.boot.stacksUp.getLsbD j := by
    simp [bringUp, modBoot, getLsbD_one_shiftLeft k hj, h]
  unfold stackView
  rw [hstack, hbit]
  rfl

theorem stackView_putTraining_ne (s : State) {k j : Nat} (r : TrainRec) (h : j ≠ k) :
    stackView (putTraining s k r) j = stackView s j := by
  unfold stackView
  rw [trainingOf_putTraining_ne s r h]
  rfl

/-- The turn of one stack is nothing to another. -/
theorem stackView_stackStart_ne (s : State) {k j : Nat} (y : Training) (hj : j < 8) (h : j ≠ k) :
    stackView (stackStart s k y) j = stackView s j :=
  stackStart_keeps (stackView · j) (fun s => stackView_bringUp_ne s hj h) (fun s r => stackView_putTraining_ne s r h)
    (fun _ => rfl) s y

theorem stackView_nextStage (s : State) (k : Nat) : stackView (nextStage s) k = stackView s k :=
  nextStage_keeps (stackView · k) (fun _ _ => rfl) (fun _ => rfl) (fun _ => rfl) s

theorem stackOutOf_of_view {s t : State} {k : Nat} (h : stackView s k = stackView t k) : stackOutOf s k = stackOutOf t k := by
  have hrecords : contents s = contents t := congrArg StackView.records h
  simp only [stackOutOf, hrecords]

theorem restores_of_view {s t : State} {k : Nat} (y : Training) (h : stackView s k = stackView t k) :
    restores s k y = restores t k y := by
  have hcold : s.mgmt.boot.cold = t.mgmt.boot.cold := congrArg StackView.cold h
  have htraining : s.mgmt.flash.training.find? (fun e => e.1 == k) = t.mgmt.flash.training.find? (fun e => e.1 == k) :=
    congrArg StackView.training h
  simp only [restores, hcold, htraining]

/-- R370: stack `k` comes up from `s` to `t` where it is restored or trains, and a stack that was to be trained has its new
record, which says whether it failed. -/
def StackTurn (s t : State) (k : Nat) (y : Training) : Prop :=
  (getStack t k).inService = ((getStack s k).inService || (!stackOutOf s k && (restores s k y || y.trains))) ∧
  t.mgmt.boot.stacksUp.getLsbD k = (s.mgmt.boot.stacksUp.getLsbD k || (!stackOutOf s k && (restores s k y || y.trains))) ∧
  (stackOutOf s k = false → restores s k y = false → ∃ r, trainingOf t k = some (k, r) ∧ r.temperature = y.temperature ∧
    r.digest = trainDigest r.bytes y.temperature ∧ r.failedStack = (if y.trains then none else some k))

/-- A stack's turn is about its own view alone, before and after. -/
theorem StackTurn.of_views {s s' t t' : State} {k : Nat} {y : Training} (h : StackTurn s t k y)
    (hs : stackView s' k = stackView s k) (ht : stackView t' k = stackView t k) : StackTurn s' t' k y := by
  have hout : stackOutOf s' k = stackOutOf s k := stackOutOf_of_view hs
  have hrestores : restores s' k y = restores s k y := restores_of_view y hs
  have hstack : getStack s' k = getStack s k := congrArg StackView.stack hs
  have hup : s'.mgmt.boot.stacksUp.getLsbD k = s.mgmt.boot.stacksUp.getLsbD k := congrArg StackView.up hs
  have hstack' : getStack t' k = getStack t k := congrArg StackView.stack ht
  have hup' : t'.mgmt.boot.stacksUp.getLsbD k = t.mgmt.boot.stacksUp.getLsbD k := congrArg StackView.up ht
  have htraining' : trainingOf t' k = trainingOf t k := congrArg StackView.training ht
  unfold StackTurn
  rw [hout, hrestores, hstack, hup, hstack', hup', htraining']
  exact h

theorem bringUp_inService (s : State) (k : Nat) : (getStack (bringUp s k) k).inService = true := by
  have h : getStack (bringUp s k) k = getStack (modStack s k (fun x => { x with inService := true })) k := rfl
  rw [h, getStack_modStack]

theorem bringUp_stacksUp (s : State) {k : Nat} (hk : k < 8) : (bringUp s k).mgmt.boot.stacksUp.getLsbD k = true := by
  simp [bringUp, modBoot, getLsbD_one_shiftLeft k hk]

theorem stackTurn_stackStart (s : State) {k : Nat} (y : Training) (hk : k < 8) : StackTurn s (stackStart s k y) k y := by
  unfold StackTurn
  cases hout : stackOutOf s k with
  | true => simp [stackStart_out y hout]
  | false =>
    cases hr : restores s k y with
    | true => simp [stackStart_restored hout hr, bringUp_inService, bringUp_stacksUp s hk]
    | false =>
      cases ht : y.trains with
      | true =>
        rw [stackStart_trained hout hr ht]
        have hservice : (getStack (putTraining (bringUp (takeFree s).2 k) k (trainedRecord s y)) k).inService = true :=
          bringUp_inService _ k
        have hbit : (putTraining (bringUp (takeFree s).2 k) k (trainedRecord s y)).mgmt.boot.stacksUp.getLsbD k = true :=
          bringUp_stacksUp _ hk
        simp only [hservice, hbit, Bool.not_false, Bool.and_true, Bool.or_true, true_and]
        exact fun _ _ => ⟨_, trainingOf_putTraining_same _ k _, rfl, rfl, rfl⟩
      | false =>
        rw [stackStart_failed hout hr ht]
        refine ⟨(Bool.or_false _).symm, (Bool.or_false _).symm, fun _ _ => ?_⟩
        exact ⟨_, trainingOf_putTraining_same _ k _, rfl, rfl, rfl⟩

/-! ### A pair's turn (R370) -/

/-- The turn of a pair taken, nothing else done yet. -/
def pairTurn (s : State) (p : Nat) : State := modBoot s (fun b => { b with nextPair := p + 1 })

section PairTurn

variable {s : State} {p : Nat} (hs : Starting s) (hp : s.mgmt.boot.nextPair = p) (hlt : p < 4)
include hs hp hlt

theorem stackPairStart_turn (lo hi : Training) :
    stackPairStart s p lo hi = nextStage (stackStart (stackStart (pairTurn s p) (2 * p) lo) (2 * p + 1) hi) := by
  have hnotPast : ¬ 4 ≤ p := Nat.not_le.mpr hlt
  have hturn : (!starting s || s.mgmt.boot.nextPair != p || decide (4 ≤ p)) = false := by
    simp [starting_of_Starting hs, hp, hnotPast]
  unfold stackPairStart
  rw [hturn]
  rfl

theorem stackPairStart_nextPair (lo hi : Training) : (stackPairStart s p lo hi).mgmt.boot.nextPair = p + 1 := by
  rw [stackPairStart_turn hs hp hlt, nextStage_boot_nextPair, stackStart_boot_nextPair, stackStart_boot_nextPair]
  rfl

theorem stackTurn_lower (lo hi : Training) : StackTurn s (stackPairStart s p lo hi) (2 * p) lo := by
  rw [stackPairStart_turn hs hp hlt]
  refine (stackTurn_stackStart (pairTurn s p) lo (by omega)).of_views rfl ?_
  rw [stackView_nextStage, stackView_stackStart_ne _ hi (by omega) (by omega)]

theorem stackTurn_upper (lo hi : Training) : StackTurn s (stackPairStart s p lo hi) (2 * p + 1) hi := by
  rw [stackPairStart_turn hs hp hlt]
  refine (stackTurn_stackStart (stackStart (pairTurn s p) (2 * p) lo) hi (by omega)).of_views ?_ (stackView_nextStage _ _)
  rw [stackView_stackStart_ne _ lo (by omega) (by omega)]
  rfl

end PairTurn

/-! ### Attestation (R368; log 37) -/

theorem attestationReport_of_driver {s : State} {n seed : Nat} {nonce : List Byte} {x : Session} (hx : getSession s n = some x)
    (hdriver : x.driver = true) (hseed : s.mgmt.identity = some seed) (hsprout : s.mgmt.boot.sprout = false)
    (hnonce : nonce.length = 32) :
    attestationReport s n nonce = sendOut s (sealed x n 0 0 0 0 (reportHead s nonce ++ Config.mldsaPublic seed ++
      Config.mldsaSign seed (digestBytes (reportHead s nonce)))) := by
  have hsession : tget none s.mgmt.sessions n = some x := hx
  simp [attestationReport, hsession, hseed, hdriver, hsprout, hnonce]

/-- Settles O46: the turn of a cluster, the turn of a pair of stacks and the report, each from its own lemmas. -/
theorem unitsStart : Obligations.UnitsStart := by
  unfold Obligations.UnitsStart
  intro s hawake
  refine ⟨fun k hs hk hlt => ⟨fun hin => ?_, ?_, fun hin pass => ?_⟩, fun p lo hi hs hp hlt => ?_,
    fun n nonce x seed hx hdriver hseed hsprout hnonce => ?_⟩
  · obtain ⟨hreset, hclusters, hnext, hfence⟩ := clusterStart_pass_units hs hk hlt hin
    exact ⟨_, exec_clusterStart_of_awake hawake k _, hreset, hclusters, hnext, hfence, clusterStart_pass_gotThrough hs hk hlt hin,
      clusterStart_pass_lastTurn hs hk hlt hin⟩
  · exact ⟨_, exec_clusterStart_of_awake hawake k _, clusterStart_fail_frame hs hk hlt⟩
  · exact ⟨_, exec_clusterStart_of_awake hawake k _, fun n hn => clusterStart_testRuns hs hk hlt hin pass hn⟩
  · refine ⟨_, exec_stackPairStart_of_awake hawake p lo hi, stackPairStart_nextPair hs hp hlt lo hi, fun k y hky => ?_⟩
    simp only [List.mem_cons, Prod.mk.injEq, List.not_mem_nil, or_false] at hky
    rcases hky with ⟨rfl, rfl⟩ | ⟨rfl, rfl⟩
    · exact stackTurn_lower hs hp hlt _ hi
    · exact stackTurn_upper hs hp hlt lo _
  · exact congrArg Host.Outcome.next (attestationReport_of_driver hx hdriver hseed hsprout hnonce)

end Sys2Proof.Machine

/-!
# The ledger: what memory accesses and reports leave alone (R104, R247, R334, R374)

Instances, channels, firings, launches and the clocks stand apart from what an access to memory drags along: tile entries,
monitors, macro records, translation caches, burst counters. The ledger is the first part, and every such act has its rule
here: it leaves the ledger alone.
-/

namespace Sys2Proof.Machine

/-! ### Folds and tables -/

/-- What each act of a list leaves alone, the list leaves alone. -/
theorem foldl_keeps {α β : Type} (view : State → α) (f : State → β → State) (h : ∀ s b, view (f s b) = view s) (l : List β)
    (s : State) : view (l.foldl f s) = view s := by
  induction l generalizing s with
  | nil => rfl
  | cons b l ih => rw [List.foldl_cons, ih, h]

/-- A table with every value changed: the change of the value found. -/
theorem tget_map {α : Type} (d : α) (f : Nat → α → α) (t : Tbl α) (k : Nat) (hd : f k d = d) :
    tget d (t.map (fun e => (e.1, f e.1 e.2))) k = f k (tget d t k) := by
  induction t with
  | nil => exact hd.symm
  | cons e r ih =>
    obtain ⟨j, v⟩ := e
    by_cases hj : k = j
    · simp [tget, hj]
    · simpa [tget, hj] using ih

/-- What every change of a table's values leaves alone is read from the table as before. -/
theorem tget_map_keeps {α β : Type} (view : α → β) (d : α) (f : Nat → α → α) (h : ∀ k v, view (f k v) = view v) (t : Tbl α)
    (k : Nat) : view (tget d (t.map (fun e => (e.1, f e.1 e.2))) k) = view (tget d t k) := by
  induction t with
  | nil => rfl
  | cons e r ih =>
    obtain ⟨j, v⟩ := e
    by_cases hj : k = j
    · simp [tget, hj, h]
    · simpa [tget, hj] using ih

/-! ### The ledger -/

/-- A core's instances, channels, firings by context, commits and releases. -/
structure CoreLedger where
  insts : Tbl (Option Inst)
  chans : Tbl (Option Chan)
  firings : Nat → Option Firing
  commits : List Commit
  releases : List Release

def coreLedger (c : Core) : CoreLedger :=
  { insts := c.insts, chans := c.chans, firings := fun x => (tget {} c.ctxs x).firing, commits := c.commits, releases := c.releases }

structure Ledger where
  cores : Nat → CoreLedger
  launches : Tbl Launch
  spaces : Tbl Space
  migrations : Tbl Migration
  raswidx : Nat
  power : Power
  time : Nat
  cycle : Nat
  epoch : Nat
  cur : StreamId

def ledger (s : State) : Ledger :=
  { cores := fun n => coreLedger (getCore s n), launches := s.dev.launches, spaces := s.dev.spaces, migrations := s.dev.migrations
    raswidx := s.dev.raswidx, power := s.mgmt.power, time := s.time, cycle := s.cycle, epoch := s.epoch, cur := s.cur }

/-- The firing of a context. -/
def firingOf (s : State) (n c : Nat) : Option Firing := (getCtx s n c).firing

section
variable {s t : State} (h : ledger t = ledger s)
include h

theorem getInst_of_ledger (n k : Nat) : getInst t n k = getInst s n k :=
  congrArg (fun l : Ledger => tget none (l.cores n).insts k) h
theorem getChan_of_ledger (n k : Nat) : getChan t n k = getChan s n k :=
  congrArg (fun l : Ledger => tget none (l.cores n).chans k) h
theorem firingOf_of_ledger (n c : Nat) : firingOf t n c = firingOf s n c :=
  congrArg (fun l : Ledger => (l.cores n).firings c) h
theorem commits_of_ledger (n : Nat) : (getCore t n).commits = (getCore s n).commits :=
  congrArg (fun l : Ledger => (l.cores n).commits) h
theorem getLaunch_of_ledger (e : Nat) : getLaunch t e = getLaunch s e :=
  congrArg (fun l : Ledger => tget ({} : Launch) l.launches e) h
theorem migrations_of_ledger : t.dev.migrations = s.dev.migrations := congrArg Ledger.migrations h
theorem raswidx_of_ledger : t.dev.raswidx = s.dev.raswidx := congrArg Ledger.raswidx h
theorem epoch_of_ledger : t.epoch = s.epoch := congrArg Ledger.epoch h
theorem cur_of_ledger : t.cur = s.cur := congrArg Ledger.cur h
theorem watchTime_of_ledger : watchTime t = watchTime s :=
  congrArg (fun l : Ledger => if l.power.busy then l.power.began else l.time) h

end

theorem ledger_modCore (s : State) (n : Nat) (f : Core → Core) (h : coreLedger (f (getCore s n)) = coreLedger (getCore s n)) :
    ledger (modCore s n f) = ledger s := by
  have hcores : (fun m => coreLedger (getCore (modCore s n f) m)) = fun m => coreLedger (getCore s m) := by
    funext m
    by_cases hm : m = n
    · rw [hm, getCore_modCore, h]
    · rw [getCore_modCore_ne s n m f hm]
  simp [ledger, hcores]

/-- Every core changed in what the ledger does not hold. -/
theorem ledger_mapCores (s : State) (f : Nat → Core → Core) (h : ∀ n c, coreLedger (f n c) = coreLedger c) :
    ledger { s with cores := s.cores.map (fun e => (e.1, f e.1 e.2)) } = ledger s := by
  have hcores : (fun m => coreLedger (getCore { s with cores := s.cores.map (fun e => (e.1, f e.1 e.2)) } m)) =
      fun m => coreLedger (getCore s m) :=
    funext fun m => tget_map_keeps coreLedger {} f h s.cores m
  simp [ledger, hcores]

theorem ledger_modCtx (s : State) (n c : Nat) (f : Ctx → Ctx) (h : (f (getCtx s n c)).firing = (getCtx s n c).firing) :
    ledger (modCtx s n c f) = ledger s := by
  apply ledger_modCore
  have hfirings : (fun x => (tget {} (tset {} (getCore s n).ctxs c (f (getCtx s n c))) x).firing) =
      fun x => (tget {} (getCore s n).ctxs x).firing := by
    funext x
    by_cases hx : x = c
    · rw [hx, tget_tset_same, h]
      rfl
    · rw [tget_tset_ne _ _ _ _ _ hx]
  exact congrArg (fun x => { coreLedger (getCore s n) with firings := x }) hfirings

@[simp] theorem ledger_setStream (s : State) (w : StreamId) (x : Stream) : ledger (setStream s w x) = ledger s := by
  apply ledger_modCore
  split <;> rfl
@[simp] theorem ledger_modStream (s : State) (w : StreamId) (f : Stream → Stream) : ledger (modStream s w f) = ledger s :=
  ledger_setStream s w _
@[simp] theorem ledger_modDie (s : State) (d : Nat) (f : Die → Die) : ledger (modDie s d f) = ledger s := rfl
@[simp] theorem ledger_modCluster (s : State) (k : Nat) (f : Cluster → Cluster) : ledger (modCluster s k f) = ledger s := rfl
@[simp] theorem ledger_modStack (s : State) (k : Nat) (f : Stack → Stack) : ledger (modStack s k f) = ledger s := rfl

@[simp] theorem ledger_modMgmt (s : State) (f : Mgmt → Mgmt) (h : (f s.mgmt).power = s.mgmt.power) : ledger (modMgmt s f) = ledger s := by
  simp only [ledger, modMgmt, getCore, h]

/-- R334: an entry of the event ring. -/
@[simp] theorem ledger_putEvent (s : State) (i j : Nat) (r : RingRec) :
    ledger (modDev s (fun d => { d with events := tset {} d.events i r, evtwidx := j })) = ledger s := rfl
/-- R378: an entry of the error log. -/
@[simp] theorem ledger_putError (s : State) (i j : Nat) (r : RingRec) :
    ledger (modDev s (fun d => { d with errors := tset {} d.errors i r, raswidx := j })) = { ledger s with raswidx := j } := rfl

/-! ### Counters -/

@[simp] theorem ledger_countUnits (s : State) (us : List Nat) : ledger (countUnits s us) = ledger s :=
  foldl_keeps ledger _ (fun s _ => ledger_modStack s _ _) us s
@[simp] theorem countUnits_mem (s : State) (us : List Nat) : (countUnits s us).mem = s.mem :=
  foldl_keeps (·.mem) _ (fun s _ => modStack_mem s _ _) us s
@[simp] theorem ledger_countBursts (s : State) (pa n : Nat) : ledger (countBursts s pa n) = ledger s := ledger_countUnits s _
@[simp] theorem countBursts_mem (s : State) (pa n : Nat) : (countBursts s pa n).mem = s.mem := countUnits_mem s _
@[simp] theorem ledger_countPieces (s : State) (gs : List Seg) : ledger (countPieces s gs) = ledger s := ledger_countUnits s _
@[simp] theorem countPieces_mem (s : State) (gs : List Seg) : (countPieces s gs).mem = s.mem := countUnits_mem s _
@[simp] theorem ledger_countWalk (s : State) (rs : List Nat) : ledger (countWalk s rs) = ledger s :=
  foldl_keeps ledger _ (fun s a => ledger_countBursts s a 8) rs s
@[simp] theorem countWalk_mem (s : State) (rs : List Nat) : (countWalk s rs).mem = s.mem :=
  foldl_keeps (·.mem) _ (fun s a => countBursts_mem s a 8) rs s
@[simp] theorem ledger_addTraffic (s : State) (e : Nat) (gs : List Seg) : ledger (addTraffic s e gs) = ledger s := by
  unfold addTraffic
  dsimp only
  split <;> rfl
@[simp] theorem addTraffic_mem (s : State) (e : Nat) (gs : List Seg) : (addTraffic s e gs).mem = s.mem := by
  unfold addTraffic
  dsimp only
  split <;> rfl

/-! ### Stores to memory -/

@[simp] theorem ledger_spoil (s : State) (pa n : Nat) : ledger (spoil s pa n) = ledger s := by unfold spoil; split <;> rfl
@[simp] theorem ledger_hitMonitors (s : State) (pa n : Nat) : ledger (hitMonitors s pa n) = ledger s :=
  ledger_mapCores s (fun _ c => { c with cps := hitStreams pa n c.cps, aps := hitStreams pa n c.aps }) (fun _ _ => rfl)
@[simp] theorem ledger_memWrite (s : State) (pa n x : Nat) : ledger (memWrite s pa n x) = ledger s := by
  unfold memWrite
  rw [ledger_hitMonitors, ledger_spoil]
  rfl
@[simp] theorem ledger_memWriteBytes (s : State) (pa : Nat) (bs : List Byte) : ledger (memWriteBytes s pa bs) = ledger s :=
  ledger_memWrite s pa _ _

@[simp] theorem ledger_setDir (s : State) (r : DirRef) (e : DirEntry) : ledger (setDir s r e) = ledger s := by
  cases r with
  | acc n d => exact ledger_modCore s n _ rfl
  | slot n k => exact ledger_modCore s n _ rfl
  | region n t => exact ledger_modCore s n _ rfl
  | page b =>
    unfold setDir
    dsimp only
    split <;> rfl
@[simp] theorem setDir_mem (s : State) (r : DirRef) (e : DirEntry) : (setDir s r e).mem = s.mem := by
  cases r with
  | acc n d => rfl
  | slot n k => rfl
  | region n t => rfl
  | page b =>
    unfold setDir
    dsimp only
    split <;> rfl
@[simp] theorem ledger_touchTiles (s : State) (pa n : Nat) : ledger (touchTiles s pa n) = ledger s :=
  foldl_keeps ledger _ (fun s _ => ledger_setDir s _ _) _ s
@[simp] theorem touchTiles_mem (s : State) (pa n : Nat) : (touchTiles s pa n).mem = s.mem :=
  foldl_keeps (·.mem) _ (fun s _ => setDir_mem s _ _) _ s
@[simp] theorem ledger_reclassify (s : State) (c : Covered) : ledger (reclassify s c) = ledger s := by
  unfold reclassify
  dsimp only
  split <;> exact ledger_setDir s _ _

@[simp] theorem ledger_imageTo (s : State) (e n k : Nat) : ledger (imageTo s e n k) = ledger s := by simp [imageTo]
@[simp] theorem ledger_imageSlot (s : State) (n k : Nat) : ledger (imageSlot s n k) = ledger s :=
  foldl_keeps ledger _ (fun s _ => ledger_imageTo s _ _ _) _ s
@[simp] theorem ledger_tagByte (s : State) (n o : Nat) (b : Byte) : ledger (tagByte s n o b) = ledger s := by
  unfold tagByte
  dsimp only
  split_ifs <;> simp

@[simp] theorem ledger_storeMem (s : State) (pa n x : Nat) : ledger (storeMem s pa n x) = ledger s := by
  unfold storeMem
  split
  · rw [foldl_keeps ledger _ (fun s k => by simp)]
    simp
  · dsimp only
    rw [foldl_keeps ledger _ (fun s k => by simp), foldl_keeps ledger _ (fun s i => ledger_tagByte s _ _ _)]
  · rw [foldl_keeps ledger _ (fun s k => by simp)]
    simp
  · simp

@[simp] theorem ledger_dropBufs (s : State) (n : Nat) (ts : List Tile) : ledger (dropBufs s n ts) = ledger s := by
  unfold dropBufs
  split
  · rfl
  · exact ledger_modCore s n _ rfl
@[simp] theorem dropBufs_mem (s : State) (n : Nat) (ts : List Tile) : (dropBufs s n ts).mem = s.mem := by
  unfold dropBufs
  split <;> rfl
@[simp] theorem ledger_dropRows (s : State) (g : Seg) : ledger (dropRows s g) = ledger s :=
  foldl_keeps ledger _ (fun s _ => ledger_dropBufs s _ _) _ s
@[simp] theorem dropRows_mem (s : State) (g : Seg) : (dropRows s g).mem = s.mem :=
  foldl_keeps (·.mem) _ (fun s _ => dropBufs_mem s _ _) _ s

/-! ### Reports and pools -/

@[simp] theorem ledger_notifyAll (s : State) (who : Session → Bool) (addr : W64) (payload : List Byte) :
    ledger (notifyAll s who addr payload) = ledger s := ledger_modMgmt s _ rfl
@[simp] theorem notifyAll_mem (s : State) (who : Session → Bool) (addr : W64) (payload : List Byte) :
    (notifyAll s who addr payload).mem = s.mem := rfl
@[simp] theorem ledger_driverEvent (s : State) (code core ctx aux : Nat) (addr detail : W64) :
    ledger (driverEvent s code core ctx aux addr detail) = ledger s := by
  unfold driverEvent
  exact (ledger_notifyAll _ _ _ _).trans (ledger_putEvent s _ _ _)
@[simp] theorem driverEvent_mem (s : State) (code core ctx aux : Nat) (addr detail : W64) :
    (driverEvent s code core ctx aux addr detail).mem = s.mem := by
  unfold driverEvent
  exact (notifyAll_mem _ _ _ _).trans (modDev_mem s _)
/-- R378: an error record takes the next index, and changes nothing else of the ledger. -/
theorem ledger_logError (s : State) (type unit core ctx : Nat) (addr detail : W64) :
    ledger (logError s type unit core ctx addr detail) = { ledger s with raswidx := (s.dev.raswidx + 1) % 2 ^ 64 } := by
  unfold logError
  exact (ledger_driverEvent _ _ _ _ _ _ _).trans (ledger_putError s _ _ _)
@[simp] theorem ledger_setPool (s : State) (p : Nat) (x : Pool) : ledger (setPool s p x) = ledger s := by
  unfold setPool
  split <;> rfl
@[simp] theorem setPool_mem (s : State) (p : Nat) (x : Pool) : (setPool s p x).mem = s.mem := by
  unfold setPool
  split <;> rfl
@[simp] theorem ledger_modPool (s : State) (p : Nat) (f : Pool → Pool) : ledger (modPool s p f) = ledger s := ledger_setPool s p _
@[simp] theorem modPool_mem (s : State) (p : Nat) (f : Pool → Pool) : (modPool s p f).mem = s.mem := setPool_mem s p _
@[simp] theorem ledger_setFree (s : State) (p n : Nat) : ledger (setFree s p n) = ledger s := by
  unfold setFree
  dsimp only
  split <;> simp
@[simp] theorem ledger_donate (s : State) (p first n : Nat) : ledger (donate s p first n) = ledger s := by
  unfold donate
  dsimp only
  split <;> simp

/-! ### Translation and reads of a launch processor (R348, R352) -/

@[simp] theorem ledger_takeEnd (s : State) (u : WalkUnit) (asid va : Nat) : ledger (takeEnd s u asid va) = ledger s := by
  unfold takeEnd
  split <;> rfl
@[simp] theorem takeEnd_mem (s : State) (u : WalkUnit) (asid va : Nat) : (takeEnd s u asid va).mem = s.mem := by
  unfold takeEnd
  split <;> rfl
@[simp] theorem ledger_lpXlate (s : State) (die asid va : Nat) (a : Access) (n : Nat) :
    ledger (lpXlate s die asid va a n).2 = ledger s := by
  unfold lpXlate
  dsimp only
  split <;> simp
@[simp] theorem lpXlate_mem (s : State) (die asid va : Nat) (a : Access) (n : Nat) : (lpXlate s die asid va a n).2.mem = s.mem := by
  unfold lpXlate
  dsimp only
  split <;> simp [modDie]
@[simp] theorem ledger_freeBytes (s : State) (n : Nat) : ledger (freeBytes s n).2 = ledger s := by
  unfold freeBytes
  generalize upFrom 0 ((n + 7) / 8) = l
  suffices ∀ (l : List Nat) (r : Nat × State), ledger (l.foldl (fun r k => let w := takeFree r.2; (r.1 + w.1.toNat * 2 ^ (64 * k), w.2)) r).2 = ledger r.2
    from this l (0, s)
  intro l
  induction l with
  | nil => intro r; rfl
  | cons k l ih => intro r; rw [List.foldl_cons, ih]; rfl
@[simp] theorem ledger_readSeg (s : State) (g : Seg) : ledger (readSeg s g).2 = ledger s := by
  unfold readSeg readRaw
  split <;> simp

end Sys2Proof.Machine

/-!
# Instances, channels and their queues (R117, R118, R34)

What each act on one record leaves in that record, and that it leaves the others alone.
-/

namespace Sys2Proof.Machine

/-- What a core's change leaves alone in it is as it was in every core. -/
theorem core_modCore_keeps {α : Type} (view : Core → α) (s : State) (n : Nat) (f : Core → Core)
    (h : view (f (getCore s n)) = view (getCore s n)) (m : Nat) : view (getCore (modCore s n f) m) = view (getCore s m) := by
  by_cases hm : m = n
  · rw [hm, getCore_modCore, h]
  · rw [getCore_modCore_ne s n m f hm]

theorem getInst_modCore (s : State) (n : Nat) (f : Core → Core) (h : (f (getCore s n)).insts = (getCore s n).insts) (m j : Nat) :
    getInst (modCore s n f) m j = getInst s m j :=
  congrArg (tget none · j) (core_modCore_keeps (·.insts) s n f h m)
theorem getChan_modCore (s : State) (n : Nat) (f : Core → Core) (h : (f (getCore s n)).chans = (getCore s n).chans) (m j : Nat) :
    getChan (modCore s n f) m j = getChan s m j :=
  congrArg (tget none · j) (core_modCore_keeps (·.chans) s n f h m)
theorem firingOf_modCore (s : State) (n : Nat) (f : Core → Core) (h : (f (getCore s n)).ctxs = (getCore s n).ctxs) (m c : Nat) :
    firingOf (modCore s n f) m c = firingOf s m c :=
  congrArg (fun t => (tget ({} : Ctx) t c).firing) (core_modCore_keeps (·.ctxs) s n f h m)

/-! ### Instances -/

theorem getInst_setInst_ne (s : State) {n k m j : Nat} (x : Option Inst) (h : ¬ (m = n ∧ j = k)) :
    getInst (setInst s n k x) m j = getInst s m j := by
  unfold getInst setInst
  by_cases hm : m = n
  · rw [hm, getCore_modCore, tget_tset_ne _ _ _ _ _ (fun hj => h ⟨hm, hj⟩)]
  · rw [getCore_modCore_ne _ _ _ _ hm]

@[simp] theorem modInst_mem (s : State) (n k : Nat) (f : Inst → Inst) : (modInst s n k f).mem = s.mem := by
  unfold modInst
  split <;> rfl
@[simp] theorem modInst_dev (s : State) (n k : Nat) (f : Inst → Inst) : (modInst s n k f).dev = s.dev := by
  unfold modInst
  split <;> rfl
/-- The instance changed, and every other. -/
theorem getInst_modInst (s : State) (n k : Nat) (f : Inst → Inst) (m j : Nat) :
    getInst (modInst s n k f) m j = if m = n ∧ j = k then (getInst s m j).map f else getInst s m j := by
  unfold modInst
  by_cases h : m = n ∧ j = k
  · obtain ⟨rfl, rfl⟩ := h
    cases hi : getInst s m j <;> simp [hi]
  · cases hi : getInst s n k <;> simp [h, getInst_setInst_ne s _ h]
@[simp] theorem getInst_modInst_same (s : State) (n k : Nat) (f : Inst → Inst) :
    getInst (modInst s n k f) n k = (getInst s n k).map f := by
  simp [getInst_modInst]
@[simp] theorem getChan_setInst (s : State) (n k : Nat) (x : Option Inst) (m j : Nat) :
    getChan (setInst s n k x) m j = getChan s m j := getChan_modCore s n _ rfl m j
@[simp] theorem getChan_modInst (s : State) (n k : Nat) (f : Inst → Inst) (m j : Nat) :
    getChan (modInst s n k f) m j = getChan s m j := by
  unfold modInst
  split
  · exact getChan_setInst s n k _ m j
  · rfl
@[simp] theorem firingOf_modInst (s : State) (n k : Nat) (f : Inst → Inst) (m c : Nat) :
    firingOf (modInst s n k f) m c = firingOf s m c := by
  unfold modInst
  split
  · exact firingOf_modCore s n _ rfl m c
  · rfl
@[simp] theorem getStream_modInst (s : State) (n k : Nat) (f : Inst → Inst) (w : StreamId) :
    getStream (modInst s n k f) w = getStream s w := by
  unfold modInst
  split
  · unfold getStream setInst
    rw [core_modCore_keeps (·.aps) s n _ rfl, core_modCore_keeps (·.cps) s n _ rfl]
  · rfl
@[simp] theorem getLaunch_modInst (s : State) (n k : Nat) (f : Inst → Inst) (e : Nat) :
    getLaunch (modInst s n k f) e = getLaunch s e := by simp [getLaunch]
@[simp] theorem commits_modInst (s : State) (n k : Nat) (f : Inst → Inst) (m : Nat) :
    (getCore (modInst s n k f) m).commits = (getCore s m).commits := by
  unfold modInst
  split
  · exact core_modCore_keeps (·.commits) s n _ rfl m
  · rfl

/-! ### Channels -/

theorem getChan_setChan_ne (s : State) {n k m j : Nat} (x : Option Chan) (h : ¬ (m = n ∧ j = k)) :
    getChan (setChan s n k x) m j = getChan s m j := by
  unfold getChan setChan
  by_cases hm : m = n
  · rw [hm, getCore_modCore, tget_tset_ne _ _ _ _ _ (fun hj => h ⟨hm, hj⟩)]
  · rw [getCore_modCore_ne _ _ _ _ hm]

@[simp] theorem modChan_mem (s : State) (n k : Nat) (f : Chan → Chan) : (modChan s n k f).mem = s.mem := by
  unfold modChan
  split <;> rfl
@[simp] theorem modChan_dev (s : State) (n k : Nat) (f : Chan → Chan) : (modChan s n k f).dev = s.dev := by
  unfold modChan
  split <;> rfl
@[simp] theorem modChan_epoch (s : State) (n k : Nat) (f : Chan → Chan) : (modChan s n k f).epoch = s.epoch := by
  unfold modChan
  split <;> rfl
/-- The channel changed, and every other. -/
theorem getChan_modChan (s : State) (n k : Nat) (f : Chan → Chan) (m j : Nat) :
    getChan (modChan s n k f) m j = if m = n ∧ j = k then (getChan s m j).map f else getChan s m j := by
  unfold modChan
  by_cases h : m = n ∧ j = k
  · obtain ⟨rfl, rfl⟩ := h
    cases hi : getChan s m j <;> simp [hi]
  · cases hi : getChan s n k <;> simp [h, getChan_setChan_ne s _ h]
@[simp] theorem getChan_modChan_same (s : State) (n k : Nat) (f : Chan → Chan) :
    getChan (modChan s n k f) n k = (getChan s n k).map f := by
  simp [getChan_modChan]
@[simp] theorem getInst_setChan (s : State) (n k : Nat) (x : Option Chan) (m j : Nat) :
    getInst (setChan s n k x) m j = getInst s m j := getInst_modCore s n _ rfl m j
@[simp] theorem getInst_modChan (s : State) (n k : Nat) (f : Chan → Chan) (m j : Nat) :
    getInst (modChan s n k f) m j = getInst s m j := by
  unfold modChan
  split
  · exact getInst_setChan s n k _ m j
  · rfl
@[simp] theorem getLaunch_modChan (s : State) (n k : Nat) (f : Chan → Chan) (e : Nat) :
    getLaunch (modChan s n k f) e = getLaunch s e := by simp [getLaunch]
@[simp] theorem commits_setChan (s : State) (n k : Nat) (x : Option Chan) (m : Nat) :
    (getCore (setChan s n k x) m).commits = (getCore s m).commits := core_modCore_keeps (·.commits) s n _ rfl m
@[simp] theorem commits_modChan (s : State) (n k : Nat) (f : Chan → Chan) (m : Nat) :
    (getCore (modChan s n k f) m).commits = (getCore s m).commits := by
  unfold modChan
  split
  · exact commits_setChan s n k _ m
  · rfl

/-! ### A consumer's slots (R117) -/

theorem tailOf_advance_same (c : Chan) (k n : Nat) :
    tailOf { c with tails := tset 0 c.tails k (bump (tailOf c k) n) } k = (tailOf c k + n) % 2 ^ 32 :=
  tget_tset_same 0 c.tails k _
theorem tailOf_advance_ne (c : Chan) {k j : Nat} (v : Nat) (h : j ≠ k) :
    tailOf { c with tails := tset 0 c.tails k v } j = tailOf c j :=
  tget_tset_ne 0 c.tails k j v h

@[simp] theorem takeOne_mem (s : State) (p : Port) : (takeOne s p).mem = s.mem := modChan_mem s _ _ _
@[simp] theorem takeOne_dev (s : State) (p : Port) : (takeOne s p).dev = s.dev := modChan_dev s _ _ _
@[simp] theorem takeOne_epoch (s : State) (p : Port) : (takeOne s p).epoch = s.epoch := modChan_epoch s _ _ _
@[simp] theorem getInst_takeOne (s : State) (p : Port) (m j : Nat) : getInst (takeOne s p) m j = getInst s m j :=
  getInst_modChan s _ _ _ m j
@[simp] theorem getLaunch_takeOne (s : State) (p : Port) (e : Nat) : getLaunch (takeOne s p) e = getLaunch s e :=
  getLaunch_modChan s _ _ _ e
/-- R117: the next slot of a consumer taken. -/
theorem getChan_takeOne {s : State} {p : Port} {c : Chan} (h : getChan s p.core p.ch = some c) :
    getChan (takeOne s p) p.core p.ch = some { c with tails := tset 0 c.tails p.cons (bump (tailOf c p.cons) 1) } := by
  simp [takeOne, h]

/-! ### Commits posted (R118) -/

@[simp] theorem postCommit_mem (s : State) (c : Commit) : (postCommit s c).mem = s.mem := rfl
theorem getCore_postCommit (s : State) (c : Commit) (m : Nat) : getCore (postCommit s c) m =
    getCore (modCore s c.core (fun k => { k with commits := k.commits ++ [{ c with id := s.nextId }] })) m := rfl
@[simp] theorem getInst_postCommit (s : State) (c : Commit) (m j : Nat) : getInst (postCommit s c) m j = getInst s m j := by
  unfold getInst
  rw [getCore_postCommit, core_modCore_keeps (·.insts) s _ _ rfl]
theorem commits_postCommit_same (s : State) (c : Commit) :
    (getCore (postCommit s c) c.core).commits = (getCore s c.core).commits ++ [{ c with id := s.nextId }] := by
  rw [getCore_postCommit, getCore_modCore]
theorem commits_postCommit_ne (s : State) (c : Commit) {m : Nat} (h : m ≠ c.core) :
    (getCore (postCommit s c) m).commits = (getCore s m).commits := by
  rw [getCore_postCommit, getCore_modCore_ne _ _ _ _ h]
/-- A commit posted stays posted. -/
theorem mem_commits_postCommit {s : State} {x : Commit} {m : Nat} (c : Commit) (h : x ∈ (getCore s m).commits) :
    x ∈ (getCore (postCommit s c) m).commits := by
  by_cases hm : m = c.core
  · rw [hm, commits_postCommit_same]
    exact List.mem_append_left _ (hm ▸ h)
  · rwa [commits_postCommit_ne s c hm]

/-- What posting a commit and the reservation of its slot leave alone, a unit's token leaves alone. -/
@[simp] theorem unitToken_mem (s : State) (p : Port) (kind marker slot : Nat) : (unitToken s p kind marker slot).mem = s.mem :=
  modChan_mem s _ _ _
@[simp] theorem getInst_unitToken (s : State) (p : Port) (kind marker slot m j : Nat) :
    getInst (unitToken s p kind marker slot) m j = getInst s m j := by
  unfold unitToken
  rw [getInst_postCommit, getInst_modChan]
theorem mem_commits_unitToken {s : State} {x : Commit} {m : Nat} (p : Port) (kind marker slot : Nat)
    (h : x ∈ (getCore s m).commits) : x ∈ (getCore (unitToken s p kind marker slot) m).commits :=
  mem_commits_postCommit _ (by rwa [commits_modChan])
/-- A token that a unit writes is posted on its channel. -/
theorem exists_commit_unitToken (s : State) (p : Port) (kind marker slot : Nat) :
    ∃ c ∈ (getCore (unitToken s p kind marker slot) p.core).commits, c.ch = p.ch ∧ c.kind = kind := by
  have hposted := commits_postCommit_same (modChan s p.core p.ch (fun c => { c with reserved := c.reserved + 1 }))
    { id := 0, core := p.core, ch := p.ch, kind := kind, eod := some 0, slot := slot, marker := marker }
  unfold unitToken
  rw [hposted]
  exact ⟨_, List.mem_append_right _ (List.mem_singleton_self _), rfl, rfl⟩

end Sys2Proof.Machine

namespace Sys2Proof.Machine

open Sys2Proof.Claims

/-! ### A commit takes effect (R116-R118, R381) -/

@[simp] theorem ledger_clearBand (s : State) (r : Ring) (seq : Nat) : ledger (clearBand s r seq) = ledger s := by
  unfold clearBand
  dsimp only
  split <;> simp

/-- A header stands in the channel's own copy. -/
theorem ledger_putHeader {s : State} {n k seq : Nat} {h : W64} {c : Chan} (hc : getChan s n k = some c) :
    ledger (putHeader s n k seq h) = ledger (setChan s n k (some { c with hdrs := tset 0 c.hdrs (seq % chN c) h })) := by
  unfold putHeader
  rw [hc]
  dsimp only
  split <;> simp

/-- A channel whose next token is committed (R116, R117). -/
def committed (h : Chan) (head : W64) (eos : Bool) : Chan :=
  { h with
    hdrs := tset 0 h.hdrs (h.head % chN h) head, notes := tset 0 h.notes (h.head % chN h) 0, head := bump h.head 1
    reserved := h.reserved - 1, eosp := h.eosp || eos, reinjected := tset 0 h.reinjected h.head 0 }

theorem committed_of_steps (h : Chan) (x : W64) (eos : Bool) :
    (((some h).map (fun c => { c with hdrs := tset 0 c.hdrs (h.head % chN c) x })).map
        (fun c => { c with notes := tset 0 c.notes (h.head % chN c) 0 })).map
      (fun c => { c with head := bump c.head 1, reserved := c.reserved - 1, eosp := c.eosp || eos
                         reinjected := tset 0 c.reinjected h.head 0 }) = some (committed h x eos) := rfl

theorem hdrAt_committed (h : Chan) (x : W64) (eos : Bool) : hdrAt (committed h x eos) h.head = x := tget_tset_same 0 h.hdrs _ x

theorem compareAt_of_single {s : State} {n k : Nat} {c : Chan} (hc : getChan s n k = some c) (h : c.shadow = none) :
    compareAt s n k = s := by
  simp [compareAt, hc, h]

section
variable {s : State} {c : Commit} {h : Chan} (hc : getChan s c.core c.ch = some h) (hseq : c.seq = none)
  (hkind : c.kind = 0 ∨ c.kind = 1) (hring : h.dfmt = h.pfmt) (hshadow : h.shadow = none)
include hc hseq hkind hring hshadow

/-- R118: the effect of a commit of data or end-of-stream on a channel that has one ring and no shadow. -/
theorem commitEffect_plain :
    getChan (commitEffect s c h h.head) c.core c.ch = some (committed h (commitHeader c h h.head) (c.kind == 1)) ∧
      (getCore (commitEffect s c h h.head) c.core).commits = (getCore s c.core).commits.filter (fun x => x.id != c.id) := by
  have h2 : c.kind ≠ 2 := by omega
  have hone : hasDelivery h = false := by simp [hasDelivery, hring]
  let posted := modCore s c.core (fun k => { k with commits := k.commits.filter (fun x => x.id != c.id) })
  have hposted : getChan posted c.core c.ch = some h := (getChan_modCore s c.core _ rfl _ _).trans hc
  have hband := ledger_clearBand posted (prodRing h) h.head
  have hhead := ledger_putHeader (seq := h.head) (h := commitHeader c h h.head) ((getChan_of_ledger hband c.core c.ch).trans hposted)
  have hchan := getChan_of_ledger hhead c.core c.ch
  have hcommits := commits_of_ledger hhead c.core
  rw [getChan_setChan] at hchan
  rw [commits_setChan, commits_of_ledger hband, getCore_modCore] at hcommits
  have hdone : getChan (modChan (modChan (putHeader (clearBand posted (prodRing h) h.head) c.core c.ch h.head
      (commitHeader c h h.head)) c.core c.ch (fun x => { x with notes := tset 0 x.notes (h.head % chN x) 0 })) c.core c.ch
      (fun x => { x with
        head := bump x.head 1, reserved := x.reserved - 1, eosp := x.eosp || c.kind == 1
        reinjected := tset 0 x.reinjected h.head 0 })) c.core c.ch = some (committed h (commitHeader c h h.head) (c.kind == 1)) := by
    rw [getChan_modChan_same, getChan_modChan_same, hchan]
    exact committed_of_steps h _ _
  simp only [commitEffect, h2, hone, hseq, Bool.and_false, if_false, Bool.false_eq_true, Option.isSome_none]
  rw [compareAt_of_single hdone hshadow]
  exact ⟨hdone, by rw [commits_modChan, commits_modChan, hcommits]⟩

end

/-- R381: whether a firing marked poisoned since a commit was posted gives it the mark. -/
def marksCommit (s : State) (c : Commit) : Bool :=
  (getCtx s c.core c.ctx).firing.any (fun f => f.poisoned && commitOf c.core c.ctx f c)

theorem commitMarked_eq (s : State) (c : Commit) : commitMarked s c =
    if marksCommit s c then
      ({ c with poison := true }, modCtx s c.core c.ctx (fun x => { x with firing := x.firing.map (fun f => { f with marked := true }) }))
    else (c, s) := by
  unfold commitMarked marksCommit
  cases hf : (getCtx s c.core c.ctx).firing <;> simp

theorem commitMarked_fst (s : State) (c : Commit) : (commitMarked s c).1 = { c with poison := c.poison || marksCommit s c } := by
  rw [commitMarked_eq]
  split <;> simp [*]
theorem getChan_commitMarked (s : State) (c : Commit) (m j : Nat) : getChan (commitMarked s c).2 m j = getChan s m j := by
  rw [commitMarked_eq]
  split
  · exact getChan_modCore s c.core _ rfl m j
  · rfl
theorem commits_commitMarked (s : State) (c : Commit) (m : Nat) :
    (getCore (commitMarked s c).2 m).commits = (getCore s m).commits := by
  rw [commitMarked_eq]
  split
  · exact core_modCore_keeps (·.commits) s c.core _ rfl m
  · rfl

/-- R381: an ordinary commit of a data slot takes the mark of the firing that posted it, unless that is a replay. -/
theorem marksCommit_of_fresh (s : State) {c : Commit} (h : c.seq = none) : marksCommit s c =
    (c.kind == 0 && (getCtx s c.core c.ctx).firing.any (fun g => g.poisoned && g.slot == c.slot && g.fir == c.fir && !g.replay)) := by
  unfold marksCommit commitOf
  cases (getCtx s c.core c.ctx).firing with
  | none => simp
  | some g =>
    have hslot : (c.slot == g.slot) = (g.slot == c.slot) := Bool.beq_comm
    have hfir : (c.fir == g.fir) = (g.fir == c.fir) := Bool.beq_comm
    simp only [Option.any_some, h, hslot, hfir, beq_self_eq_true, Bool.true_and, Option.isSome_none, Bool.false_beq]
    ac_rfl

/-- R118: the commit that is next takes effect. -/
theorem channelCommit_of_next {s : State} {c : Commit} {h : Chan} (hn : CommitNext s c h) (hseq : c.seq = none) :
    channelCommit s c.id = commitEffect (commitMarked s c).2 (commitMarked s c).1 h h.head := by
  obtain ⟨hfound, hchan, hfirst, hwritten, hroom⟩ := hn
  simp [channelCommit, hfound, hchan, hfirst, hseq, hwritten, hroom]

/-- R116, R118, R381: what the channel and its queue of commits hold after a commit of data or end-of-stream. -/
theorem channelCommit_plain {s : State} {c : Commit} {h : Chan} (hn : CommitNext s c h) (hseq : c.seq = none)
    (hkind : c.kind = 0 ∨ c.kind = 1) (hring : h.dfmt = h.pfmt) (hshadow : h.shadow = none) :
    getChan (channelCommit s c.id) c.core c.ch = some (committed h (commitHeader (commitMarked s c).1 h h.head) (c.kind == 1)) ∧
      (getCore (channelCommit s c.id) c.core).commits = (getCore s c.core).commits.filter (fun x => x.id != c.id) := by
  have hfst := commitMarked_fst s c
  have hcore : (commitMarked s c).1.core = c.core := by rw [hfst]
  have hch : (commitMarked s c).1.ch = c.ch := by rw [hfst]
  have hid : (commitMarked s c).1.id = c.id := by rw [hfst]
  have hk : (commitMarked s c).1.kind = c.kind := by rw [hfst]
  have hs : (commitMarked s c).1.seq = none := by rw [hfst, ← hseq]
  have heffect := commitEffect_plain (s := (commitMarked s c).2) (c := (commitMarked s c).1) (h := h)
    (by rw [hcore, hch, getChan_commitMarked, hn.chan]) hs (by rwa [hk]) hring hshadow
  rw [channelCommit_of_next hn hseq]
  rwa [hcore, hch, hid, hk, commits_commitMarked] at heffect

/-- R116: the header of such a commit where no copy has left a note on the slot. -/
theorem commitHeader_of_fresh (s : State) {c : Commit} {h : Chan} (hseq : c.seq = none) (hnote : noteOf h h.head = none) :
    commitHeader (commitMarked s c).1 h h.head = header h.pfmt (c.eod.getD 0) c.kind h.head (c.kind == 0 && (c.poison ||
      (getCtx s c.core c.ctx).firing.any (fun g => g.poisoned && g.slot == c.slot && g.fir == c.fir && !g.replay))) := by
  rw [commitMarked_fst, marksCommit_of_fresh s hseq]
  simp only [commitHeader, hnote, Option.map_none, Option.getD_none, Option.any_none, Bool.or_false]
  cases c.kind == 0 <;> simp

/-! ### A release takes effect (R117, R118) -/

@[simp] theorem dropHist_mem (s : State) (n slot fir : Nat) : (dropHist s n slot fir).mem = s.mem := by
  unfold dropHist
  split <;> simp
@[simp] theorem getChan_dropHist (s : State) (n slot fir m j : Nat) : getChan (dropHist s n slot fir) m j = getChan s m j := by
  unfold dropHist
  split <;> simp

section
variable {s : State} {r : Release} {c : Chan} (hfound : findRelease s r.id = some r) (hchan : getChan s r.core r.ch = some c)
  (hfirst : (getCore s r.core).releases.find? (fun x => x.ch == r.ch && x.cons == r.cons) = some r)
  (hreads : readsDone s r c = true) (hdone : productionDone s r.agent.core r.slot r.fir = true)
include hfound hchan hfirst hreads hdone

theorem channelRelease_of_next : channelRelease s r.id = dropHist (modChan (modCore s r.core (fun k =>
      { k with releases := k.releases.filter (fun x => x.id != r.id) })) r.core r.ch
      (fun c => { c with tails := tset 0 c.tails r.cons (bump (tailOf c r.cons) r.n) })) r.agent.core r.slot r.fir := by
  simp [channelRelease, hfound, hchan, hfirst, hreads, hdone]

/-- R117: the consumer's TAIL is advanced by the slots released. -/
theorem getChan_channelRelease : getChan (channelRelease s r.id) r.core r.ch =
    some { c with tails := tset 0 c.tails r.cons (bump (tailOf c r.cons) r.n) } := by
  rw [channelRelease_of_next hfound hchan hfirst hreads hdone, getChan_dropHist, getChan_modChan_same,
    getChan_modCore s r.core _ rfl, hchan]
  rfl

theorem channelRelease_mem : (channelRelease s r.id).mem = s.mem := by
  rw [channelRelease_of_next hfound hchan hfirst hreads hdone, dropHist_mem, modChan_mem, modCore_mem]

end

/-! ### Table tokens, end-of-stream, retirement (R122, R34) -/

/-- Memory reads as before where its cells, its epoch and its migrations stand. -/
theorem memByte_congr {s t : State} (hmem : t.mem = s.mem) (hepoch : t.epoch = s.epoch)
    (hmigrations : t.dev.migrations = s.dev.migrations) : memByte t = memByte s := by
  funext a
  simp only [memByte, homePa, redirectRead, hmem, hepoch, hmigrations]

theorem memRead_congr {s t : State} (h : memByte t = memByte s) (pa n : Nat) : memRead t pa n = memRead s pa n := by
  induction n generalizing pa with
  | zero => rfl
  | succ k ih => rw [memRead, memRead, h, ih]

section
variable {s : State} {n slot : Nat} {i : Inst} (hi : AtRest s n slot i)
include hi

/-- R122: the table in the token's payload becomes the codebook image. -/
theorem tableTokenTake_of_table {k seq : Nat} {p : Port} {c : Chan} {h : W64} (hp : i.ports[k]? = some p)
    (hhead : headOf s p = some (seq, h)) (hkind : hdrKind h = 3) (hc : getChan s p.core p.ch = some c)
    (hring : (ringOf c p.cons).fmt = c.pfmt) : tableTokenTake s n slot k = modInst (takeOne s p) n slot
      (fun i => { i with cbimg := BitVec.ofNat 256 (memRead s (payloadPa (ringOf c p.cons) seq) 32) }) := by
  obtain ⟨hfound, hrest⟩ := hi
  have hread : memRead (takeOne s p) (payloadPa (ringOf c p.cons) seq) 32 = memRead s (payloadPa (ringOf c p.cons) seq) 32 :=
    memRead_congr (memByte_congr (takeOne_mem s p) (takeOne_epoch s p) (by rw [takeOne_dev])) _ _
  simp [tableTokenTake, hfound, hrest, hp, hhead, hkind, hc, hring, hread]

/-- The state once the end-of-stream of every input is taken and every output has its own (R34). -/
def eosPassed (s : State) (i : Inst) (slot : Nat) : State :=
  (outputs i).foldl (fun s p => if p.eos then s else unitToken s p 1 0 slot)
    ((inputs i).foldl (fun s p => modChan (takeOne s p) p.core p.ch (fun c => { c with eosc := Nat.lor c.eosc (2 ^ p.cons) })) s)

omit hi in
theorem eosPassed_keeps {α : Type} (view : State → α) (hchan : ∀ s n k f, view (modChan s n k f) = view s)
    (htoken : ∀ s p, view (unitToken s p 1 0 slot) = view s) : view (eosPassed s i slot) = view s := by
  unfold eosPassed
  rw [foldl_keeps view _ (fun s p => by split <;> simp [htoken])]
  exact foldl_keeps view _ (fun s p => (hchan _ _ _ _).trans (hchan _ _ _ _)) _ s

omit hi in
/-- R34: every output that still carries tokens has its end-of-stream posted. -/
theorem exists_commit_eosPassed {p : Port} (hp : p ∈ outputs i) (heos : p.eos = false) :
    ∃ c ∈ (getCore (eosPassed s i slot) p.core).commits, c.ch = p.ch ∧ c.kind = 1 := by
  unfold eosPassed
  generalize (inputs i).foldl _ s = t
  generalize outputs i = ps at hp
  induction ps generalizing t with
  | nil => cases hp
  | cons q qs ih =>
    rw [List.foldl_cons]
    rcases List.mem_cons.mp hp with rfl | hmem
    · rw [if_neg (by simp [heos])]
      obtain ⟨c, hc, hch, hkind⟩ := exists_commit_unitToken t p 1 0 slot
      refine ⟨c, ?_, hch, hkind⟩
      clear ih hp
      generalize unitToken t p 1 0 slot = u at hc
      induction qs generalizing u with
      | nil => exact hc
      | cons q qs ih =>
        rw [List.foldl_cons]
        apply ih
        split
        · exact hc
        · exact mem_commits_unitToken q 1 0 slot hc
    · exact ih _ hmem

theorem eosForward_of_eos (hne : inputs i ≠ []) (heos : ∀ p ∈ inputs i, ∃ seq h, headOf s p = some (seq, h) ∧ hdrKind h = 1) :
    eosForward s n slot = modInst (eosPassed s i slot) n slot
      (fun i => { i with state := 5, ports := i.ports.map (fun p => { p with eos := true }) }) := by
  obtain ⟨hfound, hrest⟩ := hi
  have hall : (inputs i).all (fun p => match headOf s p with | some t => hdrKind t.2 == 1 | none => false) = true := by
    rw [List.all_eq_true]
    intro p hp
    obtain ⟨seq, h, hhead, hkind⟩ := heos p hp
    simp [hhead, hkind]
  have hguard : (atRest s n i && !(inputs i).isEmpty && (inputs i).all (fun p =>
      match headOf s p with | some t => hdrKind t.2 == 1 | none => false)) = true := by
    rw [hrest, hall]
    simpa using hne
  unfold eosForward
  rw [hfound]
  exact if_pos hguard

end

theorem instanceRetire_of_retired {s : State} {n slot : Nat} {i : Inst} (hi : getInst s n slot = some i) (h5 : i.state = 5)
    (hcounted : i.counted = false) (hlaunch : i.launch < 64) (hruns : coreStopped s i.launch n = false)
    (hidle : instBusy s n slot i.launch = false) (hkind : i.kind ≠ .reserve) : instanceRetire s n slot =
      modLaunch (modInst s n slot (fun i => { i with counted := true })) i.launch (fun l => { l with live := l.live - 1 }) := by
  simp [instanceRetire, hi, h5, hcounted, hlaunch, hruns, hidle, hkind]

@[simp] theorem getInst_modLaunch (s : State) (e : Nat) (f : Launch → Launch) (n k : Nat) :
    getInst (modLaunch s e f) n k = getInst s n k := rfl

/-! ### The events of an untripped machine (R391) -/

section
variable {s : State} (h : Awake s)
include h

theorem exec_channelCommit_of_awake (id : Nat) : exec (.channelCommit id) s = .next (channelCommit s id) := by
  rw [exec_channelCommit, execChannelCommit, event_of_awake h]
theorem exec_channelRelease_of_awake (id : Nat) : exec (.channelRelease id) s = .next (channelRelease s id) := by
  rw [exec_channelRelease, execChannelRelease, event_of_awake h]
theorem exec_tableTokenTake_of_awake (n slot k : Nat) : exec (.tableTokenTake n slot k) s = .next (tableTokenTake s n slot k) := by
  rw [exec_tableTokenTake, execTableTokenTake, event_of_awake h]
theorem exec_eosForward_of_awake (n slot : Nat) : exec (.eosForward n slot) s = .next (eosForward s n slot) := by
  rw [exec_eosForward, execEosForward, event_of_awake h]
theorem exec_instanceRetire_of_awake (n slot : Nat) : exec (.instanceRetire n slot) s = .next (instanceRetire s n slot) := by
  rw [exec_instanceRetire, execInstanceRetire, event_of_awake h]

end

/-- Settles O33: a commit, a release, a table token, end-of-stream and a retirement, each from its own lemmas. -/
theorem commitsAndReleases : Obligations.CommitsAndReleases := by
  unfold Obligations.CommitsAndReleases
  intro s hawake
  refine ⟨fun c h hn hseq hkind hring hshadow hnote => ?_, fun r c hfound hchan hfirst hreads hdone => ?_,
    fun n slot k i p c seq h hi hp hhead hkind hc hring => ?_, fun n slot i hi hne heos => ?_,
    fun n slot i hi h5 hcounted hlaunch hruns hidle hkind => ?_⟩
  · obtain ⟨hchan, hcommits⟩ := channelCommit_plain hn hseq hkind hring hshadow
    rw [commitHeader_of_fresh s hseq hnote] at hchan
    exact ⟨_, _, exec_channelCommit_of_awake hawake c.id, hchan, rfl, rfl, rfl, rfl, hdrAt_committed h _ _, hcommits⟩
  · exact ⟨_, _, exec_channelRelease_of_awake hawake r.id, getChan_channelRelease hfound hchan hfirst hreads hdone,
      tailOf_advance_same c r.cons r.n, fun j hj => tailOf_advance_ne c _ hj, rfl, channelRelease_mem hfound hchan hfirst hreads hdone⟩
  · have htake := tableTokenTake_of_table hi hp hhead hkind hc hring
    have hinst : getInst (tableTokenTake s n slot k) n slot =
        some { i with cbimg := BitVec.ofNat 256 (memRead s (payloadPa (ringOf c p.cons) seq) 32) } := by
      rw [htake, getInst_modInst_same, getInst_takeOne, hi.found, Option.map_some]
    have hchan : getChan (tableTokenTake s n slot k) p.core p.ch = some { c with tails := tset 0 c.tails p.cons (bump (tailOf c p.cons) 1) } := by
      rw [htake, getChan_modInst, getChan_takeOne hc]
    exact ⟨_, _, _, exec_tableTokenTake_of_awake hawake n slot k, hinst, rfl, hchan, tailOf_advance_same c p.cons 1,
      by rw [htake, modInst_mem, takeOne_mem]⟩
  · have hforward := eosForward_of_eos hi hne heos
    have hinst : getInst (eosForward s n slot) n slot =
        some { i with state := 5, ports := i.ports.map (fun p => { p with eos := true }) } := by
      rw [hforward, getInst_modInst_same, eosPassed_keeps (getInst · n slot) (by simp) (by simp), hi.found, Option.map_some]
    refine ⟨_, _, exec_eosForward_of_awake hawake n slot, hinst, rfl, fun p hp => ?_, fun p hp hopen => ?_, ?_⟩
    · obtain ⟨q, -, rfl⟩ := List.mem_map.mp hp
      rfl
    · rw [hforward, commits_modInst]
      exact exists_commit_eosPassed hp hopen
    · rw [hforward, modInst_mem, eosPassed_keeps (·.mem) (by simp) (by simp)]
  · have hretire := instanceRetire_of_retired hi h5 hcounted hlaunch hruns hidle hkind
    refine ⟨_, exec_instanceRetire_of_awake hawake n slot, ?_, ?_⟩
    · rw [hretire, getInst_modLaunch, getInst_modInst_same, hi]
      rfl
    · rw [hretire, getLaunch_modLaunch, getLaunch_modInst]

end Sys2Proof.Machine

/-!
# Rate controllers and sinks (R35, R125-R128)
-/

namespace Sys2Proof.Machine

open Sys2Proof.Claims

/-! ### Samples and parameters (R125-R128) -/

theorem clampInt_eq_clamp {lo hi : Int} (x : Int) (h : lo ≤ hi) : clampInt x lo hi = clamp x lo hi := by
  unfold clampInt clamp
  split_ifs <;> omega

/-- R125: the sample of a channel whose weights' range is not empty. -/
theorem nextSample_eq {c : Chan} (hw : c.wmin ≤ c.wmax) :
    let e : Int := (c.sp : Int) - occupancy c
    let j := if 0 < occupancy c ∧ occupancy c < chN c then clamp (c.integ + e) (-(c.imax : Int)) c.imax else c.integ
    let u := ((c.kp : Int) * e + (c.ki : Int) * j) / 2 ^ c.gshift
    nextSample c = { c with
      lasto := occupancy c, integ := j, frozen := !decide (0 < occupancy c ∧ occupancy c < chN c)
      wp := (clamp (c.w0p + u) c.wmin c.wmax).toNat, wc := (clamp (c.w0c - u) c.wmin c.wmax).toNat, cycles := c.cycles + 2 ^ c.log2t
      period := c.log2t } := by
  intro e j u
  have hweights : (c.wmin : Int) ≤ c.wmax := by exact_mod_cast hw
  have himax : -(c.imax : Int) ≤ c.imax := by omega
  have hdiv : ∀ x : Int, x.fdiv (2 ^ c.gshift) = x / 2 ^ c.gshift := fun x => Int.fdiv_eq_ediv_of_nonneg x (by positivity)
  simp only [nextSample, sampled, decide_eq_true_eq, hdiv, clampInt_eq_clamp _ hweights, clampInt_eq_clamp _ himax]
  rfl

theorem wbits_eq_div_mod {n : Nat} (x : BitVec n) (lo len : Nat) : wbits x lo len = x.toNat / 2 ^ lo % 2 ^ len := by
  rw [wbits, Nat.shiftRight_eq_div_pow]

/-- The fields of a parameter word that reach its end take no mask. -/
theorem wbits_top {n : Nat} (x : BitVec n) {lo len : Nat} (h : lo + len = n) : wbits x lo len = x.toNat / 2 ^ lo := by
  rw [wbits_eq_div_mod, Nat.mod_eq_of_lt]
  rw [Nat.div_lt_iff_lt_mul (by positivity), ← pow_add, Nat.add_comm len, h]
  exact x.isLt

/-- R123, R127: the channel that a store of a parameter word asks for (log 24). -/
theorem withParams_eq (c : Chan) (word : Nat) (v : W64) : withParams c word v =
    if word = 0 then
      { c with kp := v.toNat / 2 ^ 48, ki := v.toNat / 2 ^ 32 % 2 ^ 16, gshift := v.toNat / 2 ^ 28 % 16
               log2t := if v.toNat / 2 ^ 24 % 16 = 0 then 16 else v.toNat / 2 ^ 24 % 16, imax := v.toNat % 2 ^ 24 }
    else { c with sp := v.toNat / 2 ^ 32 % 2 ^ 13, w0p := v.toNat / 2 ^ 24 % 256, w0c := v.toNat / 2 ^ 16 % 256
                  wmin := v.toNat / 2 ^ 8 % 256, wmax := v.toNat % 256 } := by
  have hkp : wbits v 48 16 = v.toNat / 2 ^ 48 := wbits_top v rfl
  unfold withParams
  rw [hkp]
  simp only [wbits_eq_div_mod, pow_zero, Nat.div_one]
  rfl

/-! ### Pieces of a launch processor's access (R35) -/

theorem chunkLen_le (x : Xlated) (pa len : Nat) : chunkLen x pa len ≤ len := by
  unfold chunkLen
  split
  · exact min_le_left _ _
  · split
    · exact min_le_left _ _
    · split <;> exact min_le_left _ _

/-- A piece's bits are bytes of the data between `off` and `off` + 8 `len`. -/
def PieceWithin (off len : Nat) (g : Seg) : Prop := ∃ i, g.off = off + 8 * i ∧ i + g.len ≤ len

theorem PieceWithin.shift {off len k n : Nat} {g : Seg} (h : PieceWithin (off + 8 * k) len g) (hn : k + len ≤ n) :
    PieceWithin off n g := by
  obtain ⟨i, hoff, hlen⟩ := h
  exact ⟨k + i, by omega, by omega⟩

theorem piecesBy_within {cut : Nat → Nat → Nat} (hcut : ∀ pa len, cut pa len ≤ len) (check : Xlated → Nat → Option Nat)
    (x : Xlated) (fuel o len off : Nat) (gs : List Seg) (h : piecesBy cut check x fuel o len off = .ok gs) :
    ∀ g ∈ gs, PieceWithin off len g := by
  induction fuel generalizing o len off gs with
  | zero =>
    cases h
    simp
  | succ k ih =>
    have hle := hcut (x.pa + o) len
    unfold piecesBy at h
    split at h
    · cases h
      simp
    · dsimp only at h
      split at h
      · cases h
      · cases hrest : piecesBy cut check x k (o + cut (x.pa + o) len) (len - cut (x.pa + o) len) (off + 8 * cut (x.pa + o) len) with
        | error e =>
          rw [hrest] at h
          cases h
        | ok hs =>
          rw [hrest] at h
          cases h
          intro g hg
          rcases List.mem_cons.mp hg with rfl | hg
          · exact ⟨0, rfl, by simpa using hle⟩
          · exact (ih _ _ _ _ hrest g hg).shift (by omega)

theorem lpPieces_within (fuel : Nat) (s u : State) (die asid va n off : Nat) (a : Access) (gs : List Seg)
    (h : lpPieces fuel s die asid va n off a = (.ok gs, u)) : ∀ g ∈ gs, PieceWithin off n g := by
  induction fuel generalizing s va n off gs u with
  | zero =>
    cases h
    simp
  | succ f ih =>
    unfold lpPieces at h
    split at h
    · cases h
      simp
    · dsimp only at h
      split at h
      · cases h
      · split at h
        · cases h
        · next hchunks =>
          split at h
          · next hrest =>
            cases h
            intro g hg
            rcases List.mem_append.mp hg with hg | hg
            · obtain ⟨i, hoff, hlen⟩ := piecesBy_within (chunkLen_le _) _ _ _ _ _ _ _ hchunks g hg
              exact ⟨i, hoff, by omega⟩
            · exact (ih _ _ _ _ _ _ hrest g hg).shift (by omega)
          · cases h

/-- What a translation of the launch processor leaves alone, the cutting of an access leaves alone. -/
theorem lpPieces_keeps {α : Type} (view : State → α) (hx : ∀ s die asid va a n, view (lpXlate s die asid va a n).2 = view s)
    (fuel : Nat) (s : State) (die asid va n off : Nat) (a : Access) : view (lpPieces fuel s die asid va n off a).2 = view s := by
  induction fuel generalizing s va n off with
  | zero => rfl
  | succ f ih =>
    have hstep := hx s die asid va a (min (min n (65536 - va % 65536)) 8)
    unfold lpPieces
    split
    · rfl
    · dsimp only
      split
      · next heq => rwa [heq] at hstep
      · next t heq =>
        rw [heq] at hstep
        split
        · exact hstep
        · have hrest := ih t (va + min n (65536 - va % 65536)) (n - min n (65536 - va % 65536)) (off + 8 * min n (65536 - va % 65536))
          split
          all_goals
            next heq =>
            rw [heq] at hrest
            exact hrest.trans hstep

@[simp] theorem ledger_lpPieces (fuel : Nat) (s : State) (die asid va n off : Nat) (a : Access) :
    ledger (lpPieces fuel s die asid va n off a).2 = ledger s := lpPieces_keeps ledger ledger_lpXlate fuel s die asid va n off a
@[simp] theorem lpPieces_mem (fuel : Nat) (s : State) (die asid va n off : Nat) (a : Access) :
    (lpPieces fuel s die asid va n off a).2.mem = s.mem := lpPieces_keeps (·.mem) lpXlate_mem fuel s die asid va n off a

/-! ### Stores of pieces to plain memory -/

theorem storeMem_of_plain {pa : Nat} (h : PlainMemory pa) (s : State) (n x : Nat) :
    storeMem s pa n x = touchTiles (memWrite s pa n x) pa n := by
  unfold storeMem
  rcases h with h | ⟨c, o, h⟩ <;> rw [h]

theorem memByte_of_ledger {s t : State} (hmem : t.mem = s.mem) (h : ledger t = ledger s) : memByte t = memByte s :=
  memByte_congr hmem (epoch_of_ledger h) (migrations_of_ledger h)

theorem memByte_storeMem {pa : Nat} (h : PlainMemory pa) (s : State) (n x a : Nat) (hstill : ∀ e ∈ s.dev.migrations, e.2.act = false) :
    memByte (storeMem s pa n x) a = if pa ≤ a ∧ a < pa + n then BitVec.ofNat 8 (x / 256 ^ (a - pa)) else memByte s a := by
  have hentries : memByte (touchTiles (memWrite s pa n x) pa n) = memByte (memWrite s pa n x) :=
    memByte_of_ledger (touchTiles_mem _ _ _) (ledger_touchTiles _ _ _)
  rw [storeMem_of_plain h, hentries, memByte_memWrite s pa n x a hstill]

theorem isMemory_of_plain {pa : Nat} (h : PlainMemory pa) : isMemory (place pa) = true := by
  rcases h with h | ⟨c, o, h⟩ <;> rw [h] <;> rfl
theorem regView_of_plain {pa : Nat} (h : PlainMemory pa) : regView (place pa) = none := by
  rcases h with h | ⟨c, o, h⟩ <;> rw [h] <;> rfl

/-- One piece stored to memory (R46, R98). -/
def putPiece (f : Seg → Nat) (s : State) (g : Seg) : State := dropRows (storeMem s g.pa g.len (f g)) g

@[simp] theorem ledger_putPiece (f : Seg → Nat) (s : State) (g : Seg) : ledger (putPiece f s g) = ledger s := by simp [putPiece]

theorem memByte_putPiece (f : Seg → Nat) (s : State) {g : Seg} (hg : PlainMemory g.pa) (a : Nat)
    (hstill : ∀ e ∈ s.dev.migrations, e.2.act = false) : memByte (putPiece f s g) a =
      if g.pa ≤ a ∧ a < g.pa + g.len then BitVec.ofNat 8 (f g / 256 ^ (a - g.pa)) else memByte s a := by
  have hrows : memByte (putPiece f s g) = memByte (storeMem s g.pa g.len (f g)) :=
    memByte_of_ledger (dropRows_mem _ _) (ledger_dropRows _ _)
  rw [hrows, memByte_storeMem hg s _ _ a hstill]

/-- R35: pieces of plain memory stored by a launch processor are all written as memory. -/
theorem lpPutPieces_of_plain (s : State) (die launch : Nat) {gs : List Seg} (h : ∀ g ∈ gs, g.dev = 0 ∧ PlainMemory g.pa) (x : Nat)
    (rel : Bool) : lpPutPieces s die launch gs x rel =
      countPieces (gs.foldl (putPiece (fun g => nbits x g.off (8 * g.len))) (addTraffic s launch gs)) gs := by
  have hview : gs.filter (fun g => g.dev == 0 && (regView (place g.pa)).isSome) = [] :=
    List.filter_eq_nil_iff.mpr fun g hg => by simp [regView_of_plain (h g hg).2]
  have hall : gs.filter (fun g => !(g.dev == 0 && (regView (place g.pa)).isSome)) = gs :=
    List.filter_eq_self.mpr fun g hg => by simp [regView_of_plain (h g hg).2]
  have hmemory : gs.filter memoryPiece = gs :=
    List.filter_eq_self.mpr fun g hg => by simp [memoryPiece, (h g hg).1, isMemory_of_plain (h g hg).2]
  have hnone : gs.filter (fun g => g.dev == 0 && !isMemory (place g.pa)) = [] :=
    List.filter_eq_nil_iff.mpr fun g hg => by simp [isMemory_of_plain (h g hg).2]
  unfold lpPutPieces storePieces
  dsimp only
  rw [hview, hall, hmemory, hnone]
  rfl

/-- Pieces of plain memory that do not meet, stored one after the other: each holds its data, and no other byte moves. -/
theorem memByte_foldl_putPiece (f : Seg → Nat) (gs : List Seg) (s : State) (hstill : ∀ e ∈ s.dev.migrations, e.2.act = false)
    (hplain : ∀ g ∈ gs, PlainMemory g.pa) (hapart : gs.Pairwise (fun a b => a.pa + a.len ≤ b.pa ∨ b.pa + b.len ≤ a.pa)) :
    (∀ g ∈ gs, ∀ i, i < g.len → memByte (gs.foldl (putPiece f) s) (g.pa + i) = BitVec.ofNat 8 (f g / 256 ^ i)) ∧
      (∀ a, (∀ g ∈ gs, a < g.pa ∨ g.pa + g.len ≤ a) → memByte (gs.foldl (putPiece f) s) a = memByte s a) := by
  induction gs generalizing s with
  | nil => simp
  | cons g gs ih =>
    obtain ⟨hfirst, hrest⟩ := List.pairwise_cons.mp hapart
    have hput : ∀ a, memByte (putPiece f s g) a = _ := fun a => memByte_putPiece f s (hplain g (by simp)) a hstill
    obtain ⟨hin, hout⟩ := ih (putPiece f s g) (by rwa [migrations_of_ledger (ledger_putPiece f s g)])
      (fun x hx => hplain x (by simp [hx])) hrest
    refine ⟨fun x hx i hi => ?_, fun a ha => ?_⟩
    · rcases List.mem_cons.mp hx with rfl | hx
      · rw [List.foldl_cons, hout _ (fun y hy => by have := hfirst y hy; omega), hput, if_pos (by omega), Nat.add_sub_cancel_left]
      · exact hin x hx i hi
    · have hg := ha g (by simp)
      rw [List.foldl_cons, hout a (fun y hy => ha y (by simp [hy])), hput, if_neg (by omega)]

/-! ### The bytes of a number read (R4) -/

theorem memRead_byte (s : State) (pa n i : Nat) (hi : i < n) : BitVec.ofNat 8 (memRead s pa n / 256 ^ i) = memByte s (pa + i) := by
  induction n generalizing pa i with
  | zero => omega
  | succ k ih =>
    have hfirst : (memByte s pa).toNat < 256 := (memByte s pa).isLt
    cases i with
    | zero =>
      apply BitVec.eq_of_toNat_eq
      rw [memRead, BitVec.toNat_ofNat, pow_zero, Nat.div_one, Nat.add_mul_mod_self_left, Nat.mod_eq_of_lt hfirst]
      rfl
    | succ j =>
      rw [memRead, pow_succ', ← Nat.div_div_eq_div_mul, Nat.add_mul_div_left _ _ (by norm_num), Nat.div_eq_of_lt hfirst, Nat.zero_add,
        ih (pa + 1) j (by omega), Nat.add_assoc, Nat.add_comm 1 j]

/-- A byte of a field of bytes is that byte of the number. -/
theorem byte_of_nbits (x i k n : Nat) (hi : i < n) :
    BitVec.ofNat 8 (nbits x (8 * k) (8 * n) / 256 ^ i) = BitVec.ofNat 8 (x / 256 ^ (k + i)) := by
  apply BitVec.eq_of_getLsbD_eq
  intro j hj
  have h256 : (256 : Nat) = 2 ^ 8 := by norm_num
  simp only [nbits, BitVec.getLsbD_ofNat, h256, ← pow_mul, Nat.testBit_div_two_pow, Nat.testBit_mod_two_pow, Nat.testBit_shiftRight]
  have hbit : 8 * k + (j + 8 * i) = j + 8 * (k + i) := by ring
  have hin : j + 8 * i < 8 * n := by omega
  simp [hj, hin, hbit]

/-! ### Sinks (R35) -/

theorem sinkAt_setSink {c : Chan} {cons : Nat} {x : Nat × Nat × Nat} (y : Nat × Nat × Nat)
    (h : c.sinks.find? (fun z => z.1 == cons) = some (cons, x)) : sinkAt (setSink c cons y) cons = some y := by
  have hkey : ((fun z : Nat × Nat × Nat × Nat => z.1 == cons) ∘ fun z => if z.1 = cons then (cons, y) else z) = fun z => z.1 == cons := by
    funext z
    by_cases hz : z.1 = cons <;> simp [hz]
  unfold sinkAt setSink
  rw [List.find?_map, hkey, h]
  simp

/-- The channel of a sink that has taken its next slot, with its counts. -/
def sinkTaken (c : Chan) (cons : Nat) (y : Nat × Nat × Nat) : Chan :=
  { setSink c cons y with tails := tset 0 c.tails cons (bump (tailOf c cons) 1) }

theorem sinkAt_sinkTaken {c : Chan} {cons : Nat} {x : Nat × Nat × Nat} (y : Nat × Nat × Nat)
    (h : c.sinks.find? (fun z => z.1 == cons) = some (cons, x)) : sinkAt (sinkTaken c cons y) cons = some y := sinkAt_setSink y h
theorem tailOf_sinkTaken (c : Chan) (cons : Nat) (y : Nat × Nat × Nat) :
    tailOf (sinkTaken c cons y) cons = (tailOf c cons + 1) % 2 ^ 32 := tailOf_advance_same c cons 1

/-- A data slot counted and taken (R35). -/
def countSlot (s : State) (n k cons : Nat) (y : Nat × Nat × Nat) : State :=
  takeOne (modChan s n k (fun c => setSink c cons y)) (sinkPort n k cons)

@[simp] theorem countSlot_mem (s : State) (n k cons : Nat) (y : Nat × Nat × Nat) : (countSlot s n k cons y).mem = s.mem := by
  simp [countSlot]
@[simp] theorem countSlot_dev (s : State) (n k cons : Nat) (y : Nat × Nat × Nat) : (countSlot s n k cons y).dev = s.dev := by
  simp [countSlot]
@[simp] theorem countSlot_epoch (s : State) (n k cons : Nat) (y : Nat × Nat × Nat) : (countSlot s n k cons y).epoch = s.epoch := by
  simp [countSlot]
@[simp] theorem getLaunch_countSlot (s : State) (n k cons : Nat) (y : Nat × Nat × Nat) (e : Nat) :
    getLaunch (countSlot s n k cons y) e = getLaunch s e := by simp [getLaunch]
theorem memByte_countSlot (s : State) (n k cons : Nat) (y : Nat × Nat × Nat) : memByte (countSlot s n k cons y) = memByte s :=
  memByte_congr (countSlot_mem s n k cons y) (countSlot_epoch s n k cons y) (by rw [countSlot_dev])
theorem getChan_countSlot {s : State} {n k : Nat} {c : Chan} (h : getChan s n k = some c) (cons : Nat) (y : Nat × Nat × Nat) :
    getChan (countSlot s n k cons y) n k = some (sinkTaken c cons y) :=
  getChan_takeOne (p := sinkPort n k cons) (by rw [sinkPort, getChan_modChan_same, h]; rfl)

theorem sinkDataSlot_of_data {s : State} {n k cons seq : Nat} {c : Chan} {h : W64} {x : Nat × Nat × Nat}
    (ht : sinkToken s n k cons = some (c, seq, h, x)) (hkind : hdrKind h = 0)
    (hopen : sinkWaits s n (((getLaunch s c.launch).image.sinks[x.1]?.map (·.buffer)).getD 0) x.2.1 seq c = false) :
    sinkDataSlot s n k cons = countSlot
      (sinkStore s n (((getLaunch s c.launch).image.sinks[x.1]?.map (·.buffer)).getD 0) x.2.1 seq c) n k cons (x.1, x.2.1 + 1, x.2.2) := by
  simp [sinkDataSlot, ht, hkind, hopen, countSlot]

/-- A sink without a buffer stores nothing and waits for nothing. -/
theorem sinkWaits_of_none (s : State) (n j seq : Nat) (c : Chan) : sinkWaits s n 0 j seq c = false := by
  simp [sinkWaits, sinkVas, sinkPieces]
theorem sinkStore_of_none (s : State) (n j seq : Nat) (c : Chan) : sinkStore s n 0 j seq c = s := by
  simp [sinkStore, sinkPieces]

section
variable {s u : State} {n buffer j : Nat} {c : Chan}

theorem sinkPieces_of_some {r : Except Nat (List Seg)} (h : sinkPieces s n buffer j c = some (r, u)) :
    lpPieces 3 s (dieOf n) (getLaunch s c.launch).asid (buffer + j * (prodRing c).z) (prodRing c).z 0 .store = (r, u) := by
  unfold sinkPieces at h
  split at h
  · cases h
  · exact Option.some.inj h

theorem ledger_of_sinkPieces {r : Except Nat (List Seg)} (h : sinkPieces s n buffer j c = some (r, u)) : ledger u = ledger s := by
  have hcut := ledger_lpPieces 3 s (dieOf n) (getLaunch s c.launch).asid (buffer + j * (prodRing c).z) (prodRing c).z 0 .store
  rwa [sinkPieces_of_some h] at hcut
theorem mem_of_sinkPieces {r : Except Nat (List Seg)} (h : sinkPieces s n buffer j c = some (r, u)) : u.mem = s.mem := by
  have hcut := lpPieces_mem 3 s (dieOf n) (getLaunch s c.launch).asid (buffer + j * (prodRing c).z) (prodRing c).z 0 .store
  rwa [sinkPieces_of_some h] at hcut

theorem sinkStore_of_error {v : Nat} (seq : Nat) (h : sinkPieces s n buffer j c = some (.error v, u)) :
    sinkStore s n buffer j seq c = failLaunch u c.launch { code := 6, addr := w64 v } := by
  simp [sinkStore, h]

/-- The slot's bytes as one stretch. -/
def slotSeg (c : Chan) (seq : Nat) : Seg := { pa := payloadPa (prodRing c) seq, len := (prodRing c).z, off := 0 }

section
variable {gs : List Seg} (seq : Nat) (h : sinkPieces s n buffer j c = some (.ok gs, u))
  (hplain : ∀ g ∈ gs, g.dev = 0 ∧ PlainMemory g.pa)
include h hplain

/-- R35: the slot's bytes stored at the sink's place. -/
theorem sinkStore_of_plain : sinkStore s n buffer j seq c = countPieces (gs.foldl (putPiece (fun g =>
      nbits (memRead u (payloadPa (prodRing c) seq) (prodRing c).z) g.off (8 * g.len)))
        (addTraffic (countPieces (addTraffic u c.launch [slotSeg c seq]) [slotSeg c seq]) c.launch gs)) gs := by
  unfold sinkStore
  rw [h]
  exact lpPutPieces_of_plain _ _ _ hplain _ _

theorem ledger_sinkStore : ledger (sinkStore s n buffer j seq c) = ledger s := by
  rw [sinkStore_of_plain seq h hplain, ledger_countPieces, foldl_keeps ledger _ (ledger_putPiece _)]
  simpa using ledger_of_sinkPieces h

/-- R35: each piece of the sink's place holds its bytes of the slot, and no other byte of memory moves. -/
theorem memByte_sinkStore (hstill : ∀ e ∈ s.dev.migrations, e.2.act = false)
    (hapart : gs.Pairwise (fun a b => a.pa + a.len ≤ b.pa ∨ b.pa + b.len ≤ a.pa)) :
    (∀ g ∈ gs, ∀ i, i < g.len → memByte (sinkStore s n buffer j seq c) (g.pa + i) =
        memByte s (payloadPa (prodRing c) seq + g.off / 8 + i)) ∧
      (∀ a, (∀ g ∈ gs, a < g.pa ∨ g.pa + g.len ≤ a) → memByte (sinkStore s n buffer j seq c) a = memByte s a) := by
  have hcut : memByte u = memByte s := memByte_of_ledger (mem_of_sinkPieces h) (ledger_of_sinkPieces h)
  let v := addTraffic (countPieces (addTraffic u c.launch [slotSeg c seq]) [slotSeg c seq]) c.launch gs
  have hledger : ledger v = ledger s := by simpa [v] using ledger_of_sinkPieces h
  have hbefore : memByte v = memByte s := memByte_of_ledger (by simpa [v] using mem_of_sinkPieces h) hledger
  let data := fun g : Seg => nbits (memRead u (payloadPa (prodRing c) seq) (prodRing c).z) g.off (8 * g.len)
  have hafter : memByte (sinkStore s n buffer j seq c) = memByte (gs.foldl (putPiece data) v) := by
    rw [sinkStore_of_plain seq h hplain]
    exact memByte_of_ledger (countPieces_mem _ _) (ledger_countPieces _ _)
  obtain ⟨hin, hout⟩ := memByte_foldl_putPiece data gs v (by rwa [migrations_of_ledger hledger]) (fun g hg => (hplain g hg).2) hapart
  rw [hafter, ← hbefore]
  refine ⟨fun g hg i hi => ?_, hout⟩
  obtain ⟨k, hoff, hlen⟩ := lpPieces_within _ _ _ _ _ _ _ _ _ _ (sinkPieces_of_some h) g hg
  have hbytes : g.off = 8 * k := by omega
  have hplace : g.off / 8 = k := by omega
  rw [hin g hg i hi, hplace, hbefore, ← hcut, Nat.add_assoc]
  simp only [data, hbytes]
  rw [byte_of_nbits _ i k g.len hi, memRead_byte u _ _ _ (by omega)]

end
end

/-- The channel of a sink that has taken an end-of-stream token, with its counts. -/
def sinkEnded (c : Chan) (cons : Nat) (y : Nat × Nat × Nat) : Chan := { sinkTaken c cons y with eosc := Nat.lor c.eosc (2 ^ cons) }

theorem sinkAt_sinkEnded {c : Chan} {cons : Nat} {x : Nat × Nat × Nat} (y : Nat × Nat × Nat)
    (h : c.sinks.find? (fun z => z.1 == cons) = some (cons, x)) : sinkAt (sinkEnded c cons y) cons = some y := sinkAt_setSink y h
theorem testBit_eosc_sinkEnded (c : Chan) (cons : Nat) (y : Nat × Nat × Nat) : (sinkEnded c cons y).eosc.testBit cons = true := by
  have hbit : (Nat.lor c.eosc (2 ^ cons)).testBit cons = (c.eosc.testBit cons || (2 ^ cons).testBit cons) := Nat.testBit_or _ _ _
  exact hbit.trans (by simp)

/-- An end-of-stream token counted and taken (R35). -/
def countEos (s : State) (n k cons : Nat) (y : Nat × Nat × Nat) : State :=
  modChan (takeOne s (sinkPort n k cons)) n k (fun c => { setSink c cons y with eosc := Nat.lor c.eosc (2 ^ cons) })

theorem getChan_countEos {s : State} {n k : Nat} {c : Chan} (h : getChan s n k = some c) (cons : Nat) (y : Nat × Nat × Nat) :
    getChan (countEos s n k cons y) n k = some (sinkEnded c cons y) := by
  have htaken := getChan_takeOne (p := sinkPort n k cons) h
  rw [countEos, getChan_modChan_same]
  exact congrArg _ htaken

/-- R35: an end-of-stream token counted and taken; at the expected count the sink is complete. -/
theorem sinkEndOfStream_of_eos {s : State} {n k cons seq : Nat} {c : Chan} {h : W64} {x : Nat × Nat × Nat}
    (ht : sinkToken s n k cons = some (c, seq, h, x)) (hkind : hdrKind h = 1) : sinkEndOfStream s n k cons =
      if x.2.2 + 1 = ((getLaunch s c.launch).image.sinks[x.1]?.map (·.expect)).getD 0 then
        modLaunch (countEos s n k cons (x.1, x.2.1, x.2.2 + 1)) c.launch (fun l => { l with sinksLeft := l.sinksLeft - 1 })
      else countEos s n k cons (x.1, x.2.1, x.2.2 + 1) := by
  have hwant : getLaunch (countEos s n k cons (x.1, x.2.1, x.2.2 + 1)) c.launch = getLaunch s c.launch := by simp [countEos]
  unfold sinkEndOfStream
  rw [ht, ← hwant]
  exact if_neg (by simp [hkind])

theorem sinkEndOfStream_spec {s : State} {n k cons seq : Nat} {c : Chan} {h : W64} {x : Nat × Nat × Nat} (hc : getChan s n k = some c)
    (ht : sinkToken s n k cons = some (c, seq, h, x)) (hkind : hdrKind h = 1) :
    getChan (sinkEndOfStream s n k cons) n k = some (sinkEnded c cons (x.1, x.2.1, x.2.2 + 1)) ∧
      (getLaunch (sinkEndOfStream s n k cons) c.launch).sinksLeft = (getLaunch s c.launch).sinksLeft -
        (if ((getLaunch s c.launch).image.sinks[x.1]?.map (·.expect)).getD 0 = x.2.2 + 1 then 1 else 0) ∧
      (sinkEndOfStream s n k cons).mem = s.mem := by
  have hchan := getChan_countEos hc cons (x.1, x.2.1, x.2.2 + 1)
  have hlaunch : getLaunch (countEos s n k cons (x.1, x.2.1, x.2.2 + 1)) c.launch = getLaunch s c.launch := by simp [countEos]
  have hmem : (countEos s n k cons (x.1, x.2.1, x.2.2 + 1)).mem = s.mem := by simp [countEos]
  rw [sinkEndOfStream_of_eos ht hkind]
  by_cases hlast : ((getLaunch s c.launch).image.sinks[x.1]?.map (·.expect)).getD 0 = x.2.2 + 1
  · rw [if_pos hlast.symm, if_pos hlast]
    exact ⟨hchan, by rw [getLaunch_modLaunch, hlaunch], hmem⟩
  · rw [if_neg (Ne.symm hlast), if_neg hlast]
    exact ⟨hchan, by rw [hlaunch, Nat.sub_zero], hmem⟩

/-- R354: the first failure of a launch is recorded. -/
theorem getLaunch_failLaunch {s : State} {e : Nat} (h : (getLaunch s e).failed = false) (r : ErrorRec) :
    getLaunch (failLaunch s e r) e = { getLaunch s e with failed := true, err := r } := by
  simp [failLaunch, h]

@[simp] theorem failLaunch_mem (s : State) (e : Nat) (r : ErrorRec) : (failLaunch s e r).mem = s.mem := rfl

/-! ### The events of an untripped machine (R391) -/

section
variable {s : State} (h : Awake s)
include h

theorem exec_rateSample_of_awake (n k : Nat) : exec (.rateSample n k) s = .next (rateSample s n k) := by
  rw [exec_rateSample, execRateSample, event_of_awake h]
theorem exec_rateParamWrite_of_awake (n k word : Nat) (v : W64) (drv : Bool) :
    exec (.rateParamWrite n k word v drv) s = .next (rateParamWrite s n k word v drv) := by
  rw [exec_rateParamWrite, execRateParamWrite, event_of_awake h]
theorem exec_sinkDataSlot_of_awake (n k cons : Nat) : exec (.sinkDataSlot n k cons) s = .next (sinkDataSlot s n k cons) := by
  rw [exec_sinkDataSlot, execSinkDataSlot, event_of_awake h]
theorem exec_sinkEndOfStream_of_awake (n k cons : Nat) :
    exec (.sinkEndOfStream n k cons) s = .next (sinkEndOfStream s n k cons) := by
  rw [exec_sinkEndOfStream, execSinkEndOfStream, event_of_awake h]

end

/-- Settles O35: samples, parameters, and a sink's three kinds of token, each from its own lemmas. -/
theorem ratesAndSinks : Obligations.RatesAndSinks := by
  unfold Obligations.RatesAndSinks
  intro s n k c hawake hc
  refine ⟨fun hdue hopen hlaunch hruns hweights => ?_, fun word v => ?_, fun cons seq h x ht hx => ⟨fun hkind hnone => ?_, ?_, ?_, fun hkind => ?_⟩⟩
  · have hsample : rateSample s n k = setChan s n k (some (nextSample c)) := by
      simp [rateSample, hc, hdue, hopen, hlaunch, hruns]
    rw [exec_rateSample_of_awake hawake, hsample, nextSample_eq hweights]
  · rw [exec_rateParamWrite_of_awake hawake, exec_rateParamWrite_of_awake hawake, ← withParams_eq]
    refine ⟨?_, fun hok => ?_, fun hbad => ?_⟩
    · simp [rateParamWrite, hc]
    · simp [rateParamWrite, hc, hok]
    · simp [rateParamWrite, hc, hbad]
  · have hslot := sinkDataSlot_of_data ht hkind (by rw [hnone]; exact sinkWaits_of_none s n _ _ c)
    rw [hnone, sinkStore_of_none] at hslot
    have hchan := getChan_countSlot hc cons (x.1, x.2.1 + 1, x.2.2)
    rw [← hslot] at hchan
    exact ⟨_, _, exec_sinkDataSlot_of_awake hawake n k cons, hchan, sinkAt_sinkTaken _ hx, tailOf_sinkTaken c cons _,
      by rw [hslot, countSlot_mem]⟩
  · intro buffer gs u hkind hbuffer hopen hpieces hplain hapart hstill
    have hslot : sinkDataSlot s n k cons = _ := sinkDataSlot_of_data ht hkind hopen
    obtain ⟨hin, hout⟩ := memByte_sinkStore seq hpieces hplain hstill hapart
    have hstored : getChan (sinkStore s n buffer x.2.1 seq c) n k = some c := by
      rw [getChan_of_ledger (ledger_sinkStore seq hpieces hplain), hc]
    have hchan := getChan_countSlot hstored cons (x.1, x.2.1 + 1, x.2.2)
    rw [← hslot] at hchan
    refine ⟨_, _, exec_sinkDataSlot_of_awake hawake n k cons, hchan, sinkAt_sinkTaken _ hx, tailOf_sinkTaken c cons _,
      fun g hg i hi => ?_, fun a ha => ?_⟩
    · rw [hslot, memByte_countSlot]
      exact hin g hg i hi
    · rw [hslot, memByte_countSlot]
      exact hout a ha
  · intro v u buffer hkind hbuffer hopen hpieces hlaunch hfresh
    have hslot : sinkDataSlot s n k cons =
        countSlot (failLaunch u c.launch { code := 6, addr := w64 v }) n k cons (x.1, x.2.1 + 1, x.2.2) :=
      (sinkDataSlot_of_data ht hkind hopen).trans (congrArg (countSlot · n k cons _) (sinkStore_of_error seq hpieces))
    have hbefore : getLaunch u c.launch = getLaunch s c.launch := getLaunch_of_ledger (ledger_of_sinkPieces hpieces) _
    have hafter : getLaunch (sinkDataSlot s n k cons) c.launch =
        { getLaunch u c.launch with failed := true, err := { code := 6, addr := w64 v } } := by
      rw [hslot, getLaunch_countSlot, getLaunch_failLaunch (by rwa [hbefore])]
    refine ⟨_, exec_sinkDataSlot_of_awake hawake n k cons, ?_, ?_, ?_, ?_⟩
    · rw [hafter]
    · rw [hafter]
    · rw [hafter]
      rfl
    · rw [hslot, countSlot_mem, failLaunch_mem, mem_of_sinkPieces hpieces]
  · obtain ⟨hchan, hleft, hmem⟩ := sinkEndOfStream_spec hc ht hkind
    exact ⟨_, _, exec_sinkEndOfStream_of_awake hawake n k cons, hchan, sinkAt_sinkEnded _ hx, testBit_eosc_sinkEnded c cons _, hleft, hmem⟩

end Sys2Proof.Machine

/-!
# Firings (R24-R31, R208, R383)

What the start of a firing sets, which instance the scheduler starts, and what the end of a firing leaves of its context.
-/

namespace Sys2Proof.Machine

open Sys2Proof.Claims

/-! ### Records of a snapshot leave the instances alone (R131, R395) -/

@[simp] theorem getInst_setCopy (s : State) (eng k : Nat) (x : Copy) (m j : Nat) : getInst (setCopy s eng k x) m j = getInst s m j := by
  unfold setCopy
  split
  · exact getInst_modCore s eng _ rfl m j
  · rfl
@[simp] theorem getInst_dropMisses (s : State) (u : WalkUnit) (m j : Nat) : getInst (dropMisses s u) m j = getInst s m j := by
  unfold dropMisses
  split <;> rfl
@[simp] theorem getInst_recordCopy (s : State) (n k e off : Nat) (bs : List Byte) (m j : Nat) :
    getInst (recordCopy s n k e off bs) m j = getInst s m j :=
  (getInst_dropMisses _ _ m j).trans (getInst_setCopy _ n k _ m j)
@[simp] theorem getInst_cutRecord (s : State) (n e : Nat) (bs : List Byte) (m j : Nat) :
    getInst (cutRecord s n e bs) m j = getInst s m j := by
  unfold cutRecord
  dsimp only
  split
  · exact getInst_recordCopy _ n _ e _ bs m j
  · exact getInst_modCore _ n _ rfl m j
@[simp] theorem getInst_recordTaken (s : State) (n slot m j : Nat) : getInst (recordTaken s n slot) m j = getInst s m j := by
  unfold recordTaken
  split
  · split
    · rfl
    · refine foldl_keeps (getInst · m j) _ (fun s x => ?_) _ s
      dsimp only
      split
      · rfl
      · split
        · exact getInst_cutRecord _ n _ _ m j
        · rfl
  · rfl

/-! ### The start of a firing (R25) -/

/-- The record a firing runs again, or what its ports take now. -/
def firingSpans (s : State) (i : Inst) (replay : Option FireRec) : List (Nat × Nat) :=
  match replay with | some r => r.spans | none => portSpans s i
def firingNumber (i : Inst) (replay : Option FireRec) : Nat :=
  match replay with | some r => r.fir | none => i.firecnt
def firingArgs (s : State) (n : Nat) (i : Inst) (replay : Option FireRec) : List W64 :=
  [i.wid, w64 (firingNumber i replay), w64 i.block] ++ (upFrom 0 4).map (portAddr s n i (firingSpans s i replay))

/-- The firing that the context holds. -/
def newFiring (s : State) (slot : Nat) (i : Inst) (replay : Option FireRec) : Firing :=
  { launch := i.launch, slot := slot, fir := firingNumber i replay, ord := i.ord, asid := (getLaunch s i.launch).asid
    window := (getLaunch s i.launch).window, replay := replay.isSome
    ports := (firingSpans s i replay).map (fun x => { res := x.2, base := if replay.isSome then some x.1 else none }) }

/-- Before the firing stands in its context: the records of the tokens it takes, its slot addresses, its reservations. -/
def prepareFiring (s : State) (n slot : Nat) (i : Inst) (replay : Option FireRec) : State :=
  let v := if replay.isSome then s else recordTaken s n slot
  let u := storeMem v i.block 96 (packNat 64 ((upFrom 4 12).map (fun k => (portAddr v n i (firingSpans s i replay) k).toNat)))
  if replay.isSome then u
  else (i.ports.filter (·.output)).foldl (fun s p => modChan s p.core p.ch (fun h => { h with reserved := h.reserved + p.count })) u

/-- A context and its two streams set. -/
def enterFiring (s : State) (n c : Nat) (x : Ctx) (cp ap : Stream) : State :=
  setStream (setStream (setCtx s n c x) { core := n, ctx := c, ap := false } cp) { core := n, ctx := c, ap := true } ap

/-- The instance of a firing that starts. -/
def firingInst (s : State) (n slot c fir : Nat) (spans : List (Nat × Nat)) (replay : Option FireRec) (i : Inst) : Inst :=
  { i with
    state := 4, ctx := c, ord := i.ord + 1
    hist := if i.replayable && replay.isNone then
        i.hist.filter (fun r => !(r.ended && (i.ports.all (·.output)) && productionDone s n slot r.fir)) ++
          [{ fir := fir, spans := spans }]
      else i.hist }

@[simp] theorem getInst_enterFiring (s : State) (n c : Nat) (x : Ctx) (cp ap : Stream) (m j : Nat) :
    getInst (enterFiring s n c x cp ap) m j = getInst s m j := by
  unfold enterFiring
  rw [getInst_of_ledger (ledger_setStream _ _ _), getInst_of_ledger (ledger_setStream _ _ _)]
  exact getInst_modCore s n _ rfl m j
@[simp] theorem getChan_enterFiring (s : State) (n c : Nat) (x : Ctx) (cp ap : Stream) (m j : Nat) :
    getChan (enterFiring s n c x cp ap) m j = getChan s m j := by
  unfold enterFiring
  rw [getChan_of_ledger (ledger_setStream _ _ _), getChan_of_ledger (ledger_setStream _ _ _)]
  exact getChan_modCore s n _ rfl m j
@[simp] theorem enterFiring_dev (s : State) (n c : Nat) (x : Ctx) (cp ap : Stream) : (enterFiring s n c x cp ap).dev = s.dev := rfl
@[simp] theorem firingOf_enterFiring (s : State) (n c : Nat) (x : Ctx) (cp ap : Stream) :
    firingOf (enterFiring s n c x cp ap) n c = x.firing := by
  simp [firingOf, enterFiring]
@[simp] theorem getStream_enterFiring (s : State) (n c : Nat) (x : Ctx) (cp ap : Stream) :
    getStream (enterFiring s n c x cp ap) { core := n, ctx := c, ap := false } = cp := by
  unfold enterFiring
  rw [getStream_setStream_ne _ _ _ _ (by simp), getStream_setStream]

@[simp] theorem getInst_prepareFiring (s : State) (n slot : Nat) (i : Inst) (replay : Option FireRec) (m j : Nat) :
    getInst (prepareFiring s n slot i replay) m j = getInst s m j := by
  unfold prepareFiring
  dsimp only
  split
  · exact getInst_of_ledger (ledger_storeMem _ _ _ _) m j
  · rw [foldl_keeps (getInst · m j) _ (fun s p => getInst_modChan s _ _ _ m j), getInst_of_ledger (ledger_storeMem _ _ _ _),
      getInst_recordTaken]
/-- R383: a replay reserves nothing and records nothing. -/
theorem ledger_prepareFiring_replay (s : State) (n slot : Nat) (i : Inst) (r : FireRec) :
    ledger (prepareFiring s n slot i (some r)) = ledger s := ledger_storeMem _ _ _ _

/-- The streams of a firing: the root of its space and the vector of its handler. -/
def firingStream (s : State) (n : Nat) (i : Inst) (replay : Option FireRec) (entry : W64) : Stream :=
  let l := getLaunch s i.launch
  let sp := tget {} s.dev.spaces l.asid
  startStream (firingArgs s n i replay) entry (w64 (sp.root * 65536 + l.asid)) (w64 (sp.tvec * 4)) i.priv

/-- The state in which a firing stands in its context. -/
def enteredFiring (s : State) (n slot c : Nat) (i : Inst) (replay : Option FireRec) : State :=
  enterFiring (prepareFiring s n slot i replay) n c
    (startCtx (getLaunch s i.launch) i n c (firingNumber i replay) (newFiring s slot i replay))
    (firingStream s n i replay i.entry) (if i.aentry = 0 then {} else firingStream s n i replay i.aentry)

theorem startFiring_eq {s : State} {n slot c : Nat} {i : Inst} (replay : Option FireRec) (hi : getInst s n slot = some i)
    (hvalid : (tget {} s.dev.spaces (getLaunch s i.launch).asid).v = true)
    (hhandler : (tget {} s.dev.spaces (getLaunch s i.launch).asid).tvec ≠ 0) : startFiring s n slot c replay =
      modInst (enteredFiring s n slot c i replay) n slot
        (firingInst (enteredFiring s n slot c i replay) n slot c (firingNumber i replay) (firingSpans s i replay) replay) := by
  have hbad : (!(tget {} s.dev.spaces (getLaunch s i.launch).asid).v || (tget {} s.dev.spaces (getLaunch s i.launch).asid).tvec == 0) = false := by
    simp [hvalid, hhandler]
  unfold startFiring
  rw [hi]
  dsimp only
  rw [hbad, if_neg Bool.false_ne_true]
  rfl

@[simp] theorem seedFrom_firing (c : Ctx) (t : W32) (k n : Nat) : (seedFrom c t k n).firing = c.firing := by
  induction n generalizing c t k with
  | zero => rfl
  | succ m ih => exact ih _ _ _
@[simp] theorem startCtx_firing (l : Launch) (i : Inst) (n c fir : Nat) (f : Firing) : (startCtx l i n c fir f).firing = some f :=
  seedFrom_firing _ _ _ _

/-- Values placed in registers above `j` leave register `j` alone. -/
theorem tget_place_below (l : List W64) (k j : Nat) (h : j ≤ k) (t : Tbl W64) :
    tget 0 ((l.zipIdx k).foldl (fun t e => tset 0 t (e.2 + 1) e.1) t) j = tget 0 t j := by
  induction l generalizing k t with
  | nil => rfl
  | cons v l ih =>
    rw [List.zipIdx_cons, List.foldl_cons, ih (k + 1) (by omega), tget_tset_ne _ _ _ _ _ (by dsimp only; omega)]

/-- R25: g1 holds the first of the values a stream starts with, g2 the second. -/
theorem sget_startStream (a b : W64) (l : List W64) (entry root vec : W64) (priv : Bool) :
    sget (startStream (a :: b :: l) entry root vec priv) 1 = a ∧ sget (startStream (a :: b :: l) entry root vec priv) 2 = b := by
  have h1 := tget_place_below (b :: l) 1 1 le_rfl (tset 0 [] 1 a)
  have h2 := tget_place_below l 2 2 le_rfl (tset 0 (tset 0 [] 1 a) 2 b)
  rw [tget_tset_same] at h1 h2
  exact ⟨h1, h2⟩

section
variable {s : State} {n slot c : Nat} {i : Inst} (replay : Option FireRec) (hi : getInst s n slot = some i)
  (hvalid : (tget {} s.dev.spaces (getLaunch s i.launch).asid).v = true)
  (hhandler : (tget {} s.dev.spaces (getLaunch s i.launch).asid).tvec ≠ 0)
include hi hvalid hhandler

theorem getInst_startFiring : getInst (startFiring s n slot c replay) n slot =
    some (firingInst (enteredFiring s n slot c i replay) n slot c (firingNumber i replay) (firingSpans s i replay) replay i) := by
  rw [startFiring_eq replay hi hvalid hhandler, getInst_modInst_same, enteredFiring, getInst_enterFiring, getInst_prepareFiring, hi,
    Option.map_some]

/-- R25: what a firing starts with. -/
theorem started_startFiring : Started (startFiring s n slot c replay) n slot c i (firingNumber i replay) := by
  have hstream : getStream (startFiring s n slot c replay) { core := n, ctx := c, ap := false } = firingStream s n i replay i.entry := by
    rw [startFiring_eq replay hi hvalid hhandler, getStream_modInst, enteredFiring, getStream_enterFiring]
  have hfiring : firingOf (startFiring s n slot c replay) n c = some (newFiring s slot i replay) := by
    rw [startFiring_eq replay hi hvalid hhandler, firingOf_modInst, enteredFiring, firingOf_enterFiring, startCtx_firing]
  refine ⟨⟨_, getInst_startFiring replay hi hvalid hhandler, rfl, rfl, rfl⟩, ⟨_, hfiring, rfl, rfl, rfl⟩, ?_⟩
  rw [hstream]
  exact ⟨rfl, rfl, (sget_startStream _ _ _ _ _ _ _).1, (sget_startStream _ _ _ _ _ _ _).2, rfl⟩

end

/-! ### The scheduler (R28) -/

/-- A table with ascending keys holds each of its entries. -/
theorem tget_of_mem {α : Type} (d : α) {t : Tbl α} (hs : t.Pairwise (fun a b => a.1 < b.1)) {k : Nat} {v : α} (h : (k, v) ∈ t) :
    tget d t k = v := by
  induction t with
  | nil => cases h
  | cons e r ih =>
    obtain ⟨hlt, hr⟩ := List.pairwise_cons.mp hs
    rcases List.mem_cons.mp h with rfl | hmem
    · simp [tget]
    · have hne : k ≠ e.1 := (hlt _ hmem).ne'
      simpa [tget, hne] using ih hr hmem

section
variable {s : State} {n e : Nat} (hs : (getCore s n).insts.Pairwise (fun a b => a.1 < b.1))
include hs

/-- R24: a permitted instance stands in its slot, and is the launch's. -/
theorem of_mem_permittedOf {k : Nat} {i : Inst} (h : (k, i) ∈ permittedOf s n e) : getInst s n k = some i ∧ i.launch = e := by
  obtain ⟨⟨j, x⟩, hmem, hx⟩ := List.mem_filterMap.mp h
  cases x with
  | none => cases hx
  | some y =>
    obtain ⟨hcond, heq⟩ := Option.ite_none_right_eq_some.mp hx
    obtain ⟨rfl, rfl⟩ := Prod.mk.inj (Option.some.inj heq)
    exact ⟨tget_of_mem none hs hmem, by simpa using (Bool.and_eq_true_iff.mp hcond).1⟩

theorem permittedOf_sorted : (permittedOf s n e).Pairwise (fun a b => a.1 < b.1) := by
  refine List.Pairwise.filterMap _ (fun a b hab x hx y hy => ?_) hs
  have key : ∀ {a : Nat × Option Inst} {x : Nat × Inst}, (match a.2 with
      | some i => if i.launch == e && permitted24 s n a.1 then some (a.1, i) else none
      | none => none) = some x → x.1 = a.1 := by
    intro a x hx
    cases h : a.2 with
    | none => simp [h] at hx
    | some i =>
      rw [h] at hx
      exact (congrArg Prod.fst (Option.some.inj (Option.ite_none_right_eq_some.mp hx).2)).symm
  rw [key hx, key hy]
  exact hab

end

/-- One instance no worse than another: greater credit, or the same credit and no higher slot. -/
def PickedOver (y b : Nat × Int) : Prop := b.2 < y.2 ∨ (b.2 = y.2 ∧ y.1 ≤ b.1)

/-- The better of the instance picked so far and the next one. -/
def pickStep (m : Option (Nat × Int)) (x : Nat × Int) : Option (Nat × Int) :=
  match m with
  | some y => if y.2 < x.2 then some x else m
  | none => some x

theorem pickInst_eq (cs : List (Nat × Int)) : pickInst cs = (cs.foldl pickStep none).map (·.1) := rfl

theorem foldl_pickStep (cs : List (Nat × Int)) (y : Nat × Int) (hs : (y :: cs).Pairwise (fun a b => a.1 < b.1)) :
    ∃ z ∈ y :: cs, cs.foldl pickStep (some y) = some z ∧ ∀ b ∈ y :: cs, PickedOver z b := by
  induction cs generalizing y with
  | nil => exact ⟨y, List.mem_cons_self, rfl, by simp [PickedOver]⟩
  | cons x cs ih =>
    obtain ⟨hy, hxs⟩ := List.pairwise_cons.mp hs
    have hyx := hy x List.mem_cons_self
    by_cases hlt : y.2 < x.2
    · obtain ⟨z, hz, hfold, hover⟩ := ih x hxs
      refine ⟨z, List.mem_cons_of_mem _ hz, by simpa [pickStep, hlt] using hfold, fun b hb => ?_⟩
      rcases List.mem_cons.mp hb with rfl | hb
      · have hzx := hover x List.mem_cons_self
        unfold PickedOver at *
        omega
      · exact hover b hb
    · obtain ⟨z, hz, hfold, hover⟩ := ih y (List.pairwise_cons.mpr ⟨fun b hb => hy b (List.mem_cons_of_mem _ hb),
        (List.pairwise_cons.mp hxs).2⟩)
      refine ⟨z, ?_, by simpa [pickStep, hlt] using hfold, fun b hb => ?_⟩
      · rcases List.mem_cons.mp hz with rfl | hz
        · exact List.mem_cons_self
        · exact List.mem_cons_of_mem _ (List.mem_cons_of_mem _ hz)
      · have hzy := hover y List.mem_cons_self
        rcases List.mem_cons.mp hb with rfl | hb
        · exact hzy
        · rcases List.mem_cons.mp hb with rfl | hb
          · unfold PickedOver at *
            omega
          · exact hover b (List.mem_cons_of_mem _ hb)

/-- R28: over ascending slots the greatest credit is picked, ties to the lowest slot. -/
theorem exists_pickInst {cs : List (Nat × Int)} (hne : cs ≠ []) (hs : cs.Pairwise (fun a b => a.1 < b.1)) :
    ∃ z ∈ cs, pickInst cs = some z.1 ∧ ∀ b ∈ cs, PickedOver z b := by
  cases cs with
  | nil => exact absurd rfl hne
  | cons y cs =>
    obtain ⟨z, hz, hfold, hover⟩ := foldl_pickStep cs y hs
    refine ⟨z, hz, ?_, hover⟩
    rw [pickInst_eq, List.foldl_cons, pickStep, hfold]
    rfl

/-- Each listed instance's credit raised by its weight (R28). -/
def addCredits (s : State) (n : Nat) (ws : List (Nat × Int)) : State :=
  ws.foldl (fun s x => modInst s n x.1 (fun i => { i with credit := i.credit + x.2 })) s

@[simp] theorem addCredits_dev (s : State) (n : Nat) (ws : List (Nat × Int)) : (addCredits s n ws).dev = s.dev :=
  foldl_keeps (·.dev) _ (fun s (x : Nat × Int) => modInst_dev s n x.1 _) ws s

theorem getInst_addCredits_ne (s : State) (n k : Nat) (ws : List (Nat × Int)) (h : ∀ x ∈ ws, x.1 ≠ k) :
    getInst (addCredits s n ws) n k = getInst s n k := by
  induction ws generalizing s with
  | nil => rfl
  | cons x ws ih =>
    have hx := h x List.mem_cons_self
    refine (ih _ (fun y hy => h y (List.mem_cons_of_mem _ hy))).trans ?_
    rw [getInst_modInst, if_neg (fun hk => hx hk.2.symm)]

theorem getInst_addCredits {s : State} {n k : Nat} {w : Int} {i : Inst} {ws : List (Nat × Int)}
    (hs : ws.Pairwise (fun a b => a.1 < b.1)) (h : (k, w) ∈ ws) (hi : getInst s n k = some i) :
    getInst (addCredits s n ws) n k = some { i with credit := i.credit + w } := by
  induction ws generalizing s with
  | nil => cases h
  | cons x ws ih =>
    obtain ⟨hx, hws⟩ := List.pairwise_cons.mp hs
    change getInst (addCredits (modInst s n x.1 _) n ws) n k = _
    rcases List.mem_cons.mp h with rfl | hmem
    · rw [getInst_addCredits_ne _ _ _ _ (fun y hy => (hx y hy).ne'), getInst_modInst_same, hi, Option.map_some]
    · refine ih hws hmem ?_
      rw [getInst_modInst, if_neg (fun hk => (hx _ hmem).ne' hk.2), hi]

/-- The weights of the permitted instances, by slot. -/
def permittedWeights (s : State) (n e : Nat) : List (Nat × Int) :=
  (permittedOf s n e).map (fun b => (b.1, (instWeight s b.2 : Int)))

/-- The state in which the instance picked starts: every permitted credit raised, the weights' sum taken from its own (R28). -/
def pickedState (s : State) (n e k : Nat) : State :=
  modInst (addCredits s n (permittedWeights s n e)) n k
    (fun i => { i with credit := i.credit - (permittedWeights s n e).foldl (fun a x => a + x.2) 0 })

@[simp] theorem pickedState_dev (s : State) (n e k : Nat) : (pickedState s n e k).dev = s.dev := by simp [pickedState]
theorem foldl_permittedWeights (s : State) (n e : Nat) : (permittedWeights s n e).foldl (fun a x => a + x.2) 0 =
    ((permittedOf s n e).map (fun b => (instWeight s b.2 : Int))).sum := by
  rw [permittedWeights, List.foldl_map, List.sum_eq_foldl, List.foldl_map]
theorem getInst_permitted {s : State} {n e : Nat} (hs : (getCore s n).insts.Pairwise (fun a b => a.1 < b.1)) {b : Nat × Inst}
    (hb : b ∈ permittedOf s n e) : getInst (addCredits s n (permittedWeights s n e)) n b.1 =
      some { b.2 with credit := b.2.credit + instWeight s b.2 } :=
  getInst_addCredits (List.pairwise_map.mpr (permittedOf_sorted hs)) (List.mem_map_of_mem hb) (of_mem_permittedOf hs hb).1
theorem getInst_pickedState {s : State} {n e : Nat} (hs : (getCore s n).insts.Pairwise (fun a b => a.1 < b.1)) {k : Nat} {i : Inst}
    (hb : (k, i) ∈ permittedOf s n e) : getInst (pickedState s n e k) n k = some { i with
      credit := i.credit + instWeight s i - ((permittedOf s n e).map (fun b => (instWeight s b.2 : Int))).sum } := by
  rw [pickedState, getInst_modInst_same, getInst_permitted hs hb, foldl_permittedWeights, Option.map_some]

/-- R28: the instance that the scheduler picks, with the weights' sum taken from its raised credit, starts. -/
theorem exists_schedulingEvent {s : State} {n e x : Nat} (hf : Fires s n e x)
    (hs : (getCore s n).insts.Pairwise (fun a b => a.1 < b.1)) (hne : permittedOf s n e ≠ []) :
    ∃ k i, (k, i) ∈ permittedOf s n e ∧
      (∀ b ∈ permittedOf s n e, PickedOver (k, i.credit + instWeight s i) (b.1, b.2.credit + instWeight s b.2)) ∧
      schedulingEvent s n e = startFiring (pickedState s n e k) n k x none := by
  have hraised : (permittedOf s n e).map (fun b => (b.1, ((getInst (addCredits s n (permittedWeights s n e)) n b.1).map (·.credit)).getD 0)) =
      (permittedOf s n e).map (fun b => (b.1, b.2.credit + (instWeight s b.2 : Int))) :=
    List.map_congr_left (fun b hb => by rw [getInst_permitted hs hb]; rfl)
  obtain ⟨z, hz, hpick, hover⟩ := exists_pickInst
    (cs := (permittedOf s n e).map (fun b => (b.1, b.2.credit + (instWeight s b.2 : Int))))
    (by simpa using hne) (List.pairwise_map.mpr (permittedOf_sorted hs))
  obtain ⟨⟨k, i⟩, hki, rfl⟩ := List.mem_map.mp hz
  refine ⟨k, i, hki, fun b hb => hover _ (List.mem_map_of_mem hb), ?_⟩
  rw [← hraised] at hpick
  obtain ⟨p, ps, hps⟩ := List.exists_cons_of_ne_nil hne
  unfold pickedState addCredits permittedWeights at *
  unfold schedulingEvent
  simp only [hf.ctx, hf.runs, hps, Bool.not_true, Bool.false_eq_true, if_false] at hpick ⊢
  rw [hpick]

theorem schedulingEvent_starts {s : State} {n e x : Nat} (hf : Fires s n e x)
    (hs : (getCore s n).insts.Pairwise (fun a b => a.1 < b.1)) (hne : permittedOf s n e ≠ []) :
    ∃ k i, (k, i) ∈ permittedOf s n e ∧ Started (schedulingEvent s n e) n k x i i.firecnt ∧
      (∀ b ∈ permittedOf s n e, PickedOver (k, i.credit + instWeight s i) (b.1, b.2.credit + instWeight s b.2)) ∧
      (getInst (schedulingEvent s n e) n k).map (·.credit) =
        some (i.credit + instWeight s i - ((permittedOf s n e).map (fun b => (instWeight s b.2 : Int))).sum) := by
  obtain ⟨k, i, hki, hover, hev⟩ := exists_schedulingEvent hf hs hne
  have hinst := getInst_pickedState hs hki
  have hdev := pickedState_dev s n e k
  obtain ⟨-, rfl⟩ := of_mem_permittedOf hs hki
  rw [hev]
  generalize pickedState s n i.launch k = u at hinst hdev
  have hspace : tget {} u.dev.spaces (getLaunch u i.launch).asid = tget {} s.dev.spaces (getLaunch s i.launch).asid := by
    rw [getLaunch, hdev, ← getLaunch]
  have hvalid := (congrArg Space.v hspace).trans hf.valid
  have hhandler := fun h => hf.handler ((congrArg Space.tvec hspace).symm.trans h)
  obtain ⟨hj, hg, hstream⟩ := started_startFiring (c := x) none hinst hvalid hhandler
  exact ⟨k, i, hki, ⟨hj, hg, hstream⟩, hover, by rw [getInst_startFiring none hinst hvalid hhandler]; rfl⟩

/-! ### Reserve instances and re-injection (R30, R31, R383) -/

theorem ienable_of_dormant {s : State} {n slot : Nat} {v : W64} {i : Inst} (hi : getInst s n slot = some i) (hv : v.getLsbD 0 = true)
    (hkind : i.kind = .reserve) (hen : i.en = false) (hstate : i.state = 1) (hlaunch : i.launch < 64)
    (hsaved : savedOn s i.launch n = false) : ienable s n slot v =
      modLaunch (setInst s n slot (some { i with en := true, state := 2 })) i.launch (fun l => { l with live := l.live + 1 }) := by
  simp [ienable, hi, hv, hkind, hen, hstate, hlaunch, hsaved]

section
variable {s : State} {n k seq : Nat} {c : Chan} {i : Inst} (hc : getChan s n k = some c) (hi : getInst s n c.pslot = some i)
  (hposted : ∀ x ∈ (getCore s n).commits, ¬ (x.ch = k ∧ x.seq = some seq))
include hc hi hposted

omit hc hi in
theorem not_posted : (getCore s n).commits.any (fun x => x.ch == k && x.seq == some seq) = false := by
  rw [List.any_eq_false]
  intro x hx hand
  exact hposted x hx (by simpa using hand)

/-- R383: a token whose producer cannot run again, or that has been re-injected three times, fails the launch. -/
theorem reinject_fails (fuel : Nat) (h : i.replayable = false ∨ 3 ≤ tget 0 c.reinjected seq) :
    reinject (fuel + 1) s n k seq = failLaunch s c.launch { code := 0x15, core := n, detail := w64 seq } := by
  have hor : (!i.replayable) = true ∨ 3 ≤ tget 0 c.reinjected seq := by simpa using h
  unfold reinject
  rw [hc]
  dsimp only
  rw [if_neg (Bool.not_eq_true _ ▸ not_posted hposted), hi]
  exact if_pos hor

/-- The re-injection counted and recorded in the error log. -/
def reinjectState (s : State) (n k seq : Nat) (c : Chan) : State :=
  logError (setChan s n k (some { c with reinjected := tset 0 c.reinjected seq (tget 0 c.reinjected seq + 1) })) 7 0 n 0 0 (w64 seq)

/-- R383: a token's firing runs again from its record. -/
theorem reinject_replays (fuel : Nat) {r : FireRec} {x : Nat} (hreplay : i.replayable = true) (hcount : tget 0 c.reinjected seq < 3)
    (hruns : launchRuns s n i.launch = true) (hctx : freeCtx s n i.launch = some x) (hstate : i.state ≠ 4)
    (hrec : i.hist.find? (fun r => r.ended && (match r.spans[c.pport]? with | some y => decide (past seq y.1 < y.2) | none => false)) = some r)
    (hclean : poisonedInput s i r = none) :
    reinject (fuel + 1) s n k seq = startFiring (reinjectState s n k seq c) n c.pslot x (some r) := by
  have hor : ¬ ((!i.replayable) = true ∨ 3 ≤ tget 0 c.reinjected seq) := by simp [hreplay, hcount]
  have hidle : ¬ (i.state = 4 ∨ (!launchRuns s n i.launch) = true) := by simp [hruns, hstate]
  unfold reinject
  rw [hc]
  dsimp only
  rw [if_neg (Bool.not_eq_true _ ▸ not_posted hposted), hi]
  dsimp only
  rw [if_neg hor]
  generalize hfind : List.find? _ i.hist = o
  obtain rfl : o = some r := hfind.symm.trans hrec
  dsimp only
  rw [if_neg hidle, hclean, hctx]
  rfl

end

section
variable (s : State) (n k seq : Nat) (c : Chan)

/-- What the re-injection's count and record leave of the ledger. -/
theorem ledger_reinjectState : ledger (reinjectState s n k seq c) =
    { ledger (setChan s n k (some { c with reinjected := tset 0 c.reinjected seq (tget 0 c.reinjected seq + 1) })) with
      raswidx := (s.dev.raswidx + 1) % 2 ^ 64 } := ledger_logError _ _ _ _ _ _ _

theorem getInst_reinjectState (m j : Nat) : getInst (reinjectState s n k seq c) m j = getInst s m j :=
  (congrArg (fun l : Ledger => tget none (l.cores m).insts j) (ledger_reinjectState s n k seq c)).trans (getInst_setChan s n k _ m j)
theorem getChan_reinjectState : getChan (reinjectState s n k seq c) n k =
    some { c with reinjected := tset 0 c.reinjected seq (tget 0 c.reinjected seq + 1) } :=
  (congrArg (fun l : Ledger => tget none (l.cores n).chans k) (ledger_reinjectState s n k seq c)).trans (getChan_setChan s n k _)
theorem getLaunch_reinjectState (e : Nat) : getLaunch (reinjectState s n k seq c) e = getLaunch s e :=
  congrArg (fun l : Ledger => tget ({} : Launch) l.launches e) (ledger_reinjectState s n k seq c)
theorem reinjectState_spaces : (reinjectState s n k seq c).dev.spaces = s.dev.spaces :=
  congrArg Ledger.spaces (ledger_reinjectState s n k seq c)
theorem reinjectState_raswidx : (reinjectState s n k seq c).dev.raswidx = (s.dev.raswidx + 1) % 2 ^ 64 :=
  congrArg Ledger.raswidx (ledger_reinjectState s n k seq c)

end

section
variable {s : State} {n slot c : Nat} {i : Inst} (r : FireRec) (hi : getInst s n slot = some i)
  (hvalid : (tget {} s.dev.spaces (getLaunch s i.launch).asid).v = true)
  (hhandler : (tget {} s.dev.spaces (getLaunch s i.launch).asid).tvec ≠ 0)
include hi hvalid hhandler

/-- R383: a replay takes no slot of a channel. -/
theorem getChan_startFiring_replay (m j : Nat) : getChan (startFiring s n slot c (some r)) m j = getChan s m j := by
  rw [startFiring_eq (some r) hi hvalid hhandler, getChan_modInst, enteredFiring, getChan_enterFiring,
    getChan_of_ledger (ledger_prepareFiring_replay s n slot i r)]
theorem startFiring_replay_raswidx : (startFiring s n slot c (some r)).dev.raswidx = s.dev.raswidx := by
  rw [startFiring_eq (some r) hi hvalid hhandler, modInst_dev, enteredFiring, enterFiring_dev,
    raswidx_of_ledger (ledger_prepareFiring_replay s n slot i r)]

end

section
variable {s : State} {n k cons seq : Nat} {c : Chan} {i : Inst} (hhead : poisonedHead s n k cons = some seq)
  (hc : getChan s n k = some c) (hi : getInst s n c.pslot = some i)
  (hposted : ∀ x ∈ (getCore s n).commits, ¬ (x.ch = k ∧ x.seq = some seq))
include hhead hc hi hposted

theorem poisonReinject_fails (h : i.replayable = false ∨ 3 ≤ tget 0 c.reinjected seq) :
    poisonReinject s n k cons = failLaunch s c.launch { code := 0x15, core := n, detail := w64 seq } := by
  unfold poisonReinject
  rw [hhead]
  exact reinject_fails hc hi hposted 4095 h

theorem poisonReinject_replays {r : FireRec} {x : Nat} (hreplay : i.replayable = true) (hcount : tget 0 c.reinjected seq < 3)
    (hf : Fires s n i.launch x) (hstate : i.state ≠ 4)
    (hrec : i.hist.find? (fun r => r.ended && (match r.spans[c.pport]? with | some y => decide (past seq y.1 < y.2) | none => false)) = some r)
    (hclean : poisonedInput s i r = none) : Started (poisonReinject s n k cons) n c.pslot x i r.fir ∧
      getChan (poisonReinject s n k cons) n k = some { c with reinjected := tset 0 c.reinjected seq (tget 0 c.reinjected seq + 1) } ∧
      (poisonReinject s n k cons).dev.raswidx = (s.dev.raswidx + 1) % 2 ^ 64 := by
  have hrun : poisonReinject s n k cons = startFiring (reinjectState s n k seq c) n c.pslot x (some r) := by
    unfold poisonReinject
    rw [hhead]
    exact reinject_replays hc hi hposted 4095 hreplay hcount hf.runs hf.ctx hstate hrec hclean
  have hinst := (getInst_reinjectState s n k seq c n c.pslot).trans hi
  have hspace : tget {} (reinjectState s n k seq c).dev.spaces (getLaunch (reinjectState s n k seq c) i.launch).asid =
      tget {} s.dev.spaces (getLaunch s i.launch).asid := by rw [getLaunch_reinjectState, reinjectState_spaces]
  have hvalid := (congrArg Space.v hspace).trans hf.valid
  have hhandler := fun h => hf.handler ((congrArg Space.tvec hspace).symm.trans h)
  rw [hrun, getChan_startFiring_replay r hinst hvalid hhandler, getChan_reinjectState, startFiring_replay_raswidx r hinst hvalid hhandler,
    reinjectState_raswidx]
  exact ⟨started_startFiring (some r) hinst hvalid hhandler, rfl, rfl⟩

end

/-! ### The events of an untripped machine (R391) -/

section
variable {s : State} (h : Awake s)
include h

theorem exec_schedulingEvent_of_awake (n e : Nat) : exec (.schedulingEvent n e) s = .next (schedulingEvent s n e) := by
  rw [exec_schedulingEvent, execSchedulingEvent, event_of_awake h]
theorem exec_ienable_of_awake (n slot : Nat) (v : W64) : exec (.ienable n slot v) s = .next (ienable s n slot v) := by
  rw [exec_ienable, execIenable, event_of_awake h]
theorem exec_poisonReinject_of_awake (n k cons : Nat) : exec (.poisonReinject n k cons) s = .next (poisonReinject s n k cons) := by
  rw [exec_poisonReinject, execPoisonReinject, event_of_awake h]

end

theorem scheduling : Scheduling := by
  unfold Scheduling
  intro s hawake
  refine ⟨fun n e x hf hs hne => ?_, fun n slot v i hi hv hkind hen hstate hlaunch hsaved => ?_,
    fun n k cons seq c i hhead hc hi hposted => ⟨fun hreplay hcount r x hf hstate hrec hclean => ?_, fun hover hopen => ?_⟩⟩
  · obtain ⟨j, i, hmem, hstarted, hover, hcredit⟩ := schedulingEvent_starts hf hs hne
    exact ⟨_, j, i, exec_schedulingEvent_of_awake hawake n e, hmem, hstarted, hover, hcredit⟩
  · have henabled := ienable_of_dormant hi hv hkind hen hstate hlaunch hsaved
    refine ⟨_, exec_ienable_of_awake hawake n slot v, ?_, ?_, ?_⟩
    · rw [henabled, getInst_modLaunch, getInst_setInst]
    · rw [henabled, getLaunch_modLaunch]
      rfl
    · rw [henabled]
      rfl
  · obtain ⟨hstarted, hchan, hlog⟩ := poisonReinject_replays hhead hc hi hposted hreplay hcount hf hstate hrec hclean
    exact ⟨_, _, exec_poisonReinject_of_awake hawake n k cons, hstarted, hchan, tget_tset_same 0 c.reinjected seq (tget 0 c.reinjected seq + 1), hlog⟩
  · have hfail := poisonReinject_fails hhead hc hi hposted hover
    refine ⟨_, exec_poisonReinject_of_awake hawake n k cons, ?_, ?_, ?_⟩
    · rw [hfail, getLaunch_failLaunch hopen]
    · rw [hfail, getLaunch_failLaunch hopen]
    · rw [hfail, failLaunch_mem]

end Sys2Proof.Machine

/-!
# The end of a firing (R208)

A context emptied of its firing leaves the ledger alone but for that firing; what the ports still hold goes to the channels' queues.
-/

namespace Sys2Proof.Machine

open Sys2Proof.Claims

/-! ### A context emptied (R208, R281, R360) -/

@[simp] theorem ledger_setCopy (s : State) (eng k : Nat) (x : Copy) : ledger (setCopy s eng k x) = ledger s := by
  unfold setCopy
  split
  · exact ledger_modCore s eng _ rfl
  · rfl
@[simp] theorem ledger_modCopy (s : State) (eng k : Nat) (f : Copy → Copy) : ledger (modCopy s eng k f) = ledger s :=
  ledger_setCopy s eng k _
@[simp] theorem ledger_withdrawFault (s : State) (eng k : Nat) : ledger (withdrawFault s eng k) = ledger s := by
  unfold withdrawFault
  dsimp only
  split
  · exact ledger_modCtx s _ _ _ rfl
  · rfl
@[simp] theorem ledger_settleSuspend (s : State) (eng k : Nat) : ledger (settleSuspend s eng k) = ledger s := by
  unfold settleSuspend
  dsimp only
  split
  · rfl
  · exact (ledger_modCopy _ eng k _).trans (ledger_withdrawFault s eng k)
@[simp] theorem ledger_sectorDone (s : State) (eng k sec : Nat) : ledger (sectorDone s eng k sec) = ledger s := by
  unfold sectorDone
  dsimp only
  split <;> simp
@[simp] theorem ledger_settleReq (s : State) (r : Req) : ledger (settleReq s r) = ledger s := by
  unfold settleReq
  split <;> rfl
@[simp] theorem ledger_noteRequest (s : State) (r : Req) (gs : List Seg) (d : VReg) : ledger (noteRequest s r gs d) = ledger s :=
  foldl_keeps ledger (fun s h => noteApplied s r.agent r.id h d) (fun _ _ => rfl) _ s
@[simp] theorem ledger_dropPieces (s : State) (r : Req) (gs : List Seg) : ledger (dropPieces s r gs) = ledger s := by
  unfold dropPieces
  dsimp only
  split <;> simp
@[simp] theorem ledger_windowDone (s : State) (r : Req) (g : Seg) : ledger (windowDone s r g) = ledger s := by
  unfold windowDone
  dsimp only
  split <;> simp
@[simp] theorem ledger_discardHeld (s : State) (n : Nat) (h : HeldWrite) : ledger (discardHeld s n h) = ledger s := by
  unfold discardHeld
  split
  · split <;> simp
  · rfl
@[simp] theorem ledger_dropHeld (s : State) (n c : Nat) : ledger (dropHeld s n c) = ledger s :=
  (foldl_keeps ledger _ (fun s h => ledger_discardHeld s n h) _ _).trans (ledger_modCore s n _ rfl)
@[simp] theorem ledger_dropResults (s : State) (n c : Nat) : ledger (dropResults s n c) = ledger s := ledger_modCore _ n _ rfl
@[simp] theorem ledger_loseSpills (s : State) (n c : Nat) : ledger (loseSpills s n c) = ledger s := by
  refine foldl_keeps ledger _ (fun s g => ?_) _ s
  dsimp only
  split <;> simp

/-- The state in which a context is left as reset has it: nothing of it is under way, its streams are idle. -/
def quietCtx (s : State) (n c : Nat) : State :=
  setStream (setStream (dropHeld (dropResults (loseSpills s n c) n c) n c) { core := n, ctx := c, ap := false } {})
    { core := n, ctx := c, ap := true } {}

theorem clearCtx_eq (s : State) (n c : Nat) : clearCtx s n c = setCtx (quietCtx s n c) n c {} := rfl
@[simp] theorem ledger_quietCtx (s : State) (n c : Nat) : ledger (quietCtx s n c) = ledger s := by simp [quietCtx]
/-- What a context's record does not hold, its emptying leaves as the ledger has it. -/
theorem clearCtx_keeps {α : Type} (view : State → α) (hset : ∀ s n c x, view (setCtx s n c x) = view s)
    (hledger : ∀ s t, ledger t = ledger s → view t = view s) (s : State) (n c : Nat) : view (clearCtx s n c) = view s := by
  rw [clearCtx_eq, hset, hledger _ _ (ledger_quietCtx s n c)]

@[simp] theorem getInst_clearCtx (s : State) (n c m j : Nat) : getInst (clearCtx s n c) m j = getInst s m j :=
  clearCtx_keeps (getInst · m j) (fun s n _ _ => getInst_modCore s n _ rfl m j) (fun _ _ h => getInst_of_ledger h m j) s n c
@[simp] theorem getLaunch_clearCtx (s : State) (n c e : Nat) : getLaunch (clearCtx s n c) e = getLaunch s e :=
  clearCtx_keeps (getLaunch · e) (fun _ _ _ _ => rfl) (fun _ _ h => getLaunch_of_ledger h e) s n c
@[simp] theorem watchTime_clearCtx (s : State) (n c : Nat) : watchTime (clearCtx s n c) = watchTime s :=
  clearCtx_keeps watchTime (fun _ _ _ _ => rfl) (fun _ _ h => watchTime_of_ledger h) s n c
@[simp] theorem clearCtx_cur (s : State) (n c : Nat) : (clearCtx s n c).cur = s.cur :=
  clearCtx_keeps (·.cur) (fun _ _ _ _ => rfl) (fun _ _ h => cur_of_ledger h) s n c
@[simp] theorem getCtx_clearCtx (s : State) (n c : Nat) : getCtx (clearCtx s n c) n c = {} := getCtx_setCtx _ n c {}
@[simp] theorem getStream_clearCtx (s : State) (n c : Nat) (ap : Bool) :
    getStream (clearCtx s n c) { core := n, ctx := c, ap := ap } = {} := by
  rw [clearCtx_eq, getStream_setCtx, quietCtx]
  cases ap with
  | true => exact getStream_setStream _ _ _
  | false => rw [getStream_setStream_ne _ _ _ _ (by simp), getStream_setStream]

/-! ### The watchdog's period (R33) -/

@[simp] theorem getInst_restartWatch (s : State) (e m j : Nat) : getInst (restartWatch s e) m j = getInst s m j := rfl
@[simp] theorem getCtx_restartWatch (s : State) (e n c : Nat) : getCtx (restartWatch s e) n c = getCtx s n c := rfl
@[simp] theorem getStream_restartWatch (s : State) (e : Nat) (w : StreamId) : getStream (restartWatch s e) w = getStream s w := rfl
@[simp] theorem restartWatch_cur (s : State) (e : Nat) : (restartWatch s e).cur = s.cur := rfl
@[simp] theorem getLaunch_restartWatch (s : State) (e : Nat) : getLaunch (restartWatch s e) e =
    { getLaunch s e with watch := some (watchTime s + (getLaunch s e).image.watchdog * 1000000) } := by
  rw [restartWatch, getLaunch_modLaunch]

/-! ### What the ports still hold (R118, R285) -/

/-- What the change of a channel and a post leave alone, the end of a port leaves alone. -/
theorem endPort_keeps {α : Type} (view : State → α) (hchan : ∀ s n k f, view (modChan s n k f) = view s)
    (hcommit : ∀ s c, view (postCommit s c) = view s) (hrelease : ∀ s r, view (postRelease s r) = view s)
    (s : State) (n c : Nat) (f : Firing) (k : Nat) : view (endPort s n c f k) = view s := by
  unfold endPort
  split
  · dsimp only
    split
    · rfl
    · split
      · split
        · split
          · rfl
          · exact hchan _ _ _ _
        · exact foldl_keeps view _ (fun s _ => hcommit s _) _ s
      · split
        · rfl
        · exact hrelease _ _
  · rfl

/-- The state once every port of a firing is settled. -/
def endPorts (s : State) (n c : Nat) (f : Firing) : State := (upFrom 0 f.ports.length).foldl (fun s k => endPort s n c f k) s

@[simp] theorem getInst_postRelease (s : State) (r : Release) (m j : Nat) : getInst (postRelease s r) m j = getInst s m j :=
  getInst_modCore s r.core (fun k => { k with releases := k.releases ++ [{ r with id := s.nextId }] }) rfl m j
@[simp] theorem getInst_endPorts (s : State) (n c : Nat) (f : Firing) (m j : Nat) : getInst (endPorts s n c f) m j = getInst s m j :=
  foldl_keeps (getInst · m j) _ (endPort_keeps (getInst · m j) (by simp) (by simp) (by simp) · n c f) _ s

/-- The launches and the clocks, which the channels do not move. -/
def clockView (s : State) : Dev × Mgmt × Nat × StreamId := (s.dev, s.mgmt, s.time, s.cur)

@[simp] theorem clockView_modInst (s : State) (n k : Nat) (f : Inst → Inst) : clockView (modInst s n k f) = clockView s := by
  unfold modInst
  split <;> rfl
@[simp] theorem clockView_modChan (s : State) (n k : Nat) (f : Chan → Chan) : clockView (modChan s n k f) = clockView s := by
  unfold modChan
  split <;> rfl
@[simp] theorem clockView_endPorts (s : State) (n c : Nat) (f : Firing) : clockView (endPorts s n c f) = clockView s :=
  foldl_keeps clockView _ (endPort_keeps clockView clockView_modChan (fun _ _ => rfl) (fun _ _ => rfl) · n c f) _ s

section
variable {s t : State} (h : clockView t = clockView s)
include h

theorem getLaunch_of_clockView (e : Nat) : getLaunch t e = getLaunch s e :=
  congrArg (fun v : Dev × Mgmt × Nat × StreamId => tget ({} : Launch) v.1.launches e) h
theorem watchTime_of_clockView : watchTime t = watchTime s :=
  congrArg (fun v : Dev × Mgmt × Nat × StreamId => if v.2.1.power.busy then v.2.1.power.began else v.2.2.1) h
theorem cur_of_clockView : t.cur = s.cur := congrArg (fun v : Dev × Mgmt × Nat × StreamId => v.2.2.2) h

end

/-! ### FIRE.END -/

/-- The instance of a firing that has ended. -/
def endedInst (f : Firing) (i : Inst) : Inst :=
  { i with
    state := if i.ports.all (·.output) && i.ports.all (·.eos) then 5 else 2
    firecnt := if f.replay then i.firecnt else i.firecnt + 1
    hist := i.hist.map (fun r => if r.fir = f.fir then { r with ended := true, made := f.ports.map (fun p => if p.eos then p.taken else p.res) } else r) }

/-- The state in which a firing's ports are settled and its instance waits again. -/
def settledFiring (s : State) (n c : Nat) (f : Firing) : State := modInst (endPorts s n c f) n f.slot (endedInst f)

@[simp] theorem clockView_settledFiring (s : State) (n c : Nat) (f : Firing) : clockView (settledFiring s n c f) = clockView s := by
  rw [settledFiring, clockView_modInst, clockView_endPorts]
@[simp] theorem getInst_settledFiring (s : State) (n c : Nat) (f : Firing) :
    getInst (settledFiring s n c f) n f.slot = (getInst s n f.slot).map (endedInst f) := by
  rw [settledFiring, getInst_modInst_same, getInst_endPorts]

/-- R208: the end of a firing that is not poisoned and has no fault pending. -/
theorem endFiring_of_clean {s : State} {n c : Nat} {f : Firing} (hf : (getCtx s n c).firing = some f) (hclean : f.poisoned = false)
    (hpending : (getCtx s n c).pending = []) :
    endFiring s n c = restartWatch (clearCtx (settledFiring s n c f) n c) f.launch := by
  have hreports : reportFaults s n c f.launch = s := by rw [reportFaults, hpending]; rfl
  unfold endFiring
  rw [hf]
  simp only [hreports, hclean, Bool.false_and, Bool.false_eq_true, if_false]
  rfl

/-- A stream as reset has it, over which the end of its firing completes. -/
theorem completed_of_reset {t : State} {w : StreamId} (i : Instr) (hcur : t.cur = w) (hstream : getStream t w = {}) :
    completed i {} t .none = setStream t w {} := by
  subst hcur
  change setStream t t.cur (flowStream (getStream t t.cur) (instrSize i) .none) = setStream t t.cur {}
  rw [hstream]
  rfl

section
variable {s : State} {f : R3F} (hready : OpsReady s {} [])
include hready

theorem exec_fireEnd_of_ap (hap : s.cur.ap = true) : exec (.fireEnd f) s =
    .next (completed (.fireEnd f) {} (modCur s (fun x => { x with run := .ended, monitor := {} })) .none) := by
  rw [exec_fireEnd, execFireEnd]
  exact perform_completes _ _ hready (if_pos hap)
theorem exec_fireEnd_of_cp (hap : s.cur.ap = false) : exec (.fireEnd f) s =
    .next (completed (.fireEnd f) {} (endFiring s s.cur.core s.cur.ctx) .none) := by
  rw [exec_fireEnd, execFireEnd]
  exact perform_completes _ _ hready (if_neg (by simp [hap]))

end

theorem firingEnds : FiringEnds := by
  unfold FiringEnds
  intro s f hready
  refine ⟨exec_fireEnd_of_ap hready, fun g i hap hg hclean hfirst hpending hi hin => ?_⟩
  have hend := endFiring_of_clean hg hclean hpending
  have hclock := clockView_settledFiring s s.cur.core s.cur.ctx g
  have hcur : (endFiring s s.cur.core s.cur.ctx).cur = s.cur := by
    rw [hend, restartWatch_cur, clearCtx_cur, cur_of_clockView hclock]
  have hstream : ∀ ap, getStream (endFiring s s.cur.core s.cur.ctx) { s.cur with ap := ap } = {} := fun ap => by
    rw [hend, getStream_restartWatch, getStream_clearCtx]
  have hself : { s.cur with ap := false } = s.cur := by rw [← hap]
  have hdone := completed_of_reset (.fireEnd f) hcur (hself ▸ hstream false)
  have hinst : getInst (setStream (endFiring s s.cur.core s.cur.ctx) s.cur {}) s.cur.core g.slot = some (endedInst g i) := by
    rw [getInst_of_ledger (ledger_setStream _ _ _), hend, getInst_restartWatch, getInst_clearCtx, getInst_settledFiring, hi, Option.map_some]
  have hwaits : (endedInst g i).state = 2 := by
    obtain ⟨p, hp, hout⟩ := hin
    have hall : i.ports.all (·.output) = false := List.all_eq_false.mpr ⟨p, hp, by simp [hout]⟩
    simp [endedInst, hall]
  refine ⟨_, _, exec_fireEnd_of_cp hready hap, ?_, ?_, ?_, hdone ▸ hinst, hwaits, by simp [endedInst, hfirst], ?_⟩
  · rw [hdone, getCtx_setStream, hend, getCtx_restartWatch, getCtx_clearCtx]
  · rw [hdone, hself, getStream_setStream]
  · rw [hdone, getStream_setStream_ne _ _ _ _ (by rw [← hself]; simp), hstream true]
  · rw [hdone, getLaunch_of_ledger (ledger_setStream _ _ _), hend, getLaunch_restartWatch, getLaunch_clearCtx, watchTime_clearCtx,
      getLaunch_of_clockView hclock, watchTime_of_clockView hclock]

/-- Settles O34: the scheduler, reserve instances and re-injection by the rules of a firing's start, FIRE.END by those of its end. -/
theorem firings : Obligations.Firings := ⟨scheduling, firingEnds⟩

end Sys2Proof.Machine

/-!
# A launch starts (R19, R39, R327)

A launch that passes its checks has its record and the instances of its seats; what is set up after them leaves both alone.
-/

namespace Sys2Proof.Machine

open Sys2Proof.Claims

/-! ### What the set-up of a launch leaves alone -/

@[simp] theorem ledger_lpRead (fuel : Nat) (s : State) (die asid va n : Nat) : ledger (lpRead fuel s die asid va n).2 = ledger s := by
  induction fuel generalizing s va n with
  | zero => rfl
  | succ f ih =>
    cases n with
    | zero => rfl
    | succ n =>
      have hx := ledger_lpXlate s die asid va .load (min (n + 1) (65536 - va % 65536))
      simp only [lpRead]
      split
      next heq => rwa [heq] at hx
      next x u heq =>
        rw [heq] at hx
        have hrest := ih (readSeg u { pa := x.pa, len := min (n + 1) (65536 - va % 65536), off := 0, dev := x.dev }).2
          (va + min (n + 1) (65536 - va % 65536)) (n + 1 - min (n + 1) (65536 - va % 65536))
        rw [ledger_readSeg] at hrest
        split
        next heq =>
          rw [heq] at hrest
          exact hrest.trans hx
        next heq =>
          rw [heq] at hrest
          exact hrest.trans hx
@[simp] theorem ledger_lpBytes (s : State) (die asid va n : Nat) : ledger (lpBytes s die asid va n).2 = ledger s := ledger_lpRead _ s die asid va n

@[simp] theorem ledger_copySections (s : State) (asid : Nat) (p : Placement) : ledger (copySections s asid p) = ledger s := by
  refine foldl_keeps ledger _ (fun s x => foldl_keeps ledger _ (fun s n => ?_) _ s) _ s
  have hread := ledger_lpBytes s (dieOf n) asid x.stage x.size
  split
  next heq =>
    rw [heq] at hread
    exact (ledger_storeMem _ _ _ _).trans hread
  next heq => rwa [heq] at hread
@[simp] theorem ledger_applyPools (s : State) (asid : Nat) (img : Image) : ledger (applyPools s asid img) = ledger s :=
  foldl_keeps ledger _ (fun s _ => (ledger_donate _ _ _ _).trans (ledger_setPool s _ _)) _ s
@[simp] theorem ledger_applyBarriers (s : State) (p : Placement) : ledger (applyBarriers s p) = ledger s :=
  foldl_keeps ledger (fun s (b : Nat × Nat × Nat) => setBarrier s (clusterOf (p.slots.headD 0)) b.2.1
    { getBarrier s (clusterOf (p.slots.headD 0)) b.2.1 with count := b.2.2 }) (fun _ _ => rfl) _ s
@[simp] theorem ledger_imageSlots (s : State) (e : Nat) (cores : List Nat) :
    ledger (cores.foldl (fun s n => (upFrom 0 32).foldl (fun s k => imageTo s e n k) s) s) = ledger s :=
  foldl_keeps ledger _ (fun s n => foldl_keeps ledger _ (fun s k => ledger_imageTo s e n k) _ s) cores s

/-! ### Its record and its seats -/

/-- The record of a launch that starts. -/
def startedLaunch (s : State) (p : Placement) (l : Launch) : Launch :=
  { l with
    lstate := 2, image := p.img, slots := p.slots, cores := coresOf p.seats, window := windowBase p.img
    corewin := (p.img.maps.find? (fun m => m.index == 1)).map (·.va), macrec := p.macrec, chanPa := p.chanPa
    chanVa := p.img.chanarea, live := liveCount p, sinksLeft := sinkCount p, cwin := 0, mwin := 0
    windowAt := s.time + 1000000, thresh := s.dev.intensity }

/-- The state in which a launch has its record, its counts and its watchdog's period. -/
def launchedState (s : State) (e : Nat) (p : Placement) : State :=
  let s := modLaunch s e (startedLaunch s p)
  restartWatch { s with matrixBusy := tset 0 s.matrixBusy e 0, traffic := tset 0 s.traffic e 0 } e

/-- The instances of a launch seated, each with its state block. -/
def seatInsts (s : State) (e : Nat) (p : Placement) (seats : List (Placed × Nat)) : State :=
  seats.foldl (fun s x => initBlock (setInst s x.1.core x.2 (some (newInst e p x))) p x) s

/-- What follows the seats: channels, sections, pools, barriers, the images of its slots. -/
def equipLaunch (s : State) (e asid : Nat) (p : Placement) : State :=
  let s := p.lay.bases.foldl (fun s b => setChan s b.1.prod.core b.1.no (some (newChan s e p b))) s
  let s := applyBarriers (applyPools (copySections s asid p) asid p.img) p
  (coresOf p.seats).foldl (fun s n => (upFrom 0 32).foldl (fun s k => imageTo s e n k) s) s

theorem startLaunch_eq (s : State) (e : Nat) (p : Placement) : startLaunch s e p =
    equipLaunch (seatInsts (launchedState s e p) e p p.seats) e (getLaunch s e).asid p := rfl

theorem getLaunch_launchedState (s : State) (e : Nat) (p : Placement) : getLaunch (launchedState s e p) e =
    { startedLaunch s p (getLaunch s e) with watch := some (watchTime s + p.img.watchdog * 1000000) } := by
  unfold launchedState
  rw [getLaunch_restartWatch]
  change { getLaunch (modLaunch s e (startedLaunch s p)) e with
    watch := some (watchTime s + (getLaunch (modLaunch s e (startedLaunch s p)) e).image.watchdog * 1000000) } = _
  rw [getLaunch_modLaunch]
  rfl

@[simp] theorem ledger_initBlock (s : State) (p : Placement) (x : Placed × Nat) : ledger (initBlock s p x) = ledger s := ledger_storeMem s _ _ _

theorem getLaunch_seatInsts (s : State) (e : Nat) (p : Placement) (seats : List (Placed × Nat)) (e' : Nat) :
    getLaunch (seatInsts s e p seats) e' = getLaunch s e' := by
  refine foldl_keeps (getLaunch · e') _ (fun s x => ?_) seats s
  rw [getLaunch_of_ledger (ledger_initBlock _ p x)]
  rfl

/-- What is equipped leaves alone what the ledger says without the channels. -/
theorem equipLaunch_keeps {α : Type} (view : State → α) (hchan : ∀ s n k x, view (setChan s n k x) = view s)
    (hledger : ∀ s t, ledger t = ledger s → view t = view s) (s : State) (e asid : Nat) (p : Placement) :
    view (equipLaunch s e asid p) = view s := by
  unfold equipLaunch
  dsimp only
  rw [hledger _ _ (ledger_imageSlots _ e _), hledger _ _ (ledger_applyBarriers _ p), hledger _ _ (ledger_applyPools _ asid _),
    hledger _ _ (ledger_copySections _ asid p)]
  exact foldl_keeps view _ (fun s b => hchan _ _ _ _) _ s

@[simp] theorem getLaunch_equipLaunch (s : State) (e asid : Nat) (p : Placement) (e' : Nat) :
    getLaunch (equipLaunch s e asid p) e' = getLaunch s e' :=
  equipLaunch_keeps (getLaunch · e') (fun _ _ _ _ => rfl) (fun _ _ h => getLaunch_of_ledger h e') s e asid p
@[simp] theorem getInst_equipLaunch (s : State) (e asid : Nat) (p : Placement) (n k : Nat) :
    getInst (equipLaunch s e asid p) n k = getInst s n k :=
  equipLaunch_keeps (getInst · n k) (by simp) (fun _ _ h => getInst_of_ledger h n k) s e asid p

theorem getInst_seatInsts_ne (s : State) (e : Nat) (p : Placement) {n k : Nat} (seats : List (Placed × Nat))
    (h : (n, k) ∉ seats.map (fun x => (x.1.core, x.2))) : getInst (seatInsts s e p seats) n k = getInst s n k := by
  induction seats generalizing s with
  | nil => rfl
  | cons y ys ih =>
    rw [List.map_cons, List.mem_cons, not_or] at h
    obtain ⟨hy, hys⟩ := h
    refine (ih _ hys).trans ?_
    rw [getInst_of_ledger (ledger_initBlock _ p y), getInst_setInst_ne]
    exact fun heq => hy (Prod.ext heq.1 heq.2)

/-- R23, R316: each seat holds its instance, where no two seats are one. -/
theorem getInst_seatInsts (s : State) (e : Nat) (p : Placement) {x : Placed × Nat} {seats : List (Placed × Nat)}
    (hs : (seats.map (fun x => (x.1.core, x.2))).Nodup) (h : x ∈ seats) :
    getInst (seatInsts s e p seats) x.1.core x.2 = some (newInst e p x) := by
  induction seats generalizing s with
  | nil => cases h
  | cons y ys ih =>
    obtain ⟨hy, hys⟩ := List.nodup_cons.mp hs
    rcases List.mem_cons.mp h with rfl | hmem
    · refine (getInst_seatInsts_ne _ e p ys hy).trans ?_
      rw [getInst_of_ledger (ledger_initBlock _ p x), getInst_setInst]
    · exact ih _ hys hmem

theorem getLaunch_startLaunch (s : State) (e : Nat) (p : Placement) : getLaunch (startLaunch s e p) e =
    { startedLaunch s p (getLaunch s e) with watch := some (watchTime s + p.img.watchdog * 1000000) } := by
  rw [startLaunch_eq, getLaunch_equipLaunch, getLaunch_seatInsts, getLaunch_launchedState]
theorem getInst_startLaunch (s : State) (e : Nat) {p : Placement} {x : Placed × Nat}
    (hs : (p.seats.map (fun x => (x.1.core, x.2))).Nodup) (h : x ∈ p.seats) :
    getInst (startLaunch s e p) x.1.core x.2 = some (newInst e p x) := by
  rw [startLaunch_eq, getInst_equipLaunch, getInst_seatInsts _ e p hs h]

/-! ### LAUNCH_START -/

section
variable {s u : State} {e : Nat} (hmay : MayStart s e)
include hmay

theorem launchStart_guard : (!mayStart s e || s.mgmt.power.cur == 2 || (s.dev.quiesce && s.dev.dead != 0) ||
    decide (64 ≤ (s.dev.walks.filter (fun k => decide (k.cluster < 4))).length)) = false := by
  obtain ⟨hfirst, hclocked, hplanes, hwalks⟩ := hmay
  have hheld : (s.dev.quiesce && s.dev.dead != 0) = false := by
    rcases hplanes with h | h <;> simp [h]
  rw [hheld, decide_eq_false (Nat.not_le.mpr hwalks), hfirst]
  simpa using hclocked

theorem launchStart_of_placed {p : Placement} (hcheck : checkLaunch s e = (.inr p, u))
    (hmacro : redirectHeld s.dev p.macrec macroBytes = false) : launchStart s e = startLaunch u e p := by
  unfold launchStart
  rw [if_neg (Bool.eq_false_iff.mp (launchStart_guard hmay)), hcheck]
  exact if_neg (Bool.eq_false_iff.mp hmacro)
theorem launchStart_of_failing {r : ErrorRec} (hcheck : checkLaunch s e = (.inl r, u)) :
    launchStart s e = modLaunch (failLaunch u e r) e (fun l => { l with lstate := 6 }) := by
  unfold launchStart
  rw [if_neg (Bool.eq_false_iff.mp (launchStart_guard hmay)), hcheck]

end

end Sys2Proof.Machine

/-!
# A launch ends (R36, R38, R360)

A failed launch leaves no firing of its own; at its end the image's class is kept; the stamp is written as the launch's last act,
and what it held is free.
-/

namespace Sys2Proof.Machine

open Sys2Proof.Claims

/-! ### No firing of a launch is left (R360) -/

/-- What an entry of a list brings about, and no entry undoes, holds at the end. -/
theorem foldl_establishes {α β : Type} (P : α → Prop) (f : α → β → α) (hkeep : ∀ s x, P s → P (f s x)) {l : List β} {b : β}
    (hb : b ∈ l) (hset : ∀ s, P (f s b)) (s : α) : P (l.foldl f s) := by
  induction l generalizing s with
  | nil => cases hb
  | cons x l ih =>
    rw [List.foldl_cons]
    rcases List.mem_cons.mp hb with rfl | hmem
    · exact List.foldlRecOn l f (hset s) (fun s hs x _ => hkeep s x hs)
    · exact ih hmem _

/-- What is found in a table and is not its default is an entry. -/
theorem mem_of_tget_ne {α : Type} {d : α} {t : Tbl α} {k : Nat} (h : tget d t k ≠ d) : (k, tget d t k) ∈ t := by
  induction t with
  | nil => exact absurd rfl h
  | cons e r ih =>
    obtain ⟨j, v⟩ := e
    by_cases hj : k = j
    · simp [tget, hj]
    · simp only [tget, hj, if_false] at h ih ⊢
      exact List.mem_cons_of_mem _ (ih h)

/-- Context c of core n runs no firing of a launch. -/
def FreeOf (e n c : Nat) (s : State) : Prop := ∀ f, firingOf s n c = some f → f.launch ≠ e

theorem firingOf_clearCtx (s : State) (m k n c : Nat) : firingOf (clearCtx s m k) n c = if n = m ∧ c = k then none else firingOf s n c := by
  split
  next h =>
    obtain ⟨rfl, rfl⟩ := h
    rw [firingOf, getCtx_clearCtx]
  next h =>
    rw [clearCtx_eq, ← firingOf_of_ledger (ledger_quietCtx s m k) n c]
    unfold firingOf getCtx setCtx
    by_cases hn : n = m
    · rw [hn, getCore_modCore, tget_tset_ne _ _ _ _ _ (fun hc => h ⟨hn, hc⟩)]
    · rw [getCore_modCore_ne _ _ _ _ hn]

theorem FreeOf.clearCtx {e n c : Nat} {s : State} (h : FreeOf e n c s) (m k : Nat) : FreeOf e n c (clearCtx s m k) := by
  unfold FreeOf
  rw [firingOf_clearCtx]
  split
  · simp
  · exact h
theorem freeOf_clearCtx_same (e n c : Nat) (s : State) : FreeOf e n c (clearCtx s n c) := by
  unfold FreeOf
  rw [firingOf_clearCtx, if_pos ⟨rfl, rfl⟩]
  simp

/-- A context with a firing stands in its core's table, and its core in the machine's. -/
theorem mem_of_firingOf {s : State} {n c : Nat} {f : Firing} (h : firingOf s n c = some f) :
    (n, getCore s n) ∈ s.cores ∧ (c, getCtx s n c) ∈ (getCore s n).ctxs := by
  have hctx : getCtx s n c ≠ {} := fun hc => by
    rw [firingOf, hc] at h
    cases h
  have hcore : getCore s n ≠ {} := fun hn => by
    unfold getCtx at hctx
    rw [hn] at hctx
    exact hctx rfl
  exact ⟨mem_of_tget_ne hcore, mem_of_tget_ne hctx⟩

/-- The contexts of one core's table that run a launch emptied. -/
def clearCore (e : Nat) (s : State) (x : Nat × Core) : State :=
  x.2.ctxs.foldl (fun s c => if c.2.firing.any (fun f => f.launch == e) then clearCtx s x.1 c.1 else s) s

theorem clearContexts_eq (s : State) (e : Nat) : clearContexts s e = s.cores.foldl (clearCore e) s := rfl

theorem FreeOf.clearIf {e n c : Nat} {s : State} (h : FreeOf e n c s) (b : Bool) (m k : Nat) :
    FreeOf e n c (if b then Machine.clearCtx s m k else s) := by
  split
  · exact h.clearCtx m k
  · exact h
theorem FreeOf.clearCore {e n c : Nat} {s : State} (h : FreeOf e n c s) (x : Nat × Core) : FreeOf e n c (clearCore e s x) :=
  List.foldlRecOn _ _ h (fun _ hs y _ => hs.clearIf _ x.1 y.1)

/-- R360: every context of the launch is emptied. -/
theorem freeOf_clearContexts (s : State) (e n c : Nat) : FreeOf e n c (clearContexts s e) := by
  rw [clearContexts_eq]
  by_cases h : FreeOf e n c s
  · exact List.foldlRecOn _ _ h (fun _ hs x _ => hs.clearCore x)
  · unfold FreeOf at h
    push Not at h
    obtain ⟨f, hf, hlaunch⟩ := h
    obtain ⟨hcore, hctx⟩ := mem_of_firingOf hf
    have hruns : (getCtx s n c).firing.any (fun f => f.launch == e) = true := by
      rw [← firingOf, hf]
      simp [hlaunch]
    refine foldl_establishes (FreeOf e n c) (clearCore e) (fun _ x hs => hs.clearCore x) hcore (fun u => ?_) s
    refine foldl_establishes (FreeOf e n c) _ (fun _ y hs => hs.clearIf _ n y.1) hctx (fun u => ?_) u
    rw [if_pos hruns]
    exact freeOf_clearCtx_same e n c u

theorem firingOf_mapCores (s : State) (f : Nat → Core → Core) (h : ∀ n c, (f n c).ctxs = c.ctxs) (n c : Nat) :
    firingOf { s with cores := s.cores.map (fun e => (e.1, f e.1 e.2)) } n c = firingOf s n c :=
  congrArg (fun t => (tget ({} : Ctx) t c).firing) (tget_map_keeps (·.ctxs) {} f h s.cores n)

theorem firingOf_killCopies (s : State) (e n c : Nat) : firingOf (killCopies s e) n c = firingOf s n c :=
  firingOf_mapCores _ (fun _ x => { x with
    copies := x.copies.map (fun c => (c.1, if c.2.launch = e ∧ copyLive c.2 then { c.2 with state := 7, cause := 3 } else c.2))
    records := x.records.filter (fun r => r.1 != e) }) (fun _ _ => rfl) n c
theorem firingOf_killTables (s : State) (e n c : Nat) : firingOf (killTables s e) n c = firingOf s n c :=
  firingOf_mapCores _ (fun _ x => { x with
    tasks := x.tasks.filter (fun t => t.launch != e), savedTasks := x.savedTasks.filter (fun t => t.launch != e)
    commits := x.commits.filter (fun c => !(getChan s c.core c.ch).any (fun c => c.launch == e))
    releases := x.releases.filter (fun c => !(getChan s c.core c.ch).any (fun c => c.launch == e)) }) (fun _ _ => rfl) n c

theorem killFibres_keeps {α : Type} (view : State → α) (hpool : ∀ s p f, view (modPool s p f) = view s)
    (hfreqs : ∀ s l, view { s with freqs := l } = view s) (s : State) (e : Nat) : view (killFibres s e) = view s := by
  unfold killFibres
  dsimp only
  rw [hfreqs]
  refine foldl_keeps view _ (fun s f => ?_) _ s
  split
  · exact hpool _ _ _
  · rfl
@[simp] theorem ledger_killFibres (s : State) (e : Nat) : ledger (killFibres s e) = ledger s :=
  killFibres_keeps ledger ledger_modPool (fun _ _ => rfl) s e
@[simp] theorem killFibres_mem (s : State) (e : Nat) : (killFibres s e).mem = s.mem :=
  killFibres_keeps (·.mem) modPool_mem (fun _ _ => rfl) s e

theorem firingOf_killSnapshot (s : State) (e n c : Nat) : firingOf (killSnapshot s e) n c = firingOf s n c :=
  firingOf_mapCores (modLaunch s e (fun l => { l with snap := { l.snap with cur := 0 } })) (fun _ x => { x with
    insts := x.insts.map (fun y => (y.1, y.2.map (fun i => if i.launch = e then { i with inject := false } else i))) }) (fun _ _ => rfl) n c

/-- R360: an aborted launch has no firing. -/
theorem freeOf_abortLaunch (s : State) (e n c : Nat) : FreeOf e n c (abortLaunch s e) := by
  have hkeeps : firingOf (abortLaunch s e) n c = firingOf (clearContexts s e) n c :=
    calc firingOf (abortLaunch s e) n c
        = firingOf (killSnapshot (killFibres (killTables (killCopies (clearContexts s e) e) e) e) e) n c := rfl
      _ = firingOf (killFibres (killTables (killCopies (clearContexts s e) e) e) e) n c := firingOf_killSnapshot _ e n c
      _ = firingOf (killTables (killCopies (clearContexts s e) e) e) n c := firingOf_of_ledger (ledger_killFibres _ e) n c
      _ = firingOf (killCopies (clearContexts s e) e) n c := firingOf_killTables _ e n c
      _ = firingOf (clearContexts s e) n c := firingOf_killCopies _ e n c
  unfold FreeOf
  rw [hkeeps]
  exact freeOf_clearContexts s e n c
theorem getLaunch_abortLaunch (s : State) (e : Nat) : (getLaunch (abortLaunch s e) e).lstate = 6 := by
  rw [abortLaunch, getLaunch_modLaunch]

/-! ### Completion (R36, R38) -/

theorem launchCompletion_of_failed {s : State} {e : Nat} (hfailed : (getLaunch s e).failed = true) (hlow : 2 ≤ (getLaunch s e).lstate)
    (hhigh : (getLaunch s e).lstate ≤ 5) : launchCompletion s e = abortLaunch s e := by
  unfold launchCompletion
  exact if_pos ⟨hfailed, hlow, hhigh⟩
theorem launchCompletion_of_done {s : State} {e : Nat} (hdone : launchDone (getLaunch s e) = true) :
    launchCompletion s e = modLaunch (classUpdate s e) e (fun l => { l with lstate := 6 }) := by
  have hopen : (getLaunch s e).failed = false := by
    unfold launchDone at hdone
    simp only [Bool.and_eq_true, Bool.not_eq_true'] at hdone
    exact hdone.1.1.2
  unfold launchCompletion
  dsimp only
  rw [if_neg (by simp [hopen]), if_pos hdone]

/-- An entry of a class table set. -/
def setClass (k v : Nat) (x : Die) : Die := { x with classes := tset 0 x.classes k v }

/-- An entry of the class table of every die set. -/
def setClasses (s : State) (k v : Nat) : State := (upFrom 0 4).foldl (fun s d => modDie s d (setClass k v)) s

theorem setClasses_mem (s : State) (k v : Nat) : (setClasses s k v).mem = s.mem :=
  foldl_keeps (·.mem) _ (fun s d => modDie_mem s d (setClass k v)) _ s
theorem class_setClasses (s : State) (k v : Nat) {d : Nat} (hd : d < 4) : tget 0 (getDie (setClasses s k v) d).classes k = v := by
  have hmem : d ∈ upFrom 0 4 := by simp [upFrom_eq_range', hd]
  have hnodup : (upFrom 0 4).Nodup := by decide
  rw [setClasses, getDie_foldl_modDie (setClass k v) _ hnodup, if_pos hmem, setClass, tget_tset_same]

/-- R38: the image's entry takes the majority class of the run. -/
theorem classUpdate_eq (s : State) (e : Nat) : classUpdate s e =
    setClasses s (imageKey (getLaunch s e).asid ((getLaunch s e).packet.getD 1 0).toNat)
      (if (getLaunch s e).mwin ≤ (getLaunch s e).cwin then 2 else 1) := by
  unfold classUpdate setClasses setClass
  rfl

theorem getDie_modLaunch (s : State) (e : Nat) (f : Launch → Launch) (d : Nat) : getDie (modLaunch s e f) d = getDie s d := rfl
theorem class_launchCompletion {s : State} {e : Nat} (hdone : launchDone (getLaunch s e) = true) {d : Nat} (hd : d < 4) :
    tget 0 (getDie (launchCompletion s e) d).classes (imageKey (getLaunch s e).asid ((getLaunch s e).packet.getD 1 0).toNat) =
      if (getLaunch s e).mwin ≤ (getLaunch s e).cwin then 2 else 1 := by
  rw [launchCompletion_of_done hdone, getDie_modLaunch, classUpdate_eq, class_setClasses s _ _ hd]

/-! ### What an ended launch held is free (R36) -/

/-- The instances and channels of an ended launch handed on. -/
def releaseCores (s : State) (e : Nat) : State :=
  { s with cores := s.cores.map (fun (x : Nat × Core) => (x.1, { x.2 with
    insts := x.2.insts.map (fun y => (y.1, y.2.map (fun i => if i.launch = e then { i with launch := e + 64 } else i)))
    chans := x.2.chans.map (fun y => (y.1, y.2.map (fun c => if c.launch = e then { c with launch := e + 64 } else c))) })) }

theorem freeLaunch_eq (s : State) (e : Nat) : freeLaunch s e = modLaunch (releaseCores (killTables (killFibres s e) e) e) e
    (fun l => { l with lstate := 7, watch := none, heldCores := [], toSave := [] }) := rfl

theorem getInst_releaseCores (s : State) (e n k : Nat) : getInst (releaseCores s e) n k =
    (getInst s n k).map (fun i => if i.launch = e then { i with launch := e + 64 } else i) := by
  have hcore := tget_map ({} : Core) (fun _ x => { x with
    insts := x.insts.map (fun y => (y.1, y.2.map (fun i => if i.launch = e then { i with launch := e + 64 } else i)))
    chans := x.chans.map (fun y => (y.1, y.2.map (fun c => if c.launch = e then { c with launch := e + 64 } else c))) }) s.cores n rfl
  have hinst := tget_map none (fun _ (y : Option Inst) => y.map (fun i => if i.launch = e then { i with launch := e + 64 } else i))
    (getCore s n).insts k rfl
  exact (congrArg (fun x : Core => tget none x.insts k) hcore).trans hinst

theorem launch_ne_of_freeLaunch {s : State} {e n k : Nat} {i : Inst} (h : getInst (freeLaunch s e) n k = some i) : i.launch ≠ e := by
  rw [freeLaunch_eq, getInst_modLaunch, getInst_releaseCores] at h
  obtain ⟨j, -, rfl⟩ := Option.map_eq_some_iff.mp h
  split
  · exact Nat.ne_of_gt (Nat.lt_add_of_pos_right (by decide))
  · assumption
theorem getLaunch_freeLaunch (s : State) (e : Nat) : (getLaunch (freeLaunch s e) e).lstate = 7 := by
  rw [freeLaunch_eq, getLaunch_modLaunch]
theorem memByte_freeLaunch (s : State) (e : Nat) : memByte (freeLaunch s e) = memByte s :=
  calc memByte (freeLaunch s e)
      = memByte (killFibres s e) := memByte_congr rfl rfl rfl
    _ = memByte s := memByte_of_ledger (killFibres_mem s e) (ledger_killFibres s e)

end Sys2Proof.Machine

/-!
# Stamps, windows and the watchdog (R36, R38, R33)
-/

namespace Sys2Proof.Machine

open Sys2Proof.Claims

/-! ### A word in memory, also where pages migrate (R362) -/

/-- The bytes of an aligned word stand together: no redirection parts them. -/
theorem homePa_word (s : State) {pa i : Nat} (hword : pa % 8 = 0) (hi : i < 8) : homePa s (pa + i) = homePa s pa + i := by
  have hpage : (pa + i) / 65536 = pa / 65536 := by omega
  have hoff : (pa + i) % 65536 = pa % 65536 + i := by omega
  have hsector : (pa % 65536 + i) / 4096 = pa % 65536 / 4096 := by omega
  have hhbm : pa + i < hbmEnd ↔ pa < hbmEnd := by unfold hbmEnd; omega
  unfold homePa redirectRead
  simp only [hpage, hoff, hsector, hhbm]
  split
  · split
    · split
      · rw [Nat.add_assoc]
      · rfl
    · rfl
  · rfl

theorem homePa_congr {s t : State} (h : t.dev.migrations = s.dev.migrations) (pa : Nat) : homePa t pa = homePa s pa := by
  unfold homePa redirectRead
  rw [h]

/-- R4, R362: the bytes of a word stored. -/
theorem memByte_memWrite_word (s : State) {pa i : Nat} (x : Nat) (hword : pa % 8 = 0) (hi : i < 8) :
    memByte (memWrite s pa 8 x) (pa + i) = BitVec.ofNat 8 (x / 256 ^ i) := by
  have hcells : (memWrite s pa 8 x).mem =
      (upFrom 0 8).foldl (fun m j => Memory.set s.epoch m (homePa s pa + j) (BitVec.ofNat 8 (x / 256 ^ j))) s.mem := by
    rw [memWrite_mem]
    refine List.foldl_ext _ _ _ (fun m j hj => ?_)
    have hj8 : j < 8 := by simpa [upFrom_eq_range'] using hj
    rw [homePa_word s hword hj8, shiftRight_eight_mul]
  have hset := Memory.get_foldl_set_upFrom s.epoch (homePa s pa) (fun j => BitVec.ofNat 8 (x / 256 ^ j)) 0 8 s.mem (homePa s pa + i)
  rw [if_pos (by omega), Nat.add_sub_cancel_left] at hset
  unfold memByte
  rw [homePa_congr (memWrite_migrations s pa 8 x), homePa_word s hword hi, memWrite_epoch, hcells, hset]

theorem memRead_putPiece_word (f : Seg → Nat) (s : State) {g : Seg} (hplain : PlainMemory g.pa) (hword : g.pa % 8 = 0) (hlen : g.len = 8) :
    memRead (putPiece f s g) g.pa 8 = f g % 256 ^ 8 := by
  have hstore : memByte (putPiece f s g) = memByte (memWrite s g.pa 8 (f g)) := by
    unfold putPiece
    rw [hlen, storeMem_of_plain hplain, memByte_of_ledger (dropRows_mem _ _) (ledger_dropRows _ _),
      memByte_of_ledger (touchTiles_mem _ _ _) (ledger_touchTiles _ _ _)]
  exact memRead_of_memByte _ _ _ _ (fun i hi => by rw [hstore, memByte_memWrite_word s (f g) hword hi])

/-! ### The stamp (R36) -/

theorem memRead_lpPut (s : State) (die v : Nat) {x : Xlated} (hdev : x.dev = 0) (hplain : PlainMemory x.pa) (hword : x.pa % 8 = 0)
    (hv : v < 2 ^ 64) (rel : Bool) : memRead (lpPut s die x v rel) x.pa 8 = v := by
  have hput := memRead_putPiece_word (fun g => nbits v g.off (8 * g.len)) (addTraffic s 64 [{ pa := x.pa, len := 8, off := 0, dev := x.dev }])
    (g := { pa := x.pa, len := 8, off := 0, dev := x.dev }) hplain hword rfl
  have hpieces := lpPutPieces_of_plain s die 64 (gs := [{ pa := x.pa, len := 8, off := 0, dev := x.dev }])
    (by simpa using ⟨hdev, hplain⟩) v rel
  unfold lpPut
  rw [hpieces, memRead_congr (memByte_of_ledger (countPieces_mem _ _) (ledger_countPieces _ _)), List.foldl_cons, List.foldl_nil, hput]
  simp only [nbits, Nat.shiftRight_zero]
  omega

theorem stampValue_eq (l : Launch) : stampValue l = (l.packet.getD 3 0).toNat % 2 ^ 63 + (if l.failed then 2 ^ 63 else 0) := by
  unfold stampValue
  rw [wbits_eq_div_mod]
  simp
theorem stampValue_lt (l : Launch) : stampValue l < 2 ^ 64 := by
  rw [stampValue_eq]
  split <;> omega

theorem memRead_driverEvent (s : State) (code core ctx aux : Nat) (addr detail : W64) (pa n : Nat) :
    memRead (driverEvent s code core ctx aux addr detail) pa n = memRead s pa n :=
  memRead_congr (memByte_of_ledger (driverEvent_mem s code core ctx aux addr detail) (ledger_driverEvent s code core ctx aux addr detail)) pa n

/-- The stamp written, and event 0x0A for a failed launch. -/
def stampedState (s : State) (e : Nat) (x : Xlated) : State :=
  let l := getLaunch s e
  let t := lpPut s (homeDie l) x (stampValue l) true
  if l.failed then driverEvent t 0xA 0 0 e (w64 l.stampVa) (w64 l.err.code) else t

section
variable {s : State} {e : Nat} {x : Xlated} (hdue : StampDue s e x)
include hdue

theorem completionStamp_of_due {killed : Bool} (hkind : ((getLaunch s e).failed && (getLaunch s e).err.code == 0x16) = killed) :
    completionStamp s e killed = freeLaunch (stampedState s e x) e := by
  obtain ⟨hready, hwalker, haddr, hopened, -, hdev, -⟩ := hdue
  have hguard : (stampReady s e && (((getLaunch s e).failed && (getLaunch s e).err.code == 0x16) == killed)) = true := by
    rw [hready, hkind]
    simp
  have hopen : lpOpen s (homeDie (getLaunch s e)) .store true [{ pa := x.pa, len := 8, off := 0, dev := x.dev }] = true := by rwa [hdev]
  unfold completionStamp writeStamp
  dsimp only
  rw [if_pos hguard, if_neg (Bool.eq_false_iff.mp hwalker), haddr]
  dsimp only
  rw [hopen]
  rfl
theorem memRead_stampedState : memRead (stampedState s e x) x.pa 8 = stampValue (getLaunch s e) := by
  have hput := memRead_lpPut s (homeDie (getLaunch s e)) (stampValue (getLaunch s e)) hdue.plain.2.1 hdue.plain.1 hdue.plain.2.2
    (stampValue_lt _) true
  unfold stampedState
  dsimp only
  split
  · rw [memRead_driverEvent, hput]
  · exact hput

end

/-! ### The windows (R38) -/

theorem computeBound_iff (thresh cycles bytes : Nat) : computeBound thresh cycles bytes = true ↔ bytes = 0 ∨ thresh * bytes < cycles * 65536 := by
  simp [computeBound]

/-- The launch and the counts after a window that has come to its end. -/
theorem intensityWindow_of_ended {s : State} {e : Nat} (hruns : (getLaunch s e).lstate = 2) (hend : (getLaunch s e).windowAt ≤ s.time) :
    intensityWindow s e = setLaunch { s with matrixBusy := tset 0 s.matrixBusy e 0, traffic := tset 0 s.traffic e 0 } e
      { getLaunch s e with
        cwin := (getLaunch s e).cwin + bit (computeBound (getLaunch s e).thresh (tget 0 s.matrixBusy e) (tget 0 s.traffic e))
        mwin := (getLaunch s e).mwin + bit (!computeBound (getLaunch s e).thresh (tget 0 s.matrixBusy e) (tget 0 s.traffic e))
        windowAt := (getLaunch s e).windowAt + 1000000, thresh := s.dev.intensity } := by
  unfold intensityWindow
  dsimp only
  rw [if_neg (by omega)]
  rfl
theorem intensityWindow_of_running {s : State} {e : Nat} (hruns : s.time < (getLaunch s e).windowAt) : intensityWindow s e = s := by
  unfold intensityWindow
  exact if_pos (Or.inr hruns)

/-! ### The watchdog (R33) -/

theorem driverEvent_evtwidx (s : State) (code core ctx aux : Nat) (addr detail : W64) :
    (driverEvent s code core ctx aux addr detail).dev.evtwidx = (s.dev.evtwidx + 1) % 2 ^ 64 := rfl

/-- Events to the driver, one for each entry of a list. -/
theorem evtwidx_foldl {β : Type} (f : State → β → State) (h : ∀ s b, (f s b).dev.evtwidx = (s.dev.evtwidx + 1) % 2 ^ 64) (l : List β)
    (s : State) : (l.foldl f s).dev.evtwidx = if l = [] then s.dev.evtwidx else (s.dev.evtwidx + l.length) % 2 ^ 64 := by
  induction l generalizing s with
  | nil => rfl
  | cons b l ih =>
    rw [List.foldl_cons, ih, h, if_neg (List.cons_ne_nil b l), List.length_cons]
    split
    next hl => rw [hl, List.length_nil]
    next => rw [Nat.mod_add_mod, Nat.add_assoc, Nat.add_comm 1]

/-- The events of a watchdog's report: one for each waiting context, one for each held core. -/
def watchEvents (s : State) (e : Nat) (ws : List ((Nat × Nat) × Nat × W64)) (held : List Nat) : State :=
  held.foldl (fun s n => driverEvent s 5 n 0 e 0 8) (ws.foldl (fun s x => driverEvent s 5 x.1.1 x.1.2 e x.2.2 (w64 x.2.1)) s)

/-- A watchdog's report, of at least one event. -/
def watchReport (s : State) (e : Nat) (ws : List ((Nat × Nat) × Nat × W64)) (held : List Nat) : State :=
  if ws.isEmpty && held.isEmpty then driverEvent s 5 0 0 e 0 0 else watchEvents s e ws held

theorem watchReport_keeps {α : Type} (view : State → α) (h : ∀ s code core ctx aux addr detail,
    view (driverEvent s code core ctx aux addr detail) = view s) (s : State) (e : Nat) (ws : List ((Nat × Nat) × Nat × W64))
    (held : List Nat) : view (watchReport s e ws held) = view s := by
  unfold watchReport watchEvents
  split
  · exact h _ _ _ _ _ _ _
  · rw [foldl_keeps view _ (fun s n => h s _ _ _ _ _ _), foldl_keeps view _ (fun s x => h s _ _ _ _ _ _)]

/-- R33, R334: how far a report moves the event ring's write index. -/
theorem watchReport_evtwidx (s : State) (e : Nat) (ws : List ((Nat × Nat) × Nat × W64)) (held : List Nat) :
    (watchReport s e ws held).dev.evtwidx = (s.dev.evtwidx + max 1 (ws.length + held.length)) % 2 ^ 64 := by
  have hevents : (watchEvents s e ws held).dev.evtwidx =
      if held = [] then (if ws = [] then s.dev.evtwidx else (s.dev.evtwidx + ws.length) % 2 ^ 64)
      else ((if ws = [] then s.dev.evtwidx else (s.dev.evtwidx + ws.length) % 2 ^ 64) + held.length) % 2 ^ 64 := by
    unfold watchEvents
    rw [evtwidx_foldl _ (fun s n => driverEvent_evtwidx s _ _ _ _ _ _), evtwidx_foldl _ (fun s x => driverEvent_evtwidx s _ _ _ _ _ _)]
  unfold watchReport
  cases ws with
  | nil =>
    cases held with
    | nil => exact driverEvent_evtwidx s _ _ _ _ _ _
    | cons n held => rw [if_neg (by simp), hevents, if_neg (List.cons_ne_nil n held), if_pos rfl, max_eq_right (by simp), List.length_nil, Nat.zero_add]
  | cons x ws =>
    rw [if_neg (by simp), hevents, if_neg (List.cons_ne_nil x ws), max_eq_right (by rw [List.length_cons]; omega)]
    split
    next hheld => rw [hheld, List.length_nil, Nat.add_zero]
    next => rw [Nat.mod_add_mod, Nat.add_assoc]

/-- The waits of a launch's contexts. -/
def launchWaits (s : State) (e : Nat) : List ((Nat × Nat) × Nat × W64) :=
  (launchCtxs s e).filterMap (fun w => (ctxWait s w.1 w.2).map (fun k => (w, k)))

/-- A launch's record says nothing of what its contexts wait for. -/
theorem launchWaits_modLaunch (s : State) (e : Nat) (f : Launch → Launch) (e' : Nat) :
    launchWaits (modLaunch s e f) e' = launchWaits s e' := rfl
theorem launchWaits_length (s : State) (e : Nat) :
    (launchWaits s e).length = ((launchCtxs s e).filterMap (fun w => ctxWait s w.1 w.2)).length := by
  have hmap : (launchWaits s e).map (·.2) = (launchCtxs s e).filterMap (fun w => ctxWait s w.1 w.2) := by
    rw [launchWaits, List.map_filterMap]
    refine List.filterMap_congr (fun w _ => ?_)
    cases ctxWait s w.1 w.2 <;> rfl
  rw [← hmap, List.length_map]

section
variable {s : State} {e d : Nat} (hwatch : (getLaunch s e).watch = some d)
include hwatch

theorem watchdog_of_over (hruns : (getLaunch s e).lstate = 2 ∨ (getLaunch s e).lstate = 6) (hover : d ≤ watchTime s) :
    watchdog s e = watchReport (modLaunch s e (fun l => { l with watch := none })) e (launchWaits s e) (getLaunch s e).heldCores := by
  unfold watchdog
  dsimp only
  rw [hwatch]
  dsimp only
  rw [if_pos ⟨hruns, hover⟩]
  unfold watchReport watchEvents
  rw [← launchWaits_modLaunch s e (fun l => { l with watch := none }) e]
  rfl
theorem watchdog_of_left (hleft : watchTime s < d) : watchdog s e = s := by
  unfold watchdog
  dsimp only
  rw [hwatch]
  dsimp only
  exact if_neg (fun h => absurd h.2 (Nat.not_le.mpr hleft))

end

/-! ### The events of an untripped machine (R391) -/

section
variable {s : State} (h : Awake s)
include h

theorem exec_launchStart_of_awake (e : Nat) : exec (.launchStart e) s = .next (launchStart s e) := by
  rw [exec_launchStart, execLaunchStart, event_of_awake h]
theorem exec_launchCompletion_of_awake (e : Nat) : exec (.launchCompletion e) s = .next (launchCompletion s e) := by
  rw [exec_launchCompletion, execLaunchCompletion, event_of_awake h]
theorem exec_completionStamp_of_awake (e : Nat) : exec (.completionStamp e) s = .next (completionStamp s e false) := by
  rw [exec_completionStamp, execCompletionStamp, event_of_awake h]
theorem exec_killStamp_of_awake (e : Nat) : exec (.killStamp e) s = .next (completionStamp s e true) := by
  rw [exec_killStamp, execKillStamp, event_of_awake h]
theorem exec_intensityWindow_of_awake (e cycles bytes : Nat) : exec (.intensityWindow e cycles bytes) s = .next (intensityWindow s e) := by
  rw [exec_intensityWindow, execIntensityWindow, event_of_awake h]
theorem exec_watchdog_of_awake (e : Nat) : exec (.watchdog e) s = .next (watchdog s e) := by
  rw [exec_watchdog, execWatchdog, event_of_awake h]

/-- The event of a launch's stamp, by whether it was killed. -/
theorem exec_stamp_of_awake (e : Nat) {row : Instr × Bool} (hrow : row ∈ [(Instr.completionStamp e, false), (.killStamp e, true)]) :
    exec row.1 s = .next (completionStamp s e row.2) := by
  rcases List.mem_pair.mp hrow with rfl | rfl
  · exact exec_completionStamp_of_awake h e
  · exact exec_killStamp_of_awake h e

end

/-- R38: a window that has come to its end, its class spelt out. -/
theorem intensityWindow_spec {s : State} {e : Nat} (hruns : (getLaunch s e).lstate = 2) (hend : (getLaunch s e).windowAt ≤ s.time) :
    intensityWindow s e = setLaunch { s with matrixBusy := tset 0 s.matrixBusy e 0, traffic := tset 0 s.traffic e 0 } e
      { getLaunch s e with
        cwin := (getLaunch s e).cwin + (if tget 0 s.traffic e = 0 ∨
          (getLaunch s e).thresh * tget 0 s.traffic e < tget 0 s.matrixBusy e * 65536 then 1 else 0)
        mwin := (getLaunch s e).mwin + (if tget 0 s.traffic e = 0 ∨
          (getLaunch s e).thresh * tget 0 s.traffic e < tget 0 s.matrixBusy e * 65536 then 0 else 1)
        windowAt := (getLaunch s e).windowAt + 1000000, thresh := s.dev.intensity } := by
  have hbits := computeBound_iff (getLaunch s e).thresh (tget 0 s.matrixBusy e) (tget 0 s.traffic e)
  rw [intensityWindow_of_ended hruns hend]
  by_cases hc : tget 0 s.traffic e = 0 ∨ (getLaunch s e).thresh * tget 0 s.traffic e < tget 0 s.matrixBusy e * 65536
  · rw [hbits.mpr hc, if_pos hc, if_pos hc]
    rfl
  · rw [Bool.eq_false_iff.mpr (fun h => hc (hbits.mp h)), if_neg hc, if_neg hc]
    rfl

/-- Settles O40: start, completion, abort, stamp, window and watchdog, each from its own lemmas. -/
theorem launchLife : Obligations.LaunchLife := by
  unfold Obligations.LaunchLife
  intro s e hawake
  refine ⟨fun hmay => ⟨fun p u hcheck hmacro => ?_, fun r u hcheck hopen => ?_⟩, fun hdone => ?_, fun hfailed hlow hhigh => ?_,
    fun x hdue row hrow hkind => ?_, fun hruns => ?_, fun d hwatch hruns => ⟨fun hover => ?_, fun hleft => ?_⟩⟩
  · have hstart := launchStart_of_placed hmay hcheck hmacro
    refine ⟨_, _, exec_launchStart_of_awake hawake e, hstart ▸ getLaunch_startLaunch u e p, rfl, rfl, rfl, rfl, rfl, rfl,
      fun hseats x hx => ?_⟩
    rw [hstart, getInst_startLaunch u e hseats hx]
  · have hstart := launchStart_of_failing hmay hcheck
    have hlaunch : getLaunch (launchStart s e) e = { getLaunch u e with failed := true, err := r, lstate := 6 } := by
      rw [hstart, getLaunch_modLaunch, getLaunch_failLaunch hopen]
    refine ⟨_, exec_launchStart_of_awake hawake e, ?_, ?_, ?_⟩ <;> rw [hlaunch]
  · have hend := launchCompletion_of_done hdone
    refine ⟨_, exec_launchCompletion_of_awake hawake e, ?_, ?_, fun d hd => ?_⟩
    · rw [hend, getLaunch_modLaunch]
    · rw [hend, modLaunch_mem, classUpdate_eq, setClasses_mem]
    · exact class_launchCompletion hdone hd
  · have hend := launchCompletion_of_failed hfailed hlow hhigh
    refine ⟨_, exec_launchCompletion_of_awake hawake e, ?_, fun n c f hf => ?_⟩
    · rw [hend, getLaunch_abortLaunch]
    · rw [hend] at hf
      exact freeOf_abortLaunch s e n c f hf
  · have hstamp := completionStamp_of_due hdue hkind
    refine ⟨_, exec_stamp_of_awake hawake e hrow, ?_, ?_, fun n k i hi => ?_⟩
    · rw [hstamp, memRead_congr (memByte_freeLaunch _ e), memRead_stampedState hdue, stampValue_eq]
    · rw [hstamp, getLaunch_freeLaunch]
    · rw [hstamp] at hi
      exact launch_ne_of_freeLaunch hi
  · refine fun cycles bytes => ⟨fun hend => ?_, fun hleft => ?_⟩
    · rw [exec_intensityWindow_of_awake hawake, intensityWindow_spec hruns hend]
    · rw [exec_intensityWindow_of_awake hawake, intensityWindow_of_running hleft]
  · have hreport := watchdog_of_over hwatch hruns hover
    refine ⟨_, exec_watchdog_of_awake hawake e, ?_, ?_, ?_⟩
    · rw [hreport, watchReport_keeps (getLaunch · e) (fun s _ _ _ _ _ _ => getLaunch_of_ledger (ledger_driverEvent s _ _ _ _ _ _) e),
        getLaunch_modLaunch]
    · rw [hreport, watchReport_keeps (·.mem) driverEvent_mem, modLaunch_mem]
    · rw [hreport, watchReport_evtwidx, launchWaits_length]
      rfl
  · rw [exec_watchdog_of_awake hawake, watchdog_of_left hwatch hleft]

end Sys2Proof.Machine

/-! # What an operation leaves of memory

The predicates of the proof of O59, and how they pass through lists of acts and computations that may stop. -/

namespace Sys2Proof.Machine
open Sys2Proof.Claims

/-- Memory stands: neither its cells nor the count of HBM's losses. -/
@[simp] abbrev SameMem (s t : State) : Prop := t.mem = s.mem ∧ t.epoch = s.epoch

/-- The canonical form of memory. -/
@[simp] abbrev Canon (s : State) : Prop := Memory.wf s.epoch s.mem = true

theorem SameMem.trans {s t u : State} (h : SameMem s t) (g : SameMem t u) : SameMem s u := ⟨g.1.trans h.1, g.2.trans h.2⟩

/-- What each act of a list leaves of memory, the list leaves of it; `view` is where the state stands. -/
theorem sameMem_foldl_view {α β : Type} (view : α → State) (f : α → β → α) (h : ∀ a b, SameMem (view a) (view (f a b)))
    (l : List β) (a : α) : SameMem (view a) (view (l.foldl f a)) := by
  induction l generalizing a with
  | nil => exact ⟨rfl, rfl⟩
  | cons b l ih => exact (h a b).trans (ih (f a b))

theorem sameMem_foldl {β : Type} (f : State → β → State) (h : ∀ s b, SameMem s (f s b)) (l : List β) (s : State) :
    SameMem s (l.foldl f s) := sameMem_foldl_view id f h l s

theorem canon_foldl {β : Type} (f : State → β → State) (h : ∀ s b, Canon s → Canon (f s b)) (l : List β) (s : State)
    (hs : Canon s) : Canon (l.foldl f s) := by
  induction l generalizing s with
  | nil => exact hs
  | cons b l ih => exact ih (f s b) (h s b hs)

/-- Where a computation gives a result, it has the property. -/
def Holds {α : Type} (P : α → Prop) (r : Ex α) : Prop := ∀ a, r = .ok a → P a

section
variable {α β : Type} (P : α → Prop)
@[simp] theorem holds_ok (a : α) : Holds P (.ok a) ↔ P a := ⟨fun h => h a rfl, fun h b hb => by cases hb; exact h⟩
@[simp] theorem holds_error (e : Stop) : Holds P (.error e) := fun _ h => nomatch h
@[simp] theorem holds_trapEx (c : Nat) (v : W64) : Holds P (trapEx c v) := holds_error P _
@[simp] theorem holds_waitEx (w : Wait) : Holds P (waitEx w) := holds_error P _
@[simp] theorem holds_true (r : Ex α) : Holds (fun _ => True) r := fun _ _ => trivial
@[simp] theorem holds_bind (x : Ex β) (k : β → Ex α) : Holds P (x >>= k) ↔ Holds (fun b => Holds P (k b)) x := by
  cases x with
  | error e => exact ⟨fun _ => holds_error _ e, fun _ => holds_error P e⟩
  | ok b => rw [holds_ok]; rfl
@[simp] theorem holds_map (f : β → α) (x : Ex β) : Holds P (x.map f) ↔ Holds (fun b => P (f b)) x := by
  cases x with
  | error e => exact ⟨fun _ => holds_error _ e, fun _ => holds_error P e⟩
  | ok b => rw [holds_ok]; exact holds_ok P _
theorem Holds.mono {P Q : α → Prop} {r : Ex α} (h : Holds P r) (hpq : ∀ a, P a → Q a) : Holds Q r := fun a ha => hpq a (h a ha)
end
@[simp] theorem driverEvent_epoch (s : State) (code core ctx aux : Nat) (addr detail : W64) :
    (driverEvent s code core ctx aux addr detail).epoch = s.epoch := epoch_of_ledger (ledger_driverEvent s code core ctx aux addr detail)
@[simp] theorem logError_memory (s : State) (type unit core ctx : Nat) (addr detail : W64) : SameMem s (logError s type unit core ctx addr detail) := 
  ⟨(driverEvent_mem _ _ _ _ _ _ _).trans (modDev_mem s _), congrArg Ledger.epoch (ledger_logError s type unit core ctx addr detail)⟩
@[simp] theorem memWrite_canon (s : State) (pa n x : Nat) (h : Canon s) : Canon (memWrite s pa n x) := memWrite_wf s pa n x h
@[simp] theorem memWriteBytes_canon (s : State) (pa : Nat) (bs : List Byte) (h : Canon s) : Canon (memWriteBytes s pa bs) := memWrite_canon s pa _ _ h
@[simp] theorem holds_ite {α : Type} (P : α → Prop) (c : Prop) [Decidable c] (x y : Ex α) :
    Holds P (if c then x else y) ↔ (c → Holds P x) ∧ (¬ c → Holds P y) := by split <;> simp [*]

end Sys2Proof.Machine

/-! # The state's operations and memory (Ops, Access, Order, Fetch) -/

namespace Sys2Proof.Machine
open Sys2Proof.Claims

@[simp] theorem modInst_memory (s : State) (n k : Nat) (f : Inst → Inst) : SameMem s (modInst s n k f) := by
  unfold modInst
  split <;> simp
@[simp] theorem setCopy_memory (s : State) (eng k : Nat) (x : Copy) : SameMem s (setCopy s eng k x) := by
  unfold setCopy
  split <;> simp
@[simp] theorem modCopy_memory (s : State) (eng k : Nat) (f : Copy → Copy) : SameMem s (modCopy s eng k f) := by
  unfold modCopy
  simp
@[simp] theorem takeId_memory (s : State) : SameMem s (takeId s).2 :=
  ⟨rfl, rfl⟩
@[simp] theorem takeFree_memory (s : State) : SameMem s (takeFree s).2 :=
  ⟨rfl, rfl⟩
@[simp] theorem addReq_memory (s : State) (r : Req) : SameMem s (addReq s r) :=
  ⟨rfl, rfl⟩
@[simp] theorem addFReq_memory (s : State) (r : FReq) : SameMem s (addFReq s r) :=
  ⟨rfl, rfl⟩
@[simp] theorem sendOut_memory (s : State) (m : OutMsg) : SameMem s (sendOut s m) :=
  ⟨rfl, rfl⟩
@[simp] theorem notifyAll_memory (s : State) (who : Session → Bool) (addr : W64) (payload : List Byte) :
    SameMem s (notifyAll s who addr payload) := by
  unfold notifyAll
  simp
@[simp] theorem countCorrected_memory (s : State) (i : Nat) : SameMem s (countCorrected s i) :=
  ⟨rfl, rfl⟩
@[simp] theorem failLaunch_memory (s : State) (e : Nat) (r : ErrorRec) : SameMem s (failLaunch s e r) :=
  ⟨rfl, rfl⟩
@[simp] theorem countUnits_memory (s : State) (us : List Nat) : SameMem s (countUnits s us) :=
  sameMem_foldl _ (fun s k => by simp) us s
@[simp] theorem countBursts_memory (s : State) (pa n : Nat) : SameMem s (countBursts s pa n) := by
  unfold countBursts
  simp
@[simp] theorem countPieces_memory (s : State) (gs : List Seg) : SameMem s (countPieces s gs) := by
  unfold countPieces
  simp
@[simp] theorem addTraffic_memory (s : State) (e : Nat) (gs : List Seg) : SameMem s (addTraffic s e gs) := by
  unfold addTraffic
  dsimp only
  split_ifs <;> simp
@[simp] theorem countWalk_memory (s : State) (rs : List Nat) : SameMem s (countWalk s rs) :=
  sameMem_foldl _ (fun s a => countBursts_memory s a 8) rs s
@[simp] theorem takeEnd_memory (s : State) (u : WalkUnit) (asid va : Nat) : SameMem s (takeEnd s u asid va) := by
  unfold takeEnd
  split <;> simp
@[simp] theorem lpXlate_memory (s : State) (die asid va : Nat) (a : Access) (n : Nat) : SameMem s (lpXlate s die asid va a n).2 := by
  unfold lpXlate
  dsimp only
  split <;> simp
@[simp] theorem engineAddress_memory (s : State) (u : WalkUnit) (core : Nat) (w : Option Nat) (asid root va : Nat) (a : Access) (sup : Bool) :
    SameMem s (engineAddress s u core w asid root va a sup).2 := by
  unfold engineAddress
  dsimp only
  (repeat' split) <;> simp
@[simp] theorem repairOperand_memory (s : State) (o : Opnd) : SameMem s (repairOperand s o) := by
  unfold repairOperand
  (repeat' split) <;> simp
@[simp] theorem repairOperands_memory (s : State) (ops : List Opnd) : SameMem s (repairOperands s ops) :=
  sameMem_foldl _ repairOperand_memory ops s
@[simp] theorem noteProducer_memory (s : State) (w : StreamId) (key : Nat) : SameMem s (noteProducer s w key) :=
  ⟨rfl, rfl⟩
@[simp] theorem popQueues_memory (s : State) (w : StreamId) (qs : List Nat) : SameMem s (popQueues s w qs) := by
  induction qs generalizing s with
  | nil => simp [popQueues]
  | cons q r ih =>
    rw [popQueues]
    exact SameMem.trans (by simp) (ih _)
@[simp] theorem carryResidue_memory (x : Stream) (p : Plan) (s : State) : SameMem s (carryResidue x p s) := by
  unfold carryResidue
  split
  · exact sameMem_foldl _ (fun s o => by simp) _ s
  · simp
@[simp] theorem popRead_memory (s : State) (p : Plan) (f : Flow) : SameMem s (popRead s p f) := by
  unfold popRead
  split <;> simp
@[simp] theorem setReg_memory (s : State) (code : BitVec 6) (v : W64) : Holds (SameMem s) (setReg s code v) := by
  unfold setReg
  simp
@[simp] theorem emptyReg_memory (s : State) (code : BitVec 6) : Holds (SameMem s) (emptyReg s code) := by
  unfold emptyReg
  simp
@[simp] theorem setVec_memory (s : State) (code : BitVec 6) (v : VReg) : Holds (SameMem s) (setVec s code v) := by
  unfold setVec
  simp
@[simp] theorem emptyVec_memory (s : State) (code : BitVec 6) : Holds (SameMem s) (emptyVec s code) := by
  unfold emptyVec
  simp
@[simp] theorem setPred_memory (s : State) (p : Nat) (v : W64) : Holds (SameMem s) (setPred s p v) := by
  unfold setPred
  simp
@[simp] theorem deliverFrom_memory (s : State) (unit : Nat) (d : Dest) (v : VReg) : SameMem s (deliverFrom s unit d v) :=
  ⟨rfl, rfl⟩
@[simp] theorem deliver_memory (s : State) (d : Dest) (v : VReg) : SameMem s (deliver s d v) :=
  ⟨rfl, rfl⟩
@[simp] theorem doubleTrap_memory (s : State) (w : StreamId) (cause : Nat) : SameMem s (doubleTrap s w cause) := by
  unfold doubleTrap
  dsimp only
  split <;> simp
@[simp] theorem trapEntry_memory (s : State) (w : StreamId) (cause : Nat) (async : Bool) (val inst : W64) :
    SameMem s (trapEntry s w cause async val inst) := by
  unfold trapEntry
  simp
@[simp] theorem trapMarks_memory (s : State) (w : StreamId) (cause : Nat) (val : W64) : SameMem s (trapMarks s w cause val) := by
  unfold trapMarks
  (repeat' split) <;> simp
@[simp] theorem takeTrap_memory (s : State) (cause : Nat) (val inst : W64) : SameMem s (takeTrap s cause val inst) := by
  unfold takeTrap
  dsimp only
  split_ifs <;> simp
@[simp] theorem noteWait_memory (s : State) (w : Wait) : SameMem s (noteWait s w) := by
  unfold noteWait
  dsimp only
  (repeat' split) <;> simp
@[simp] theorem raiseFlags_memory (s : State) (fl : Flags) : Holds (SameMem s) (raiseFlags s fl) := by
  unfold raiseFlags
  simp
@[simp] theorem stepIn_memory (s : State) (mode : Nat) (ks : List Nat) : SameMem s (stepIn s mode ks) := by
  unfold stepIn
  split <;> simp
@[simp] theorem roundLanes_memory (s : State) (m : BitVec 64) (mode : Nat) (f : Nat → W32 → Rounded) :
    Holds (fun r => SameMem s r.1) (roundLanes s m mode f) := by
  unfold roundLanes
  simp
@[simp] theorem flagLanes_memory (s : State) (m : BitVec 64) (f : Nat → Rounded) : Holds (fun r => SameMem s r.1) (flagLanes s m f) := by
  unfold flagLanes
  simp
@[simp] theorem setDir_memory (s : State) (r : DirRef) (e : DirEntry) : SameMem s (setDir s r e) := by
  unfold setDir
  (repeat' split) <;> simp
@[simp] theorem reclassify_memory (s : State) (c : Covered) : SameMem s (reclassify s c) := by
  unfold reclassify
  split <;> simp
@[simp] theorem touchTiles_memory (s : State) (pa n : Nat) : SameMem s (touchTiles s pa n) :=
  ⟨touchTiles_mem s pa n, epoch_of_ledger (ledger_touchTiles s pa n)⟩
@[simp] theorem imageTo_canon (s : State) (e n k : Nat) (hs : Canon s) : Canon (imageTo s e n k) := by
  unfold imageTo
  simp [hs, -memWrite_epoch]
@[simp] theorem imageSlot_canon (s : State) (n k : Nat) (hs : Canon s) : Canon (imageSlot s n k) := by
  unfold imageSlot
  refine canon_foldl _ (fun s e h => ?_) _ s hs
  simp [h]
@[simp] theorem tagByte_canon (s : State) (n o : Nat) (b : Byte) (hs : Canon s) : Canon (tagByte s n o b) := by
  unfold tagByte
  dsimp only
  split_ifs <;> simp [hs, -memWrite_epoch]
@[simp] theorem storeMem_canon (s : State) (pa n x : Nat) (hs : Canon s) : Canon (storeMem s pa n x) := by
  have himage (c : Nat) (s : State) (k : Nat) (h : Canon s) : Canon (imageSlot (reclassify s (slotTile s c k)) c k) := by simp [h]
  unfold storeMem
  split
  · exact canon_foldl _ (fun s k => himage _ s k) _ _ (by simp [hs, -memWrite_epoch])
  · exact canon_foldl _ (fun s k => himage _ s k) _ _ (canon_foldl _ (fun s i h => tagByte_canon s _ _ _ h) _ s hs)
  · exact canon_foldl _ (fun s k h => imageSlot_canon s _ k h) _ _ (by simp [hs, -memWrite_epoch])
  · simp [hs, -memWrite_epoch]
@[simp] theorem dropBufs_memory (s : State) (n : Nat) (ts : List Tile) : SameMem s (dropBufs s n ts) := by
  unfold dropBufs
  split <;> simp
@[simp] theorem countMatrix_memory (s : State) (n i : Nat) : SameMem s (countMatrix s n i) :=
  ⟨rfl, rfl⟩
@[simp] theorem advanceFence_memory (s : State) (f : BitVec 1024 → BitVec 1024) : SameMem s (advanceFence s f) :=
  sameMem_foldl _ (fun s d => by simp) (upFrom 0 4) s
@[simp] theorem fenceCore_memory (s : State) (n : Nat) : SameMem s (fenceCore s n) :=
  ⟨rfl, rfl⟩
@[simp] theorem setPool_memory (s : State) (p : Nat) (x : Pool) : SameMem s (setPool s p x) := by
  unfold setPool
  split <;> simp
@[simp] theorem modPool_memory (s : State) (p : Nat) (f : Pool → Pool) : SameMem s (modPool s p f) := by
  unfold modPool
  simp
@[simp] theorem freeBytes_memory (s : State) (n : Nat) : SameMem s (freeBytes s n).2 := by
  unfold freeBytes
  generalize upFrom 0 ((n + 7) / 8) = l
  suffices ∀ (l : List Nat) (r : Nat × State), SameMem r.2 (l.foldl (fun r k => let w := takeFree r.2; (r.1 + w.1.toNat * 2 ^ (64 * k), w.2)) r).2
    from this l (0, s)
  intro l
  induction l with
  | nil => intro r; simp
  | cons k l ih => intro r; exact SameMem.trans (by simp) (ih _)
@[simp] theorem readRaw_memory (s : State) (g : Seg) : SameMem s (readRaw s g).2 := by
  unfold readRaw
  split <;> simp
@[simp] theorem readSeg_memory (s : State) (g : Seg) : SameMem s (readSeg s g).2 := by
  unfold readSeg
  simp
@[simp] theorem noteApplied_memory (s : State) (a : Agent) (id : Nat) (h : Home) (d : VReg) : SameMem s (noteApplied s a id h d) := by
  unfold noteApplied
  simp
@[simp] theorem noteRequest_memory (s : State) (r : Req) (gs : List Seg) (d : VReg) : SameMem s (noteRequest s r gs d) :=
  sameMem_foldl _ (fun s h => noteApplied_memory s r.agent r.id h d) _ s
@[simp] theorem noteMiss_memory (s : State) (u : WalkUnit) (die cluster asid root va : Nat) :
    SameMem s (noteMiss s u die cluster asid root va) := by
  unfold noteMiss
  dsimp only
  split_ifs <;> simp
@[simp] theorem noteUnit_memory (s : State) (u : WalkUnit) (die asid va : Nat) : SameMem s (noteUnit s u die asid va) := by
  unfold noteUnit
  simp
@[simp] theorem noteCopy_memory (s : State) (eng k : Nat) (c : Copy) (va : Nat) : SameMem s (noteCopy s eng k c va) := by
  unfold noteCopy
  split <;> simp
@[simp] theorem spill_memory (s : State) (rec : Nat) : Holds (SameMem s) (spill s rec) := by
  unfold spill
  simp
@[simp] theorem fill_memory (s : State) (rec : Nat) : Holds (SameMem s) (fill s rec) := by
  unfold fill
  simp
@[simp] theorem callRotate_memory (s : State) : Holds (SameMem s) (callRotate s) := by
  unfold callRotate
  simp
  exact fun _ _ => (spill_memory s _).mono fun t ht _ => ht
@[simp] theorem retRotate_memory (s : State) : Holds (SameMem s) (retRotate s) := by
  unfold retRotate
  simp
@[simp] theorem openLevel_memory (s : State) (st e : W64) (count : Nat) : Holds (fun r => SameMem s r.1) (openLevel s st e count) := by
  unfold openLevel
  simp
@[simp] theorem noteRemote_memory (s : State) (segs : List Seg) : SameMem s (noteRemote s segs) := by
  unfold noteRemote
  dsimp only
  split_ifs <;> simp
@[simp] theorem send_memory (s : State) (r : Req) : SameMem s (send s r) := by
  unfold send
  split <;> simp
@[simp] theorem macroParity_memory (s : State) (n : Nat) (codes : List Nat) : Holds (SameMem s) (macroParity s n codes) := by
  unfold macroParity
  dsimp only
  split
  · simp
  · rw [holds_ok]
    exact sameMem_foldl _ (fun s c => by simp) _ s
@[simp] theorem viewParity1_memory (s : State) (n c v : Nat) : Holds (SameMem s) (viewParity1 s n c v) := by
  unfold viewParity1
  simp
@[simp] theorem viewParity_memory (s : State) (gs : List Seg) : Holds (SameMem s) (viewParity s gs) := by
  induction gs generalizing s with
  | nil => simp [viewParity]
  | cons g r ih =>
    unfold viewParity
    have hmono (x : Ex State) (hx : Holds (SameMem s) x) : Holds (SameMem s) (x >>= fun t => viewParity t r) := by
      rw [holds_bind]
      exact hx.mono fun t ht => (ih t).mono fun u hu => ht.trans hu
    dsimp only
    split_ifs
    · exact hmono _ (by simp)
    · split <;> exact hmono _ (by simp)
@[simp] theorem loadDest_memory (s : State) (o : Opnd) : Holds (fun r => SameMem s r.1) (loadDest s o) := by
  unfold loadDest
  split <;> simp
@[simp] theorem fenceWords_memory (s : State) (c : Scope) : SameMem s (fenceWords s c) := by
  unfold fenceWords
  simp
@[simp] theorem setBarrier_memory (s : State) (k b : Nat) (x : Barrier) : SameMem s (setBarrier s k b x) :=
  ⟨rfl, rfl⟩
@[simp] theorem applyMember_memory (s : State) (k b : Nat) (x : Barrier) (answer : Nat) : SameMem s (applyMember s k b x answer) :=
  ⟨rfl, rfl⟩
@[simp] theorem vstore_memory (s : State) (f : VF) (addr : Nat → W64) (data : VReg) (byLine view : Bool) :
    Holds (fun r => SameMem s r.1) (vstore s f addr data byLine view) := by
  unfold vstore
  dsimp only
  split <;> simp
@[simp] theorem readCode_memory (s : State) (va pa : Nat) : SameMem s (readCode s va pa).2 := by
  unfold readCode
  simp
@[simp] theorem fetchWord_memory (s : State) (va : W64) : Holds (fun r => SameMem s r.2) (fetchWord s va) := by
  unfold fetchWord
  split <;> simp
@[simp] theorem dropWords_memory (s : State) (w : StreamId) (pc size : Nat) : SameMem s (dropWords s w pc size) := by
  unfold dropWords
  split <;> simp
@[simp] theorem fetchInstr_memory (s : State) : Holds (fun r => SameMem s r.2.2) (fetchInstr s) := by
  unfold fetchInstr
  split
  · simp
  · next w0 t h =>
    have ht : SameMem s t := fetchWord_memory s _ _ h
    split_ifs
    · rw [holds_map]
      exact (fetchWord_memory t _).mono fun r hr => ht.trans hr
    · simpa using ht
@[simp] theorem fetchAhead_memory (s : State) (va n : Nat) : SameMem s (fetchAhead s va n) := by
  induction n generalizing s va with
  | zero => simp [fetchAhead]
  | succ k ih =>
    unfold fetchAhead
    split
    · exact ih s _
    · split
      · dsimp only
        split
        · simp
        · exact SameMem.trans (by simp) (ih _ _)
      · simp
@[simp] theorem readAhead_memory (s : State) (w : StreamId) : SameMem s (readAhead s w) := by
  unfold readAhead
  dsimp only
  (repeat' split) <;> simp
@[simp] theorem nextStream_memory (s : State) : SameMem s (nextStream s).2 := by
  unfold nextStream
  split <;> simp
@[simp] theorem countTurn_memory (s : State) (w : StreamId) : SameMem s (countTurn s w) := by
  unfold countTurn
  split <;> simp
@[simp] theorem tickClock_memory (s : State) : SameMem s (tickClock s) := by
  unfold tickClock
  simp
@[simp] theorem dropReq_memory (s : State) (id : Nat) : SameMem s (dropReq s id) :=
  ⟨rfl, rfl⟩
@[simp] theorem putReq_memory (s : State) (r : Req) : SameMem s (putReq s r) :=
  ⟨rfl, rfl⟩
@[simp] theorem settleReq_memory (s : State) (r : Req) : SameMem s (settleReq s r) := by
  unfold settleReq
  split <;> simp
@[simp] theorem readPieces_memory (s : State) (r : Req) (gs : List Seg) : SameMem s (readPieces s r gs).2 := by
  unfold readPieces
  exact SameMem.trans (by simp) (sameMem_foldl_view Prod.snd _ (fun a g => by simp) _ _)
@[simp] theorem readInto_memory (s : State) (gs : List Seg) (d : VReg) : SameMem s (readInto s gs d).2 :=
  sameMem_foldl_view Prod.snd _ (fun a g => by simp) gs (d, s)
@[simp] theorem loadEarly_memory (s : State) (w : StreamId) (pc : Nat) : SameMem s (loadEarly s w pc) := by
  unfold loadEarly
  dsimp only
  (repeat' split) <;> simp
@[simp] theorem takeEarly_memory (s t : State) (w : StreamId) : SameMem t (takeEarly s t w) := by
  unfold takeEarly
  repeat' split
  all_goals simp
@[simp] theorem useEarly_memory (s t : State) (w : StreamId) (i : Instr) : SameMem t (useEarly s t w i) := by
  unfold useEarly
  dsimp only
  repeat' split
  all_goals simp
@[simp] theorem loadAtHome_memory (s : State) (id : Nat) : SameMem s (loadAtHome s id) := by
  unfold loadAtHome
  (repeat' split) <;> simp
@[simp] theorem dropPieces_memory (s : State) (r : Req) (gs : List Seg) : SameMem s (dropPieces s r gs) := by
  unfold dropPieces
  dsimp only
  split_ifs <;> simp
@[simp] theorem withdrawFault_memory (s : State) (eng k : Nat) : SameMem s (withdrawFault s eng k) := by
  unfold withdrawFault
  split <;> simp
@[simp] theorem settleSuspend_memory (s : State) (eng k : Nat) : SameMem s (settleSuspend s eng k) := by
  unfold settleSuspend
  dsimp only
  split_ifs <;> simp
@[simp] theorem sectorDone_memory (s : State) (eng k sec : Nat) : SameMem s (sectorDone s eng k sec) := by
  unfold sectorDone
  dsimp only
  split_ifs <;> simp
@[simp] theorem windowDone_memory (s : State) (r : Req) (g : Seg) : SameMem s (windowDone s r g) := by
  unfold windowDone
  split <;> simp
@[simp] theorem atomicStore_canon (s : State) (pa n x : Nat) (hs : Canon s) : Canon (atomicStore s pa n x) := by
  unfold atomicStore
  split <;> simp [hs, -memWrite_epoch]
@[simp] theorem atomicAtHome_canon (s : State) (id : Nat) (hs : Canon s) : Canon (atomicAtHome s id) := by
  unfold atomicAtHome
  (repeat' split) <;> simp [hs, -memWrite_epoch]
@[simp] theorem pushQueue_memory (s : State) (w : StreamId) (q : Nat) (v : VReg) : SameMem s (pushQueue s w q v) := by
  unfold pushQueue
  simp
@[simp] theorem producePush_memory (s : State) (w : StreamId) (q : Nat) (v : VReg) : SameMem s (producePush s w q v) :=
  ⟨rfl, rfl⟩
@[simp] theorem fillDest_memory (s : State) (w : StreamId) (r : Req) : SameMem s (fillDest s w r) := by
  unfold fillDest
  split <;> simp
@[simp] theorem registerFill_memory (s : State) (id : Nat) : SameMem s (registerFill s id) := by
  unfold registerFill
  (repeat' split) <;> simp
@[simp] theorem monitorRegister_memory (s : State) (id : Nat) : SameMem s (monitorRegister s id) := by
  unfold monitorRegister
  (repeat' split) <;> simp
@[simp] theorem mwaitTimeout_memory (s : State) (w : StreamId) : SameMem s (mwaitTimeout s w) := by
  unfold mwaitTimeout
  (repeat' split) <;> simp
@[simp] theorem fenceAck_memory (s : State) (w : StreamId) (path : Nat) : SameMem s (fenceAck s w path) := by
  unfold fenceAck
  dsimp only
  (repeat' split) <;> simp
@[simp] theorem asyncTrap_memory (s : State) (w : StreamId) : SameMem s (asyncTrap s w) := by
  unfold asyncTrap
  (repeat' split) <;> simp
@[simp] theorem walkDone_memory (s : State) (id : Nat) : SameMem s (walkDone s id) := by
  unfold walkDone
  split
  · dsimp only
    split_ifs
    · simp
    · split
      · refine SameMem.trans ?_ (sameMem_foldl _ (fun s w => by simp) _ _)
        exact SameMem.trans (by simp) (sameMem_foldl _ (fun s c => by simp) _ _)
      · exact SameMem.trans (by simp) (sameMem_foldl _ (fun s w => by simp) _ _)
  · simp
@[simp] theorem remoteAnswer_memory (s : State) (op : FOp) (d : Dest) : SameMem s (remoteAnswer s op d).2.2 := by
  unfold remoteAnswer
  split <;> simp
@[simp] theorem sendFibre_memory (s : State) (x : Xlated) (va : W64) (op : FOp) (d : Dest) : SameMem s (sendFibre s x va op d) := by
  unfold sendFibre
  simp

end Sys2Proof.Machine

/-! # Fibre operations and memory -/

namespace Sys2Proof.Machine
open Sys2Proof.Claims

/-! ### Running an act of a fibre's home -/

/-- An act run on a state: its result or its error, and the state it leaves. -/
def FM.run {α : Type} (a : FM α) (s : State) : Except FErr α × State := StateT.run (ExceptT.run a) s

section
variable {α β : Type}
@[simp] theorem FM.run_pure (x : α) (s : State) : FM.run (pure x) s = (.ok x, s) := rfl
@[simp] theorem FM.run_fail (e : FErr) (s : State) : FM.run (FM.fail e : FM α) s = (.error e, s) := rfl
@[simp] theorem FM.run_get (s : State) : FM.run get s = (.ok s, s) := rfl
@[simp] theorem FM.run_set (t s : State) : FM.run (set t : FM PUnit) s = (.ok ⟨⟩, t) := rfl
@[simp] theorem FM.run_modify (f : State → State) (s : State) : FM.run (modify f) s = (.ok ⟨⟩, f s) := rfl
theorem FM.run_bind (a : FM α) (k : α → FM β) (s : State) : FM.run (a >>= k) s =
    (match FM.run a s with
     | (.ok x, t) => FM.run (k x) t
     | (.error e, t) => (.error e, t)) := by
  show StateT.run (ExceptT.run (a >>= k)) s = (match StateT.run (ExceptT.run a) s with
     | (.ok x, t) => FM.run (k x) t
     | (.error e, t) => (.error e, t))
  rw [ExceptT.run_bind, StateT.run_bind]
  cases h : StateT.run (ExceptT.run a) s with
  | mk r t => cases r <;> rfl

/-- Where an act gives a result, it has the property, with the state after it. -/
def FM.Post (P : α → State → Prop) (a : FM α) (s : State) : Prop := ∀ x t, FM.run a s = (.ok x, t) → P x t

variable (P : α → State → Prop)
@[simp] theorem post_pure (x : α) (s : State) : FM.Post P (pure x) s ↔ P x s :=
  ⟨fun h => h x s rfl, fun h y t hr => by cases hr; exact h⟩
@[simp] theorem post_fail (e : FErr) (s : State) : FM.Post P (FM.fail e) s := fun _ _ hr => nomatch hr
@[simp] theorem post_get (Q : State → State → Prop) (s : State) : FM.Post Q get s ↔ Q s s :=
  ⟨fun h => h s s rfl, fun h y t hr => by cases hr; exact h⟩
@[simp] theorem post_set (Q : PUnit → State → Prop) (t s : State) : FM.Post Q (set t) s ↔ Q ⟨⟩ t :=
  ⟨fun h => h ⟨⟩ t rfl, fun h y u hr => by cases hr; exact h⟩
@[simp] theorem post_modify (Q : PUnit → State → Prop) (f : State → State) (s : State) : FM.Post Q (modify f) s ↔ Q ⟨⟩ (f s) :=
  ⟨fun h => h ⟨⟩ (f s) rfl, fun h y u hr => by cases hr; exact h⟩
@[simp] theorem post_bind (a : FM β) (k : β → FM α) (s : State) :
    FM.Post P (a >>= k) s ↔ FM.Post (fun x t => FM.Post P (k x) t) a s := by
  constructor
  · intro h x t ha y u hk
    exact h y u (by rw [FM.run_bind, ha]; exact hk)
  · intro h y u hr
    rw [FM.run_bind] at hr
    split at hr
    · next x t ha => exact h x t ha y u hr
    · cases hr
@[simp] theorem post_map (f : β → α) (a : FM β) (s : State) : FM.Post P (f <$> a) s ↔ FM.Post (fun x t => P (f x) t) a s := by
  rw [← bind_pure_comp, post_bind]
  simp
@[simp] theorem post_ite (c : Prop) [Decidable c] (a b : FM α) (s : State) :
    FM.Post P (if c then a else b) s ↔ (c → FM.Post P a s) ∧ (¬ c → FM.Post P b s) := by split <;> simp [*]
theorem FM.Post.mono {P Q : α → State → Prop} {a : FM α} {s : State} (h : FM.Post P a s) (hpq : ∀ x t, P x t → Q x t) : FM.Post Q a s :=
  fun x t hr => hpq x t (h x t hr)
end

/-! ### Acts of a fibre's home on memory -/

/-- An act that gives a result leaves memory in its canonical form. -/
def FM.Canonical {α : Type} (a : FM α) : Prop := ∀ s, Canon s → FM.Post (fun _ t => Canon t) a s

section
variable {α β : Type}
@[simp] theorem FM.fail_bind (e : FErr) (k : α → FM β) : (FM.fail e >>= k) = FM.fail e := rfl
@[simp] theorem FM.map_fail (e : FErr) (f : α → β) : (f <$> (FM.fail e : FM α)) = FM.fail e := rfl
@[simp] theorem canonical_pure (x : α) : FM.Canonical (pure x) := fun s hs => by simpa using hs
@[simp] theorem canonical_fail (e : FErr) : FM.Canonical (FM.fail e : FM α) := fun s hs => by simp
@[simp] theorem canonical_bind {a : FM α} {k : α → FM β} (ha : a.Canonical) (hk : ∀ x, (k x).Canonical) : FM.Canonical (a >>= k) :=
  fun s hs => (post_bind _ _ _ s).mpr ((ha s hs).mono fun x t ht => hk x t ht)
@[simp] theorem canonical_map (f : α → β) (a : FM α) (ha : a.Canonical) : FM.Canonical (f <$> a) :=
  fun s hs => by simpa using ha s hs
@[simp] theorem canonical_ite (c : Prop) [Decidable c] (a b : FM α) (ha : c → a.Canonical) (hb : ¬ c → b.Canonical) :
    FM.Canonical (if c then a else b) := by
  split
  · next h => exact ha h
  · next h => exact hb h
@[simp] theorem canonical_get : FM.Canonical get := fun s hs => by simpa using hs
@[simp] theorem canonical_modify (f : State → State) (h : ∀ s, Canon s → Canon (f s)) : FM.Canonical (modify f) :=
  fun s hs => by simpa using h s hs
end
@[simp] theorem fibRead_canonical (pa n : Nat) : FM.Canonical (fibRead pa n) := by
  intro s hs
  unfold fibRead
  simp [hs]
@[simp] theorem fibWrite_canonical (pa n x : Nat) : FM.Canonical (fibWrite pa n x) := by
  intro s hs
  unfold fibWrite
  simp [hs]
@[simp] theorem addHomeTlb_memory (s : State) (h : FibHome) (e : TlbEntry) : SameMem s (addHomeTlb s h e) := by
  unfold addHomeTlb
  split <;> simp
@[simp] theorem setFree_memory (s : State) (pool n : Nat) : SameMem s (setFree s pool n) := by
  unfold setFree
  dsimp only
  split_ifs <;> simp
@[simp] theorem fibXlate_canonical (h : FibHome) (asid va n : Nat) (a : Access) (writes : Bool) :
    FM.Canonical (fibXlate h asid va n a writes) := by
  intro s hs
  unfold fibXlate
  simp only [post_bind, post_get, post_ite, post_fail, post_set, implies_true, true_and]
  intro _
  split
  · simp
  · simp only [post_bind, post_set, post_pure]
    split <;> simp [hs]
@[simp] theorem podPa_canonical (h : FibHome) (pool i : Nat) (writes : Bool) : FM.Canonical (podPa h pool i writes) := by
  unfold podPa
  refine canonical_bind (by simp) fun s => canonical_bind (by simp) fun x => ?_
  simp
@[simp] theorem readHdr_canonical (pa : Nat) : FM.Canonical (readHdr pa) := by
  unfold readHdr
  simp
@[simp] theorem writeHdr_canonical (pa : Nat) (h : FHdr) : FM.Canonical (writeHdr pa h) := by
  unfold writeHdr
  simp
@[simp] theorem readPod_canonical (h : FibHome) (pool : Nat) (fx wr : Bool) (i : Nat) : FM.Canonical (readPod h pool fx wr i) := by
  unfold readPod
  simp
@[simp] theorem writePod_canonical (h : FibHome) (pool : Nat) (fx : Bool) (i : Nat) (p : Pod) : FM.Canonical (writePod h pool fx i p) := by
  unfold writePod
  simp
@[simp] theorem writeDir_canonical (h : FibHome) (pool i : Nat) (p : Pod) : FM.Canonical (writeDir h pool i p) := by
  unfold writeDir
  simp
@[simp] theorem allocPod_canonical (h : FibHome) (pool : Nat) : FM.Canonical (allocPod h pool) := by
  unfold allocPod
  refine canonical_bind (by simp) fun s => ?_
  dsimp only
  split
  · simp
  · refine canonical_bind (by simp) fun pa => ?_
    split
    · simp
    · refine canonical_bind (by simp) fun nx => ?_
      simp
@[simp] theorem freePod_canonical (h : FibHome) (pool i : Nat) : FM.Canonical (freePod h pool i) := by
  unfold freePod
  refine canonical_bind (by simp) fun s => canonical_bind (by simp) fun pa => ?_
  simp
@[simp] theorem locateDir_canonical (h : FibHome) (x : FHdr) (wr : Bool) (c n : Nat) : FM.Canonical (locateDir h x wr c n) := by
  induction n with
  | zero => simp [locateDir]
  | succ i ih =>
    unfold locateDir
    refine canonical_bind (by simp) fun d => ?_
    split <;> simp [ih]
@[simp] theorem locate_canonical (h : FibHome) (x : FHdr) (wr : Bool) (c : Nat) : FM.Canonical (locate h x wr c) := by
  unfold locate
  split <;> simp
@[simp] theorem coveringDir_canonical (h : FibHome) (x : FHdr) (l : Loc) (m : Nat) : FM.Canonical (coveringDir h x l m) := by
  unfold coveringDir
  split <;> simp
@[simp] theorem podBefore_canonical (h : FibHome) (x : FHdr) (l : Loc) : FM.Canonical (podBefore h x l) := by
  unfold podBefore
  split
  · simp
  · split_ifs <;> simp
@[simp] theorem addDirEntry_canonical (h : FibHome) (x : FHdr) (t : Option (Nat × Pod)) (e : Nat × Nat) :
    FM.Canonical (addDirEntry h x t e) := by
  unfold addDirEntry
  split
  · split <;> simp
  · split
    · simp
    · refine canonical_bind (by simp) fun j => ?_
      simp
@[simp] theorem insertEntry_canonical (h : FibHome) (x : FHdr) (l : Option Loc) (e : Nat × Nat) :
    FM.Canonical (insertEntry h x l e) := by
  unfold insertEntry
  dsimp only
  split
  · simp
  · refine canonical_bind (by simp) fun p => ?_
    split
    · simp
    · refine canonical_bind (by simp) fun d => ?_
      split
      · simp
      · refine canonical_bind (by simp) fun i => canonical_bind (by simp) fun _ => canonical_bind (by simp) fun _ => ?_
        simp
@[simp] theorem removePod_canonical (h : FibHome) (x : FHdr) (l : Loc) (next : Nat) : FM.Canonical (removePod h x l next) := by
  unfold removePod
  dsimp only
  refine canonical_bind (by simp) fun b => ?_
  cases b
  case' some b => refine canonical_bind (by simp) fun q => canonical_bind (by simp) fun _ => ?_
  all_goals
    refine canonical_bind (by simp) fun _ => ?_
    cases l.dir with
    | none => simp
    | some d =>
      refine canonical_ite _ _ _ (fun _ => canonical_ite _ _ _ (fun _ => ?_) fun _ => ?_) fun _ => by simp
      case' refine_1 => refine canonical_bind (by simp) fun q => canonical_bind (by simp) fun _ => ?_
      all_goals
        refine canonical_bind (by simp) fun _ => canonical_ite _ _ _ (fun _ => ?_) (by simp)
        exact canonical_bind (by simp) fun q => canonical_bind (by simp) (by simp)
@[simp] theorem removeEntry_canonical (h : FibHome) (x : FHdr) (l : Loc) (p : Pod) (c : Nat) : FM.Canonical (removeEntry h x l p c) := by
  unfold removeEntry
  dsimp only
  split <;> simp
@[simp] theorem mergeOne_canonical (h : FibHome) (pa : Nat) (x : FHdr) (op c v : Nat) : FM.Canonical (mergeOne h pa x op c v) := by
  unfold mergeOne
  dsimp only
  refine canonical_ite _ _ _ (by simp) fun _ => canonical_bind (by simp) fun l => ?_
  cases l with
  | none => exact canonical_ite _ _ _ (by simp) fun _ => canonical_ite _ _ _ (by simp) (by simp)
  | some l =>
    refine canonical_bind (by simp) fun pod => ?_
    split
    · exact canonical_ite _ _ _ (by simp) (by simp)
    · exact canonical_ite _ _ _ (by simp) fun _ => canonical_ite _ _ _ (by simp) (by simp)
@[simp] theorem mergeAct_canonical (h : FibHome) (pa va op vt c : Nat) (v : W64) : FM.Canonical (mergeAct h pa va op vt c v) := by
  unfold mergeAct
  refine canonical_bind (by simp) fun x => canonical_ite _ _ _ (by simp) fun _ => canonical_bind (by simp) fun s => ?_
  refine canonical_ite _ _ _ (by simp) fun _ => canonical_ite _ _ _ (by simp) fun _ => canonical_bind (by simp) fun t => ?_
  split <;> simp
@[simp] theorem rejectAct_canonical (pa : Nat) : FM.Canonical (rejectAct pa) := by
  unfold rejectAct
  simp
@[simp] theorem deleteAct_canonical (h : FibHome) (pa va c : Nat) : FM.Canonical (deleteAct h pa va c) := by
  unfold deleteAct
  refine canonical_bind (by simp) fun x => canonical_ite _ _ _ (by simp) fun _ => canonical_bind (by simp) fun l => ?_
  cases l with
  | none => simp
  | some l => exact canonical_bind (by simp) fun pod => canonical_ite _ _ _ (by simp) (by simp)
@[simp] theorem initAct_canonical (pa cap maxc pool fmt op : Nat) (zp : Bool) : FM.Canonical (initAct pa cap maxc pool fmt op zp) := by
  unfold initAct
  simp
theorem canonical_mapM {α β : Type} (f : α → FM β) (hf : ∀ x, (f x).Canonical) (l : List α) : FM.Canonical (l.mapM f) := by
  induction l with
  | nil => simp
  | cons x l ih =>
    rw [List.mapM_cons]
    refine canonical_bind (hf x) fun y => canonical_bind ih fun ys => ?_
    simp
theorem canonical_forM {α : Type} (f : α → FM Unit) (hf : ∀ x, (f x).Canonical) (l : List α) : FM.Canonical (l.forM f) := by
  induction l with
  | nil => exact canonical_pure _
  | cons x l ih => exact canonical_bind (hf x) fun _ => ih
@[simp] theorem allPods_canonical (h : FibHome) (x : FHdr) : FM.Canonical (allPods h x) := by
  unfold allPods
  split
  · simp
  · exact canonical_bind (canonical_mapM _ (by simp) _) fun ds => by simp
theorem writeChain_canonical (write : Nat → Pod → FM Unit) (hw : ∀ i p, (write i p).Canonical) (ps : List (Nat × List (Nat × Nat))) :
    FM.Canonical (writeChain write ps) := by
  induction ps with
  | nil => simp [writeChain]
  | cons p r ih =>
    unfold writeChain
    exact canonical_bind (hw _ _) fun _ => ih
@[simp] theorem packAct_canonical (h : FibHome) (pa va : Nat) : FM.Canonical (packAct h pa va) := by
  have hpods (x : FHdr) (ds : List Nat) : FM.Canonical (ds.forM (freePod h x.pool)) := canonical_forM _ (by simp) ds
  unfold packAct
  refine canonical_bind (by simp) fun x => ?_
  dsimp only
  refine canonical_ite _ _ _ (by simp) fun _ => canonical_bind (by simp) fun ids => ?_
  refine canonical_bind (canonical_mapM _ (by simp) _) fun pods => canonical_bind (writeChain_canonical _ (by simp) _) fun _ => ?_
  refine canonical_bind (hpods x _) fun _ => canonical_ite _ _ _ (fun _ => ?_) fun _ => ?_
  · exact canonical_bind (hpods x _) fun _ => by simp
  · refine canonical_bind (writeChain_canonical _ (by simp) _) fun _ => canonical_bind (hpods x _) fun _ => ?_
    simp
@[simp] theorem lookup_canonical (h : FibHome) (x : FHdr) (c : Nat) : FM.Canonical (lookup h x c) := by
  unfold lookup
  refine canonical_bind (by simp) fun l => ?_
  split <;> simp
@[simp] theorem probeAct_canonical (h : FibHome) (pa va : Nat) (op : FOp) : FM.Canonical (probeAct h pa va op) := by
  unfold probeAct
  dsimp only
  refine canonical_bind (by simp) fun x => canonical_ite _ _ _ (by simp) fun _ => ?_
  split
  · simp
  · simp
  · exact canonical_bind (canonical_mapM _ (fun k => by split <;> simp) _) fun rs => by simp
  · simp
@[simp] theorem nextEntries_canonical (h : FibHome) (x : FHdr) (c : Nat) : FM.Canonical (nextEntries h x c) := by
  unfold nextEntries
  refine canonical_bind (by simp) fun l => ?_
  cases l with
  | none => simp
  | some l => exact canonical_bind (by simp) fun p => canonical_ite _ _ _ (by simp) (by simp)
@[simp] theorem scanAct_canonical (h : FibHome) (pa va next left : Nat) : FM.Canonical (scanAct h pa va next left) := by
  unfold scanAct
  refine canonical_bind (by simp) fun x => canonical_ite _ _ _ (by simp) fun _ => canonical_bind (by simp) fun es => ?_
  split <;> simp
@[simp] theorem allocStall_canonical (pool : Nat) : FM.Canonical (allocStall pool) := by
  unfold allocStall
  simp
@[simp] theorem appendAct_canonical (h : FibHome) (pa c n : Nat) : FM.Canonical (appendAct h pa c n) := by
  unfold appendAct
  refine canonical_bind (by simp) fun x => canonical_ite _ _ _ (by simp) fun _ => canonical_bind (by simp) fun l => ?_
  cases l with
  | none => exact canonical_bind (by simp) (by simp)
  | some l =>
    refine canonical_bind (by simp) fun q => canonical_ite _ _ _ (by simp) fun _ => canonical_bind (by simp) fun d => ?_
    refine canonical_ite _ _ _ (by simp) fun _ => canonical_bind (by simp) fun _ => canonical_bind (by simp) fun i => ?_
    exact canonical_bind (by simp) fun _ => canonical_bind (by simp) fun _ => canonical_ite _ _ _ (by simp) (by simp)
@[simp] theorem sourceHdr_canonical (g : Seg) : FM.Canonical (sourceHdr g) := by
  unfold sourceHdr
  split
  · simp
  · intro s hs
    simp [hs]
@[simp] theorem sourceEntries_canonical (h : FibHome) (g : Seg) (x : FHdr) (c : Nat) : FM.Canonical (sourceEntries h g x c) := by
  unfold sourceEntries
  split
  · simp
  · intro s hs
    simp [hs]
@[simp] theorem unionCheck_canonical (paC vaC : Nat) (a b : Seg) (vaA vaB op : Nat) : FM.Canonical (unionCheck paC vaC a b vaA vaB op) := by
  unfold unionCheck
  refine canonical_bind (by simp) fun c => canonical_bind (by simp) fun xa => canonical_bind (by simp) fun xb => ?_
  exact canonical_ite _ _ _ (by simp) fun _ => canonical_ite _ _ _ (by simp) fun _ => canonical_ite _ _ _ (by simp) (by simp)
@[simp] theorem unionRead_canonical (h : FibHome) (paC : Nat) (g : Seg) (va next : Nat) : FM.Canonical (unionRead h paC g va next) := by
  unfold unionRead
  refine canonical_bind (by simp) fun c => canonical_ite _ _ _ (by simp) fun _ => canonical_bind (by simp) fun x => ?_
  exact canonical_ite _ _ _ (by simp) fun _ => canonical_ite _ _ _ (by simp) (by simp)
@[simp] theorem unionPut_canonical (h : FibHome) (paC op : Nat) (zp : Bool) (c : Nat) (a b : List (Nat × Nat)) :
    FM.Canonical (unionPut h paC op zp c a b) := by
  unfold unionPut
  simp

/-- An act carried out: what it gives, with memory in its canonical form, or its error with memory as it was. -/
theorem FM.Canonical.exec {α : Type} {a : FM α} (ha : a.Canonical) {s : State} (hs : Canon s) :
    (∀ x t, a.exec s = .ok (x, t) → Canon t) ∧ ∀ e t, a.exec s = .error (e, t) → SameMem s t := by
  unfold FM.exec
  split
  · next x t h =>
    constructor
    · rintro y u ⟨⟩
      exact ha s hs x t h
    · simp
  · constructor
    · simp
    · rintro e u ⟨⟩
      simp
@[simp] theorem dropF_memory (s : State) (id : Nat) : SameMem s (dropF s id) :=
  ⟨rfl, rfl⟩
@[simp] theorem putF_memory (s : State) (f : FReq) : SameMem s (putF s f) :=
  ⟨rfl, rfl⟩
@[simp] theorem fibFail_memory (s : State) (f : FReq) (r : ErrorRec) : SameMem s (fibFail s f r) := by
  unfold fibFail
  split <;> simp
@[simp] theorem fibError_memory (s : State) (f : FReq) (e : FErr) : SameMem s (fibError s f e) := by
  unfold fibError
  dsimp only
  split
  · simp
  · simp
  · simp
  · simp
  · split_ifs <;> simp
  · simp
  · simp
/-- An act without a failed access is taken up where it stands; one with an error leaves memory alone. -/
theorem exec_canon {α : Type} {a : FM α} (ha : a.Canonical) {s : State} (hs : Canon s) :
    (∀ x t, a.exec s = .ok (x, t) → Canon t) ∧ ∀ e t, a.exec s = .error (e, t) → Canon t := by
  obtain ⟨hok, herr⟩ := ha.exec hs
  refine ⟨hok, fun e t h => ?_⟩
  obtain ⟨hmem, hepoch⟩ := herr e t h
  simpa [hmem, hepoch] using hs
@[simp] theorem fibDone_memory (s : State) (f : FReq) (d : VReg) (dest : Dest) : SameMem s (fibDone s f d dest) := by
  unfold fibDone
  (repeat' split) <;> simp
@[simp] theorem mergeLanesAt_canon (s : State) (f : FReq) (op vt : Nat) (ls : List (Nat × W64)) (hs : Canon s) :
    Canon (mergeLanesAt s f op vt ls) := by
  induction ls generalizing s f with
  | nil => simp [mergeLanesAt, hs]
  | cons l r ih =>
    obtain ⟨c, v⟩ := l
    obtain ⟨hok, herr⟩ := exec_canon (mergeAct_canonical (fibHome s f.hdr) f.hdr f.va op vt c v) hs
    unfold mergeLanesAt
    dsimp only
    split
    · next t h => exact ih _ _ (by simp [hok _ _ h])
    · next t h =>
      obtain ⟨hok', herr'⟩ := exec_canon (rejectAct_canonical f.hdr) (herr _ _ h)
      split
      · next u h' => exact ih _ _ (by simp [hok' _ _ h'])
      · next h' => simp [herr' _ _ h']
    · next h => simp [herr _ _ h]
@[simp] theorem mergeAt_canon (s : State) (f : FReq) (hs : Canon s) : Canon (mergeAt s f) := by
  unfold mergeAt
  split <;> simp [hs, -memWrite_epoch]
@[simp] theorem simpleAt_canon (s : State) (f : FReq) (a : FM Unit) (ha : a.Canonical) (hs : Canon s) : Canon (simpleAt s f a) := by
  obtain ⟨hok, herr⟩ := exec_canon ha hs
  unfold simpleAt
  split
  · next h => simp [hok _ _ h]
  · next h => simp [herr _ _ h]
@[simp] theorem probeAt_canon (s : State) (f : FReq) (hs : Canon s) : Canon (probeAt s f) := by
  obtain ⟨hok, herr⟩ := exec_canon (probeAct_canonical (fibHome s f.hdr) f.hdr f.va f.op) hs
  unfold probeAt
  split
  · next h => simp [hok _ _ h]
  · next h => simp [herr _ _ h]
@[simp] theorem writeWord_canon (s : State) (f : FReq) (g : Seg) (v : Nat) (hs : Canon s) : Canon (writeWord s f g v) := by
  unfold writeWord
  (repeat' split) <;> simp [hs, -memWrite_epoch]
theorem scanPa_canon (s : State) (f : FReq) (dst pageVa : Nat) (page : Seg) (hs : Canon s) :
    (∀ g t, scanPa s f dst pageVa page = .ok (g, t) → Canon t) ∧ ∀ e t, scanPa s f dst pageVa page = .error (e, t) → Canon t := by
  obtain ⟨hok, herr⟩ :=
    exec_canon (fibXlate_canonical (if f.dev = 0 then fibHome s f.hdr else .cluster (clusterOf f.core)) f.asid dst 8 .store true) hs
  unfold scanPa
  dsimp only
  split
  · split <;> simp [hs]
  · split
    · split <;> simp [hs]
    · generalize hr : FM.exec _ s = r at hok herr ⊢
      cases r with
      | error r => simpa [Except.map] using herr
      | ok r =>
        simp only [Except.map, Except.ok.injEq, Prod.mk.injEq, reduceCtorEq, false_implies, implies_true, and_true]
        rintro g t ⟨-, rfl⟩
        exact hok r.1 r.2 rfl
@[simp] theorem scanWrite_canon (s : State) (f : FReq) (next left q pageVa : Nat) (page : Seg) (dst : Nat) (buf : List W64) (hs : Canon s) :
    Canon (scanWrite s f next left q pageVa page dst buf) := by
  induction buf generalizing s f dst with
  | nil =>
    unfold scanWrite
    split_ifs <;> simp [hs]
  | cons w r ih =>
    obtain ⟨hok, herr⟩ := scanPa_canon s f dst pageVa page hs
    unfold scanWrite
    dsimp only
    split
    · next h => simp [herr _ _ h]
    · next t h =>
      have ht := hok _ _ h
      split_ifs
      · exact hs
      · simp [ht]
      · exact ih _ _ _ (by simp [ht])
@[simp] theorem linkWord_memory (s : State) (f : FReq) (x : W64) : SameMem s (linkWord s f x) := by
  unfold linkWord
  split <;> simp
@[simp] theorem scanPush_memory (s : State) (f : FReq) (w : StreamId) (next left q : Nat) (pg : Seg) (buf : List W64) :
    SameMem s (scanPush s f w next left q pg buf) := by
  induction buf generalizing s with
  | nil =>
    unfold scanPush
    split <;> simp
  | cons x r ih =>
    unfold scanPush
    split
    · exact SameMem.trans (by simp) (ih _)
    · simp
@[simp] theorem scanDeliver_canon (s : State) (f : FReq) (hs : Canon s) : Canon (scanDeliver s f) := by
  unfold scanDeliver
  split
  · split
    · simp [hs]
    · split
      · split_ifs <;> simp [hs]
      · have hlink (buf : List W64) : SameMem s (buf.foldl (fun s x => linkWord s f x) s) := sameMem_foldl _ (fun s x => by simp) _ s
        dsimp only
        split <;> simp [hs, hlink]
  · exact hs
@[simp] theorem scanAt_canon (s : State) (f : FReq) (hs : Canon s) : Canon (scanAt s f) := by
  unfold scanAt
  split
  · next next left q dst pv pg buf _ =>
    obtain ⟨hok, herr⟩ := exec_canon (scanAct_canonical (fibHome s f.hdr) f.hdr f.va next left) hs
    split
    · simp [hs]
    · split
      · next h => simp [hok _ _ h]
      · next h => simp [herr _ _ h]
  · exact hs
@[simp] theorem unionStamp_canon (s : State) (f : FReq) (failed : Bool) (g : Seg) (stampVa seq : Nat) (hs : Canon s) :
    Canon (unionStamp s f failed g stampVa seq) := by
  unfold unionStamp
  dsimp only
  (repeat' split) <;> simp [hs, -memWrite_epoch]
@[simp] theorem unionOver_canon (s : State) (f : FReq) (failed : Bool) (hs : Canon s) : Canon (unionOver s f failed) := by
  unfold unionOver
  split <;> simp [hs, -memWrite_epoch]
@[simp] theorem unionFail_canon (s : State) (f : FReq) (hs : Canon s) : Canon (unionFail s f) := by
  obtain ⟨hok, herr⟩ := exec_canon (rejectAct_canonical f.hdr) hs
  unfold unionFail
  split
  · next h => simp [hok _ _ h]
  · next h => simp [herr _ _ h]
@[simp] theorem unionEnd_canon (s : State) (f : FReq) (hs : Canon s) : Canon (unionEnd s f) := by
  obtain ⟨hok, herr⟩ := exec_canon (canonical_bind (readHdr_canonical f.hdr)
    fun x => writeHdr_canonical f.hdr { x with ver := bump x.ver 1 }) hs
  unfold unionEnd
  dsimp only
  split
  · next h => simp [hok _ _ h]
  · next h => simp [herr _ _ h]
@[simp] theorem unionAct_canon {α : Type} (s : State) (f : FReq) (a : FM α) (go : α → State → State) (ha : a.Canonical)
    (hgo : ∀ x t, Canon t → Canon (go x t)) (hs : Canon s) : Canon (unionAct s f a go) := by
  obtain ⟨hok, herr⟩ := exec_canon ha hs
  unfold unionAct
  split
  · next x t h => exact hgo x t (hok _ _ h)
  · next h => simp [herr _ _ h]
  · next h => simp [herr _ _ h]
@[simp] theorem unionAt_canon (s : State) (f : FReq) (hs : Canon s) : Canon (unionAt s f) := by
  unfold unionAt
  split
  · dsimp only
    split
    · simp [hs]
    · refine unionAct_canon s f _ _ (by simp) (fun ok t ht => ?_) hs
      split <;> simp [ht]
    · refine unionAct_canon s f _ _ (by simp) (fun r t ht => ?_) hs
      split <;> simp [ht]
    · refine unionAct_canon s f _ _ (by simp) (fun r t ht => ?_) hs
      split <;> simp [ht]
    · split
      · simp [hs]
      · exact unionAct_canon s f _ _ (by simp) (fun _ t ht => by simp [ht]) hs
  · exact hs
@[simp] theorem remoteEntry_memory (s : State) (fx : Bool) (next left : Nat) : SameMem s (remoteEntry s fx next left).2.2.2 := by
  unfold remoteEntry
  dsimp only
  split <;> simp
@[simp] theorem remoteFibre_canon (s : State) (f : FReq) (hs : Canon s) : Canon (remoteFibre s f) := by
  unfold remoteFibre
  split
  · split_ifs
    · simp [hs]
    · split <;> simp [hs]
  · split <;> simp [hs]
  · split_ifs <;> simp [hs]
@[simp] theorem fibApply_canon (s : State) (f : FReq) (hs : Canon s) : Canon (fibApply s f) := by
  unfold fibApply
  (repeat' split) <;> simp [hs, -memWrite_epoch]
@[simp] theorem fibEvent_canon (s : State) (id : Nat) (p : FOp → Bool) (hs : Canon s) : Canon (fibEvent s id p) := by
  unfold fibEvent
  (repeat' split) <;> simp [hs, -memWrite_epoch]
@[simp] theorem stalledResume_canon (s : State) (pool : Nat) (hs : Canon s) : Canon (stalledResume s pool) := by
  unfold stalledResume
  dsimp only
  (repeat' split) <;> simp [hs, -memWrite_epoch]
@[simp] theorem poolTimeout_canon (s : State) (pool : Nat) (hs : Canon s) : Canon (poolTimeout s pool) := by
  unfold poolTimeout
  (repeat' split) <;> simp [hs, -memWrite_epoch]
@[simp] theorem donate_memory (s : State) (pool first n : Nat) : SameMem s (donate s pool first n) := by
  unfold donate
  split <;> simp
@[simp] theorem poolReset_memory (s : State) (pool : Nat) (v : W64) : SameMem s (poolReset s pool v) := by
  unfold poolReset
  split <;> simp
@[simp] theorem faultResume_canon (s : State) (pool : Nat) (hs : Canon s) : Canon (faultResume s pool) := by
  unfold faultResume
  dsimp only
  (repeat' split) <;> simp [hs, -memWrite_epoch]
@[simp] theorem faultAbandon_memory (s : State) (pool : Nat) : SameMem s (faultAbandon s pool) := by
  unfold faultAbandon
  dsimp only
  (repeat' split) <;> simp
@[simp] theorem faultctl_canon (s : State) (pool : Nat) (v : W64) (hs : Canon s) : Canon (faultctl s pool v) := by
  unfold faultctl
  (repeat' split) <;> simp [hs, -memWrite_epoch]

end Sys2Proof.Machine

/-! # The vector, matrix and copy units and memory -/

namespace Sys2Proof.Machine
open Sys2Proof.Claims

@[simp] theorem enterTask_memory (s : State) (n : Nat) (k : TaskKind) (reads writes : List Tile) (d : Dest) :
    Holds (SameMem s) (enterTask s n k reads writes d) := by
  unfold enterTask
  simp
@[simp] theorem scaleCodes_memory (s : State) (fmt n : Nat) (sc : Option Seg) : SameMem s (scaleCodes s fmt n sc).2 := by
  unfold scaleCodes
  (repeat' split) <;> simp
@[simp] theorem runTask_memory (s : State) (n : Nat) (t : Task) : SameMem s (runTask s n t).2 := by
  unfold runTask
  dsimp only
  (repeat' split) <;> simp
@[simp] theorem setTask_memory (s : State) (n : Nat) (t : Task) : SameMem s (setTask s n t) :=
  ⟨rfl, rfl⟩
@[simp] theorem countProducts_memory (s : State) (n : Nat) (t : Task) : SameMem s (countProducts s n t) := by
  unfold countProducts
  split <;> simp
@[simp] theorem useRowBuf_memory (s : State) (n : Nat) (t : Task) : SameMem s (useRowBuf s n t) := by
  unfold useRowBuf
  split <;> simp
@[simp] theorem issueTask_memory (s : State) (n id : Nat) : SameMem s (issueTask s n id) := by
  unfold issueTask
  (repeat' split) <;> simp
@[simp] theorem poisonFiring_memory (s : State) (w : StreamId) (slot fir : Nat) : SameMem s (poisonFiring s w slot fir) := by
  unfold poisonFiring
  simp
@[simp] theorem taskEffect_canon (s : State) (n : Nat) (t : Task) (hs : Canon s) : Canon (taskEffect s n t) := by
  have h1 (pa k x : Nat) : Canon (memWrite s pa k x) := memWrite_canon s pa k x hs
  unfold taskEffect
  split
  · simp [hs]
  · split
    · exact imageSlot_canon _ _ _ (by simp [h1, -memWrite_epoch])
    · simp [h1, -memWrite_epoch]
    · simp [h1, -memWrite_epoch]
    · simp [h1, -memWrite_epoch]
    · simp [h1, -memWrite_epoch]
    · simp [hs]
    · simp [hs]
    · split <;> simp [hs]
    · exact hs
    · exact hs
@[simp] theorem taskDeliver_memory (s : State) (t : Task) : SameMem s (taskDeliver s t) := by
  unfold taskDeliver
  split <;> simp
@[simp] theorem completeTask_canon (s : State) (n id : Nat) (hs : Canon s) : Canon (completeTask s n id) := by
  unfold completeTask
  (repeat' split) <;> simp [hs, -memWrite_epoch]
@[simp] theorem reloadSlot_canon (s : State) (e n k : Nat) (hs : Canon s) : Canon (reloadSlot s e n k) := by
  have h1 (t : State) (ht : Canon t) (a b c : Nat) (x y z : List Byte) :
      Canon (memWriteBytes (memWriteBytes (memWriteBytes t a x) b y) c z) :=
    memWriteBytes_canon _ c z (memWriteBytes_canon _ b y (memWriteBytes_canon t a x ht))
  unfold reloadSlot
  simp [h1, hs]
@[simp] theorem testFailed_canon (s : State) (n k : Nat) (hs : Canon s) : Canon (testFailed s n k).2 := by
  unfold testFailed
  dsimp only
  (repeat' split) <;> simp [hs, -memWrite_epoch]
@[simp] theorem selfTest_canon (s : State) (n k : Nat) (pass : Bool) (hs : Canon s) : Canon (selfTest s n k pass) := by
  unfold selfTest
  dsimp only
  (repeat' split) <;> simp [hs, -memWrite_epoch]
@[simp] theorem copyAddress_memory (s : State) (eng k : Nat) (c : Copy) (va : Nat) (a : Access) :
    SameMem s (copyAddress s eng k c va a).2 := by
  unfold copyAddress
  dsimp only
  (repeat' split) <;> simp
@[simp] theorem xlateCopy_memory (s : State) (eng k : Nat) (c : Copy) (a : Access) (ps : List (Nat × Nat × Nat)) :
    SameMem s (xlateCopy s eng k c a ps).2 := by
  induction ps generalizing s with
  | nil => simp [xlateCopy]
  | cons p r ih =>
    have hp := copyAddress_memory s eng k c p.1 a
    unfold xlateCopy
    split
    · next h => simpa [h] using hp
    · next x t h =>
      rw [h] at hp
      split
      · exact hp
      · split
        · next h' => simpa [h'] using hp.trans (ih t)
        · next h' => simpa [h'] using hp.trans (ih t)
@[simp] theorem gatherSrc_memory (s : State) (x : Nat) (gs : List Seg) : SameMem s (gatherSrc s x gs).2 := by
  unfold gatherSrc
  exact SameMem.trans (by simp) (sameMem_foldl_view Prod.snd _ (fun a g => by simp) gs _)
@[simp] theorem noteSector_memory (s : State) (c : Copy) (k : Nat) : SameMem s (noteSector s c k) := by
  unfold noteSector
  split <;> simp
@[simp] theorem poisonSlots_memory (s : State) (c : Copy) : SameMem s (poisonSlots s c) := by
  unfold poisonSlots
  split <;> simp
@[simp] theorem reportCopy_memory (s : State) (eng k : Nat) (v : W64) : SameMem s (reportCopy s eng k v) := by
  unfold reportCopy
  dsimp only
  split_ifs <;> simp
@[simp] theorem dropMisses_memory (s : State) (u : WalkUnit) : SameMem s (dropMisses s u) := by
  unfold dropMisses
  split <;> simp
@[simp] theorem startCopy_memory (s : State) (eng k : Nat) (c : Copy) : SameMem s (startCopy s eng k c) := by
  unfold startCopy
  dsimp only
  split_ifs <;> simp
@[simp] theorem setEngTurn_memory (s : State) (eng turn : Nat) (last : Tbl Nat) : SameMem s (setEngTurn s eng turn last) := by
  unfold setEngTurn
  split <;> simp
@[simp] theorem faultCopy_memory (s : State) (eng k : Nat) (v : W64) : SameMem s (faultCopy s eng k v) := by
  unfold faultCopy
  simp
@[simp] theorem engineMismatch_memory (s : State) (eng k : Nat) : SameMem s (engineMismatch s eng k) := by
  unfold engineMismatch
  dsimp only
  split_ifs <;> simp
@[simp] theorem xlateSector_memory (s : State) (eng k : Nat) (c : Copy) (sec : Nat) : SameMem s (xlateSector s eng k c sec).2 := by
  have hsrc := xlateCopy_memory s eng k c .load (piecesOf (sectorRuns s c sec).1)
  unfold xlateSector
  dsimp only
  split
  · next h => simpa [h] using hsrc
  · next src t h =>
    rw [h] at hsrc
    have hdst := xlateCopy_memory t eng k c .store (piecesOf (sectorRuns s c sec).2)
    split
    · next h' => simpa [h'] using hsrc.trans hdst
    · next h' => simpa [h'] using hsrc.trans hdst
@[simp] theorem lateFault_memory (s : State) (eng k : Nat) : SameMem s (lateFault s eng k) := by
  have hx := xlateSector_memory s eng k (getCopy s eng k) (getCopy s eng k).next
  unfold lateFault
  dsimp only
  split
  · simp
  · split
    · next h => simpa [h] using hx
    · next h => simpa [h] using hx
@[simp] theorem sectorIssue_memory (s : State) (eng k : Nat) : SameMem s (sectorIssue s eng k) := by
  unfold sectorIssue
  dsimp only
  split
  · simp
  · split
    · next j turn last _ =>
      have hx := xlateSector_memory (setEngTurn s eng turn last) eng k (getCopy s eng k) (getCopy s eng k).next
      split
      · simp
      · split
        · simp
        · split
          · simp
          · split
            · next h => simpa [h] using hx
            · next h => simpa [h] using hx
    · simp
@[simp] theorem endCopy_memory (s : State) (eng k st cause : Nat) : SameMem s (endCopy s eng k st cause) := by
  unfold endCopy
  simp
@[simp] theorem copyResume_memory (s : State) (eng k : Nat) : SameMem s (copyResume s eng k) := by
  unfold copyResume
  split <;> simp
@[simp] theorem copyAbandon_memory (s : State) (eng k : Nat) : SameMem s (copyAbandon s eng k) := by
  unfold copyAbandon
  dsimp only
  split_ifs <;> simp
@[simp] theorem copyControl_memory (s : State) (eng k v : Nat) (drv : Bool) : SameMem s (copyControl s eng k v drv) := by
  unfold copyControl
  (repeat' split) <;> simp

end Sys2Proof.Machine

/-! # Channels, images, snapshots and scheduling and memory -/

namespace Sys2Proof.Machine
open Sys2Proof.Claims

@[simp] theorem mem_ite (c : Prop) [Decidable c] (s t : State) : (if c then s else t).mem = if c then s.mem else t.mem :=
  apply_ite State.mem c s t
@[simp] theorem epoch_ite (c : Prop) [Decidable c] (s t : State) : (if c then s else t).epoch = if c then s.epoch else t.epoch :=
  apply_ite State.epoch c s t
/-- An act of a list that leaves memory. -/
def KeepsMem {β : Type} (f : State → β → State) : Prop := ∀ s b, SameMem s (f s b)
@[simp] theorem keepsMem_iff {β : Type} (f : State → β → State) : KeepsMem f ↔ ∀ s b, SameMem s (f s b) := Iff.rfl
@[simp] theorem foldl_mem {β : Type} (f : State → β → State) (l : List β) (s : State) (h : KeepsMem f) :
    (l.foldl f s).mem = s.mem := (sameMem_foldl f h l s).1
@[simp] theorem foldl_epoch {β : Type} (f : State → β → State) (l : List β) (s : State) (h : KeepsMem f) :
    (l.foldl f s).epoch = s.epoch := (sameMem_foldl f h l s).2
theorem SameMem.canon {s t : State} (h : SameMem s t) (hs : Canon s) : Canon t := by
  rw [Canon, h.1, h.2]
  exact hs
theorem canon_ite {c : Prop} [Decidable c] {s t : State} (hs : Canon s) (ht : Canon t) : Canon (if c then s else t) := by
  split
  · exact hs
  · exact ht
@[simp] theorem postCommit_memory (s : State) (c : Commit) : SameMem s (postCommit s c) :=
  ⟨rfl, rfl⟩
@[simp] theorem setRes_memory (s : State) (k : Nat) (r : PortRes) : SameMem s (setRes s k r) :=
  ⟨rfl, rfl⟩
@[simp] theorem postRelease_memory (s : State) (r : Release) : SameMem s (postRelease s r) :=
  ⟨rfl, rfl⟩
@[simp] theorem commitNext_memory (s : State) (v : PortView) (kind : Nat) (eods : List Nat) : SameMem s (commitNext s v kind eods) := by
  unfold commitNext
  dsimp only
  split <;> simp
@[simp] theorem markPortEos_memory (s : State) (n slot k : Nat) : SameMem s (markPortEos s n slot k) := by
  unfold markPortEos
  simp
@[simp] theorem convertSlot_canon (s : State) (c : Chan) (seq : Nat) (hs : Canon s) : Canon (convertSlot s c seq) := by
  unfold convertSlot
  dsimp only
  split_ifs <;> simp [hs, -memWrite_epoch]
@[simp] theorem clearBand_canon (s : State) (r : Ring) (seq : Nat) (hs : Canon s) : Canon (clearBand s r seq) := by
  unfold clearBand
  dsimp only
  split_ifs <;> simp [hs, -memWrite_epoch]
@[simp] theorem putHeader_canon (s : State) (n k seq : Nat) (h : W64) (hs : Canon s) : Canon (putHeader s n k seq h) := by
  unfold putHeader
  (repeat' split) <;> simp [hs, -memWrite_epoch]
@[simp] theorem mismatchOn_memory (s : State) (n : Nat) : SameMem s (mismatchOn s n) := by
  unfold mismatchOn
  simp
@[simp] theorem compareExit_canon (fuel : Nat) (s : State) (n k m j : Nat) (hs : Canon s) : Canon (compareExit fuel s n k m j) := by
  induction fuel generalizing s with
  | zero => exact hs
  | succ f ih =>
    unfold compareExit
    split
    · dsimp only
      split_ifs
      · exact hs
      · exact hs
      · exact ih _ (by simp [hs])
      · have h1 (seq : Nat) (x y : W64) : Canon (putHeader (putHeader s n k seq x) m j seq y) :=
          putHeader_canon _ m j seq y (putHeader_canon s n k seq x hs)
        have h2 (t : State) (v : W64) (ht : Canon t) : Canon (mismatchOn (mismatchOn (logError t 4 0 n 0 0 v) n) m) := by simp [ht]
        exact h2 _ _ (h1 _ _ _)
    · exact hs
@[simp] theorem compareAt_canon (s : State) (n k : Nat) (hs : Canon s) : Canon (compareAt s n k) := by
  unfold compareAt
  (repeat' split) <;> simp [hs, -memWrite_epoch]
@[simp] theorem commitMarked_memory (s : State) (c : Commit) : SameMem s (commitMarked s c).2 := by
  unfold commitMarked
  (repeat' split) <;> simp
@[simp] theorem commitEffect_canon (s : State) (c : Commit) (h : Chan) (seq : Nat) (hs : Canon s) : Canon (commitEffect s c h seq) := by
  unfold commitEffect
  extract_lets r s1 s2 s3 s4 s5 s6 s7
  have h1 : Canon s1 := SameMem.canon (by simp [s1]) hs
  have h2 : Canon s2 := canon_ite (storeMem_canon _ _ _ _ h1) h1
  have h3 : Canon s3 := clearBand_canon _ _ _ h2
  have h4 : Canon s4 :=
    canon_ite (SameMem.canon (by simp) h3) (canon_ite (clearBand_canon _ _ _ (convertSlot_canon _ _ _ h3)) h3)
  have h5 : Canon s5 := putHeader_canon _ _ _ _ _ h4
  have h6 : Canon s6 := SameMem.canon (by simp [s6]) h5
  exact compareAt_canon _ _ _ (canon_ite h6 (SameMem.canon (by simp) h6))
@[simp] theorem channelCommit_canon (s : State) (id : Nat) (hs : Canon s) : Canon (channelCommit s id) := by
  unfold channelCommit
  dsimp only
  (repeat' split) <;> simp [hs, -memWrite_epoch]
@[simp] theorem dropHist_memory (s : State) (n slot fir : Nat) : SameMem s (dropHist s n slot fir) := by
  unfold dropHist
  simp
@[simp] theorem channelRelease_memory (s : State) (id : Nat) : SameMem s (channelRelease s id) := by
  unfold channelRelease
  (repeat' split) <;> simp
@[simp] theorem tableTokenTake_memory (s : State) (n slot k : Nat) : SameMem s (tableTokenTake s n slot k) := by
  unfold tableTokenTake
  (repeat' split) <;> simp
@[simp] theorem unitToken_memory (s : State) (p : Port) (kind marker slot : Nat) : SameMem s (unitToken s p kind marker slot) := by
  unfold unitToken
  simp
@[simp] theorem eosForward_memory (s : State) (n slot : Nat) : SameMem s (eosForward s n slot) := by
  unfold eosForward
  dsimp only
  (repeat' split) <;> simp
@[simp] theorem instanceRetire_memory (s : State) (n slot : Nat) : SameMem s (instanceRetire s n slot) := by
  unfold instanceRetire
  split <;> simp
@[simp] theorem rateSample_memory (s : State) (n k : Nat) : SameMem s (rateSample s n k) := by
  unfold rateSample
  split <;> simp
@[simp] theorem rateParamWrite_memory (s : State) (n k word : Nat) (v : W64) (drv : Bool) :
    SameMem s (rateParamWrite s n k word v drv) := by
  unfold rateParamWrite
  split <;> simp
@[simp] theorem recordCopy_memory (s : State) (n k e off : Nat) (bs : List Byte) : SameMem s (recordCopy s n k e off bs) := by
  unfold recordCopy
  simp
@[simp] theorem cutRecord_memory (s : State) (n e : Nat) (bs : List Byte) : SameMem s (cutRecord s n e bs) := by
  unfold cutRecord
  dsimp only
  split <;> simp
@[simp] theorem nextRecord_memory (s : State) (n : Nat) : SameMem s (nextRecord s n) := by
  unfold nextRecord
  split <;> simp
@[simp] theorem recordState_memory (s : State) (n slot : Nat) : SameMem s (recordState s n slot) := by
  unfold recordState
  split <;> simp
@[simp] theorem recordTaken_memory (s : State) (n slot : Nat) : SameMem s (recordTaken s n slot) := by
  unfold recordTaken
  split
  · split
    · simp
    · exact sameMem_foldl _ (fun s b => by (repeat' split) <;> simp) _ _
  · simp
@[simp] theorem markOutputs_memory (s : State) (slot num : Nat) (i : Inst) : SameMem s (markOutputs s slot num i) := by
  unfold markOutputs
  simp
@[simp] theorem markerInject_memory (s : State) (n slot : Nat) : SameMem s (markerInject s n slot) := by
  unfold markerInject
  split <;> simp
@[simp] theorem snapshotAlign_memory (s : State) (n slot : Nat) : SameMem s (snapshotAlign s n slot) := by
  unfold snapshotAlign
  dsimp only
  (repeat' split) <;> simp
@[simp] theorem setUnal_memory (s : State) (i : Inst) : SameMem s (setUnal s i) := by
  unfold setUnal
  simp
@[simp] theorem unalignedSwitch_memory (s : State) (n slot : Nat) : SameMem s (unalignedSwitch s n slot) := by
  unfold unalignedSwitch
  dsimp only
  (repeat' split) <;> simp
@[simp] theorem unalignedArrive_memory (s : State) (n slot k : Nat) : SameMem s (unalignedArrive s n slot k) := by
  unfold unalignedArrive
  (repeat' split) <;> simp
@[simp] theorem modInsts_memory (s : State) (e : Nat) (f : Inst → Inst) : SameMem s (modInsts s e f) := by
  unfold modInsts
  simp
@[simp] theorem setSession_memory (s : State) (n : Nat) (x : Option Session) : SameMem s (setSession s n x) :=
  ⟨rfl, rfl⟩
@[simp] theorem snapreq_memory (s : State) (e : Nat) (v : W64) (drv : Bool) : SameMem s (snapreq s e v drv) := by
  unfold snapreq
  simp
@[simp] theorem snapshotComplete_memory (s : State) (e : Nat) : SameMem s (snapshotComplete s e) := by
  unfold snapshotComplete
  simp
@[simp] theorem pumpSnap_memory (fuel : Nat) (s : State) (ses : Nat) : SameMem s (pumpSnap fuel s ses) := by
  induction fuel generalizing s with
  | zero => simp [pumpSnap]
  | succ f ih =>
    unfold pumpSnap
    dsimp only
    split
    · split
      · split
        · simp
        · exact SameMem.trans (by simp) (ih _)
      · simp
    · simp
@[simp] theorem snapPerformed_memory (s : State) (c : Copy) : SameMem s (snapPerformed s c) := by
  unfold snapPerformed
  dsimp only
  (repeat' split) <;> simp
@[simp] theorem countLost_memory (s : State) (ms : List SnapMsg) : SameMem s (countLost s ms) := by
  unfold countLost
  simp
@[simp] theorem snapAck_memory (s : State) (ses seq status : Nat) : SameMem s (snapAck s ses seq status) := by
  unfold snapAck
  (repeat' split) <;> simp
@[simp] theorem snapResend_memory (s : State) (ses seq : Nat) : SameMem s (snapResend s ses seq) := by
  unfold snapResend
  (repeat' split) <;> simp
@[simp] theorem snapLost_memory (s : State) (ses : Nat) : SameMem s (snapLost s ses) := by
  unfold snapLost
  split <;> simp
@[simp] theorem restartWatch_memory (s : State) (e : Nat) : SameMem s (restartWatch s e) :=
  ⟨rfl, rfl⟩
@[simp] theorem startFiring_canon (s : State) (n slot c : Nat) (replay : Option FireRec) (hs : Canon s) : Canon (startFiring s n slot c replay) := by
  have h1 (pa k x : Nat) : Canon (storeMem (recordTaken s n slot) pa k x) := storeMem_canon _ pa k x (by simp [hs])
  have h2 (pa k x : Nat) : Canon (storeMem s pa k x) := storeMem_canon _ pa k x hs
  unfold startFiring
  dsimp only
  cases replay with
  | none => (repeat' split) <;> simp [hs, h1]
  | some r => (repeat' split) <;> simp [hs, h2]
@[simp] theorem schedulingEvent_canon (s : State) (n e : Nat) (hs : Canon s) : Canon (schedulingEvent s n e) := by
  unfold schedulingEvent
  dsimp only
  (repeat' split)
  · exact hs
  · exact startFiring_canon _ _ _ _ _ (by simp [hs])
  · simp [hs]
  · exact hs
@[simp] theorem endPort_memory (s : State) (n c : Nat) (f : Firing) (k : Nat) : SameMem s (endPort s n c f k) := by
  unfold endPort
  dsimp only
  (repeat' split) <;> simp
@[simp] theorem dropResults_memory (s : State) (n c : Nat) : SameMem s (dropResults s n c) := by
  unfold dropResults
  simp
@[simp] theorem loseSpills_canon (s : State) (n c : Nat) (hs : Canon s) : Canon (loseSpills s n c) := by
  unfold loseSpills
  refine canon_foldl _ (fun s g hs => ?_) _ _ hs
  split
  · exact hs
  · exact storeMem_canon _ _ _ _ (by simp [hs])
@[simp] theorem discardHeld_memory (s : State) (n : Nat) (h : HeldWrite) : SameMem s (discardHeld s n h) := by
  unfold discardHeld
  (repeat' split) <;> simp
@[simp] theorem dropHeld_memory (s : State) (n c : Nat) : SameMem s (dropHeld s n c) := by
  unfold dropHeld
  simp
@[simp] theorem clearCtx_canon (s : State) (n c : Nat) (hs : Canon s) : Canon (clearCtx s n c) := by
  unfold clearCtx
  simp [hs, -memWrite_epoch]
@[simp] theorem reportFaults_memory (s : State) (n c e : Nat) : SameMem s (reportFaults s n c e) := by
  unfold reportFaults
  simp
@[simp] theorem markCommits_memory (s : State) (n c : Nat) (f : Firing) : SameMem s (markCommits s n c f) :=
  ⟨rfl, rfl⟩
@[simp] theorem endFiring_canon (s : State) (n c : Nat) (hs : Canon s) : Canon (endFiring s n c) := by
  unfold endFiring
  dsimp only
  (repeat' split) <;> simp [hs]
@[simp] theorem reinject_canon (fuel : Nat) (s : State) (n k seq : Nat) (hs : Canon s) : Canon (reinject fuel s n k seq) := by
  induction fuel generalizing s n k seq with
  | zero => exact hs
  | succ f ih =>
    unfold reinject
    cases getChan s n k with
    | none => exact hs
    | some c =>
      dsimp only
      (repeat' split)
      · exact hs
      · simp [hs]
      · exact hs
      · exact ih _ _ _ _ hs
      · exact startFiring_canon _ _ _ _ _ (by simp [hs])
      · exact hs
      · exact hs
      · simp [hs]
      · exact hs
@[simp] theorem poisonReinject_canon (s : State) (n k cons : Nat) (hs : Canon s) : Canon (poisonReinject s n k cons) := by
  unfold poisonReinject
  split <;> simp [hs, -memWrite_epoch]
@[simp] theorem ienable_memory (s : State) (n slot : Nat) (v : W64) : SameMem s (ienable s n slot v) := by
  unfold ienable
  split <;> simp
@[simp] theorem watchdog_memory (s : State) (e : Nat) : SameMem s (watchdog s e) := by
  unfold watchdog
  dsimp only
  (repeat' split) <;> simp

end Sys2Proof.Machine

/-! # Launches, the system registers and saved state and memory -/

namespace Sys2Proof.Machine
open Sys2Proof.Claims

@[simp] theorem lpLeaf_memory (s : State) (die asid va : Nat) : SameMem s (lpLeaf s die asid va).2 := by
  unfold lpLeaf
  dsimp only
  (repeat' split) <;> simp
@[simp] theorem contiguous_memory (fuel : Nat) (s : State) (die asid va n : Nat) : SameMem s (contiguous fuel s die asid va n).2 := by
  induction fuel generalizing s va n with
  | zero => simp [contiguous]
  | succ f ih =>
    have hl := lpLeaf_memory s die asid va
    unfold contiguous
    split
    · next e t h =>
      rw [h] at hl
      dsimp only
      split_ifs
      · exact hl
      · exact hl
      · have hc := ih t (va + (2 ^ e.log2 - va % 2 ^ e.log2)) (n - (2 ^ e.log2 - va % 2 ^ e.log2))
        split
        · next h' => simpa [h'] using hl.trans hc
        · next h' => simpa [h'] using hl.trans hc
    · next h => simpa [h] using hl
@[simp] theorem span_memory (s : State) (die asid va n : Nat) : SameMem s (span s die asid va n).2 := by
  unfold span
  simp
@[simp] theorem lpRead_memory (fuel : Nat) (s : State) (die asid va n : Nat) : SameMem s (lpRead fuel s die asid va n).2 := by
  induction fuel generalizing s va n with
  | zero => simp [lpRead]
  | succ f ih =>
    unfold lpRead
    split
    · exact ⟨rfl, rfl⟩
    · exact ⟨rfl, rfl⟩
    · next n _ _ f' hf _ =>
      cases hf
      have hx := lpXlate_memory s die asid va .load (min n (65536 - va % 65536))
      dsimp only
      split
      · next h => rw [h] at hx; exact hx
      · next x t h =>
        rw [h] at hx
        have hr := (hx.trans (readSeg_memory t { pa := x.pa, len := min n (65536 - va % 65536), off := 0, dev := x.dev })).trans
          (ih _ (va + min n (65536 - va % 65536)) (n - min n (65536 - va % 65536)))
        split
        · next h' => rw [h'] at hr; exact hr
        · next h' => rw [h'] at hr; exact hr
@[simp] theorem lpBytes_memory (s : State) (die asid va n : Nat) : SameMem s (lpBytes s die asid va n).2 :=
  lpRead_memory _ s die asid va n
@[simp] theorem streamWords_memory (s : State) (l : Launch) : SameMem s (streamWords s l).2 := by
  have hb := lpBytes_memory s 0 l.asid (l.packet.getD 1 0).toNat (4 * min (wbits (l.packet.getD 4 0) 0 32) 65537)
  unfold streamWords
  dsimp only
  split
  · next h => rw [h] at hb; exact hb
  · next h => rw [h] at hb; exact hb
@[simp] theorem stagedFails_memory (s : State) (die asid : Nat) (secs : List ImgSection) : SameMem s (stagedFails s die asid secs).2 := by
  unfold stagedFails
  refine sameMem_foldl_view Prod.snd _ (fun a x => ?_) secs ([], s)
  have hb := lpBytes_memory a.2 die asid x.stage (min x.size 0x80000)
  split
  · next h => rw [h] at hb; exact hb
  · next h => rw [h] at hb; exact hb
@[simp] theorem areaBase_memory (s : State) (die asid : Nat) (img : Image) : SameMem s (areaBase s die asid img).2 := by
  have hl := lpLeaf_memory s die asid img.chanarea
  unfold areaBase
  split
  · next h => rw [h] at hl; exact hl
  · next h => rw [h] at hl; exact hl
@[simp] theorem spansOf_memory (s : State) (die asid : Nat) (p : Placement) : SameMem s (spansOf s die asid p).2 := by
  -- Opaque sizes: the kernel would count the numerals down.
  obtain ⟨k, hk⟩ : ∃ k, macroBytes = k := ⟨_, rfl⟩
  obtain ⟨u, hu⟩ : ∃ u, roundUp = u := ⟨_, rfl⟩
  unfold spansOf
  rw [hk, hu]
  extract_lets rings m r a m'
  split
  · exact span_memory _ _ _ _ _
  · have ha : SameMem s a.2 := by
      simp only [a]
      split
      · exact ⟨rfl, rfl⟩
      · exact span_memory _ _ _ _ _
    have hm : SameMem s m'.2 := ha.trans (span_memory _ _ _ _ _)
    split <;> exact hm
@[simp] theorem checkLaunch_memory (s : State) (e : Nat) : SameMem s (checkLaunch s e).2 := by
  have hw := streamWords_memory s (getLaunch s e)
  unfold checkLaunch
  extract_lets l err
  split
  · next h => rw [h] at hw; exact hw
  · next ws t h =>
    rw [h] at hw
    extract_lets r img p0 sp head alone die x p shaped full y z fails
    split
    · exact hw
    · have hx : SameMem s x.2 := hw.trans (areaBase_memory _ _ _ _)
      have hy : SameMem s y.2 := by
        simp only [y]
        split
        · exact hx.trans (spansOf_memory _ _ _ _)
        · exact hx
      have hz : SameMem s z.2 := hy.trans (stagedFails_memory _ _ _ _)
      split <;> exact hz
@[simp] theorem initBlock_canon (s : State) (p : Placement) (x : Placed × Nat) (hs : Canon s) : Canon (initBlock s p x) := by
  unfold initBlock
  exact storeMem_canon _ _ _ _ hs
@[simp] theorem copySections_canon (s : State) (asid : Nat) (p : Placement) (hs : Canon s) : Canon (copySections s asid p) := by
  unfold copySections
  refine canon_foldl _ (fun s x hs => canon_foldl _ (fun s n hs => ?_) _ _ hs) _ _ hs
  have hb := lpBytes_memory s (dieOf n) asid x.stage x.size
  split
  · next h =>
    rw [h] at hb
    exact storeMem_canon _ _ _ _ (hb.canon hs)
  · next h =>
    rw [h] at hb
    exact hb.canon hs
@[simp] theorem applyPools_memory (s : State) (asid : Nat) (img : Image) : SameMem s (applyPools s asid img) := by
  unfold applyPools
  simp
@[simp] theorem applyBarriers_memory (s : State) (p : Placement) : SameMem s (applyBarriers s p) := by
  unfold applyBarriers
  simp
/-- `canon_foldl`, the act's outcome named apart: so the kernel compares states, never their memories. -/
theorem canon_foldl_of {β : Type} (f : State → β → State) (h : ∀ s b, Canon s → ∃ t, f s b = t ∧ Canon t) (l : List β)
    (s : State) (hs : Canon s) : Canon (l.foldl f s) := by
  refine canon_foldl f (fun s b hs => ?_) l s hs
  obtain ⟨t, ht, hc⟩ := h s b hs
  rw [ht]
  exact hc
theorem canon_of_forall {s : State} (h : ∀ t, s = t → Canon t) : Canon s := h s rfl
theorem sameMem_foldl_of {β : Type} (f : State → β → State) (h : ∀ s b, ∃ t, f s b = t ∧ SameMem s t) (l : List β) (s : State) :
    SameMem s (l.foldl f s) := by
  refine sameMem_foldl f (fun s b => ?_) l s
  obtain ⟨t, ht, hc⟩ := h s b
  rw [ht]
  exact hc
@[simp] theorem startLaunch_canon (s : State) (e : Nat) (p : Placement) (hs : Canon s) : Canon (startLaunch s e p) := by
  unfold startLaunch
  extract_lets cores asid s1 s2 s3 s4 s5 s6
  have h3 : Canon s3 := SameMem.canon (by simp [s3, s2, s1]) hs
  have h4 : Canon s4 := canon_foldl_of _ (fun s x hs => ⟨_, rfl, initBlock_canon _ p x (SameMem.canon (by simp) hs)⟩) _ _ h3
  have h5 : Canon s5 := SameMem.canon (by simp [s5]) h4
  have h6 : Canon s6 := SameMem.canon (by simp [s6]) (copySections_canon s5 asid p h5)
  exact canon_foldl_of _ (fun s n hs => ⟨_, rfl, canon_foldl_of _ (fun s k hs => ⟨_, rfl, imageTo_canon _ _ _ _ hs⟩) _ _ hs⟩) _ _ h6
@[simp] theorem launchStart_canon (s : State) (e : Nat) (hs : Canon s) : Canon (launchStart s e) := by
  have hc := checkLaunch_memory s e
  unfold launchStart
  split
  · exact hs
  · split
    · next p t h =>
      rw [h] at hc
      split
      · exact hs
      · exact startLaunch_canon t e p (hc.canon hs)
    · next r t h =>
      rw [h] at hc
      exact SameMem.canon (hc.trans (by simp)) hs
theorem memorySet_foldl_wf (e : Nat) (f : Host.Cell → Nat) (cs m : List Host.Cell) (h : Memory.wf e m = true) :
    Memory.wf e (cs.foldl (fun m c => Memory.set e m (f c) c.2) m) = true := by
  induction cs generalizing m with
  | nil => exact h
  | cons c cs ih => exact ih _ (Memory.wf_set e m (f c) c.2 h)
@[simp] theorem rehash_canon (s : State) (n : Nat) (new : BitVec 55) (hs : Canon s) : Canon (rehash s n new) := by
  unfold rehash
  exact memorySet_foldl_wf s.epoch _ _ _ (Memory.wf_filter s.epoch s.mem _ hs)
@[simp] theorem setRegion_memory (s : State) (base size esz : Nat) (v : W64) : Holds (SameMem s) (setRegion s base size esz v) := by
  unfold setRegion
  simp
theorem sysWrite_memory (s : State) (sel : Nat) (v : W64) (h : sel ≠ 0x028) : Holds (SameMem s) (sysWrite s sel v) := by
  unfold sysWrite
  dsimp only
  split
  case h_16 => exact absurd rfl h
  all_goals (repeat' split) <;> simp
@[simp] theorem sysWrite_canon (s : State) (sel : Nat) (v : W64) (hs : Canon s) : Holds Canon (sysWrite s sel v) := by
  by_cases h : sel = 0x028
  · subst h
    exact (holds_ok _ _).mpr (rehash_canon s s.cur.core _ hs)
  · exact (sysWrite_memory s sel v h).mono fun t ht => ht.canon hs
@[simp] theorem putBytes_canon (s : State) (pa : Nat) (bs : List Byte) (hs : Canon s) : Canon (putBytes s pa bs) := by
  unfold putBytes
  have h : Canon { s with mem := Memory.put s.epoch s.mem pa bs } := Memory.wf_put s.epoch s.mem pa bs hs
  exact SameMem.canon (by simp) h
@[simp] theorem putArea_canon (s : State) (pa : Nat) (bs : List Byte) (hs : Canon s) : Canon (putArea s pa bs) := by
  have one (s : State) (a : Nat) (bs : List Byte) (hs : Canon s) : Canon (touchTiles (putBytes s (homePa s a) bs) a bs.length) :=
    SameMem.canon (touchTiles_memory _ _ _) (putBytes_canon _ _ _ hs)
  unfold putArea
  dsimp only
  split
  · exact canon_foldl _ (fun s k hs => one _ _ _ hs) _ _ hs
  · exact one _ _ _ hs
@[simp] theorem copyRange_canon (s : State) (src dst n : Nat) (hs : Canon s) : Canon (copyRange s src dst n) := by
  unfold copyRange
  simp [hs, -memWrite_epoch]
@[simp] theorem freeWords_memory (s : State) (n : Nat) : SameMem s (freeWords s n).2 :=
  ⟨rfl, rfl⟩
@[simp] theorem putWords_canon (s : State) (pa : Nat) (ws : List Nat) (hs : Canon s) : Canon (putWords s pa ws) := by
  unfold putWords
  simp [hs, -memWrite_epoch]
@[simp] theorem putFree_canon (s : State) (pa n : Nat) (hs : Canon s) : Canon (putFree s pa n) :=
  putWords_canon _ _ _ hs
@[simp] theorem saveCtx_canon (s : State) (e n b c : Nat) (hs : Canon s) : Canon (saveCtx s e n b c) := by
  unfold saveCtx
  extract_lets x s1 s2 s3 s4 s5 s6 s7
  have h1 : Canon s1 := putWords_canon _ _ _ hs
  have h2 : Canon s2 := canon_foldl _ (fun s v hs => putArea_canon _ _ _ hs) _ _ h1
  have h7 : Canon s7 := putWords_canon _ _ _ (putWords_canon _ _ _ (putWords_canon _ _ _ (putWords_canon _ _ _ (putWords_canon _ _ _ h2))))
  exact putWords_canon _ _ _ h7
@[simp] theorem restoreCtx_memory (s : State) (area : List Nat) (n b c : Nat) : SameMem s (restoreCtx s area n b c) := by
  unfold restoreCtx
  simp
@[simp] theorem restoreDirectory_memory (s : State) (n : Nat) (w : List Nat) (rs : List (Nat × Nat)) : SameMem s (restoreDirectory s n w rs) := by
  unfold restoreDirectory
  extract_lets base size esz z at_ whole k same ts tab s1
  have h1 : SameMem s s1 := by simp [s1]
  refine h1.trans (sameMem_foldl _ (fun s t => sameMem_foldl _ (fun s r => ?_) _ _) _ _)
  dsimp only
  split <;> simp
@[simp] theorem saveCore_canon (s : State) (e n : Nat) (hs : Canon s) : Canon (saveCore s e n) := by
  unfold saveCore
  extract_lets a k s1 s2 s3 s4 s5 held s6 s7 s8 s9 s10 s11 s12
  have h1 : Canon s1 := canon_ite hs (putFree_canon _ _ _ hs)
  have h2 : Canon s2 := putWords_canon _ _ _ h1
  have h3 : Canon s3 := by
    refine canon_foldl _ (fun s j hs => ?_) _ _ h2
    split
    · exact canon_ite (putArea_canon _ _ _ hs) hs
    · exact hs
  have h4 : Canon s4 := by
    refine canon_foldl _ (fun s j hs => ?_) _ _ h3
    split
    · exact canon_ite (putWords_canon _ _ _ hs) hs
    · exact hs
  have h5 : Canon s5 := by
    refine canon_foldl _ (fun s j hs => ?_) _ _ h4
    split
    · exact canon_ite (putWords_canon _ _ _ hs) hs
    · exact hs
  have h7 : Canon s7 := putWords_canon _ _ _ (putArea_canon _ _ _ h5)
  have h8 : Canon s8 := canon_foldl _ (fun s c hs => canon_ite (putWords_canon _ _ _ hs) hs) _ _ h7
  have h9 : Canon s9 := canon_foldl_of _ (fun s c hs => ⟨_, rfl, saveCtx_canon _ _ _ _ _ hs⟩) _ _ h8
  have h12 : Canon s12 := putWords_canon _ _ _ (copyRange_canon _ _ _ _ (copyRange_canon _ _ _ _ h9))
  exact SameMem.canon (countBursts_memory _ _ _) (copyRange_canon _ _ _ _ h12)
@[simp] theorem restoreCore_canon (s : State) (e n : Nat) (hs : Canon s) : Canon (restoreCore s e n) := by
  refine canon_of_forall fun t ht => ?_
  unfold restoreCore at ht
  extract_lets a now mine s1 area s2 s3 s4 s5 s6 pad rs s7 s8 at ht
  have h1 : SameMem s s1 := countBursts_memory _ _ _
  have h2 : SameMem s1 s2 := ⟨modCore_mem s1 n _, modCore_epoch s1 n _⟩
  have h3 : SameMem s s3 :=
    (h1.trans h2).trans (sameMem_foldl_of _ (fun s c => ⟨_, rfl, restoreCtx_memory _ _ _ _ _⟩) _ _)
  have h4 : Canon s4 := by
    simp only [s4]
    cases mine
    · exact h3.canon hs
    · exact canon_ite (h3.canon hs) (rehash_canon _ _ _ (h3.canon hs))
  have h6 : Canon s6 := putBytes_canon _ _ _ (putBytes_canon _ _ _ h4)
  have h7 : Canon s7 := canon_foldl_of _ (fun s r hs => ⟨_, rfl, putBytes_canon _ _ _ hs⟩) _ _ h6
  rw [← ht]
  exact canon_foldl_of _ (fun s k hs => ⟨_, rfl, imageSlot_canon _ _ _ hs⟩) _ _ (SameMem.canon (restoreDirectory_memory _ _ _ _) h7)
@[simp] theorem clearContexts_canon (s : State) (e : Nat) (hs : Canon s) : Canon (clearContexts s e) :=
  canon_foldl_of _ (fun _ _ hs => ⟨_, rfl, canon_foldl_of _ (fun _ _ hs => ⟨_, rfl, canon_ite (clearCtx_canon _ _ _ hs) hs⟩) _ _ hs⟩) _ _ hs
@[simp] theorem killCopies_memory (s : State) (e : Nat) : SameMem s (killCopies s e) := by
  unfold killCopies
  simp
@[simp] theorem killTables_memory (s : State) (e : Nat) : SameMem s (killTables s e) := by
  unfold killTables
  simp
@[simp] theorem killFibres_memory (s : State) (e : Nat) : SameMem s (killFibres s e) := by
  unfold killFibres
  simp
@[simp] theorem killSnapshot_memory (s : State) (e : Nat) : SameMem s (killSnapshot s e) := by
  unfold killSnapshot
  simp
@[simp] theorem abortLaunch_canon (s : State) (e : Nat) (hs : Canon s) : Canon (abortLaunch s e) := by
  have hc := clearContexts_canon s e hs
  unfold abortLaunch
  generalize clearContexts s e = t at hc ⊢
  simp [hc]
@[simp] theorem killLaunch_canon (s : State) (e : Nat) (drv : Bool) (hs : Canon s) : Canon (killLaunch s e drv) := by
  unfold killLaunch
  dsimp only
  split_ifs <;> simp [hs, -memWrite_epoch]
@[simp] theorem classUpdate_memory (s : State) (e : Nat) : SameMem s (classUpdate s e) := by
  unfold classUpdate
  simp
@[simp] theorem launchCompletion_canon (s : State) (e : Nat) (hs : Canon s) : Canon (launchCompletion s e) := by
  unfold launchCompletion
  dsimp only
  split_ifs <;> simp [hs, -memWrite_epoch]
@[simp] theorem intensityWindow_memory (s : State) (e : Nat) : SameMem s (intensityWindow s e) := by
  unfold intensityWindow
  simp
@[simp] theorem freeLaunch_memory (s : State) (e : Nat) : SameMem s (freeLaunch s e) := by
  unfold freeLaunch
  simp
@[simp] theorem modStreams_memory (s : State) (e n : Nat) (f : Stream → Stream) : SameMem s (modStreams s e n f) := by
  unfold modStreams
  simp
@[simp] theorem modCopies_memory (s : State) (e n : Nat) (f : Copy → Copy) : SameMem s (modCopies s e n f) :=
  ⟨rfl, rfl⟩
@[simp] theorem suspendCopies_memory (s : State) (e n : Nat) : SameMem s (suspendCopies s e n) := by
  unfold suspendCopies
  simp
@[simp] theorem removeTasks_memory (s : State) (e n : Nat) : SameMem s (removeTasks s e n) := by
  unfold removeTasks
  simp
@[simp] theorem reenterTasks_memory (s : State) (e n : Nat) : SameMem s (reenterTasks s e n) := by
  unfold reenterTasks
  simp
@[simp] theorem stopCore_memory (s : State) (e n : Nat) : SameMem s (stopCore s e n) := by
  unfold stopCore
  simp
@[simp] theorem preemptLaunch_memory (s : State) (e : Nat) (drv : Bool) : SameMem s (preemptLaunch s e drv) := by
  unfold preemptLaunch
  split
  · exact ⟨rfl, rfl⟩
  · extract_lets es
    split
    · exact ⟨rfl, rfl⟩
    · exact sameMem_foldl _ (fun s x => by simp) _ _
@[simp] theorem preemptComplete_canon (s : State) (e : Nat) (hs : Canon s) : Canon (preemptComplete s e) := by
  unfold preemptComplete
  extract_lets ready s1
  have h1 : Canon s1 := canon_foldl_of _ (fun s n hs => ⟨_, rfl, saveCore_canon _ _ _ hs⟩) _ _ hs
  exact SameMem.canon (by simp) h1
@[simp] theorem goOn_memory (s : State) (e n : Nat) : SameMem s (goOn s e n) := by
  unfold goOn
  simp
@[simp] theorem resumeCore_canon (s : State) (e n : Nat) (hs : Canon s) : Canon (resumeCore s e n) := by
  unfold resumeCore
  extract_lets owed s1 s2
  have h1 : Canon s1 := canon_ite (restoreCore_canon _ _ _ hs) (SameMem.canon (goOn_memory _ _ _) hs)
  exact SameMem.canon (by simp [s2]) h1
@[simp] theorem requestResume_memory (s : State) (e : Nat) (drv : Bool) : SameMem s (requestResume s e drv) := by
  unfold requestResume
  simp
@[simp] theorem resumeLaunch_canon (s : State) (e : Nat) (drv : Bool) (hs : Canon s) : Canon (resumeLaunch s e drv) := by
  have hc (s : State) (x : Nat) (ns : List Nat) (hs : Canon s) : Canon (ns.foldl (fun s n => resumeCore s x n) s) :=
    canon_foldl_of _ (fun s n hs => ⟨_, rfl, resumeCore_canon _ _ _ hs⟩) _ _ hs
  unfold resumeLaunch
  split
  · exact hs
  · exact canon_foldl_of _ (fun s x hs => ⟨_, rfl, SameMem.canon (by simp) (hc s x (getLaunch s x).cores hs)⟩) _ _ hs
@[simp] theorem preemptCore_memory (s : State) (e n : Nat) (drv : Bool) : SameMem s (preemptCore s e n drv) := by
  unfold preemptCore
  simp
@[simp] theorem resumeOn_canon (s : State) (e n : Nat) (drv : Bool) (hs : Canon s) : Canon (resumeOn s e n drv) := by
  have hc := resumeCore_canon s e n hs
  unfold resumeOn
  extract_lets l free
  split
  · exact hs
  · split
    · exact SameMem.canon (by simp) hs
    · exact SameMem.canon (by simp) hc

end Sys2Proof.Machine

/-! # The device's control, the homes and memory -/

namespace Sys2Proof.Machine
open Sys2Proof.Claims

theorem unlisted_offHbm (e e' pa : Nat) (h : hbmEnd ≤ pa) : unlisted e pa = unlisted e' pa := by
  have hn : ¬ pa < 0xA000000000 := Nat.not_lt.mpr h
  unfold unlisted
  rw [if_neg hn, if_neg hn]
theorem offHbm_wf (e e' : Nat) (m : List Host.Cell) (h : Memory.wf e m = true) : Memory.wf e' (offHbm m) = true := by
  unfold offHbm
  rw [Memory.wf_iff] at h ⊢
  refine ⟨h.1.filter _, fun c hc => ?_⟩
  obtain ⟨hm, ha⟩ := List.mem_filter.mp hc
  rw [unlisted_offHbm e' e c.1 (of_decide_eq_true ha)]
  exact h.2 c hm
@[simp] theorem loseHbm_canon (s : State) (hs : Canon s) : Canon (loseHbm s) :=
  offHbm_wf s.epoch (s.epoch + 1) s.mem hs
@[simp] theorem hashRowWrite_canon (s : State) (i : Nat) (v : W64) (hs : Canon s) : Canon (hashRowWrite s i v) := by
  unfold hashRowWrite
  dsimp only
  split_ifs <;> simp [hs, -memWrite_epoch]
@[simp] theorem pinsizeWrite_canon (s : State) (v : W64) (hs : Canon s) : Canon (pinsizeWrite s v) := by
  unfold pinsizeWrite
  dsimp only
  split_ifs <;> simp [hs, -memWrite_epoch]
@[simp] theorem noteHeldBack_memory (s : State) : SameMem s (noteHeldBack s) :=
  ⟨rfl, rfl⟩
@[simp] theorem planeRowWrite_memory (s : State) (k : Nat) (v : W64) : SameMem s (planeRowWrite s k v) := by
  unfold planeRowWrite
  simp
@[simp] theorem bucketWrite_memory (s : State) (b x : Nat) : SameMem s (bucketWrite s b x) := by
  unfold bucketWrite
  simp
@[simp] theorem planeTableWrite_memory (s : State) (off n x : Nat) : SameMem s (planeTableWrite s off n x) := by
  unfold planeTableWrite
  simp
@[simp] theorem planeDeadSet_memory (s : State) (mask : BitVec 8) : SameMem s (planeDeadSet s mask) := by
  unfold planeDeadSet
  simp
@[simp] theorem quiesceClear_memory (s : State) : SameMem s (quiesceClear s) := by
  unfold quiesceClear
  simp
@[simp] theorem planectlWrite_memory (s : State) (v : W64) : SameMem s (planectlWrite s v) := by
  unfold planectlWrite
  simp
@[simp] theorem poolStore_canon (s : State) (p off n x : Nat) (hs : Canon s) : Canon (poolStore s p off n x) := by
  unfold poolStore
  split <;> simp [hs, -memWrite_epoch]
@[simp] theorem tilePageWrite_memory (s : State) (m : Nat) (v : W64) : SameMem s (tilePageWrite s m v) := by
  unfold tilePageWrite
  simp
@[simp] theorem queueStore_memory (s : State) (q off : Nat) (v : W64) : SameMem s (queueStore s q off v) := by
  unfold queueStore
  split <;> simp
@[simp] theorem lcoreWrite_canon (s : State) (e : Nat) (v : W64) (drv : Bool) (hs : Canon s) : Canon (lcoreWrite s e v drv) := by
  unfold lcoreWrite
  (repeat' split) <;> simp [hs, -memWrite_epoch]
@[simp] theorem logStore_canon (s : State) (e off : Nat) (v : W64) (drv : Bool) (hs : Canon s) : Canon (logStore s e off v drv) := by
  unfold logStore
  (repeat' split) <;> simp [hs, -memWrite_epoch]
@[simp] theorem doorbellWrite_memory (s : State) (n : Nat) (v : W64) : SameMem s (doorbellWrite s n v) := by
  unfold doorbellWrite
  simp
@[simp] theorem dropEntries_memory (s : State) (t : Tinv) : SameMem s (dropEntries s t) := by
  unfold dropEntries
  simp
@[simp] theorem requestTinv_memory (s : State) (scope asid va : Nat) : SameMem s (requestTinv s scope asid va) := by
  unfold requestTinv
  simp
@[simp] theorem tinvStore_memory (s : State) (v : W64) : SameMem s (tinvStore s v) := by
  unfold tinvStore
  simp
@[simp] theorem invalidationComplete_memory (s : State) : SameMem s (invalidationComplete s) := by
  unfold invalidationComplete
  split <;> simp
@[simp] theorem modMigration_memory (s : State) (m : Nat) (f : Migration → Migration) : SameMem s (modMigration s m f) :=
  ⟨rfl, rfl⟩
@[simp] theorem migrationGo_memory (s : State) (m : Nat) : SameMem s (migrationGo s m) := by
  unfold migrationGo
  simp
@[simp] theorem migrationClr_memory (s : State) (m : Nat) : SameMem s (migrationClr s m) := by
  unfold migrationClr
  simp
@[simp] theorem migrationStore_memory (s : State) (m off : Nat) (v : W64) : SameMem s (migrationStore s m off v) := by
  unfold migrationStore
  split <;> simp
@[simp] theorem migrationSector_canon (s : State) (m : Nat) (hs : Canon s) : Canon (migrationSector s m) := by
  unfold migrationSector
  extract_lets r a b s1 s2 s3
  have h1 : Canon s1 := Memory.wf_put s.epoch s.mem b _ hs
  have h3 : Canon s3 := SameMem.canon (by simp [s3, s2]) h1
  split
  · exact hs
  · exact SameMem.canon (by simp) h3
@[simp] theorem counterStore_memory (s : State) (r : DevReg) (v : W64) : SameMem s (counterStore s r v) := by
  unfold counterStore
  (repeat' split) <;> simp
@[simp] theorem conflictStore_memory (s : State) (k i n x : Nat) : SameMem s (conflictStore s k i n x) := by
  unfold conflictStore
  simp
@[simp] theorem injectorStore_memory (s : State) (i off : Nat) (v : W64) : SameMem s (injectorStore s i off v) := by
  unfold injectorStore
  simp
@[simp] theorem counterClear_memory (s : State) (pa : Nat) (v : W64) : SameMem s (counterClear s pa v) := by
  unfold counterClear
  split <;> simp
@[simp] theorem powerReq_memory (s : State) (v : Nat) : SameMem s (powerReq s v) := by
  unfold powerReq
  simp
@[simp] theorem pwrctlStore_memory (s : State) (v : W64) : SameMem s (pwrctlStore s v) := by
  unfold pwrctlStore
  simp
@[simp] theorem powerDone_memory (s : State) : SameMem s (powerDone s) := by
  unfold powerDone
  simp
@[simp] theorem devStore_canon (s : State) (r : DevReg) (n x : Nat) (drv : Bool) (hs : Canon s) : Canon (devStore s r n x drv) := by
  unfold devStore
  (repeat' split) <;> simp [hs, -memWrite_epoch]
@[simp] theorem viewStore_canon (s : State) (pa n x : Nat) (drv : Bool) (hs : Canon s) : Canon (viewStore s pa n x drv) := by
  unfold viewStore
  dsimp only
  (repeat' split) <;> simp [hs, -memWrite_epoch]
@[simp] theorem registerWrite_canon (s : State) (pa n : Nat) (v : W64) (drv : Bool) (hs : Canon s) :
    Canon (registerWrite s pa n v drv) := by
  unfold registerWrite
  (repeat' split) <;> simp [hs, -memWrite_epoch]
@[simp] theorem putRegister_memory (s : State) (n c r : Nat) (d : VReg) : SameMem s (putRegister s n c r d) := by
  unfold putRegister
  simp
@[simp] theorem dropRows_memory (s : State) (g : Seg) : SameMem s (dropRows s g) := by
  unfold dropRows
  simp
@[simp] theorem storePieces_canon (s : State) (gs : List Seg) (f : Seg → Nat) (drv : Bool) (hs : Canon s) : Canon (storePieces s gs f drv) := by
  unfold storePieces
  extract_lets ms s1
  have h1 : Canon s1 :=
    canon_foldl_of _ (fun s g hs => ⟨_, rfl, SameMem.canon (dropRows_memory _ _) (storeMem_canon _ _ _ _ hs)⟩) _ _ hs
  exact canon_foldl_of _ (fun s g hs => ⟨_, rfl, viewStore_canon _ _ _ _ _ hs⟩) _ _ (SameMem.canon (by simp) h1)
@[simp] theorem storePiece_canon (s : State) (g : Seg) (x : Nat) (drv : Bool) (hs : Canon s) : Canon (storePiece s g x drv) := by
  unfold storePiece
  simp [hs, -memWrite_epoch]
@[simp] theorem storeLine_canon (s : State) (r : Req) (gs : List Seg) (hs : Canon s) : Canon (storeLine s r gs) := by
  unfold storeLine
  simp [hs, -memWrite_epoch]
@[simp] theorem storeAt_canon (s : State) (r : Req) (k : Nat) (hs : Canon s) : Canon (storeAt s r k) := by
  unfold storeAt
  dsimp only
  split_ifs <;> simp [hs, -memWrite_epoch]
@[simp] theorem classifyFull_memory (s : State) (eng k : Nat) (gs : List Seg) : SameMem s (classifyFull s eng k gs) := by
  unfold classifyFull
  simp
@[simp] theorem sectorPut_canon (s : State) (g : Seg) (x : Nat) (drv : Bool) (hs : Canon s) : Canon (sectorPut s g x drv) := by
  unfold sectorPut
  (repeat' split) <;> simp [hs, -memWrite_epoch]
@[simp] theorem sectorPoisoned_memory (s : State) (r : Req) (eng k : Nat) : SameMem s (sectorPoisoned s r eng k) := by
  unfold sectorPoisoned
  simp
@[simp] theorem formSector_memory (s : State) (r : Req) (eng k sec : Nat) : SameMem s (formSector s r eng k sec) := by
  unfold formSector
  simp
@[simp] theorem sectorRead_memory (s : State) (r : Req) (eng k sec j : Nat) : SameMem s (sectorRead s r eng k sec j) := by
  unfold sectorRead
  simp
@[simp] theorem sectorWritten_memory (s : State) (r : Req) (eng k sec : Nat) : SameMem s (sectorWritten s r eng k sec) := by
  unfold sectorWritten
  simp
@[simp] theorem sectorWrite_canon (s : State) (r : Req) (eng k sec data j : Nat) (hs : Canon s) : Canon (sectorWrite s r eng k sec data j) := by
  unfold sectorWrite
  extract_lets c gs s1 s2 r2
  have h1 : Canon s1 :=
    canon_foldl_of _ (fun s g hs => ⟨_, rfl, sectorPut_canon _ _ _ _ hs⟩) _ _ (SameMem.canon (by simp) hs)
  have h2 : Canon s2 := SameMem.canon (by simp [s2]) h1
  split
  · simp [hs]
  · refine canon_ite hs ?_
    split
    · exact SameMem.canon (sectorWritten_memory _ _ _ _ _) h2
    · exact SameMem.canon (putReq_memory _ _) h2
@[simp] theorem sectorAt_canon (s : State) (r : Req) (eng k sec j : Nat) (hs : Canon s) : Canon (sectorAt s r eng k sec j) := by
  unfold sectorAt
  split <;> simp [hs, -memWrite_epoch]
@[simp] theorem storeAtHome_canon (s : State) (id : Nat) (hs : Canon s) : Canon (storeAtHome s id) := by
  unfold storeAtHome
  (repeat' split) <;> simp [hs, -memWrite_epoch]
@[simp] theorem portWrite_memory (s : State) (r : Req) (g : Seg) (n c q : Nat) : SameMem s (portWrite s r g n c q) := by
  unfold portWrite
  simp
@[simp] theorem windowWrite_canon (s : State) (id : Nat) (hs : Canon s) : Canon (windowWrite s id) := by
  unfold windowWrite
  dsimp only
  (repeat' split) <;> simp [hs, -memWrite_epoch]
@[simp] theorem heldDelivery_memory (s : State) (n i : Nat) : SameMem s (heldDelivery s n i) := by
  unfold heldDelivery
  dsimp only
  (repeat' split) <;> simp
@[simp] theorem deliverHeld_memory (s : State) (n c r : Nat) : SameMem s (deliverHeld s n c r) := by
  unfold deliverHeld
  split <;> simp
@[simp] theorem snapUnperformed_memory (s : State) (c : Copy) : SameMem s (snapUnperformed s c) := by
  unfold snapUnperformed
  split <;> simp
@[simp] theorem finishCopy_memory (s : State) (eng k : Nat) : SameMem s (finishCopy s eng k) := by
  unfold finishCopy
  simp
@[simp] theorem stampFaults_memory (s : State) (eng k : Nat) (v : W64) : SameMem s (stampFaults s eng k v) := by
  unfold stampFaults
  simp
@[simp] theorem copyStamp_canon (s : State) (eng k : Nat) (hs : Canon s) : Canon (copyStamp s eng k) := by
  have hx := copyAddress_memory s eng k (getCopy s eng k) (getCopy s eng k).stampva.toNat .store
  unfold copyStamp
  extract_lets c
  split
  · exact hs
  · split
    · exact SameMem.canon (by simp) hs
    · split
      · exact SameMem.canon (by simp) hs
      · split
        · next h =>
          rw [h] at hx
          exact SameMem.canon (stampFaults_memory _ _ _ _) (hx.canon hs)
        · next x t h =>
          rw [h] at hx
          have ht : Canon t := hx.canon hs
          split
          · exact SameMem.canon (stampFaults_memory _ _ _ _) ht
          · have hf (u : State) (o : Nat) (h : Home) (hu : Canon u) :
                Canon (finishCopy (noteApplied u (.copyEngine eng k) o h 0) eng k) := SameMem.canon (by simp) hu
            split
            · exact canon_ite ht (hf _ _ _ (SameMem.canon (putRegister_memory _ _ _ _ _) ht))
            · exact canon_ite ht (hf _ _ _ (storePiece_canon _ _ _ _ (SameMem.canon (by simp) ht)))
@[simp] theorem spillWrite_canon (s : State) (n c : Nat) (hs : Canon s) : Canon (spillWrite s n c) := by
  unfold spillWrite
  dsimp only
  (repeat' split) <;> simp [hs, -memWrite_epoch]
@[simp] theorem fillArrive_memory (s : State) (n c reg : Nat) : SameMem s (fillArrive s n c reg) := by
  unfold fillArrive
  split <;> simp

end Sys2Proof.Machine

/-! # Queues, stamps and the RAS events and memory -/

namespace Sys2Proof.Machine
open Sys2Proof.Claims

@[simp] theorem lpLoad_memory (s : State) (die asid va : Nat) : SameMem s (lpLoad s die asid va).2 := by
  have hx := lpXlate_memory s die asid va .load 8
  unfold lpLoad
  split
  · next h => rw [h] at hx; exact hx
  · next h => rw [h] at hx; exact hx.trans (readSeg_memory _ _)
@[simp] theorem lpPieces_memory (fuel : Nat) (s : State) (die asid va n off : Nat) (a : Access) :
    SameMem s (lpPieces fuel s die asid va n off a).2 := by
  induction fuel generalizing s va n off with
  | zero => exact ⟨rfl, rfl⟩
  | succ f ih =>
    have hx := lpXlate_memory s die asid va a (min (min n (65536 - va % 65536)) 8)
    unfold lpPieces
    dsimp only
    split
    · exact ⟨rfl, rfl⟩
    · split
      · next h => rw [h] at hx; exact hx
      · next x t h =>
        rw [h] at hx
        split
        · exact hx
        · have hp := hx.trans (ih t (va + min n (65536 - va % 65536)) (n - min n (65536 - va % 65536)) (off + 8 * min n (65536 - va % 65536)))
          split
          · next h' => rw [h'] at hp; exact hp
          · next h' => rw [h'] at hp; exact hp
@[simp] theorem lpNote_memory (s : State) (die asid : Nat) (vas : List Nat) : SameMem s (lpNote s die asid vas) := by
  unfold lpNote
  split <;> simp
@[simp] theorem lpPutPieces_canon (s : State) (die launch : Nat) (gs : List Seg) (x : Nat) (rel : Bool) (hs : Canon s) :
    Canon (lpPutPieces s die launch gs x rel) := by
  unfold lpPutPieces
  simp [hs, -memWrite_epoch]
@[simp] theorem queueHead_memory (s : State) (die q : Nat) : SameMem s (queueHead s die q).2 := by
  unfold queueHead
  extract_lets e i st
  have h2 : SameMem s st.2 := SameMem.trans (lpLoad_memory _ _ _ _) (lpLoad_memory _ _ _ _)
  split
  · exact ⟨rfl, rfl⟩
  · split
    · next k _ _ =>
      have hb := h2.trans (lpBytes_memory st.2 die e.asid (e.base + k % 2 ^ e.log2n * 64) 64)
      split
      · next h => rw [h] at hb; exact hb
      · next h => rw [h] at hb; exact hb
    · exact h2
theorem lpPut_canonical (s : State) (die : Nat) (x : Xlated) (v : Nat) (rel : Bool) (hs : Canon s) : Canon (lpPut s die x v rel) :=
  lpPutPieces_canon _ _ _ _ _ _ hs
theorem lpStore_canonical (s : State) (die asid va v : Nat) (rel : Bool) (hs : Canon s) : Canon (lpStore s die asid va v rel) := by
  have hx := lpXlate_memory s die asid va .store 8
  unfold lpStore
  split
  · next h => rw [h] at hx; exact hx.canon hs
  · next h => rw [h] at hx; exact lpPut_canonical _ _ _ _ _ (hx.canon hs)
@[simp] theorem addrsFail_memory (s : State) (die asid : Nat) (l : List (Nat × Nat × Access)) : SameMem s (addrsFail s die asid l).2 := by
  unfold addrsFail
  refine sameMem_foldl_view Prod.snd _ (fun r a => ?_) l (false, s)
  have hx := lpXlate_memory r.2 die asid a.1 a.2.2 8
  split
  · next h => rw [h] at hx; exact hx
  · next h => rw [h] at hx; exact hx
@[simp] theorem packetErr_memory (s : State) (die asid : Nat) (ws : List Nat) : SameMem s (packetErr s die asid ws).2 := by
  unfold packetErr
  dsimp only
  split_ifs <;> simp
@[simp] theorem waitStamp_memory (s : State) (die asid : Nat) (ws : List Nat) : SameMem s (waitStamp s die asid ws).2 := by
  have hl := lpLoad_memory s die asid (ws.getD 1 0)
  unfold waitStamp
  split
  · next h =>
    rw [h] at hl
    split <;> exact hl
  · next h => rw [h] at hl; exact hl
@[simp] theorem queueStop_canon (s : State) (die q i err : Nat) (hs : Canon s) : Canon (queueStop s die q i err) := by
  unfold queueStop
  extract_lets e s1 s2
  exact SameMem.canon ⟨driverEvent_mem _ _ _ _ _ _ _, driverEvent_epoch _ _ _ _ _ _ _⟩
    (lpStore_canonical _ _ _ _ _ _ (lpStore_canonical s die _ _ _ _ hs))
@[simp] theorem launchClass_memory (s : State) (die asid stream : Nat) : SameMem s (launchClass s die asid stream).2 := by
  have hb := lpBytes_memory s die asid (stream + 4) 4
  unfold launchClass
  split
  · split
    · next h => rw [h] at hb; exact hb
    · next h => rw [h] at hb; exact hb
  · exact ⟨rfl, rfl⟩
@[simp] theorem appendLaunch_memory (s : State) (die q : Nat) (ws : List Nat) : SameMem s (appendLaunch s die q ws) := by
  unfold appendLaunch
  simp
@[simp] theorem packetCopy_canon (s : State) (die q i : Nat) (ws : List Nat) (hs : Canon s) : Canon (packetCopy s die q i ws) := by
  have hb := lpBytes_memory s die (getQueue s q).asid (ws.getD 1 0) 128
  unfold packetCopy
  dsimp only
  split
  · next h => rw [h] at hb; exact SameMem.canon (hb.trans (by simp)) hs
  · next h => rw [h] at hb; exact queueStop_canon _ _ _ _ _ (hb.canon hs)
  · next h => rw [h] at hb; exact hb.canon hs
@[simp] theorem packetSignal_canon (s : State) (die q : Nat) (ws : List Nat) (hs : Canon s) : Canon (packetSignal s die q ws) := by
  have h1 (va x : Nat) (r : Bool) : Canon (lpStore s die (getQueue s q).asid va x r) := lpStore_canonical _ _ _ _ _ _ hs
  unfold packetSignal
  dsimp only
  split
  · exact SameMem.canon (by simp) (h1 (ws.getD 1 0) (ws.getD 2 0) true)
  · exact h1 _ _ _
@[simp] theorem packetAct_canon (s : State) (die q i : Nat) (ws : List Nat) (hs : Canon s) : Canon (packetAct s die q i ws) := by
  unfold packetAct
  dsimp only
  (repeat' split) <;> simp [hs, -memWrite_epoch]
@[simp] theorem takeHead_canon (s : State) (die q i : Nat) (ws : List Nat) (hs : Canon s) : Canon (takeHead s die q i ws) := by
  have hx := lpXlate_memory s die (getQueue s q).asid ((getQueue s q).ctlb + 8) .atomic 8
  unfold takeHead
  extract_lets e
  split
  · next h => rw [h] at hx; exact hx.canon hs
  · next x t h =>
    rw [h] at hx
    extract_lets s1 s2 err
    have h1 : Canon s1 := lpPut_canonical _ _ _ _ _ (hx.canon hs)
    have h2 : Canon s2 := SameMem.canon (by simp [s2]) h1
    have he : Canon err.2 := SameMem.canon (packetErr_memory _ _ _ _) h2
    exact canon_ite (packetAct_canon _ _ _ _ _ he) (queueStop_canon _ _ _ _ _ he)
@[simp] theorem takePacket_canon (s : State) (die q : Nat) (kinds : Nat → Bool) (hs : Canon s) : Canon (takePacket s die q kinds) := by
  have hq := queueHead_memory s die q
  unfold takePacket
  split
  · exact hs
  · split
    · next h => rw [h] at hq; exact hq.canon hs
    · next i ws t h =>
      rw [h] at hq
      have ht : Canon t := hq.canon hs
      split
      · exact hs
      · split
        · split
          · exact ht
          · split
            · exact takeHead_canon _ _ _ _ _ ht
            · exact SameMem.canon (lpNote_memory _ _ _ _) hs
        · split
          · exact SameMem.canon (waitStamp_memory _ _ _ _) ht
          · exact ht
@[simp] theorem sinkStore_canon (s : State) (n buffer j seq : Nat) (c : Chan) (hs : Canon s) : Canon (sinkStore s n buffer j seq c) := by
  have hp := lpPieces_memory 3 s (dieOf n) (getLaunch s c.launch).asid (buffer + j * (prodRing c).z) (prodRing c).z 0 .store
  unfold sinkStore sinkPieces
  split
  · exact hs
  · next v t h =>
    split at h
    · cases h
    · rw [Option.some.inj h] at hp
      exact SameMem.canon (hp.trans (by simp)) hs
  · next gs t h =>
    split at h
    · cases h
    · rw [Option.some.inj h] at hp
      exact lpPutPieces_canon _ _ _ _ _ _ (SameMem.canon (hp.trans (by simp)) hs)
@[simp] theorem sinkDataSlot_canon (s : State) (n k cons : Nat) (hs : Canon s) : Canon (sinkDataSlot s n k cons) := by
  unfold sinkDataSlot
  dsimp only
  (repeat' split) <;> simp [hs, -memWrite_epoch]
@[simp] theorem sinkEndOfStream_memory (s : State) (n k cons : Nat) : SameMem s (sinkEndOfStream s n k cons) := by
  unfold sinkEndOfStream
  split <;> simp
@[simp] theorem writeStamp_canon (s : State) (e : Nat) (hs : Canon s) : Canon (writeStamp s e) := by
  have hx := lpXlate_memory s (homeDie (getLaunch s e)) (getLaunch s e).asid (getLaunch s e).stampVa .store 8
  unfold writeStamp
  extract_lets l die va
  split
  · exact SameMem.canon (noteUnit_memory _ _ _ _ _) hs
  · split
    · next h => rw [h] at hx; exact SameMem.canon (hx.trans (by simp)) hs
    · next x t h =>
      rw [h] at hx
      refine canon_ite hs ?_
      have hp : Canon (lpPut t die x (stampValue l) true) := lpPut_canonical _ _ _ _ _ (hx.canon hs)
      refine SameMem.canon (freeLaunch_memory _ _) (canon_ite (SameMem.canon (by simp) hp) hp)
@[simp] theorem completionStamp_canon (s : State) (e : Nat) (killed : Bool) (hs : Canon s) : Canon (completionStamp s e killed) := by
  unfold completionStamp
  dsimp only
  split_ifs <;> simp [hs, -memWrite_epoch]
@[simp] theorem refresh_memory (s : State) (k : Nat) (splits : Bool) : SameMem s (refresh s k splits) := by
  unfold refresh
  simp
@[simp] theorem poisonUnit_memory (s : State) (pa : Nat) : SameMem s (poisonUnit s pa) := by
  unfold poisonUnit
  simp
@[simp] theorem scrubRead_memory (s : State) (pa : Nat) (found : EccResult) : SameMem s (scrubRead s pa found) := by
  unfold scrubRead
  (repeat' split) <;> simp
@[simp] theorem scrubWriteback_memory (s : State) (pa : Nat) : SameMem s (scrubWriteback s pa) := by
  unfold scrubWriteback
  split <;> simp
@[simp] theorem flitFailed_memory (s : State) (g : Nat) : SameMem s (flitFailed s g) := by
  unfold flitFailed
  simp
@[simp] theorem holdFlits_memory (s : State) (g cycles : Nat) : SameMem s (holdFlits s g cycles) :=
  ⟨rfl, rfl⟩
@[simp] theorem remoteReq_memory (s : State) (dev : Nat) (k : ReqKind) (pa n data : Nat) (dest : Dest) :
    SameMem s (remoteReq s dev k pa n data dest) := by
  unfold remoteReq
  simp
@[simp] theorem remoteBarrier_memory (s : State) (dev pa member : Nat) (v : W64) (tag : Nat) :
    SameMem s (remoteBarrier s dev pa member v tag) := by
  unfold remoteBarrier
  split <;> simp
@[simp] theorem remoteArrives_memory (s : State) (dev : Nat) (o : RemoteOp) : SameMem s (remoteArrives s dev o) := by
  unfold remoteArrives
  split <;> simp
@[simp] theorem flitGood_memory (s : State) (f : Flit) : SameMem s (flitGood s f) := by
  unfold flitGood
  simp
@[simp] theorem linkFlit_memory (s : State) (f : Flit) : SameMem s (linkFlit s f) := by
  unfold linkFlit
  simp
@[simp] theorem warnSample_memory (s : State) (k x : Nat) : SameMem s (warnSample s k x) := by
  unfold warnSample
  simp
@[simp] theorem appendAttempt_memory (s : State) (counter cause stage : Nat) : SameMem s (appendAttempt s counter cause stage) := by
  unfold appendAttempt
  simp
@[simp] theorem failStart_memory (s : State) (cause : Nat) : SameMem s (failStart s cause) := by
  unfold failStart
  simp
@[simp] theorem trip_memory (s : State) (k x : Nat) : SameMem s (trip s k x) := by
  unfold trip
  simp
@[simp] theorem sensorSample_memory (s : State) (k x : Nat) : SameMem s (sensorSample s k x) := by
  unfold sensorSample
  split <;> simp
@[simp] theorem telemetryRefresh_memory (s : State) (words : List Nat) : SameMem s (telemetryRefresh s words) := by
  unfold telemetryRefresh
  simp

end Sys2Proof.Machine

/-! # Boot, the management complex and memory -/

namespace Sys2Proof.Machine
open Sys2Proof.Claims

@[simp] theorem losePower_canon (s : State) (unpowered : Bool) : Canon (losePower s unpowered) :=
  rfl
@[simp] theorem modFlash_memory (s : State) (f : Flash → Flash) : SameMem s (modFlash s f) :=
  ⟨rfl, rfl⟩
@[simp] theorem modBoot_memory (s : State) (f : Boot → Boot) : SameMem s (modBoot s f) :=
  ⟨rfl, rfl⟩
@[simp] theorem noteInterrupted_memory (s : State) : SameMem s (noteInterrupted s) := by
  unfold noteInterrupted
  simp
@[simp] theorem enterSprout_memory (s : State) : SameMem s (enterSprout s) := by
  unfold enterSprout
  simp
@[simp] theorem applyRecords_memory (s : State) : SameMem s (applyRecords s) := by
  unfold applyRecords
  simp
@[simp] theorem beginUnits_memory (s : State) : SameMem s (beginUnits s) :=
  ⟨rfl, rfl⟩
@[simp] theorem startRecords_memory (s : State) (env : StartEnv) : SameMem s (startRecords s env) := by
  unfold startRecords
  simp
@[simp] theorem startFirmware_memory (s : State) (env : StartEnv) : SameMem s (startFirmware s env) := by
  unfold startFirmware
  dsimp only
  (repeat' split) <;> simp
@[simp] theorem startDevice_memory (s : State) (env : StartEnv) : SameMem s (startDevice s env) := by
  unfold startDevice
  simp
@[simp] theorem powerUp_canon (s : State) (env : StartEnv) (hs : Canon s) : Canon (powerUp s env) := by
  unfold powerUp
  split <;> simp [hs, -memWrite_epoch]
@[simp] theorem reduceService_memory (s : State) : SameMem s (reduceService s) := by
  unfold reduceService
  simp
@[simp] theorem fullService_memory (s : State) : SameMem s (fullService s) :=
  ⟨rfl, rfl⟩
@[simp] theorem nextStage_memory (s : State) : SameMem s (nextStage s) := by
  unfold nextStage
  simp
@[simp] theorem qualify_memory (s : State) (k : Nat) : SameMem s (qualify s k) := by
  unfold qualify
  simp
@[simp] theorem clusterTests_memory (s : State) (k : Nat) : SameMem s (clusterTests s k) := by
  unfold clusterTests
  simp
@[simp] theorem clusterStart_memory (s : State) (k : Nat) (pass : Bool) : SameMem s (clusterStart s k pass) := by
  unfold clusterStart
  simp
@[simp] theorem putTraining_memory (s : State) (k : Nat) (r : TrainRec) : SameMem s (putTraining s k r) :=
  ⟨rfl, rfl⟩
@[simp] theorem stackStart_memory (s : State) (k : Nat) (t : Training) : SameMem s (stackStart s k t) := by
  unfold stackStart
  simp
@[simp] theorem stackPairStart_memory (s : State) (p : Nat) (lo hi : Training) : SameMem s (stackPairStart s p lo hi) := by
  unfold stackPairStart
  simp
@[simp] theorem attestationReport_memory (s : State) (n : Nat) (nonce : List Byte) : SameMem s (attestationReport s n nonce) := by
  unfold attestationReport
  split <;> simp
@[simp] theorem reply_memory (s : State) (x : Session) (d : Datagram) (status : W64) (payload : List Byte) :
    SameMem s (reply s x d status payload) :=
  ⟨rfl, rfl⟩
@[simp] theorem hqtXlate_memory (s : State) (n : Nat) (x : Session) (va : Nat) (a : Access) : SameMem s (hqtXlate s n x va a).2 := by
  unfold hqtXlate
  split <;> simp
@[simp] theorem hqtPieces_memory (fuel : Nat) (s : State) (n : Nat) (x : Session) (a : Access) (va len off : Nat) :
    SameMem s (hqtPieces fuel s n x a va len off).2 := by
  induction fuel generalizing s va len off with
  | zero => exact ⟨rfl, rfl⟩
  | succ f ih =>
    have hx := hqtXlate_memory s n x va a
    unfold hqtPieces
    extract_lets k
    split
    · exact ⟨rfl, rfl⟩
    · split
      · exact ⟨rfl, rfl⟩
      · split
        · next h => rw [h] at hx; exact hx
        · next y t h =>
          rw [h] at hx
          split
          · exact hx
          · have hp := hx.trans (ih t (va + k) (len - k) (off + 8 * k))
            split
            · next h' => rw [h'] at hp; exact hp
            · exact hp
@[simp] theorem hqtReady_memory (s : State) (n : Nat) (x : Session) (k : ReqKind) (a : Access) (va len : Nat) :
    SameMem s (hqtReady s n x k a va len).2 := by
  have hp := hqtPieces_memory 3 s n x a va len 0
  unfold hqtReady
  split
  · next h =>
    rw [h] at hp
    dsimp only
    (repeat' split) <;> exact hp
  · exact hp
@[simp] theorem hqtStore_canon (s : State) (x : Session) (data : Nat) (g : Seg) (hs : Canon s) : Canon (hqtStore s x data g) := by
  unfold hqtStore
  split <;> simp [hs, -memWrite_epoch]
@[simp] theorem hqtClose_memory (s : State) (n : Nat) : SameMem s (hqtClose s n) := by
  unfold hqtClose
  simp
@[simp] theorem hqtWatch_memory (s : State) (n : Nat) (x : Session) (d : Datagram) : SameMem s (hqtWatch s n x d).1 := by
  unfold hqtWatch
  dsimp only
  (repeat' split) <;> simp
@[simp] theorem hqtGrant_memory (s : State) (n : Nat) (x : Session) (d : Datagram) : SameMem s (hqtGrant s n x d).1 := by
  unfold hqtGrant
  split <;> simp
@[simp] theorem sproutRead_memory (s : State) (d : Datagram) : SameMem s (sproutRead s d).1 := by
  unfold sproutRead
  dsimp only
  split_ifs <;> simp
@[simp] theorem sproutWrite_memory (s : State) (d : Datagram) : SameMem s (sproutWrite s d).1 := by
  unfold sproutWrite
  dsimp only
  split_ifs <;> simp
@[simp] theorem hqtNote_memory (s : State) (n : Nat) (x : Session) (d : Datagram) : SameMem s (hqtNote s n x d) := by
  unfold hqtNote
  dsimp only
  (repeat' split) <;> simp
@[simp] theorem saveReply_memory (s : State) (n : Nat) (d : Datagram) (r : Reply) : SameMem s (saveReply s n d r) := by
  unfold saveReply
  split <;> simp
theorem hqtRead_canonical (s t : State) (n : Nat) (x : Session) (d : Datagram) (r : Reply) (hs : Canon s)
    (h : hqtRead s n x d = some (t, r)) : Canon t := by
  have hr := hqtReady_memory s n x .load .load d.addr.toNat d.len.toNat
  unfold hqtRead at h
  split at h
  · cases h
  · next he => rw [he] at hr; cases h; exact hr.canon hs
  · next gs u he =>
    rw [he] at hr
    cases h
    exact SameMem.canon (sameMem_foldl_view (Prod.snd : List Byte × State → State) _ (fun a g => readSeg_memory a.2 g) gs ([], u)) (hr.canon hs)
theorem hqtWrite_canonical (s t : State) (n : Nat) (x : Session) (d : Datagram) (r : Reply) (hs : Canon s)
    (h : hqtWrite s n x d = some (t, r)) : Canon t := by
  have hr := hqtReady_memory s n x .store .store d.addr.toNat d.payload.length
  unfold hqtWrite at h
  split at h
  · cases h
  · next he => rw [he] at hr; cases h; exact hr.canon hs
  · next gs u he =>
    rw [he] at hr
    cases h
    exact SameMem.canon (by simp) (canon_foldl_of _ (fun s g hs => ⟨_, rfl, hqtStore_canon s x (numOf d.payload) g hs⟩) gs u (hr.canon hs))
theorem hqtAtomic_canonical (s t : State) (n : Nat) (x : Session) (d : Datagram) (op : AmoOp) (r : Reply) (hs : Canon s)
    (h : hqtAtomic s n x d op = some (t, r)) : Canon t := by
  unfold hqtAtomic at h
  extract_lets va e b at h
  generalize (if op = .cas then 16 else 8) = len at h
  have hr := hqtReady_memory s n x (.atomic op (w64 b) (w64 e)) .atomic va 8
  split at h
  · cases h; exact hs
  · split at h
    · cases h
    · next he => rw [he] at hr; cases h; exact hr.canon hs
    · next gs u he =>
      rw [he] at hr
      split at h
      · next g _ =>
        have hu : Canon (readSeg u g).2 := SameMem.canon (readSeg_memory _ _) (hr.canon hs)
        cases h
        exact SameMem.canon ⟨rfl, rfl⟩ (canon_ite (atomicStore_canon _ g.pa 8 _ hu) hu)
      · cases h
theorem hqtPerform_canonical (s t : State) (n : Nat) (x : Session) (d : Datagram) (r : Reply) (hs : Canon s)
    (h : hqtPerform s n x d = some (t, r)) : Canon t := by
  unfold hqtPerform at h
  dsimp only at h
  split at h
  · split at h
    · obtain rfl : (sproutRead s d).1 = t := congrArg Prod.fst (Option.some.inj h)
      exact SameMem.canon (sproutRead_memory s d) hs
    · exact hqtRead_canonical _ _ _ _ _ _ hs h
  · split at h
    · obtain rfl : (sproutWrite s d).1 = t := congrArg Prod.fst (Option.some.inj h)
      exact SameMem.canon (sproutWrite_memory s d) hs
    · exact hqtWrite_canonical _ _ _ _ _ _ hs h
  · split at h
    · cases h; exact hs
    · exact hqtAtomic_canonical _ _ _ _ _ _ _ hs h
  · split at h
    · cases h; exact hs
    · exact hqtAtomic_canonical _ _ _ _ _ _ _ hs h
  · cases h; exact SameMem.canon (hqtClose_memory _ _) hs
  · obtain rfl : (hqtWatch s n x d).1 = t := congrArg Prod.fst (Option.some.inj h)
    exact SameMem.canon (hqtWatch_memory s n x d) hs
  · obtain rfl : (hqtGrant s n x d).1 = t := congrArg Prod.fst (Option.some.inj h)
    exact SameMem.canon (hqtGrant_memory s n x d) hs
@[simp] theorem hqtPump_canon (fuel : Nat) (s : State) (n : Nat) (hs : Canon s) : Canon (hqtPump fuel s n) := by
  induction fuel generalizing s with
  | zero => exact hs
  | succ f ih =>
    unfold hqtPump
    split
    · split
      · split
        · next t r h =>
          exact ih _ (SameMem.canon (SameMem.trans (saveReply_memory _ _ _ _) (reply_memory _ _ _ _ _)) (hqtPerform_canonical _ _ _ _ _ _ hs h))
        · exact SameMem.canon (hqtNote_memory _ _ _ _) hs
      · exact hs
    · exact hs
@[simp] theorem hqtArrive_canon (s : State) (d : Datagram) (op : Nat) (hs : Canon s) : Canon (hqtArrive s d op) := by
  unfold hqtArrive
  dsimp only
  (repeat' split) <;> simp [hs, -memWrite_epoch]
@[simp] theorem snapdataAck_memory (s : State) (session seq : Nat) (a : Ack) : SameMem s (snapdataAck s session seq a) := by
  unfold snapdataAck
  (repeat' split) <;> simp
@[simp] theorem helloReply_memory (s : State) (h : Hello) (status : W64) (payload : List Byte) :
    SameMem s (helloReply s h status payload) :=
  ⟨rfl, rfl⟩
@[simp] theorem openSession_memory (s : State) (h : Hello) (seed : Nat) : SameMem s (openSession s h seed) := by
  unfold openSession
  simp
@[simp] theorem helloArrive_memory (s : State) (h : Hello) : SameMem s (helloArrive s h) := by
  unfold helloArrive
  split <;> simp

end Sys2Proof.Machine

/-! # The instructions and memory -/

namespace Sys2Proof.Machine
open Sys2Proof.Claims

/-- An outcome that leaves memory as `s` has it. -/
def OutKeeps (s : State) (o : Out) : Prop := ∀ t, o = .next t → SameMem s t
/-- An outcome whose memory is in canonical form. -/
def OutCanon (o : Out) : Prop := ∀ t, o = .next t → Canon t

theorem OutKeeps.canon {s : State} {o : Out} (h : OutKeeps s o) (hs : Canon s) : OutCanon o := fun t ht => (h t ht).canon hs
@[simp] theorem outKeeps_next (s t : State) : OutKeeps s (.next t) ↔ SameMem s t := ⟨fun h => h t rfl, fun h _ hu => by cases hu; exact h⟩
@[simp] theorem outKeeps_ite (s : State) (c : Prop) [Decidable c] (o p : Out) :
    OutKeeps s (if c then o else p) ↔ (c → OutKeeps s o) ∧ (¬ c → OutKeeps s p) := by split <;> simp [*]
theorem outCanon_next {t : State} (h : Canon t) : OutCanon (.next t) := fun _ hu => by cases hu; exact h

/-- What a body leaves of memory, its instruction leaves: completing, waiting or trapping. -/
theorem finish_outKeeps (s u : State) (i : Instr) (r : Ex (State × Flow)) (hu : SameMem u s) (h : Holds (fun r => SameMem u r.1) r) :
    OutKeeps u (finish s i r) := by
  cases r with
  | ok r => exact (outKeeps_next u _).mpr (((holds_ok _ r).mp h).trans (by simp))
  | error e => cases e with
    | trap c v => exact (outKeeps_next u _).mpr (hu.trans (takeTrap_memory _ _ _ _))
    | wait w => exact (outKeeps_next u _).mpr (hu.trans (noteWait_memory _ _))
theorem perform_outKeeps (s : State) (i : Instr) (p : Plan) (body : State → List VReg → Ex (State × Flow))
    (h : ∀ s vs, Holds (fun r => SameMem s r.1) (body s vs)) : OutKeeps s (perform s i p body) := by
  unfold perform
  split
  · exact finish_outKeeps s s i _ ⟨rfl, rfl⟩ (holds_error _ _)
  · next vs _ =>
    have hr := repairOperands_memory s p.ops
    refine finish_outKeeps _ s i _ hr ?_
    rw [holds_bind]
    refine (h _ vs).mono fun r hb => (holds_ok _ _).mpr ?_
    exact (hr.trans hb).trans (by simp)
theorem finish_outCanon (s : State) (i : Instr) (r : Ex (State × Flow)) (hs : Canon s) (h : Holds (fun r => Canon r.1) r) :
    OutCanon (finish s i r) := by
  cases r with
  | ok r => exact outCanon_next (((holds_ok (fun r : State × Flow => Canon r.1) r).mp h))
  | error e => exact (finish_outKeeps s s i _ ⟨rfl, rfl⟩ (holds_error _ _)).canon hs
theorem perform_outCanon (s : State) (i : Instr) (p : Plan) (body : State → List VReg → Ex (State × Flow)) (hs : Canon s)
    (h : ∀ s vs, Canon s → Holds (fun r => Canon r.1) (body s vs)) : OutCanon (perform s i p body) := by
  unfold perform
  split
  · exact finish_outCanon s i _ hs (holds_error _ _)
  · next vs _ =>
    have hr : Canon (repairOperands s p.ops) := SameMem.canon (repairOperands_memory s p.ops) hs
    refine finish_outCanon _ i _ hr ?_
    rw [holds_bind]
    refine (h _ vs hr).mono fun r hb => (holds_ok _ _).mpr ?_
    exact SameMem.canon (by simp) hb
/-- An event keeps the canonical form where its effect does. -/
theorem event_outCanon (s : State) (f : State → State) (hs : Canon s) (h : ∃ t, f s = t ∧ Canon t) : OutCanon (event s f) := by
  obtain ⟨t, ht, hc⟩ := h
  unfold event
  rw [ht]
  exact outCanon_next (canon_ite hs hc)
theorem byDriver_outCanon (drv : Bool) (s : State) (f : State → State) (hs : Canon s) (h : ∃ t, f s = t ∧ Canon t) :
    OutCanon (byDriver drv s f) := by
  obtain ⟨t, ht, hc⟩ := h
  refine event_outCanon s _ hs ⟨_, rfl, ?_⟩
  rw [ht]
  exact canon_ite hc hs
theorem holds_of_forall {α : Type} {P : α → Prop} (x : Ex α) (h : ∀ a, P a) : Holds P x := fun a _ => h a
@[simp] theorem load_outKeeps (i : Instr) (f : I12F) (n : Nat) (s : State) : OutKeeps s (load i f n s) := by
  refine perform_outKeeps _ _ _ _ fun s v => ?_
  simp only [holds_bind]
  refine fun _ _ _ _ _ _ => (viewParity_memory _ _).mono fun t ht => fun _ _ => (loadDest_memory _ _).mono fun d hd => ?_
  exact (holds_ok _ _).mpr ((ht.trans hd).trans (by simp))
@[simp] theorem vload_outKeeps (i : Instr) (f : VF) (ops : List Opnd) (addr : List VReg → Nat → W64) (byLine : Bool) (s : State) :
    OutKeeps s (vload i f ops addr byLine s) := by
  unfold vload
  refine perform_outKeeps _ _ _ _ fun s v => ?_
  simp only [holds_bind]
  refine fun _ _ _ _ _ _ => (viewParity_memory _ _).mono fun t ht => fun _ _ => (loadDest_memory _ _).mono fun d hd => ?_
  exact (holds_ok _ _).mpr ((ht.trans hd).trans (by simp))
@[simp] theorem roundMember_outKeeps (i : Instr) (f : VF) (ops : List Opnd) (g : Nat → Bool → List VReg → Nat → W32 → Rounded) (s : State) :
    OutKeeps s (roundMember i f ops g s) := by
  unfold roundMember
  refine perform_outKeeps _ _ _ _ fun t v => ?_
  simp only [holds_bind]
  refine (roundLanes_memory _ _ _ _).mono fun r hr => (setVec_memory _ _ _).mono fun u hu => ?_
  exact (holds_ok _ _).mpr (hr.trans hu)
@[simp] theorem flagMember_outKeeps (i : Instr) (f : VF) (ops : List Opnd) (g : Bool → List VReg → Nat → Rounded) (s : State) :
    OutKeeps s (flagMember i f ops g s) := by
  unfold flagMember
  refine perform_outKeeps _ _ _ _ fun t v => ?_
  simp only [holds_bind]
  refine (flagLanes_memory _ _ _).mono fun r hr => (setVec_memory _ _ _).mono fun u hu => ?_
  exact (holds_ok _ _).mpr (hr.trans hu)
@[simp] theorem transMember_outKeeps (i : Instr) (f : VF) (op : Trans) (s : State) : OutKeeps s (transMember i f op s) := by
  unfold transMember
  refine perform_outKeeps _ _ _ _ fun t v => ?_
  simp only [holds_bind]
  refine (emptyVec_memory _ _).mono fun u hu => (roundLanes_memory _ _ _ _).mono fun r hr => ?_
  exact (holds_ok _ _).mpr ((hu.trans hr).trans (deliver_memory _ _ _))
theorem markReg_outKeeps (i : Instr) (f : R3F) (full : Bool) (after : State → Nat → State) (s : State)
    (h : ∀ s p, SameMem s (after s p)) : OutKeeps s (markReg i f full after s) := by
  refine perform_outKeeps _ _ _ _ fun t v => ?_
  simp [h]
@[simp] theorem execBc_outKeeps (f : BcF) (s : State) :
    OutKeeps s (execBc f s) :=
  perform_outKeeps _ _ _ _ fun t v => by simp
@[simp] theorem execJmp_outKeeps (f : J25F) (s : State) :
    OutKeeps s (execJmp f s) :=
  perform_outKeeps _ _ _ _ fun t v => by simp
@[simp] theorem execJmpr_outKeeps (f : R3F) (s : State) :
    OutKeeps s (execJmpr f s) :=
  perform_outKeeps _ _ _ _ fun t v => by simp
@[simp] theorem execCall_outKeeps (f : J25F) (s : State) :
    OutKeeps s (execCall f s) :=
  perform_outKeeps _ _ _ _ fun t v => by simp
@[simp] theorem execCallr_outKeeps (f : R3F) (s : State) :
    OutKeeps s (execCallr f s) :=
  perform_outKeeps _ _ _ _ fun t v => by simp
@[simp] theorem execRet_outKeeps (f : R3F) (s : State) :
    OutKeeps s (execRet f s) :=
  perform_outKeeps _ _ _ _ fun t v => by simp
@[simp] theorem execWdrain_outKeeps (f : R3F) (s : State) :
    OutKeeps s (execWdrain f s) :=
  perform_outKeeps _ _ _ _ fun t v => by simp
@[simp] theorem execLoop_outKeeps (f : LpF) (s : State) :
    OutKeeps s (execLoop f s) :=
  perform_outKeeps _ _ _ _ fun t v => by simp
@[simp] theorem execLoopi_outKeeps (f : LxF) (s : State) :
    OutKeeps s (execLoopi f s) :=
  perform_outKeeps _ _ _ _ fun t v => by simp
@[simp] theorem execLd8_outKeeps (f : I12F) (s : State) :
    OutKeeps s (execLd8 f s) := by
  unfold execLd8
  simp
@[simp] theorem execLd16_outKeeps (f : I12F) (s : State) :
    OutKeeps s (execLd16 f s) := by
  unfold execLd16
  simp
@[simp] theorem execLd32_outKeeps (f : I12F) (s : State) :
    OutKeeps s (execLd32 f s) := by
  unfold execLd32
  simp
@[simp] theorem execLd64_outKeeps (f : I12F) (s : State) :
    OutKeeps s (execLd64 f s) := by
  unfold execLd64
  simp
@[simp] theorem store_outKeeps (i : Instr) (f : I12F) (n : Nat) (s : State) :
    OutKeeps s (store i f n s) :=
  perform_outKeeps _ _ _ _ fun t v => by simp
@[simp] theorem execSt8_outKeeps (f : I12F) (s : State) :
    OutKeeps s (execSt8 f s) := by
  unfold execSt8
  simp
@[simp] theorem execSt16_outKeeps (f : I12F) (s : State) :
    OutKeeps s (execSt16 f s) := by
  unfold execSt16
  simp
@[simp] theorem execSt32_outKeeps (f : I12F) (s : State) :
    OutKeeps s (execSt32 f s) := by
  unfold execSt32
  simp
@[simp] theorem execSt64_outKeeps (f : I12F) (s : State) :
    OutKeeps s (execSt64 f s) := by
  unfold execSt64
  simp
@[simp] theorem amo_outKeeps (i : Instr) (f : AmoF) (op : AmoOp) (s : State) :
    OutKeeps s (amo i f op s) :=
  perform_outKeeps _ _ _ _ fun t v => by simp
@[simp] theorem execAmoadd_outKeeps (f : AmoF) (s : State) :
    OutKeeps s (execAmoadd f s) := by
  unfold execAmoadd
  simp
@[simp] theorem execAmominS_outKeeps (f : AmoF) (s : State) :
    OutKeeps s (execAmominS f s) := by
  unfold execAmominS
  simp
@[simp] theorem execAmominZ_outKeeps (f : AmoF) (s : State) :
    OutKeeps s (execAmominZ f s) := by
  unfold execAmominZ
  simp
@[simp] theorem execAmomaxS_outKeeps (f : AmoF) (s : State) :
    OutKeeps s (execAmomaxS f s) := by
  unfold execAmomaxS
  simp
@[simp] theorem execAmomaxZ_outKeeps (f : AmoF) (s : State) :
    OutKeeps s (execAmomaxZ f s) := by
  unfold execAmomaxZ
  simp
@[simp] theorem execAmoand_outKeeps (f : AmoF) (s : State) :
    OutKeeps s (execAmoand f s) := by
  unfold execAmoand
  simp
@[simp] theorem execAmoor_outKeeps (f : AmoF) (s : State) :
    OutKeeps s (execAmoor f s) := by
  unfold execAmoor
  simp
@[simp] theorem execAmoxchg_outKeeps (f : AmoF) (s : State) :
    OutKeeps s (execAmoxchg f s) := by
  unfold execAmoxchg
  simp
@[simp] theorem execAmosnap_outKeeps (f : AmoF) (s : State) :
    OutKeeps s (execAmosnap f s) := by
  unfold execAmosnap
  simp
@[simp] theorem execAmocas_outKeeps (f : AmoF) (s : State) :
    OutKeeps s (execAmocas f s) := by
  unfold execAmocas
  simp
@[simp] theorem fenceNear_outKeeps (i : Instr) (c : Scope) (s : State) :
    OutKeeps s (fenceNear i c s) :=
  perform_outKeeps _ _ _ _ fun t v => by simp
@[simp] theorem fenceFar_outKeeps (i : Instr) (c : Scope) (s : State) :
    OutKeeps s (fenceFar i c s) := by
  unfold fenceFar
  refine perform_outKeeps _ _ _ _ fun t v => ?_
  dsimp only
  (repeat' split) <;> simp
@[simp] theorem execFenceCore_outKeeps (f : R3F) (s : State) :
    OutKeeps s (execFenceCore f s) := by
  unfold execFenceCore
  simp
@[simp] theorem execFenceCluster_outKeeps (f : R3F) (s : State) :
    OutKeeps s (execFenceCluster f s) := by
  unfold execFenceCluster
  simp
@[simp] theorem execFenceDevice_outKeeps (f : R3F) (s : State) :
    OutKeeps s (execFenceDevice f s) := by
  unfold execFenceDevice
  simp
@[simp] theorem execFenceDomain_outKeeps (f : R3F) (s : State) :
    OutKeeps s (execFenceDomain f s) := by
  unfold execFenceDomain
  simp
@[simp] theorem execFenceEng_outKeeps (f : R3F) (s : State) :
    OutKeeps s (execFenceEng f s) :=
  perform_outKeeps _ _ _ _ fun t v => by simp
@[simp] theorem execMarm_outKeeps (f : R3F) (s : State) :
    OutKeeps s (execMarm f s) :=
  perform_outKeeps _ _ _ _ fun t v => by simp
@[simp] theorem mwait_outKeeps (i : Instr) (f : R3F) (acq : Bool) (s : State) :
    OutKeeps s (mwait i f acq s) := by
  unfold mwait
  refine perform_outKeeps _ _ _ _ fun t v => ?_
  dsimp only
  (repeat' split) <;> simp
@[simp] theorem execMwait_outKeeps (f : R3F) (s : State) :
    OutKeeps s (execMwait f s) := by
  unfold execMwait
  simp
@[simp] theorem execMwaitAcq_outKeeps (f : R3F) (s : State) :
    OutKeeps s (execMwaitAcq f s) := by
  unfold execMwaitAcq
  simp
@[simp] theorem execLdv_outKeeps (f : VF) (s : State) :
    OutKeeps s (execLdv f s) := by
  unfold execLdv
  simp
@[simp] theorem execLdvs_outKeeps (f : VF) (s : State) :
    OutKeeps s (execLdvs f s) := by
  unfold execLdvs
  simp
@[simp] theorem execGather_outKeeps (f : VF) (s : State) :
    OutKeeps s (execGather f s) := by
  unfold execGather
  simp
@[simp] theorem execStv_outKeeps (f : VF) (s : State) :
    OutKeeps s (execStv f s) :=
  perform_outKeeps _ _ _ _ fun t v => by simp
@[simp] theorem execScatter_outKeeps (f : VF) (s : State) :
    OutKeeps s (execScatter f s) :=
  perform_outKeeps _ _ _ _ fun t v => by simp
@[simp] theorem execFinit_outKeeps (f : R3F) (s : State) :
    OutKeeps s (execFinit f s) :=
  perform_outKeeps _ _ _ _ fun t v => by simp
@[simp] theorem execFlen_outKeeps (f : R3F) (s : State) :
    OutKeeps s (execFlen f s) :=
  perform_outKeeps _ _ _ _ fun t v => by simp
@[simp] theorem execFprobe_outKeeps (f : R3F) (s : State) :
    OutKeeps s (execFprobe f s) :=
  perform_outKeeps _ _ _ _ fun t v => by simp
@[simp] theorem execFdel_outKeeps (f : R3F) (s : State) :
    OutKeeps s (execFdel f s) :=
  perform_outKeeps _ _ _ _ fun t v => by simp
@[simp] theorem execFpack_outKeeps (f : R3F) (s : State) :
    OutKeeps s (execFpack f s) :=
  perform_outKeeps _ _ _ _ fun t v => by simp
@[simp] theorem merge1_outKeeps (i : Instr) (f : R3F) (op : Nat) (s : State) :
    OutKeeps s (merge1 i f op s) :=
  perform_outKeeps _ _ _ _ fun t v => by simp
@[simp] theorem execFins_outKeeps (f : R3F) (s : State) :
    OutKeeps s (execFins f s) := by
  unfold execFins
  simp
@[simp] theorem execFcmb_outKeeps (op : BitVec 3) (f : R3F) (s : State) :
    OutKeeps s (execFcmb op f s) := by
  unfold execFcmb
  simp
@[simp] theorem execFmrgv_outKeeps (f : EF) (s : State) :
    OutKeeps s (execFmrgv f s) :=
  perform_outKeeps _ _ _ _ fun t v => by simp
@[simp] theorem execFprobev_outKeeps (f : EF) (s : State) :
    OutKeeps s (execFprobev f s) :=
  perform_outKeeps _ _ _ _ fun t v => by simp
@[simp] theorem scanQueue_outKeeps (f : EF) (s : State) :
    OutKeeps s (scanQueue f s) :=
  perform_outKeeps _ _ _ _ fun t v => by simp
@[simp] theorem scanMemory_outKeeps (f : EF) (s : State) :
    OutKeeps s (scanMemory f s) :=
  perform_outKeeps _ _ _ _ fun t v => by simp
@[simp] theorem execFscan_outKeeps (f : EF) (s : State) :
    OutKeeps s (execFscan f s) := by
  unfold execFscan
  simp
@[simp] theorem execFunion_outKeeps (f : EF) (s : State) :
    OutKeeps s (execFunion f s) :=
  perform_outKeeps _ _ _ _ fun t v => by simp
@[simp] theorem moveMember_outKeeps (i : Instr) (f : VF) (ops : List Opnd) (g : List VReg → Nat → W32) (s : State) :
    OutKeeps s (moveMember i f ops g s) := by
  unfold moveMember
  refine perform_outKeeps _ _ _ _ fun t v => ?_
  simp
@[simp] theorem arith2_outKeeps (i : Instr) (f : VF) (fp : Nat → FVal → FVal → FVal) (int : W32 → W32 → W32) (s : State) :
    OutKeeps s (arith2 i f fp int s) := by
  unfold arith2
  simp
@[simp] theorem execVadd_outKeeps (f : VF) (s : State) :
    OutKeeps s (execVadd f s) := by
  unfold execVadd
  simp
@[simp] theorem execVsub_outKeeps (f : VF) (s : State) :
    OutKeeps s (execVsub f s) := by
  unfold execVsub
  simp
@[simp] theorem execVmul_outKeeps (f : VF) (s : State) :
    OutKeeps s (execVmul f s) := by
  unfold execVmul
  simp
@[simp] theorem execVfma_outKeeps (f : VF) (s : State) :
    OutKeeps s (execVfma f s) := by
  unfold execVfma
  simp
@[simp] theorem pick2_outKeeps (i : Instr) (f : VF) (max : Bool) (s : State) :
    OutKeeps s (pick2 i f max s) := by
  unfold pick2
  simp
@[simp] theorem execVmin_outKeeps (f : VF) (s : State) :
    OutKeeps s (execVmin f s) := by
  unfold execVmin
  simp
@[simp] theorem execVmax_outKeeps (f : VF) (s : State) :
    OutKeeps s (execVmax f s) := by
  unfold execVmax
  simp
@[simp] theorem execVabs_outKeeps (f : VF) (s : State) :
    OutKeeps s (execVabs f s) := by
  unfold execVabs
  simp
@[simp] theorem execVneg_outKeeps (f : VF) (s : State) :
    OutKeeps s (execVneg f s) := by
  unfold execVneg
  simp
@[simp] theorem bit2_outKeeps (i : Instr) (f : VF) (op : W32 → W32 → W32) (s : State) :
    OutKeeps s (bit2 i f op s) := by
  unfold bit2
  simp
@[simp] theorem execVand_outKeeps (f : VF) (s : State) :
    OutKeeps s (execVand f s) := by
  unfold execVand
  simp
@[simp] theorem execVor_outKeeps (f : VF) (s : State) :
    OutKeeps s (execVor f s) := by
  unfold execVor
  simp
@[simp] theorem execVxor_outKeeps (f : VF) (s : State) :
    OutKeeps s (execVxor f s) := by
  unfold execVxor
  simp
@[simp] theorem shiftV_outKeeps (i : Instr) (f : VF) (op : W32 → Nat → W32) (s : State) :
    OutKeeps s (shiftV i f op s) := by
  unfold shiftV
  simp
@[simp] theorem execVshl_outKeeps (f : VF) (s : State) :
    OutKeeps s (execVshl f s) := by
  unfold execVshl
  simp
@[simp] theorem execVshr_outKeeps (f : VF) (s : State) :
    OutKeeps s (execVshr f s) := by
  unfold execVshr
  simp
@[simp] theorem execVsra_outKeeps (f : VF) (s : State) :
    OutKeeps s (execVsra f s) := by
  unfold execVsra
  simp
@[simp] theorem execVsel_outKeeps (f : VF) (s : State) :
    OutKeeps s (execVsel f s) := by
  unfold execVsel
  refine perform_outKeeps _ _ _ _ fun t v => ?_
  simp
@[simp] theorem execVmov_outKeeps (f : VF) (s : State) :
    OutKeeps s (execVmov f s) := by
  unfold execVmov
  simp
@[simp] theorem execVsplat_outKeeps (f : VF) (s : State) :
    OutKeeps s (execVsplat f s) := by
  unfold execVsplat
  simp
@[simp] theorem execVbcast_outKeeps (f : VF) (s : State) :
    OutKeeps s (execVbcast f s) := by
  unfold execVbcast
  simp
@[simp] theorem execVperm_outKeeps (f : VF) (s : State) :
    OutKeeps s (execVperm f s) := by
  unfold execVperm
  simp
@[simp] theorem execVins_outKeeps (f : VF) (s : State) :
    OutKeeps s (execVins f s) :=
  perform_outKeeps _ _ _ _ fun t v => by simp
@[simp] theorem execVext_outKeeps (f : VF) (s : State) :
    OutKeeps s (execVext f s) :=
  perform_outKeeps _ _ _ _ fun t v => by simp
@[simp] theorem execVscan_outKeeps (f : VF) (s : State) :
    OutKeeps s (execVscan f s) := by
  unfold execVscan
  simp
@[simp] theorem execVexp2_outKeeps (f : VF) (s : State) :
    OutKeeps s (execVexp2 f s) := by
  unfold execVexp2
  simp
@[simp] theorem execVrcp_outKeeps (f : VF) (s : State) :
    OutKeeps s (execVrcp f s) := by
  unfold execVrcp
  simp
@[simp] theorem execVrsq_outKeeps (f : VF) (s : State) :
    OutKeeps s (execVrsq f s) := by
  unfold execVrsq
  simp
@[simp] theorem execVlog2_outKeeps (f : VF) (s : State) :
    OutKeeps s (execVlog2 f s) := by
  unfold execVlog2
  simp
@[simp] theorem predP_outKeeps (i : Instr) (f : VF) (two : Bool) (op : W64 → W64 → W64) (s : State) :
    OutKeeps s (predP i f two op s) :=
  perform_outKeeps _ _ _ _ fun t v => by simp
@[simp] theorem execPand_outKeeps (f : VF) (s : State) :
    OutKeeps s (execPand f s) := by
  unfold execPand
  simp
@[simp] theorem execPor_outKeeps (f : VF) (s : State) :
    OutKeeps s (execPor f s) := by
  unfold execPor
  simp
@[simp] theorem execPnot_outKeeps (f : VF) (s : State) :
    OutKeeps s (execPnot f s) := by
  unfold execPnot
  simp
@[simp] theorem predS_outKeeps (i : Instr) (f : VF) (op : W64 → W64) (s : State) :
    OutKeeps s (predS i f op s) :=
  perform_outKeeps _ _ _ _ fun t v => by simp
@[simp] theorem execPcnt_outKeeps (f : VF) (s : State) :
    OutKeeps s (execPcnt f s) := by
  unfold execPcnt
  simp
@[simp] theorem execPfirst_outKeeps (f : VF) (s : State) :
    OutKeeps s (execPfirst f s) := by
  unfold execPfirst
  simp
@[simp] theorem execVdqmx_outKeeps (f : VF) (s : State) :
    OutKeeps s (execVdqmx f s) := by
  unfold execVdqmx
  simp
@[simp] theorem execVlut_outKeeps (f : VF) (s : State) :
    OutKeeps s (execVlut f s) := by
  unfold execVlut
  refine perform_outKeeps _ _ _ _ fun t v => ?_
  simp
@[simp] theorem execMldb_outKeeps (f : EF) (s : State) :
    OutKeeps s (execMldb f s) :=
  perform_outKeeps _ _ _ _ fun t v => by simp
@[simp] theorem execMldm_outKeeps (f : EF) (s : State) :
    OutKeeps s (execMldm f s) :=
  perform_outKeeps _ _ _ _ fun t v => by simp
@[simp] theorem execMclr_outKeeps (f : EF) (s : State) :
    OutKeeps s (execMclr f s) :=
  perform_outKeeps _ _ _ _ fun t v => by simp
@[simp] theorem execTdquery_outKeeps (f : EF) (s : State) :
    OutKeeps s (execTdquery f s) :=
  perform_outKeeps _ _ _ _ fun t v => by simp
@[simp] theorem execCpystat_outKeeps (f : EF) (s : State) :
    OutKeeps s (execCpystat f s) :=
  perform_outKeeps _ _ _ _ fun t v => by simp
@[simp] theorem execCpycancel_outKeeps (f : EF) (s : State) :
    OutKeeps s (execCpycancel f s) :=
  perform_outKeeps _ _ _ _ fun t v => by simp
@[simp] theorem execChpush_outKeeps (f : EF) (s : State) :
    OutKeeps s (execChpush f s) :=
  perform_outKeeps _ _ _ _ fun t v => by simp
@[simp] theorem execChmark_outKeeps (f : EF) (s : State) :
    OutKeeps s (execChmark f s) :=
  perform_outKeeps _ _ _ _ fun t v => by simp
@[simp] theorem execChpop_outKeeps (f : EF) (s : State) :
    OutKeeps s (execChpop f s) :=
  perform_outKeeps _ _ _ _ fun t v => by simp
@[simp] theorem execChpeek_outKeeps (f : EF) (s : State) :
    OutKeeps s (execChpeek f s) :=
  perform_outKeeps _ _ _ _ fun t v => by simp
@[simp] theorem execChstat_outKeeps (f : EF) (s : State) :
    OutKeeps s (execChstat f s) :=
  perform_outKeeps _ _ _ _ fun t v => by simp
@[simp] theorem execCbload_outKeeps (f : EF) (s : State) :
    OutKeeps s (execCbload f s) :=
  perform_outKeeps _ _ _ _ fun t v => by simp
@[simp] theorem execYield_outKeeps (f : R3F) (s : State) :
    OutKeeps s (execYield f s) :=
  perform_outKeeps _ _ _ _ fun t v => by simp
@[simp] theorem execMfsr_outKeeps (f : SysF) (s : State) :
    OutKeeps s (execMfsr f s) :=
  perform_outKeeps _ _ _ _ fun t v => by simp
@[simp] theorem execTrap_outKeeps (f : I12F) (s : State) :
    OutKeeps s (execTrap f s) :=
  perform_outKeeps _ _ _ _ fun t v => by simp
@[simp] theorem execEret_outKeeps (f : R3F) (s : State) :
    OutKeeps s (execEret f s) :=
  perform_outKeeps _ _ _ _ fun t v => by simp
@[simp] theorem execNop_outKeeps (f : R3F) (s : State) :
    OutKeeps s (execNop f s) :=
  perform_outKeeps _ _ _ _ fun t v => by simp
@[simp] theorem execHalt_outKeeps (f : R3F) (s : State) :
    OutKeeps s (execHalt f s) :=
  perform_outKeeps _ _ _ _ fun t v => by simp
@[simp] theorem alu3_outKeeps (i : Instr) (f : R3F) (op : W64 → W64 → W64) (s : State) :
    OutKeeps s (alu3 i f op s) :=
  perform_outKeeps _ _ _ _ fun t v => by simp
@[simp] theorem alu2_outKeeps (i : Instr) (f : R3F) (op : W64 → W64) (s : State) :
    OutKeeps s (alu2 i f op s) :=
  perform_outKeeps _ _ _ _ fun t v => by simp
@[simp] theorem aluI_outKeeps (i : Instr) (f : I12F) (op : W64 → W64) (s : State) :
    OutKeeps s (aluI i f op s) :=
  perform_outKeeps _ _ _ _ fun t v => by simp
@[simp] theorem aluDiv_outKeeps (i : Instr) (f : R3F) (op : W64 → W64 → W64) (s : State) :
    OutKeeps s (aluDiv i f op s) :=
  perform_outKeeps _ _ _ _ fun t v => by simp
@[simp] theorem execAdd_outKeeps (f : R3F) (s : State) :
    OutKeeps s (execAdd f s) := by
  unfold execAdd
  simp
@[simp] theorem execSub_outKeeps (f : R3F) (s : State) :
    OutKeeps s (execSub f s) := by
  unfold execSub
  simp
@[simp] theorem execAnd_outKeeps (f : R3F) (s : State) :
    OutKeeps s (execAnd f s) := by
  unfold execAnd
  simp
@[simp] theorem execAndn_outKeeps (f : R3F) (s : State) :
    OutKeeps s (execAndn f s) := by
  unfold execAndn
  simp
@[simp] theorem execOr_outKeeps (f : R3F) (s : State) :
    OutKeeps s (execOr f s) := by
  unfold execOr
  simp
@[simp] theorem execXor_outKeeps (f : R3F) (s : State) :
    OutKeeps s (execXor f s) := by
  unfold execXor
  simp
@[simp] theorem execShl_outKeeps (f : R3F) (s : State) :
    OutKeeps s (execShl f s) := by
  unfold execShl
  simp
@[simp] theorem execShr_outKeeps (f : R3F) (s : State) :
    OutKeeps s (execShr f s) := by
  unfold execShr
  simp
@[simp] theorem execSra_outKeeps (f : R3F) (s : State) :
    OutKeeps s (execSra f s) := by
  unfold execSra
  simp
@[simp] theorem execClz_outKeeps (f : R3F) (s : State) :
    OutKeeps s (execClz f s) := by
  unfold execClz
  simp
@[simp] theorem execPopc_outKeeps (f : R3F) (s : State) :
    OutKeeps s (execPopc f s) := by
  unfold execPopc
  simp
@[simp] theorem execMul_outKeeps (f : R3F) (s : State) :
    OutKeeps s (execMul f s) := by
  unfold execMul
  simp
@[simp] theorem execMulhS64_outKeeps (f : R3F) (s : State) :
    OutKeeps s (execMulhS64 f s) := by
  unfold execMulhS64
  simp
@[simp] theorem execMulhZ64_outKeeps (f : R3F) (s : State) :
    OutKeeps s (execMulhZ64 f s) := by
  unfold execMulhZ64
  simp
@[simp] theorem execDivS64_outKeeps (f : R3F) (s : State) :
    OutKeeps s (execDivS64 f s) := by
  unfold execDivS64
  simp
@[simp] theorem execDivZ64_outKeeps (f : R3F) (s : State) :
    OutKeeps s (execDivZ64 f s) := by
  unfold execDivZ64
  simp
@[simp] theorem execRemS64_outKeeps (f : R3F) (s : State) :
    OutKeeps s (execRemS64 f s) := by
  unfold execRemS64
  simp
@[simp] theorem execRemZ64_outKeeps (f : R3F) (s : State) :
    OutKeeps s (execRemZ64 f s) := by
  unfold execRemZ64
  simp
@[simp] theorem execMinS64_outKeeps (f : R3F) (s : State) :
    OutKeeps s (execMinS64 f s) := by
  unfold execMinS64
  simp
@[simp] theorem execMinZ64_outKeeps (f : R3F) (s : State) :
    OutKeeps s (execMinZ64 f s) := by
  unfold execMinZ64
  simp
@[simp] theorem execMaxS64_outKeeps (f : R3F) (s : State) :
    OutKeeps s (execMaxS64 f s) := by
  unfold execMaxS64
  simp
@[simp] theorem execMaxZ64_outKeeps (f : R3F) (s : State) :
    OutKeeps s (execMaxZ64 f s) := by
  unfold execMaxZ64
  simp
@[simp] theorem execSltS64_outKeeps (f : R3F) (s : State) :
    OutKeeps s (execSltS64 f s) := by
  unfold execSltS64
  simp
@[simp] theorem execSltZ64_outKeeps (f : R3F) (s : State) :
    OutKeeps s (execSltZ64 f s) := by
  unfold execSltZ64
  simp
@[simp] theorem execSltz_outKeeps (f : R3F) (s : State) :
    OutKeeps s (execSltz f s) := by
  unfold execSltz
  simp
@[simp] theorem execSel_outKeeps (f : R3F) (s : State) :
    OutKeeps s (execSel f s) :=
  perform_outKeeps _ _ _ _ fun t v => by simp
@[simp] theorem execLea_outKeeps (sc : BitVec 2) (f : R3F) (s : State) :
    OutKeeps s (execLea sc f s) := by
  unfold execLea
  simp
@[simp] theorem execTestfe_outKeeps (f : R3F) (s : State) :
    OutKeeps s (execTestfe f s) := by
  unfold execTestfe
  refine perform_outKeeps _ _ _ _ fun t v => ?_
  simp
@[simp] theorem execAddi_outKeeps (f : I12F) (s : State) :
    OutKeeps s (execAddi f s) := by
  unfold execAddi
  simp
@[simp] theorem execAndi_outKeeps (f : I12F) (s : State) :
    OutKeeps s (execAndi f s) := by
  unfold execAndi
  simp
@[simp] theorem execOri_outKeeps (f : I12F) (s : State) :
    OutKeeps s (execOri f s) := by
  unfold execOri
  simp
@[simp] theorem execXori_outKeeps (f : I12F) (s : State) :
    OutKeeps s (execXori f s) := by
  unfold execXori
  simp
@[simp] theorem execShli_outKeeps (f : I12F) (s : State) :
    OutKeeps s (execShli f s) := by
  unfold execShli
  simp
@[simp] theorem execShri_outKeeps (f : I12F) (s : State) :
    OutKeeps s (execShri f s) := by
  unfold execShri
  simp
@[simp] theorem execSrai_outKeeps (f : I12F) (s : State) :
    OutKeeps s (execSrai f s) := by
  unfold execSrai
  simp
@[simp] theorem execSlti_outKeeps (f : I12F) (s : State) :
    OutKeeps s (execSlti f s) := by
  unfold execSlti
  simp
@[simp] theorem execLui_outKeeps (f : U19F) (s : State) :
    OutKeeps s (execLui f s) :=
  perform_outKeeps _ _ _ _ fun t v => by simp
@[simp] theorem execLi_outKeeps (f : LF) (s : State) :
    OutKeeps s (execLi f s) :=
  perform_outKeeps _ _ _ _ fun t v => by simp
@[simp] theorem execLih_outKeeps (f : LF) (s : State) :
    OutKeeps s (execLih f s) :=
  perform_outKeeps _ _ _ _ fun t v => by simp
@[simp] theorem execAddl_outKeeps (f : LF) (s : State) :
    OutKeeps s (execAddl f s) :=
  perform_outKeeps _ _ _ _ fun t v => by simp
@[simp] theorem execSetf_outKeeps (f : R3F) (s : State) : OutKeeps s (execSetf f s) :=
  markReg_outKeeps _ _ _ _ _ fun s p => by simp
@[simp] theorem execSete_outKeeps (f : R3F) (s : State) : OutKeeps s (execSete f s) :=
  markReg_outKeeps _ _ _ _ _ fun s p => by
    split <;> simp
@[simp] theorem execBarInit_outKeeps (f : R3F) (s : State) : OutKeeps s (execBarInit f s) := by
  refine perform_outKeeps _ _ _ _ fun t v => ?_
  dsimp only
  split
  · simp
  · rw [holds_bind]
    refine holds_of_forall _ fun b => ?_
    (repeat' split) <;> simp
@[simp] theorem execBarArr_outKeeps (f : R3F) (s : State) : OutKeeps s (execBarArr f s) := by
  refine perform_outKeeps _ _ _ _ fun t v => ?_
  dsimp only
  split
  · simp
  · rw [holds_bind]
    refine holds_of_forall _ fun b => ?_
    (repeat' split)
    · simp
    · simp
    · simp
    · simp
    · simp
    · simp
    · simp
    · rw [holds_bind]
      refine (emptyReg_memory _ _).mono fun u hu => (holds_ok _ _).mpr ?_
      exact SameMem.trans (by simp) (hu.trans (deliver_memory _ _ _))
@[simp] theorem execBarWait_outKeeps (f : R3F) (s : State) : OutKeeps s (execBarWait f s) := by
  refine perform_outKeeps _ _ _ _ fun t v => ?_
  dsimp only
  split
  · simp
  · rw [holds_bind]
    refine holds_of_forall _ fun b => ?_
    (repeat' split) <;> simp
@[simp] theorem execQpush_outKeeps (f : VF) (s : State) : OutKeeps s (execQpush f s) := by
  unfold execQpush
  refine perform_outKeeps _ _ _ _ fun t v => ?_
  split
  · simp
  · rw [holds_bind]
    exact holds_of_forall _ fun _ => by simp
@[simp] theorem execVcmp_outKeeps (f : VF) (s : State) : OutKeeps s (execVcmp f s) := by
  unfold execVcmp
  refine perform_outKeeps _ _ _ _ fun t v => ?_
  simp only [holds_bind]
  refine (flagLanes_memory _ _ _).mono fun r hr => (setPred_memory _ _ _).mono fun u hu => ?_
  exact (holds_ok _ _).mpr (hr.trans hu)
@[simp] theorem execVred_outKeeps (f : VF) (s : State) : OutKeeps s (execVred f s) := by
  unfold execVred
  refine perform_outKeeps _ _ _ _ fun t v => ?_
  simp only [holds_bind]
  refine (raiseFlags_memory _ _).mono fun r hr => (setReg_memory _ _ _).mono fun u hu => ?_
  exact (holds_ok _ _).mpr (hr.trans (SameMem.trans (by simp) hu))
@[simp] theorem execVhist_outKeeps (f : VF) (s : State) : OutKeeps s (execVhist f s) := by
  unfold execVhist
  refine perform_outKeeps _ _ _ _ fun t v => ?_
  refine (holds_ok _ _).mpr (sameMem_foldl _ (fun u i => ?_) _ _)
  split <;> simp
@[simp] theorem execVcvt_outKeeps (f : VF) (s : State) : OutKeeps s (execVcvt f s) := by
  unfold execVcvt
  refine perform_outKeeps _ _ _ _ fun t v => ?_
  simp only [holds_bind]
  refine (roundLanes_memory _ _ _ _).mono fun r hr => (setVec_memory _ _ _).mono fun u hu => ?_
  exact (holds_ok _ _).mpr (hr.trans hu)
@[simp] theorem execVqmx_outKeeps (f : VF) (s : State) : OutKeeps s (execVqmx f s) := by
  unfold execVqmx
  refine perform_outKeeps _ _ _ _ fun t v => ?_
  split
  · simp
  · simp only [holds_bind]
    refine (raiseFlags_memory _ _).mono fun r hr => (setVec_memory _ _ _).mono fun u hu => (setVec_memory _ _ _).mono fun w hw => ?_
    exact (holds_ok _ _).mpr (hr.trans (SameMem.trans (stepIn_memory _ _ _) (hu.trans hw)))
@[simp] theorem execMma_outKeeps (f : EF) (s : State) : OutKeeps s (execMma f s) := by
  refine perform_outKeeps _ _ _ _ fun t v => ?_
  simp only [holds_bind]
  refine holds_of_forall _ fun _ => holds_of_forall _ fun _ => holds_of_forall _ fun _ => ?_
  refine (macroParity_memory _ _ _).mono fun t ht => (enterTask_memory _ _ _ _ _ _).mono fun u hu => ?_
  exact (holds_ok _ _).mpr (ht.trans hu)
@[simp] theorem execMmaS_outKeeps (f : EF) (s : State) : OutKeeps s (execMmaS f s) := by
  refine perform_outKeeps _ _ _ _ fun t v => ?_
  simp only [holds_bind]
  refine holds_of_forall _ fun _ => holds_of_forall _ fun _ => holds_of_forall _ fun _ => ?_
  split
  · simp
  · simp only [holds_bind]
    refine holds_of_forall _ fun _ => ?_
    refine (macroParity_memory _ _ _).mono fun t ht => (enterTask_memory _ _ _ _ _ _).mono fun u hu => ?_
    exact (holds_ok _ _).mpr (ht.trans hu)
@[simp] theorem execMrd_outKeeps (f : EF) (s : State) : OutKeeps s (execMrd f s) := by
  refine perform_outKeeps _ _ _ _ fun t v => ?_
  simp only [holds_bind]
  refine (macroParity_memory _ _ _).mono fun t ht => (emptyVec_memory _ _).mono fun u hu => (enterTask_memory _ _ _ _ _ _).mono fun w hw => ?_
  exact (holds_ok _ _).mpr ((ht.trans hu).trans hw)
@[simp] theorem execTdclass_outKeeps (f : EF) (s : State) : OutKeeps s (execTdclass f s) := by
  refine perform_outKeeps _ _ _ _ fun t v => ?_
  rw [holds_bind]
  refine holds_of_forall _ fun c => ?_
  split
  · simp
  · dsimp only
    split <;> simp
@[simp] theorem execMtest_outKeeps (f : EF) (s : State) : OutKeeps s (execMtest f s) := by
  refine perform_outKeeps _ _ _ _ fun t v => ?_
  simp only [holds_bind]
  refine (emptyReg_memory _ _).mono fun t ht => (enterTask_memory _ _ _ _ _ _).mono fun u hu => ?_
  exact (holds_ok _ _).mpr (ht.trans hu)
@[simp] theorem execCpy_outKeeps (f : EF) (s : State) : OutKeeps s (execCpy f s) := by
  refine perform_outKeeps _ _ _ _ fun t v => ?_
  extract_lets va
  rw [holds_bind]
  refine holds_of_forall _ fun _ => ?_
  rw [holds_bind]
  refine holds_of_forall _ fun segs => ?_
  split
  · simp
  · split
    · simp
    · rw [holds_bind]
      refine holds_of_forall _ fun _ => ?_
      rw [holds_bind]
      refine holds_of_forall _ fun _ => ?_
      extract_lets r d rest
      have hrest (u : Unit) : Holds (fun r => SameMem t r.1) (rest u) := by
        simp only [rest]
        rw [holds_bind]
        refine (emptyReg_memory _ _).mono fun w hw => ?_
        have hr : SameMem t w := (readPieces_memory _ _ _).trans hw
        split
        · simp
        · exact (holds_ok _ _).mpr (hr.trans (by simp))
      split
      · rw [holds_bind]
        exact holds_of_forall _ hrest
      · exact hrest ()

end Sys2Proof.Machine

/-! # Every event, and every step -/

namespace Sys2Proof.Machine
open Sys2Proof.Claims

/-- R51: a write of SPHASH apart, a write of a system register leaves memory. -/
theorem execMtsr_outKeeps (f : SysF) (s : State) (h : f.sel13.toNat ≠ 0x28) : OutKeeps s (execMtsr f s) := by
  unfold execMtsr
  refine perform_outKeeps _ _ _ _ fun t v => ?_
  split
  · simp
  · rw [holds_bind]
    exact (sysWrite_memory _ _ _ h).mono fun u hu => (holds_ok _ _).mpr hu
/-- An instruction that issues leaves memory, but for FIRE.END and a write of SPHASH (R45, R137, R139). -/
theorem exec_outKeeps (i : Instr) (s : State) (hi : i.isEvent = false) (he : ∀ f, i ≠ .fireEnd f)
    (hm : ∀ f, i = .mtsr f → f.sel13.toNat ≠ 0x28) : OutKeeps s (exec i s) := by
  cases i with
  | fireEnd f => exact absurd rfl (he f)
  | mtsr f => exact execMtsr_outKeeps f s (hm f rfl)
  | add f => exact execAdd_outKeeps f s
  | sub f => exact execSub_outKeeps f s
  | and f => exact execAnd_outKeeps f s
  | andn f => exact execAndn_outKeeps f s
  | or f => exact execOr_outKeeps f s
  | xor f => exact execXor_outKeeps f s
  | shl f => exact execShl_outKeeps f s
  | shr f => exact execShr_outKeeps f s
  | sra f => exact execSra_outKeeps f s
  | clz f => exact execClz_outKeeps f s
  | popc f => exact execPopc_outKeeps f s
  | mul f => exact execMul_outKeeps f s
  | mulhS64 f => exact execMulhS64_outKeeps f s
  | mulhZ64 f => exact execMulhZ64_outKeeps f s
  | divS64 f => exact execDivS64_outKeeps f s
  | divZ64 f => exact execDivZ64_outKeeps f s
  | remS64 f => exact execRemS64_outKeeps f s
  | remZ64 f => exact execRemZ64_outKeeps f s
  | minS64 f => exact execMinS64_outKeeps f s
  | minZ64 f => exact execMinZ64_outKeeps f s
  | maxS64 f => exact execMaxS64_outKeeps f s
  | maxZ64 f => exact execMaxZ64_outKeeps f s
  | sltS64 f => exact execSltS64_outKeeps f s
  | sltZ64 f => exact execSltZ64_outKeeps f s
  | sltz f => exact execSltz_outKeeps f s
  | sel f => exact execSel_outKeeps f s
  | lea sc f => exact execLea_outKeeps sc f s
  | sete f => exact execSete_outKeeps f s
  | setf f => exact execSetf_outKeeps f s
  | testfe f => exact execTestfe_outKeeps f s
  | addi f => exact execAddi_outKeeps f s
  | andi f => exact execAndi_outKeeps f s
  | ori f => exact execOri_outKeeps f s
  | xori f => exact execXori_outKeeps f s
  | shli f => exact execShli_outKeeps f s
  | shri f => exact execShri_outKeeps f s
  | srai f => exact execSrai_outKeeps f s
  | slti f => exact execSlti_outKeeps f s
  | lui f => exact execLui_outKeeps f s
  | bc f => exact execBc_outKeeps f s
  | loop f => exact execLoop_outKeeps f s
  | jmp f => exact execJmp_outKeeps f s
  | call f => exact execCall_outKeeps f s
  | jmpr f => exact execJmpr_outKeeps f s
  | callr f => exact execCallr_outKeeps f s
  | ret f => exact execRet_outKeeps f s
  | yield f => exact execYield_outKeeps f s
  | ld8 f => exact execLd8_outKeeps f s
  | ld16 f => exact execLd16_outKeeps f s
  | ld32 f => exact execLd32_outKeeps f s
  | ld64 f => exact execLd64_outKeeps f s
  | st8 f => exact execSt8_outKeeps f s
  | st16 f => exact execSt16_outKeeps f s
  | st32 f => exact execSt32_outKeeps f s
  | st64 f => exact execSt64_outKeeps f s
  | amoadd f => exact execAmoadd_outKeeps f s
  | amominS f => exact execAmominS_outKeeps f s
  | amominZ f => exact execAmominZ_outKeeps f s
  | amomaxS f => exact execAmomaxS_outKeeps f s
  | amomaxZ f => exact execAmomaxZ_outKeeps f s
  | amoand f => exact execAmoand_outKeeps f s
  | amoor f => exact execAmoor_outKeeps f s
  | amoxchg f => exact execAmoxchg_outKeeps f s
  | amosnap f => exact execAmosnap_outKeeps f s
  | amocas f => exact execAmocas_outKeeps f s
  | fenceCore f => exact execFenceCore_outKeeps f s
  | fenceCluster f => exact execFenceCluster_outKeeps f s
  | fenceDevice f => exact execFenceDevice_outKeeps f s
  | fenceDomain f => exact execFenceDomain_outKeeps f s
  | fenceEng f => exact execFenceEng_outKeeps f s
  | marm f => exact execMarm_outKeeps f s
  | mwait f => exact execMwait_outKeeps f s
  | mwaitAcq f => exact execMwaitAcq_outKeeps f s
  | finit f => exact execFinit_outKeeps f s
  | flen f => exact execFlen_outKeeps f s
  | fprobe f => exact execFprobe_outKeeps f s
  | fdel f => exact execFdel_outKeeps f s
  | fpack f => exact execFpack_outKeeps f s
  | fins f => exact execFins_outKeeps f s
  | fcmb op f => exact execFcmb_outKeeps op f s
  | mfsr f => exact execMfsr_outKeeps f s
  | nop f => exact execNop_outKeeps f s
  | eret f => exact execEret_outKeeps f s
  | wdrain f => exact execWdrain_outKeeps f s
  | halt f => exact execHalt_outKeeps f s
  | trap f => exact execTrap_outKeeps f s
  | barInit f => exact execBarInit_outKeeps f s
  | barArr f => exact execBarArr_outKeeps f s
  | barWait f => exact execBarWait_outKeeps f s
  | li f => exact execLi_outKeeps f s
  | lih f => exact execLih_outKeeps f s
  | addl f => exact execAddl_outKeeps f s
  | loopi f => exact execLoopi_outKeeps f s
  | vadd f => exact execVadd_outKeeps f s
  | vsub f => exact execVsub_outKeeps f s
  | vmul f => exact execVmul_outKeeps f s
  | vfma f => exact execVfma_outKeeps f s
  | vmin f => exact execVmin_outKeeps f s
  | vmax f => exact execVmax_outKeeps f s
  | vabs f => exact execVabs_outKeeps f s
  | vneg f => exact execVneg_outKeeps f s
  | vand f => exact execVand_outKeeps f s
  | vor f => exact execVor_outKeeps f s
  | vxor f => exact execVxor_outKeeps f s
  | vshl f => exact execVshl_outKeeps f s
  | vshr f => exact execVshr_outKeeps f s
  | vsra f => exact execVsra_outKeeps f s
  | vcmp f => exact execVcmp_outKeeps f s
  | vsel f => exact execVsel_outKeeps f s
  | vmov f => exact execVmov_outKeeps f s
  | vsplat f => exact execVsplat_outKeeps f s
  | vbcast f => exact execVbcast_outKeeps f s
  | vperm f => exact execVperm_outKeeps f s
  | vins f => exact execVins_outKeeps f s
  | vext f => exact execVext_outKeeps f s
  | vred f => exact execVred_outKeeps f s
  | vscan f => exact execVscan_outKeeps f s
  | vhist f => exact execVhist_outKeeps f s
  | vexp2 f => exact execVexp2_outKeeps f s
  | vrcp f => exact execVrcp_outKeeps f s
  | vrsq f => exact execVrsq_outKeeps f s
  | vlog2 f => exact execVlog2_outKeeps f s
  | pand f => exact execPand_outKeeps f s
  | por f => exact execPor_outKeeps f s
  | pnot f => exact execPnot_outKeeps f s
  | pcnt f => exact execPcnt_outKeeps f s
  | pfirst f => exact execPfirst_outKeeps f s
  | ldv f => exact execLdv_outKeeps f s
  | stv f => exact execStv_outKeeps f s
  | ldvs f => exact execLdvs_outKeeps f s
  | gather f => exact execGather_outKeeps f s
  | scatter f => exact execScatter_outKeeps f s
  | qpush f => exact execQpush_outKeeps f s
  | vcvt f => exact execVcvt_outKeeps f s
  | vqmx f => exact execVqmx_outKeeps f s
  | vdqmx f => exact execVdqmx_outKeeps f s
  | vlut f => exact execVlut_outKeeps f s
  | mldb f => exact execMldb_outKeeps f s
  | mldm f => exact execMldm_outKeeps f s
  | mma f => exact execMma_outKeeps f s
  | mmaS f => exact execMmaS_outKeeps f s
  | mclr f => exact execMclr_outKeeps f s
  | mrd f => exact execMrd_outKeeps f s
  | tdclass f => exact execTdclass_outKeeps f s
  | tdquery f => exact execTdquery_outKeeps f s
  | mtest f => exact execMtest_outKeeps f s
  | cpy f => exact execCpy_outKeeps f s
  | cpystat f => exact execCpystat_outKeeps f s
  | cpycancel f => exact execCpycancel_outKeeps f s
  | chpush f => exact execChpush_outKeeps f s
  | chpop f => exact execChpop_outKeeps f s
  | chpeek f => exact execChpeek_outKeeps f s
  | chmark f => exact execChmark_outKeeps f s
  | chstat f => exact execChstat_outKeeps f s
  | cbload f => exact execCbload_outKeeps f s
  | fmrgv f => exact execFmrgv_outKeeps f s
  | fscan f => exact execFscan_outKeeps f s
  | fprobev f => exact execFprobev_outKeeps f s
  | funion f => exact execFunion_outKeeps f s
  | _ => cases hi
theorem execMtsr_outCanon (f : SysF) (s : State) (hs : Canon s) : OutCanon (execMtsr f s) := by
  unfold execMtsr
  refine perform_outCanon _ _ _ _ hs fun t v ht => ?_
  split
  · simp
  · rw [holds_bind]
    exact (sysWrite_canon _ _ _ ht).mono fun u hu => (holds_ok _ _).mpr hu
theorem execFireEnd_outCanon (f : R3F) (s : State) (hs : Canon s) : OutCanon (execFireEnd f s) := by
  refine perform_outCanon _ _ _ _ hs fun t v ht => ?_
  split
  · exact (holds_ok _ _).mpr (SameMem.canon (by simp) ht)
  · exact (holds_ok _ _).mpr (endFiring_canon _ _ _ ht)
theorem exec_outCanon (i : Instr) (s : State) (hs : Canon s) : OutCanon (exec i s) := by
  cases i with
  | fireEnd f => exact execFireEnd_outCanon f s hs
  | mtsr f => exact execMtsr_outCanon f s hs
  | asyncTrap who => exact event_outCanon s (fun s => asyncTrap s who) hs ⟨_, rfl, SameMem.canon (asyncTrap_memory _ _) hs⟩
  | registerFill id => exact event_outCanon s (fun s => registerFill s id) hs ⟨_, rfl, SameMem.canon (registerFill_memory _ _) hs⟩
  | heldWriteDelivery core idx => exact event_outCanon s (fun s => heldDelivery s core idx) hs ⟨_, rfl, SameMem.canon (heldDelivery_memory _ _ _) hs⟩
  | windowWrite id => exact event_outCanon s (fun s => windowWrite s id) hs ⟨_, rfl, windowWrite_canon _ _ hs⟩
  | spillWrite core ctx => exact event_outCanon s (fun s => spillWrite s core ctx) hs ⟨_, rfl, spillWrite_canon _ _ _ hs⟩
  | fillArrive core ctx reg => exact event_outCanon s (fun s => fillArrive s core ctx reg) hs ⟨_, rfl, SameMem.canon (fillArrive_memory _ _ _ _) hs⟩
  | storeAtHome id => exact event_outCanon s (fun s => storeAtHome s id) hs ⟨_, rfl, storeAtHome_canon _ _ hs⟩
  | loadAtHome id => exact event_outCanon s (fun s => loadAtHome s id) hs ⟨_, rfl, SameMem.canon (loadAtHome_memory _ _) hs⟩
  | atomicAtHome id => exact event_outCanon s (fun s => atomicAtHome s id) hs ⟨_, rfl, atomicAtHome_canon _ _ hs⟩
  | monitorRegister id => exact event_outCanon s (fun s => monitorRegister s id) hs ⟨_, rfl, SameMem.canon (monitorRegister_memory _ _) hs⟩
  | mwaitTimeout who => exact event_outCanon s (fun s => mwaitTimeout s who) hs ⟨_, rfl, SameMem.canon (mwaitTimeout_memory _ _) hs⟩
  | fenceAck who path => exact event_outCanon s (fun s => fenceAck s who path) hs ⟨_, rfl, SameMem.canon (fenceAck_memory _ _ _) hs⟩
  | mergeAtHome id => exact event_outCanon s (fun s => fibEvent s id isMerge) hs ⟨_, rfl, fibEvent_canon _ _ _ hs⟩
  | deleteAtHome id => exact event_outCanon s (fun s => fibEvent s id isDelete) hs ⟨_, rfl, fibEvent_canon _ _ _ hs⟩
  | finitAtHome id => exact event_outCanon s (fun s => fibEvent s id isInit) hs ⟨_, rfl, fibEvent_canon _ _ _ hs⟩
  | fpackAtHome id => exact event_outCanon s (fun s => fibEvent s id (· == .pack)) hs ⟨_, rfl, fibEvent_canon _ _ _ hs⟩
  | probeAtHome id => exact event_outCanon s (fun s => fibEvent s id isRead') hs ⟨_, rfl, fibEvent_canon _ _ _ hs⟩
  | scanAtHome id => exact event_outCanon s (fun s => fibEvent s id isScan) hs ⟨_, rfl, fibEvent_canon _ _ _ hs⟩
  | funionAtHome id => exact event_outCanon s (fun s => fibEvent s id isUnion) hs ⟨_, rfl, fibEvent_canon _ _ _ hs⟩
  | stalledMergeResume pool => exact event_outCanon s (fun s => stalledResume s pool) hs ⟨_, rfl, stalledResume_canon _ _ hs⟩
  | poolTimeout pool => exact event_outCanon s (fun s => poolTimeout s pool) hs ⟨_, rfl, poolTimeout_canon _ _ hs⟩
  | donate pool v drv =>
    exact byDriver_outCanon drv s (fun s => donate s pool (wbits v 0 32) (wbits v 32 32)) hs ⟨_, rfl, SameMem.canon (donate_memory _ _ _ _) hs⟩
  | poolReset pool v drv => exact byDriver_outCanon drv s (fun s => poolReset s pool v) hs ⟨_, rfl, SameMem.canon (poolReset_memory _ _ _) hs⟩
  | faultctlResume pool drv => exact byDriver_outCanon drv s (fun s => faultResume s pool) hs ⟨_, rfl, faultResume_canon _ _ hs⟩
  | faultctlAbandon pool drv => exact byDriver_outCanon drv s (fun s => faultAbandon s pool) hs ⟨_, rfl, SameMem.canon (faultAbandon_memory _ _) hs⟩
  | schedulingEvent core launch => exact event_outCanon s (fun s => schedulingEvent s core launch) hs ⟨_, rfl, schedulingEvent_canon _ _ _ hs⟩
  | channelCommit id => exact event_outCanon s (fun s => channelCommit s id) hs ⟨_, rfl, channelCommit_canon _ _ hs⟩
  | channelRelease id => exact event_outCanon s (fun s => channelRelease s id) hs ⟨_, rfl, SameMem.canon (channelRelease_memory _ _) hs⟩
  | tableTokenTake core slot port =>
    exact event_outCanon s (fun s => tableTokenTake s core slot port) hs ⟨_, rfl, SameMem.canon (tableTokenTake_memory _ _ _ _) hs⟩
  | eosForward core slot => exact event_outCanon s (fun s => eosForward s core slot) hs ⟨_, rfl, SameMem.canon (eosForward_memory _ _ _) hs⟩
  | instanceRetire core slot =>
    exact event_outCanon s (fun s => instanceRetire s core slot) hs ⟨_, rfl, SameMem.canon (instanceRetire_memory _ _ _) hs⟩
  | poisonReinject core ch cons => exact event_outCanon s (fun s => poisonReinject s core ch cons) hs ⟨_, rfl, poisonReinject_canon _ _ _ _ hs⟩
  | rateSample core ch => exact event_outCanon s (fun s => rateSample s core ch) hs ⟨_, rfl, SameMem.canon (rateSample_memory _ _ _) hs⟩
  | rateParamWrite core ch word v drv =>
    exact event_outCanon s (fun s => rateParamWrite s core ch word v drv) hs ⟨_, rfl, SameMem.canon (rateParamWrite_memory _ _ _ _ _ _) hs⟩
  | sinkDataSlot core ch cons => exact event_outCanon s (fun s => sinkDataSlot s core ch cons) hs ⟨_, rfl, sinkDataSlot_canon _ _ _ _ hs⟩
  | sinkEndOfStream core ch cons =>
    exact event_outCanon s (fun s => sinkEndOfStream s core ch cons) hs ⟨_, rfl, SameMem.canon (sinkEndOfStream_memory _ _ _ _) hs⟩
  | markerInject core slot => exact event_outCanon s (fun s => markerInject s core slot) hs ⟨_, rfl, SameMem.canon (markerInject_memory _ _ _) hs⟩
  | snapshotAlign core slot => exact event_outCanon s (fun s => snapshotAlign s core slot) hs ⟨_, rfl, SameMem.canon (snapshotAlign_memory _ _ _) hs⟩
  | snapshotUnalignedSwitch core slot =>
    exact event_outCanon s (fun s => unalignedSwitch s core slot) hs ⟨_, rfl, SameMem.canon (unalignedSwitch_memory _ _ _) hs⟩
  | unalignedMarkerArrive core slot port =>
    exact event_outCanon s (fun s => unalignedArrive s core slot port) hs ⟨_, rfl, SameMem.canon (unalignedArrive_memory _ _ _ _) hs⟩
  | snapreq launch v drv => exact event_outCanon s (fun s => snapreq s launch v drv) hs ⟨_, rfl, SameMem.canon (snapreq_memory _ _ _ _) hs⟩
  | snapshotComplete launch => exact event_outCanon s (fun s => snapshotComplete s launch) hs ⟨_, rfl, SameMem.canon (snapshotComplete_memory _ _) hs⟩
  | snapdataResend session seq => exact event_outCanon s (fun s => snapResend s session seq) hs ⟨_, rfl, SameMem.canon (snapResend_memory _ _ _) hs⟩
  | snapdataSessionLost session => exact event_outCanon s (fun s => snapLost s session) hs ⟨_, rfl, SameMem.canon (snapLost_memory _ _) hs⟩
  | snapdataAck session seq ack => exact outCanon_next (SameMem.canon (snapdataAck_memory _ _ _ _) hs)
  | watchdog launch => exact event_outCanon s (fun s => watchdog s launch) hs ⟨_, rfl, SameMem.canon (watchdog_memory _ _) hs⟩
  | launchPacket die queue => exact event_outCanon s (fun s => takePacket s die queue (· == 1)) hs ⟨_, rfl, takePacket_canon _ _ _ _ hs⟩
  | copyPacket die queue => exact event_outCanon s (fun s => takePacket s die queue (· == 2)) hs ⟨_, rfl, takePacket_canon _ _ _ _ hs⟩
  | waitStampPacket die queue => exact event_outCanon s (fun s => takePacket s die queue (· == 3)) hs ⟨_, rfl, takePacket_canon _ _ _ _ hs⟩
  | signalPacket die queue => exact event_outCanon s (fun s => takePacket s die queue (· == 4)) hs ⟨_, rfl, takePacket_canon _ _ _ _ hs⟩
  | launchStart launch => exact event_outCanon s (fun s => launchStart s launch) hs ⟨_, rfl, launchStart_canon _ _ hs⟩
  | launchCompletion launch => exact event_outCanon s (fun s => launchCompletion s launch) hs ⟨_, rfl, launchCompletion_canon _ _ hs⟩
  | completionStamp launch => exact event_outCanon s (fun s => completionStamp s launch false) hs ⟨_, rfl, completionStamp_canon _ _ _ hs⟩
  | intensityWindow launch cycles bytes =>
    exact event_outCanon s (fun s => intensityWindow s launch) hs ⟨_, rfl, SameMem.canon (intensityWindow_memory _ _) hs⟩
  | tileTaskIssue core id => exact event_outCanon s (fun s => issueTask s core id) hs ⟨_, rfl, SameMem.canon (issueTask_memory _ _ _) hs⟩
  | tileTaskComplete core id => exact event_outCanon s (fun s => completeTask s core id) hs ⟨_, rfl, completeTask_canon _ _ _ hs⟩
  | selfTest core slot pass => exact event_outCanon s (fun s => selfTest s core slot pass) hs ⟨_, rfl, selfTest_canon _ _ _ _ hs⟩
  | sectorIssue eng slot => exact event_outCanon s (fun s => sectorIssue s eng slot) hs ⟨_, rfl, SameMem.canon (sectorIssue_memory _ _ _) hs⟩
  | copyStamp eng slot => exact event_outCanon s (fun s => copyStamp s eng slot) hs ⟨_, rfl, copyStamp_canon _ _ _ hs⟩
  | copyCtrlResume eng slot drv =>
    exact event_outCanon s (fun s => copyControl s eng slot 2 drv) hs ⟨_, rfl, SameMem.canon (copyControl_memory _ _ _ _ _) hs⟩
  | copyCtrlAbandon eng slot drv =>
    exact event_outCanon s (fun s => copyControl s eng slot 3 drv) hs ⟨_, rfl, SameMem.canon (copyControl_memory _ _ _ _ _) hs⟩
  | ienable core slot v => exact event_outCanon s (fun s => ienable s core slot v) hs ⟨_, rfl, SameMem.canon (ienable_memory _ _ _ _) hs⟩
  | lctlPreempt launch drv => exact event_outCanon s (fun s => preemptLaunch s launch drv) hs ⟨_, rfl, SameMem.canon (preemptLaunch_memory _ _ _) hs⟩
  | preemptComplete launch => exact event_outCanon s (fun s => preemptComplete s launch) hs ⟨_, rfl, preemptComplete_canon _ _ hs⟩
  | lctlResume launch drv => exact event_outCanon s (fun s => resumeLaunch s launch drv) hs ⟨_, rfl, resumeLaunch_canon _ _ _ hs⟩
  | lctlKill launch drv => exact event_outCanon s (fun s => killLaunch s launch drv) hs ⟨_, rfl, killLaunch_canon _ _ _ hs⟩
  | killStamp launch => exact event_outCanon s (fun s => completionStamp s launch true) hs ⟨_, rfl, completionStamp_canon _ _ _ hs⟩
  | lcorePreempt launch core drv =>
    exact event_outCanon s (fun s => preemptCore s launch core drv) hs ⟨_, rfl, SameMem.canon (preemptCore_memory _ _ _ _) hs⟩
  | lcoreResume launch core drv => exact event_outCanon s (fun s => resumeOn s launch core drv) hs ⟨_, rfl, resumeOn_canon _ _ _ _ hs⟩
  | doorbell core v drv => exact byDriver_outCanon drv s (fun s => doorbellWrite s core v) hs ⟨_, rfl, SameMem.canon (doorbellWrite_memory _ _ _) hs⟩
  | tinvVa asid va drv =>
    exact byDriver_outCanon drv s (fun s => requestTinv s 0 (asid % 65536) (va % 2 ^ 48)) hs ⟨_, rfl, SameMem.canon (requestTinv_memory _ _ _ _) hs⟩
  | tinvAsid asid drv =>
    exact byDriver_outCanon drv s (fun s => requestTinv s 1 (asid % 65536) 0) hs ⟨_, rfl, SameMem.canon (requestTinv_memory _ _ _ _) hs⟩
  | tinvAll drv => exact byDriver_outCanon drv s (fun s => requestTinv s 2 0 0) hs ⟨_, rfl, SameMem.canon (requestTinv_memory _ _ _ _) hs⟩
  | invalidationComplete  => exact event_outCanon s (fun s => invalidationComplete s) hs ⟨_, rfl, SameMem.canon (invalidationComplete_memory _) hs⟩
  | translationWalk id => exact event_outCanon s (fun s => walkDone s id) hs ⟨_, rfl, SameMem.canon (walkDone_memory _ _) hs⟩
  | tilePageTableWrite m v drv =>
    exact byDriver_outCanon drv s (fun s => tilePageWrite s m v) hs ⟨_, rfl, SameMem.canon (tilePageWrite_memory _ _ _) hs⟩
  | hashRowWrite row v drv => exact byDriver_outCanon drv s (fun s => hashRowWrite s row v) hs ⟨_, rfl, hashRowWrite_canon _ _ _ hs⟩
  | pinsizeWrite v drv => exact byDriver_outCanon drv s (fun s => pinsizeWrite s v) hs ⟨_, rfl, pinsizeWrite_canon _ _ hs⟩
  | planeTableWrite off v drv =>
    exact byDriver_outCanon drv s (fun s => planeTableWrite s off 8 v.toNat) hs ⟨_, rfl, SameMem.canon (planeTableWrite_memory _ _ _ _) hs⟩
  | planeDeadSet mask drv => exact byDriver_outCanon drv s (fun s => planeDeadSet s mask) hs ⟨_, rfl, SameMem.canon (planeDeadSet_memory _ _) hs⟩
  | quiesceClear drv => exact byDriver_outCanon drv s (fun s => quiesceClear s) hs ⟨_, rfl, SameMem.canon (quiesceClear_memory _) hs⟩
  | linkFlit f => exact event_outCanon s (fun s => linkFlit s f) hs ⟨_, rfl, SameMem.canon (linkFlit_memory _ _) hs⟩
  | migrationGo m drv => exact byDriver_outCanon drv s (fun s => migrationGo s m) hs ⟨_, rfl, SameMem.canon (migrationGo_memory _ _) hs⟩
  | migrationSectorCopy m => exact event_outCanon s (fun s => migrationSector s m) hs ⟨_, rfl, migrationSector_canon _ _ hs⟩
  | migrationClr m drv => exact byDriver_outCanon drv s (fun s => migrationClr s m) hs ⟨_, rfl, SameMem.canon (migrationClr_memory _ _) hs⟩
  | counterClear addr v => exact event_outCanon s (fun s => counterClear s addr v) hs ⟨_, rfl, SameMem.canon (counterClear_memory _ _ _) hs⟩
  | refresh stack splits => exact event_outCanon s (fun s => refresh s stack splits) hs ⟨_, rfl, SameMem.canon (refresh_memory _ _ _) hs⟩
  | scrubRead addr found => exact event_outCanon s (fun s => scrubRead s addr found) hs ⟨_, rfl, SameMem.canon (scrubRead_memory _ _ _) hs⟩
  | scrubWriteback addr => exact event_outCanon s (fun s => scrubWriteback s addr) hs ⟨_, rfl, SameMem.canon (scrubWriteback_memory _ _) hs⟩
  | powerReqFull drv => exact byDriver_outCanon drv s (fun s => powerReq s 0) hs ⟨_, rfl, SameMem.canon (powerReq_memory _ _) hs⟩
  | powerReqHalf drv => exact byDriver_outCanon drv s (fun s => powerReq s 1) hs ⟨_, rfl, SameMem.canon (powerReq_memory _ _) hs⟩
  | powerReqIdle drv => exact byDriver_outCanon drv s (fun s => powerReq s 2) hs ⟨_, rfl, SameMem.canon (powerReq_memory _ _) hs⟩
  | powerTransitionDone  => exact event_outCanon s (fun s => powerDone s) hs ⟨_, rfl, SameMem.canon (powerDone_memory _) hs⟩
  | sensorSample sensor sample => exact outCanon_next (SameMem.canon (sensorSample_memory _ _ _) hs)
  | telemetryRefresh words => exact outCanon_next (SameMem.canon (telemetryRefresh_memory _ _) hs)
  | powerUp env => exact outCanon_next (powerUp_canon _ _ hs)
  | clusterStart k pass => exact event_outCanon s (fun s => clusterStart s k pass) hs ⟨_, rfl, SameMem.canon (clusterStart_memory _ _ _) hs⟩
  | stackPairStart p lo hi => exact event_outCanon s (fun s => stackPairStart s p lo hi) hs ⟨_, rfl, SameMem.canon (stackPairStart_memory _ _ _ _) hs⟩
  | attestationReport session nonce => exact outCanon_next (SameMem.canon (attestationReport_memory _ _ _) hs)
  | read d => exact outCanon_next (hqtArrive_canon _ _ _ hs)
  | write d => exact outCanon_next (hqtArrive_canon _ _ _ hs)
  | fadd d => exact outCanon_next (hqtArrive_canon _ _ _ hs)
  | cas d => exact outCanon_next (hqtArrive_canon _ _ _ hs)
  | close d => exact outCanon_next (hqtArrive_canon _ _ _ hs)
  | hello h => exact outCanon_next (SameMem.canon (helloArrive_memory _ _) hs)
  | watch d => exact outCanon_next (hqtArrive_canon _ _ _ hs)
  | grant d => exact outCanon_next (hqtArrive_canon _ _ _ hs)
  | otherFrame tags => exact outCanon_next (canon_ite (SameMem.canon (by simp) hs) hs)
  | registerWrite addr size v drv => exact event_outCanon s (fun s => registerWrite s addr size v drv) hs ⟨_, rfl, registerWrite_canon _ _ _ _ _ hs⟩
  | powerLoss  => exact outCanon_next (losePower_canon _ _)
  | unallocatedKindPacket die queue =>
    exact event_outCanon s (fun s => takePacket s die queue (fun k => decide (5 ≤ k))) hs ⟨_, rfl, takePacket_canon _ _ _ _ hs⟩
  | _ => exact (exec_outKeeps _ s rfl (fun _ h => by cases h) (fun _ h => by cases h)).canon hs

theorem afterIssue_outCanon (s : State) (w : StreamId) (pc : Nat) (i : Instr) (o : Out) (h : OutCanon o) :
    OutCanon (afterIssue s w pc i o) := by
  cases o with
  | next t =>
    have ht : Canon (useEarly s t w i) := (useEarly_memory s t w i).canon (h t rfl)
    exact outCanon_next (SameMem.canon (SameMem.trans (dropWords_memory _ _ _ _) (readAhead_memory _ _)) ht)
  | fault => exact fun _ hu => nomatch hu
  | refused => exact fun _ hu => nomatch hu
theorem issueAt_outCanon (s : State) (w : StreamId) (hs : Canon s) : OutCanon (issueAt s w) := by
  have hf := fetchInstr_memory s
  unfold issueAt
  dsimp only
  split
  · exact outCanon_next (SameMem.canon (takeTrap_memory _ _ _ _) hs)
  · exact outCanon_next (SameMem.canon (noteWait_memory _ _) hs)
  · next w0 w1 t h =>
    have ht : Canon t := (hf _ h).canon hs
    split
    · exact afterIssue_outCanon t w _ _ _ (exec_outCanon _ t ht)
    · exact outCanon_next (SameMem.canon (by simp) ht)
theorem issueTurn_outCanon (s : State) (w : StreamId) (hs : Canon s) : OutCanon (issueTurn s w) := by
  have hc : Canon (countTurn { s with cur := w } w) := SameMem.canon (by simp) hs
  unfold issueTurn
  dsimp only
  split
  · exact outCanon_next (SameMem.canon (asyncTrap_memory _ _) hc)
  · exact issueAt_outCanon _ _ hc
theorem issueNext_outCanon (s : State) (hs : Canon s) : OutCanon (issueNext s) := by
  have hn := nextStream_memory s
  unfold issueNext
  split
  · next h =>
    rw [h] at hn
    exact issueTurn_outCanon _ _ (hn.canon hs)
  · next h =>
    rw [h] at hn
    exact outCanon_next (hn.canon hs)


/-- An act that is what an instruction of the table does. -/
def IsEvent (e : Act) : Prop := ∃ i, e = exec i
def AllEvents (l : List Act) : Prop := ∀ e ∈ l, IsEvent e

@[simp] theorem allEvents_nil : AllEvents [] := fun _ h => nomatch h
@[simp] theorem allEvents_cons (e : Act) (l : List Act) : AllEvents (e :: l) ↔ IsEvent e ∧ AllEvents l := List.forall_mem_cons
@[simp] theorem allEvents_append (l m : List Act) : AllEvents (l ++ m) ↔ AllEvents l ∧ AllEvents m := List.forall_mem_append
@[simp] theorem allEvents_ite (c : Prop) [Decidable c] (l m : List Act) :
    AllEvents (if c then l else m) ↔ (c → AllEvents l) ∧ (¬ c → AllEvents m) := by split <;> simp [*]
section
variable {β : Type}
theorem allEvents_flatMap (f : β → List Act) (h : ∀ b, AllEvents (f b)) (l : List β) : AllEvents (l.flatMap f) := fun e he => by
  obtain ⟨b, _, hb⟩ := List.mem_flatMap.mp he
  exact h b e hb
theorem allEvents_map (f : β → Act) (h : ∀ b, IsEvent (f b)) (l : List β) : AllEvents (l.map f) := fun e he => by
  obtain ⟨b, _, rfl⟩ := List.mem_map.mp he
  exact h b
end
@[simp] theorem isEvent_execAsyncTrap (who : StreamId) : IsEvent (execAsyncTrap who) := ⟨.asyncTrap who, rfl⟩
@[simp] theorem isEvent_execRegisterFill (id : Nat) : IsEvent (execRegisterFill id) := ⟨.registerFill id, rfl⟩
@[simp] theorem isEvent_execHeldWriteDelivery (core idx : Nat) : IsEvent (execHeldWriteDelivery core idx) := ⟨.heldWriteDelivery core idx, rfl⟩
@[simp] theorem isEvent_execWindowWrite (id : Nat) : IsEvent (execWindowWrite id) := ⟨.windowWrite id, rfl⟩
@[simp] theorem isEvent_execSpillWrite (core ctx : Nat) : IsEvent (execSpillWrite core ctx) := ⟨.spillWrite core ctx, rfl⟩
@[simp] theorem isEvent_execFillArrive (core ctx reg : Nat) : IsEvent (execFillArrive core ctx reg) := ⟨.fillArrive core ctx reg, rfl⟩
@[simp] theorem isEvent_execStoreAtHome (id : Nat) : IsEvent (execStoreAtHome id) := ⟨.storeAtHome id, rfl⟩
@[simp] theorem isEvent_execLoadAtHome (id : Nat) : IsEvent (execLoadAtHome id) := ⟨.loadAtHome id, rfl⟩
@[simp] theorem isEvent_execAtomicAtHome (id : Nat) : IsEvent (execAtomicAtHome id) := ⟨.atomicAtHome id, rfl⟩
@[simp] theorem isEvent_execMonitorRegister (id : Nat) : IsEvent (execMonitorRegister id) := ⟨.monitorRegister id, rfl⟩
@[simp] theorem isEvent_execMwaitTimeout (who : StreamId) : IsEvent (execMwaitTimeout who) := ⟨.mwaitTimeout who, rfl⟩
@[simp] theorem isEvent_execFenceAck (who : StreamId) (path : Nat) : IsEvent (execFenceAck who path) := ⟨.fenceAck who path, rfl⟩
@[simp] theorem isEvent_execMergeAtHome (id : Nat) : IsEvent (execMergeAtHome id) := ⟨.mergeAtHome id, rfl⟩
@[simp] theorem isEvent_execDeleteAtHome (id : Nat) : IsEvent (execDeleteAtHome id) := ⟨.deleteAtHome id, rfl⟩
@[simp] theorem isEvent_execFinitAtHome (id : Nat) : IsEvent (execFinitAtHome id) := ⟨.finitAtHome id, rfl⟩
@[simp] theorem isEvent_execFpackAtHome (id : Nat) : IsEvent (execFpackAtHome id) := ⟨.fpackAtHome id, rfl⟩
@[simp] theorem isEvent_execProbeAtHome (id : Nat) : IsEvent (execProbeAtHome id) := ⟨.probeAtHome id, rfl⟩
@[simp] theorem isEvent_execScanAtHome (id : Nat) : IsEvent (execScanAtHome id) := ⟨.scanAtHome id, rfl⟩
@[simp] theorem isEvent_execFunionAtHome (id : Nat) : IsEvent (execFunionAtHome id) := ⟨.funionAtHome id, rfl⟩
@[simp] theorem isEvent_execStalledMergeResume (pool : Nat) : IsEvent (execStalledMergeResume pool) := ⟨.stalledMergeResume pool, rfl⟩
@[simp] theorem isEvent_execPoolTimeout (pool : Nat) : IsEvent (execPoolTimeout pool) := ⟨.poolTimeout pool, rfl⟩
@[simp] theorem isEvent_execSchedulingEvent (core launch : Nat) : IsEvent (execSchedulingEvent core launch) := ⟨.schedulingEvent core launch, rfl⟩
@[simp] theorem isEvent_execChannelCommit (id : Nat) : IsEvent (execChannelCommit id) := ⟨.channelCommit id, rfl⟩
@[simp] theorem isEvent_execChannelRelease (id : Nat) : IsEvent (execChannelRelease id) := ⟨.channelRelease id, rfl⟩
@[simp] theorem isEvent_execTableTokenTake (core slot port : Nat) : IsEvent (execTableTokenTake core slot port) :=
  ⟨.tableTokenTake core slot port, rfl⟩
@[simp] theorem isEvent_execEosForward (core slot : Nat) : IsEvent (execEosForward core slot) := ⟨.eosForward core slot, rfl⟩
@[simp] theorem isEvent_execInstanceRetire (core slot : Nat) : IsEvent (execInstanceRetire core slot) := ⟨.instanceRetire core slot, rfl⟩
@[simp] theorem isEvent_execPoisonReinject (core ch cons : Nat) : IsEvent (execPoisonReinject core ch cons) := ⟨.poisonReinject core ch cons, rfl⟩
@[simp] theorem isEvent_execRateSample (core ch : Nat) : IsEvent (execRateSample core ch) := ⟨.rateSample core ch, rfl⟩
@[simp] theorem isEvent_execSinkDataSlot (core ch cons : Nat) : IsEvent (execSinkDataSlot core ch cons) := ⟨.sinkDataSlot core ch cons, rfl⟩
@[simp] theorem isEvent_execSinkEndOfStream (core ch cons : Nat) : IsEvent (execSinkEndOfStream core ch cons) := ⟨.sinkEndOfStream core ch cons, rfl⟩
@[simp] theorem isEvent_execMarkerInject (core slot : Nat) : IsEvent (execMarkerInject core slot) := ⟨.markerInject core slot, rfl⟩
@[simp] theorem isEvent_execSnapshotAlign (core slot : Nat) : IsEvent (execSnapshotAlign core slot) := ⟨.snapshotAlign core slot, rfl⟩
@[simp] theorem isEvent_execSnapshotUnalignedSwitch (core slot : Nat) : IsEvent (execSnapshotUnalignedSwitch core slot) :=
  ⟨.snapshotUnalignedSwitch core slot, rfl⟩
@[simp] theorem isEvent_execUnalignedMarkerArrive (core slot port : Nat) : IsEvent (execUnalignedMarkerArrive core slot port) :=
  ⟨.unalignedMarkerArrive core slot port, rfl⟩
@[simp] theorem isEvent_execSnapshotComplete (launch : Nat) : IsEvent (execSnapshotComplete launch) := ⟨.snapshotComplete launch, rfl⟩
@[simp] theorem isEvent_execSnapdataResend (session seq : Nat) : IsEvent (execSnapdataResend session seq) := ⟨.snapdataResend session seq, rfl⟩
@[simp] theorem isEvent_execSnapdataSessionLost (session : Nat) : IsEvent (execSnapdataSessionLost session) := ⟨.snapdataSessionLost session, rfl⟩
@[simp] theorem isEvent_execWatchdog (launch : Nat) : IsEvent (execWatchdog launch) := ⟨.watchdog launch, rfl⟩
@[simp] theorem isEvent_execLaunchPacket (die queue : Nat) : IsEvent (execLaunchPacket die queue) := ⟨.launchPacket die queue, rfl⟩
@[simp] theorem isEvent_execCopyPacket (die queue : Nat) : IsEvent (execCopyPacket die queue) := ⟨.copyPacket die queue, rfl⟩
@[simp] theorem isEvent_execWaitStampPacket (die queue : Nat) : IsEvent (execWaitStampPacket die queue) := ⟨.waitStampPacket die queue, rfl⟩
@[simp] theorem isEvent_execSignalPacket (die queue : Nat) : IsEvent (execSignalPacket die queue) := ⟨.signalPacket die queue, rfl⟩
@[simp] theorem isEvent_execLaunchStart (launch : Nat) : IsEvent (execLaunchStart launch) := ⟨.launchStart launch, rfl⟩
@[simp] theorem isEvent_execLaunchCompletion (launch : Nat) : IsEvent (execLaunchCompletion launch) := ⟨.launchCompletion launch, rfl⟩
@[simp] theorem isEvent_execCompletionStamp (launch : Nat) : IsEvent (execCompletionStamp launch) := ⟨.completionStamp launch, rfl⟩
@[simp] theorem isEvent_execIntensityWindow (launch cycles bytes : Nat) : IsEvent (execIntensityWindow launch cycles bytes) :=
  ⟨.intensityWindow launch cycles bytes, rfl⟩
@[simp] theorem isEvent_execTileTaskIssue (core id : Nat) : IsEvent (execTileTaskIssue core id) := ⟨.tileTaskIssue core id, rfl⟩
@[simp] theorem isEvent_execTileTaskComplete (core id : Nat) : IsEvent (execTileTaskComplete core id) := ⟨.tileTaskComplete core id, rfl⟩
@[simp] theorem isEvent_execSelfTest (core slot : Nat) (pass : Bool) : IsEvent (execSelfTest core slot pass) := ⟨.selfTest core slot pass, rfl⟩
@[simp] theorem isEvent_execSectorIssue (eng slot : Nat) : IsEvent (execSectorIssue eng slot) := ⟨.sectorIssue eng slot, rfl⟩
@[simp] theorem isEvent_execCopyStamp (eng slot : Nat) : IsEvent (execCopyStamp eng slot) := ⟨.copyStamp eng slot, rfl⟩
@[simp] theorem isEvent_execPreemptComplete (launch : Nat) : IsEvent (execPreemptComplete launch) := ⟨.preemptComplete launch, rfl⟩
@[simp] theorem isEvent_execLctlResume (launch : Nat) (drv : Bool) : IsEvent (execLctlResume launch drv) := ⟨.lctlResume launch drv, rfl⟩
@[simp] theorem isEvent_execKillStamp (launch : Nat) : IsEvent (execKillStamp launch) := ⟨.killStamp launch, rfl⟩
@[simp] theorem isEvent_execInvalidationComplete : IsEvent (execInvalidationComplete ) := ⟨.invalidationComplete , rfl⟩
@[simp] theorem isEvent_execTranslationWalk (id : Nat) : IsEvent (execTranslationWalk id) := ⟨.translationWalk id, rfl⟩
@[simp] theorem isEvent_execMigrationSectorCopy (m : Nat) : IsEvent (execMigrationSectorCopy m) := ⟨.migrationSectorCopy m, rfl⟩
@[simp] theorem isEvent_execScrubWriteback (addr : Nat) : IsEvent (execScrubWriteback addr) := ⟨.scrubWriteback addr, rfl⟩
@[simp] theorem isEvent_execPowerTransitionDone : IsEvent (execPowerTransitionDone ) := ⟨.powerTransitionDone , rfl⟩
@[simp] theorem isEvent_execRead (d : Datagram) : IsEvent (execRead d) := ⟨.read d, rfl⟩
@[simp] theorem isEvent_execWrite (d : Datagram) : IsEvent (execWrite d) := ⟨.write d, rfl⟩
@[simp] theorem isEvent_execFadd (d : Datagram) : IsEvent (execFadd d) := ⟨.fadd d, rfl⟩
@[simp] theorem isEvent_execCas (d : Datagram) : IsEvent (execCas d) := ⟨.cas d, rfl⟩
@[simp] theorem isEvent_execUnallocatedKindPacket (die queue : Nat) : IsEvent (execUnallocatedKindPacket die queue) :=
  ⟨.unallocatedKindPacket die queue, rfl⟩
theorem reqEvents_allEvents (s : State) : AllEvents (reqEvents s) :=
  allEvents_flatMap _ (fun r => by
    cases r.kind <;> simp) _
theorem fibreEvents_allEvents (s : State) : AllEvents (fibreEvents s) := by
  refine (allEvents_append _ _).mpr ⟨allEvents_flatMap _ (fun f => ?_) _, allEvents_flatMap _ (fun p => by simp) _⟩
  cases f.op <;> simp
theorem timeoutEvents_allEvents (s : State) : AllEvents (timeoutEvents s) := by
  refine allEvents_flatMap _ (fun c => allEvents_flatMap _ (fun x => ?_) _) _
  split <;> simp
theorem streamEvents_allEvents (n : Nat) (c : Core) : AllEvents (streamEvents n c) := by
  have hf (x : Nat × Ctx) : AllEvents (x.2.fills.map fun f => execFillArrive n x.1 f.reg) := allEvents_map _ (fun f => by simp) _
  have hx (x : StreamId × Stream) : AllEvents (match x.2.fence with | some f => f.paths.map (fun p => execFenceAck x.1 p) | none => []) := by
    split
    · exact allEvents_map _ (fun p => by simp) _
    · simp
  unfold streamEvents
  simp only [allEvents_append]
  exact ⟨⟨allEvents_flatMap _ (fun x => by simp [hf]) _, allEvents_flatMap _ (fun x => hx x) _⟩, allEvents_map _ (fun i => by simp) _⟩
theorem engineEvents_allEvents (n : Nat) (c : Core) : AllEvents (engineEvents n c) := by
  unfold engineEvents
  simp only [allEvents_append]
  refine ⟨⟨allEvents_flatMap _ (fun t => by simp) _, allEvents_flatMap _ (fun t => ?_) _⟩, allEvents_flatMap _ (fun x => by simp) _⟩
  cases t.kind <;> simp
theorem actorEvents_allEvents (n : Nat) (c : Core) : AllEvents (actorEvents n c) := by
  unfold actorEvents
  simp only [allEvents_append]
  refine ⟨⟨⟨⟨allEvents_map _ (fun x => by simp) _, allEvents_map _ (fun x => by simp) _⟩, allEvents_flatMap _ (fun x => ?_) _⟩,
    allEvents_flatMap _ (fun x => ?_) _⟩, allEvents_map _ (fun e => by simp) _⟩
  · split
    · exact (allEvents_append _ _).mpr ⟨by simp, allEvents_flatMap _ (fun k => by simp) _⟩
    · simp
  · split
    · simp only [allEvents_append]
      exact ⟨⟨allEvents_flatMap _ (fun k => by simp) _, allEvents_map _ (fun k => by simp) _⟩, by simp⟩
    · simp
theorem launchEvents_allEvents (s : State) : AllEvents (launchEvents s) := by
  unfold launchEvents
  simp only [allEvents_append]
  refine ⟨⟨allEvents_flatMap _ (fun e => by simp) _, allEvents_flatMap _ (fun d => allEvents_flatMap _ (fun x => by simp) _) _⟩,
    allEvents_flatMap _ (fun d => ?_) _⟩
  split <;> simp
theorem againDatagram_allEvents (d : Datagram) : AllEvents (againDatagram d) := by
  unfold againDatagram
  split <;> simp
theorem deviceEvents_allEvents (s : State) : AllEvents (deviceEvents s) := by
  have hm : AllEvents (s.dev.migrations.filterMap (fun m => if m.2.act then some (execMigrationSectorCopy m.1) else none)) := fun e he => by
    obtain ⟨m, _, hm⟩ := List.mem_filterMap.mp he
    split at hm
    · cases hm
      simp
    · cases hm
  unfold deviceEvents
  simp only [allEvents_append]
  refine ⟨⟨⟨⟨⟨allEvents_map _ (fun k => by simp) _, by simp⟩, by simp⟩, hm⟩, allEvents_map _ (fun e => by simp) _⟩,
    allEvents_flatMap _ (fun x => ?_) _⟩
  split
  · simp only [allEvents_append]
    exact ⟨⟨allEvents_flatMap _ againDatagram_allEvents _, allEvents_map _ (fun m => by simp) _⟩, by simp⟩
  · simp
theorem candidates_allEvents (s : State) : AllEvents (candidates s) := by
  unfold candidates
  simp only [allEvents_append]
  exact ⟨⟨⟨⟨⟨⟨timeoutEvents_allEvents s, deviceEvents_allEvents s⟩, reqEvents_allEvents s⟩,
    allEvents_flatMap _ (fun c => (allEvents_append _ _).mpr ⟨streamEvents_allEvents _ _, engineEvents_allEvents _ _⟩) _⟩,
    fibreEvents_allEvents s⟩, allEvents_flatMap _ (fun c => actorEvents_allEvents _ _) _⟩, launchEvents_allEvents s⟩

theorem nextInternal_outCanon (s : State) (hs : Canon s) : OutCanon (nextInternal s) := by
  unfold nextInternal
  split
  · next e h =>
    obtain ⟨i, rfl⟩ := candidates_allEvents s e (List.mem_of_find?_eq_some h)
    exact exec_outCanon i s hs
  · exact outCanon_next hs
theorem stepOf_outCanon (s : State) (hs : Canon s) : OutCanon (stepOf s) := by
  unfold stepOf
  split
  · split
    · exact exec_outCanon _ _ hs
    · exact outCanon_next hs
  · split
    · exact nextInternal_outCanon _ hs
    · exact issueNext_outCanon _ hs

/-- Settles O59: every event and every instruction keeps the canonical form, and only FIRE.END and MTSR of SPHASH
among the instructions reach memory at all. -/
theorem memoryCanonical : Obligations.MemoryCanonical := by
  unfold Obligations.MemoryCanonical
  refine ⟨fun s t hs h => ?_, fun s t i hi he hm h => exec_outKeeps i s hi he hm t h⟩
  exact stepOf_outCanon (tickClock s) (SameMem.canon (tickClock_memory s) hs) t h

end Sys2Proof.Machine

/-! # The machine after reset -/

namespace Sys2Proof.Machine
open Sys2Proof.Claims

/-- Log 5: a byte of memory that nothing has written since reset. -/
theorem memByte_reset (pa : Nat) : memByte State.reset pa = unlisted 0 pa := by
  unfold memByte
  rw [homePa_of_inactive State.reset pa (fun _ h => nomatch h)]
  rfl
/-- R97: byte `j` of the tag of slot `d`, as nothing has written it. -/
theorem unlisted_slotTag (e n d j : Nat) (hn : n < 1024) (hd : d < 32) (hj : j < 0x40) :
    unlisted e (coreBase n + 0xB0200 + d * 0x40 + j) = if j < 0x20 then 0x7F else if j = 0x20 then 1 else 0 := by
  have hoff : (coreBase n + 0xB0200 + d * 0x40 + j) % 0x400000 = 0xB0200 + d * 0x40 + j := by
    unfold coreBase coreWin
    omega
  have htag : (0xB0200 + d * 0x40 + j - 0xB0200) % 0x40 = j := by omega
  unfold unlisted
  rw [if_neg (by unfold coreBase coreWin; omega), if_pos (by unfold coreBase coreWin; omega)]
  dsimp only
  rw [hoff, if_pos (by omega), htag]
theorem slotTag_reset {n d : Nat} (hn : n < 1024) (hd : d < 32) {t : Nat} (ht : t < 32) :
    memByte State.reset (coreBase n + 0xB0200 + d * 0x40 + t) = 0x7F ∧
      memByte State.reset (coreBase n + 0xB0220 + d * 0x40) = 1 := by
  have hfmt : coreBase n + 0xB0220 + d * 0x40 = coreBase n + 0xB0200 + d * 0x40 + 0x20 := by omega
  rw [hfmt, memByte_reset, memByte_reset, unlisted_slotTag 0 n d t hn hd (by omega), unlisted_slotTag 0 n d 0x20 hn hd (by omega)]
  exact ⟨if_pos ht, rfl⟩
theorem getStream_reset (n c : Nat) (ap : Bool) : getStream State.reset { core := n, ctx := c, ap := ap } = {} := by
  cases ap <;> rfl

/-- Settles O57: nothing is listed after reset, so every field reads as its default. -/
theorem resetState : Obligations.ResetState := by
  unfold Obligations.ResetState
  refine ⟨rfl, rfl, fun n c ap => ?_, fun n c => ⟨rfl, rfl⟩, fun n k => ⟨rfl, rfl⟩, fun n d _ => ⟨rfl, rfl⟩,
    fun n d t hn hd ht => slotTag_reset hn hd ht, fun b _ => rfl, rfl, rfl, rfl, rfl, rfl, rfl, rfl, rfl, rfl⟩
  rw [getStream_reset]
  exact ⟨rfl, rfl, rfl⟩

end Sys2Proof.Machine

/-! # The system registers -/

namespace Sys2Proof.Machine
open Sys2Proof.Claims

/-- R166: what MFSR reads of each register of the table but FPFLAGS. -/
theorem sysRead_of_row (s : State) : ∀ row ∈ sysRows s, sysRead s row.1 = row.2 ∧ row.1 ≠ 9 := by
  have hid : ctxidWord s.cur = BitVec.ofNat 64 (s.cur.ctx % 4 + s.cur.core % 1024 * 4 + (if s.cur.ap then 1 else 0) * 4096) := by
    unfold ctxidWord w64 bit
    congr 1
    omega
  have hwin (c : Cwp) : cwpWord c = BitVec.ofNat 64 (c.win + c.depth * 8 + c.below * 2048) := by
    unfold cwpWord w64
    congr 1
    omega
  have hmode (m : Mode) : modeWord m =
      BitVec.ofNat 64 ((if m.sup then 1 else 0) + (if m.psup then 2 else 0) + (if m.intrap then 4 else 0)) := by
    obtain ⟨sup, psup, intrap⟩ := m
    cases sup <;> cases psup <;> cases intrap <;> rfl
  unfold sysRows
  simp only [List.forall_mem_cons, sysRead, hid, hwin, hmode]
  simp [linkOf, zext64, w64]
theorem exec_mfsr_of_free {s : State} {f : SysF} {vs : List VReg}
    (h : OpsReady s { priv := decide (0x21 ≤ f.sel13.toNat), ops := [dstS f.rd] } vs) (hfree : FreeS s f.rd)
    (hfp : (isFpflags f && mmaPending s) = false) :
    exec (.mfsr f) s = .next (completed (.mfsr f) { ops := [dstS f.rd] } (wrote s f.rd (sysRead s f.sel13.toNat)) .seq) := by
  rw [exec_mfsr]
  refine (perform_completes (t := wrote s f.rd (sysRead s f.sel13.toNat)) (f := .seq) _ _ h ?_).trans rfl
  rw [hfp, setReg_free hfree]
  rfl
theorem exec_mfsr_of_pending {s : State} {f : SysF} {vs : List VReg}
    (h : OpsReady s { priv := decide (0x21 ≤ f.sel13.toNat), ops := [dstS f.rd] } vs) (hfp : (isFpflags f && mmaPending s) = true) :
    exec (.mfsr f) s = .next (modCur s (fun x => { x with wait := .interlock })) := by
  rw [exec_mfsr]
  refine (perform_of_ready _ _ h).trans ?_
  rw [hfp]
  rfl
theorem isFpflags_iff (f : SysF) : isFpflags f = true ↔ f.sel13.toNat = 9 := by
  unfold isFpflags
  rw [beq_iff_eq]
  exact ⟨fun h => by rw [h]; rfl, fun h => BitVec.eq_of_toNat_eq h⟩
theorem systemReads : SystemReads := by
  intro s f vs h hfree
  refine ⟨fun row hrow hsel => ?_, fun hsel hmma => ?_, fun hsel hmma => ?_⟩
  · obtain ⟨hread, hne⟩ := sysRead_of_row s row hrow
    have hfp : isFpflags f = false := Bool.eq_false_iff.mpr fun hf => hne (hsel ▸ (isFpflags_iff f).mp hf)
    rw [exec_mfsr_of_free h hfree (by rw [hfp]; rfl), hsel, hread]
  · rw [exec_mfsr_of_free h hfree (by rw [hmma, Bool.and_false]), hsel]
    rfl
  · exact exec_mfsr_of_pending h (by rw [hmma, Bool.and_true]; exact (isFpflags_iff f).mpr hsel)

/-- R166: the bits of a field kept in their place. -/
theorem keepBits_eq (v : W64) (lo hi : Nat) : keepBits v lo hi = v &&& BitVec.ofNat 64 ((2 ^ (hi + 1 - lo) - 1) * 2 ^ lo) := by
  unfold keepBits w64 wbits
  apply BitVec.eq_of_toNat_eq
  apply Nat.eq_of_testBit_eq
  intro i
  simp only [BitVec.toNat_ofNat, BitVec.toNat_and, Nat.testBit_and, Nat.testBit_mod_two_pow, Nat.testBit_mul_two_pow,
    Nat.testBit_shiftRight, Nat.testBit_two_pow_sub_one]
  by_cases hlo : lo ≤ i
  · have hi : lo + (i - lo) = i := by omega
    rw [hi]
    by_cases h64 : i < 64
    · simp [hlo, h64, Bool.and_comm]
    · simp [h64]
  · simp [hlo]
/-- R166: what MTSR writes of each register of one stream or one context. -/
theorem sysWrite_of_row (s : State) (v : W64) : ∀ row ∈ sysWrites s v, sysWrite s row.1 v = .ok row.2 ∧ sysReadOnly row.1 = false := by
  unfold sysWrites
  simp [sysWrite, sysReadOnly, keepBits_eq]
section
variable {s : State} {f : SysF} {vs : List VReg}
  (h : OpsReady s { priv := sysPrivWrite f.sel13.toNat, ops := [srcS 1 f.rs1 false] } vs)
include h
theorem exec_mtsr_of_written (hro : sysReadOnly f.sel13.toNat = false) {t : State} (ht : sysWrite s f.sel13.toNat (sval vs 0) = .ok t) :
    exec (.mtsr f) s =
      .next (completed (.mtsr f) { priv := sysPrivWrite f.sel13.toNat, ops := [srcS 1 f.rs1 false] } t .seq) := by
  rw [exec_mtsr]
  unfold execMtsr
  refine perform_completes _ _ h ?_
  rw [hro, ht]
  rfl
theorem exec_mtsr_of_stopped (hro : sysReadOnly f.sel13.toNat = false) {e : Stop} (he : sysWrite s f.sel13.toNat (sval vs 0) = .error e) :
    exec (.mtsr f) s = finish s (.mtsr f) (.error e) := by
  rw [exec_mtsr]
  unfold execMtsr
  refine (perform_of_ready _ _ h).trans ?_
  rw [hro, he]
  rfl
theorem exec_mtsr_of_readOnly (hro : sysReadOnly f.sel13.toNat = true) :
    exec (.mtsr f) s = .next (takeTrap s cOPERAND (f.sel13.setWidth 64) (instrWords (.mtsr f))) := by
  rw [exec_mtsr]
  unfold execMtsr
  refine (perform_of_ready _ _ h).trans ?_
  rw [hro]
  rfl
end
/-- R105: TDBASE and TDSIZE, as the region that either names. -/
theorem sysWrite_region (s : State) (v : W64) (base size esz sel : Nat)
    (hsel : (sel = 0x18 ∧ base = v.toNat / 4096 % 128 ∧ size = (getCore s s.cur.core).tdsize ∧ esz = (getCore s s.cur.core).tdesz) ∨
      (sel = 0x19 ∧ base = (getCore s s.cur.core).tdbase ∧ size = v.toNat / 4096 % 256 ∧ esz = v.toNat % 4)) :
    sysWrite s sel v = setRegion s base size esz v ∧ sysReadOnly sel = false := by
  have hshift : v.toNat >>> 12 = v.toNat / 4096 := Nat.shiftRight_eq_div_pow _ 12
  rcases hsel with ⟨rfl, rfl, rfl, rfl⟩ | ⟨rfl, rfl, rfl, rfl⟩ <;> exact ⟨by simp [sysWrite, wbits, hshift], rfl⟩
/-- R166: a word of MFSR or MTSR with a number that the table lacks. -/
theorem decodeWords_of_unlisted {w z : W32} {i : Instr} (hw : w.getLsbD 31 = false) (hd : decode32 w = .ok i) (hi : i.wf = false) :
    decodeWords w z = .error .badField := by
  unfold decodeWords
  rw [hw, if_neg (by simp), hd]
  show (if acceptsFields i then _ else _) = _
  rw [acceptsFields, hi]
  rfl
open Sys2Proof.Laws in
theorem systemNumbers : SystemNumbers := by
  intro rd rs1 sel z hsel
  have hlisted : listedSel sel = false := by
    unfold listedSel
    simp only [List.mem_cons, List.not_mem_nil, not_or] at hsel
    simp
    omega
  refine ⟨decodeWords_of_unlisted (w := sysWord 48 ⟨rd, rs1, sel⟩) (i := .mfsr ⟨rd, rs1, sel⟩) (sysWord_short _ _) ?_ ?_,
    decodeWords_of_unlisted (w := sysWord 49 ⟨rd, rs1, sel⟩) (i := .mtsr ⟨rd, rs1, sel⟩) (sysWord_short _ _) ?_ ?_⟩
  · unfold decode32
    rw [sysWord_major, sysWord_fields]
    rfl
  · exact (congrArg _ hlisted).trans (Bool.and_false _)
  · unfold decode32
    rw [sysWord_major, sysWord_fields]
    rfl
  · exact (congrArg _ hlisted).trans (Bool.and_false _)

/-! ### A new SPHASH (R50, R51) -/

/-- R50: the part of a bank's number that the row decides. -/
def rowHash (h : BitVec 55) (x : Nat) : Nat :=
  (upFrom 0 5).foldl (fun a j => a + parity64 (nbits x 8 11 &&& wbits h (11 * j) 11) * 2 ^ j) 0

theorem bankOf_eq (h : BitVec 55) (x : Nat) : bankOf h x = x / 8 % 32 ^^^ rowHash h x := by
  show (x >>> 3) % 2 ^ 5 ^^^ rowHash h x = _
  rw [Nat.shiftRight_eq_div_pow]
  rfl
theorem rowHash_lt (h : BitVec 55) (x : Nat) : rowHash h x < 32 := by
  have hp (y : Nat) : parity64 y < 2 := Nat.mod_lt _ (by omega)
  have h0 := hp (nbits x 8 11 &&& wbits h (11 * 0) 11)
  have h1 := hp (nbits x 8 11 &&& wbits h (11 * 1) 11)
  have h2 := hp (nbits x 8 11 &&& wbits h (11 * 2) 11)
  have h3 := hp (nbits x 8 11 &&& wbits h (11 * 3) 11)
  have h4 := hp (nbits x 8 11 &&& wbits h (11 * 4) 11)
  unfold rowHash
  rw [show upFrom 0 5 = [0, 1, 2, 3, 4] from rfl]
  simp only [List.foldl_cons, List.foldl_nil]
  omega
theorem rowHash_congr (h : BitVec 55) {x y : Nat} (hxy : x / 256 = y / 256) : rowHash h x = rowHash h y := by
  have hrow : nbits x 8 11 = nbits y 8 11 := by
    unfold nbits
    rw [Nat.shiftRight_eq_div_pow, Nat.shiftRight_eq_div_pow]
    exact congrArg (· % 2 ^ 11) hxy
  unfold rowHash
  rw [hrow]
theorem bankOf_lt (h : BitVec 55) (x : Nat) : bankOf h x < 32 := by
  rw [bankOf_eq]
  exact Nat.xor_lt_two_pow (n := 5) (Nat.mod_lt _ (by omega)) (rowHash_lt h x)
theorem bankOf_rowStart (h : BitVec 55) (x : Nat) : bankOf h (x / 256 * 256) = rowHash h x := by
  have hz : x / 256 * 256 / 8 % 32 = 0 := by omega
  rw [bankOf_eq, hz, Nat.zero_xor]
  exact rowHash_congr h (by omega)

/-- R51: the offset to which a byte of the scratchpad moves under a new SPHASH: its row, its bank, its byte. -/
def hashOffset (old new : BitVec 55) (o : Nat) : Nat := o / 256 * 256 + (bankOf old o ^^^ bankOf new (o / 256 * 256)) * 8 + o % 8

theorem hashIndex_lt (old new : BitVec 55) (o : Nat) : bankOf old o ^^^ bankOf new (o / 256 * 256) < 32 :=
  Nat.xor_lt_two_pow (n := 5) (bankOf_lt old o) (bankOf_lt new _)
theorem hashOffset_row (old new : BitVec 55) (o : Nat) : hashOffset old new o / 256 = o / 256 := by
  have := hashIndex_lt old new o
  unfold hashOffset
  omega
theorem hashOffset_byte (old new : BitVec 55) (o : Nat) : hashOffset old new o % 8 = o % 8 := by
  unfold hashOffset
  omega
theorem hashOffset_bank (old new : BitVec 55) (o : Nat) : bankOf new (hashOffset old new o) = bankOf old o := by
  have hi : hashOffset old new o / 8 % 32 = bankOf old o ^^^ rowHash new o := by
    have hlt := hashIndex_lt old new o
    rw [← bankOf_rowStart new o]
    unfold hashOffset
    omega
  rw [bankOf_eq, hi, rowHash_congr new (hashOffset_row old new o), Nat.xor_assoc, Nat.xor_self, Nat.xor_zero]
/-- A byte is known by its row, its bank and its place in the word. -/
theorem eq_of_row_bank_byte (h : BitVec 55) {x y : Nat} (hrow : x / 256 = y / 256) (hbank : bankOf h x = bankOf h y)
    (hbyte : x % 8 = y % 8) : x = y := by
  rw [bankOf_eq, bankOf_eq, rowHash_congr h hrow] at hbank
  have hi : x / 8 % 32 = y / 8 % 32 := Nat.xor_left_inj.mp hbank
  omega
theorem hashOffset_inj (old new : BitVec 55) {o o' : Nat} (h : hashOffset old new o = hashOffset old new o') : o = o' := by
  refine eq_of_row_bank_byte old ?_ ?_ ?_
  · rw [← hashOffset_row old new o, h, hashOffset_row]
  · rw [← hashOffset_bank old new o, h, hashOffset_bank]
  · rw [← hashOffset_byte old new o, h, hashOffset_byte]

section
variable (e : Nat) (f : Nat → Nat)
theorem get_foldl_set_ne (cs m : List Host.Cell) (a : Nat) (h : ∀ c ∈ cs, f c.1 ≠ a) :
    Memory.get e (cs.foldl (fun m c => Memory.set e m (f c.1) c.2) m) a = Memory.get e m a := by
  induction cs generalizing m with
  | nil => rfl
  | cons c cs ih =>
    rw [List.forall_mem_cons] at h
    exact (ih _ h.2).trans (Memory.get_set_ne e m (f c.1) a c.2 h.1.symm)
theorem get_foldl_set_mem (cs m : List Host.Cell) (hf : cs.Pairwise (fun c d => f c.1 ≠ f d.1)) (c : Host.Cell) (hc : c ∈ cs) :
    Memory.get e (cs.foldl (fun m c => Memory.set e m (f c.1) c.2) m) (f c.1) = c.2 := by
  induction cs generalizing m with
  | nil => cases hc
  | cons d cs ih =>
    rw [List.pairwise_cons] at hf
    rcases List.mem_cons.mp hc with rfl | hc
    · exact (get_foldl_set_ne e f cs _ _ (fun x hx => (hf.1 x hx).symm)).trans (Memory.get_set_same e m _ _)
    · exact ih _ hf.2 hc
end
theorem get_of_mem {e : Nat} {m : List Host.Cell} (h : m.Pairwise (fun a b => a.1 < b.1)) {c : Host.Cell} (hc : c ∈ m) :
    Memory.get e m c.1 = c.2 := by
  induction m with
  | nil => cases hc
  | cons d m ih =>
    obtain ⟨j, b⟩ := d
    rw [List.pairwise_cons] at h
    rcases List.mem_cons.mp hc with rfl | hc
    · simp [Memory.get]
    · have hlt := h.1 c hc
      have hne : c.1 ≠ j := by
        intro hj
        rw [hj] at hlt
        exact Nat.lt_irrefl _ hlt
      rw [Memory.get, if_neg hne]
      exact ih h.2 hc
theorem get_filter_kept (e : Nat) (p : Nat → Bool) (m : List Host.Cell) (a : Nat) (ha : p a = true) :
    Memory.get e (m.filter (fun c => p c.1)) a = Memory.get e m a := by
  induction m with
  | nil => rfl
  | cons c m ih =>
    obtain ⟨j, b⟩ := c
    by_cases hj : p j = true
    · simp [Memory.get, hj, ih]
    · have hne : a ≠ j := fun h => hj (h ▸ ha)
      simp [Memory.get, hj, hne, ih]

/-- The bytes of the scratchpad whose window begins at `base`. -/
def inPad (base a : Nat) : Bool := decide (base ≤ a ∧ a < base + 0x80000)
/-- R51: where a byte of memory stands under a new SPHASH of the scratchpad at `base`. -/
def hashMove (old new : BitVec 55) (base a : Nat) : Nat :=
  if base ≤ a ∧ a < base + 0x80000 then base + (a - base) / 256 * 256 + (bankOf old (a - base) ^^^ bankOf new ((a - base) / 256 * 256)) * 8 + (a - base) % 8
  else a

theorem rehash_mem (s : State) (n : Nat) (new : BitVec 55) : (rehash s n new).mem =
    (s.mem.filter (fun c => inPad (coreBase n) c.1)).foldl
      (fun m c => Memory.set s.epoch m (hashMove (getCore s n).sphash new (coreBase n) c.1) c.2)
      (s.mem.filter (fun c => !inPad (coreBase n) c.1)) := rfl
theorem hashMove_pad (old new : BitVec 55) (base o : Nat) (ho : o < 0x80000) : hashMove old new base (base + o) = base + hashOffset old new o := by
  unfold hashMove hashOffset
  rw [if_pos (by omega), Nat.add_sub_cancel_left]
  omega
theorem hashMove_inPad {old new : BitVec 55} {base a : Nat} (ha : inPad base a = true) : inPad base (hashMove old new base a) = true := by
  obtain ⟨hlo, hhi⟩ := of_decide_eq_true ha
  obtain ⟨o, rfl⟩ := Nat.exists_eq_add_of_le hlo
  have hrow := hashOffset_row old new o
  rw [hashMove_pad old new base o (by omega)]
  exact decide_eq_true (by omega)
theorem hashMove_inj {old new : BitVec 55} {base a b : Nat} (ha : inPad base a = true) (hb : inPad base b = true)
    (h : hashMove old new base a = hashMove old new base b) : a = b := by
  obtain ⟨halo, hahi⟩ := of_decide_eq_true ha
  obtain ⟨hblo, hbhi⟩ := of_decide_eq_true hb
  obtain ⟨o, rfl⟩ := Nat.exists_eq_add_of_le halo
  obtain ⟨q, rfl⟩ := Nat.exists_eq_add_of_le hblo
  rw [hashMove_pad old new base o (by omega), hashMove_pad old new base q (by omega)] at h
  rw [hashOffset_inj old new (Nat.add_left_cancel h)]
theorem unlisted_pad (e n o : Nat) (hn : n < 1024) (ho : o < 0x80000) : unlisted e (coreBase n + o) = 0 := by
  have hoff : (coreBase n + o) % 0x400000 = o := by
    unfold coreBase coreWin
    omega
  unfold unlisted
  rw [if_neg (by unfold coreBase coreWin; omega), if_pos (by unfold coreBase coreWin; omega)]
  dsimp only
  rw [hoff, if_neg (by omega)]
section
variable (s : State) (n : Nat) (new : BitVec 55)
theorem get_rehash_outside (a : Nat) (ha : inPad (coreBase n) a = false) :
    Memory.get s.epoch (rehash s n new).mem a = Memory.get s.epoch s.mem a := by
  rw [rehash_mem, get_foldl_set_ne]
  · exact get_filter_kept s.epoch (fun x => !inPad (coreBase n) x) s.mem a (by simp [ha])
  · intro c hc h
    have := hashMove_inPad (old := (getCore s n).sphash) (new := new) (List.mem_filter.mp hc).2
    rw [h, ha] at this
    cases this
/-- R51: a byte of the scratchpad keeps its row, its bank and its place in the word. -/
theorem get_rehash_pad (hs : Canon s) (hn : n < 1024) (o : Nat) (ho : o < 0x80000) :
    Memory.get s.epoch (rehash s n new).mem (coreBase n + hashOffset (getCore s n).sphash new o) =
      Memory.get s.epoch s.mem (coreBase n + o) := by
  obtain ⟨hrising, _⟩ := (Memory.wf_iff s.epoch s.mem).mp hs
  have hin : inPad (coreBase n) (coreBase n + o) = true := decide_eq_true (by omega)
  rw [← hashMove_pad _ new _ o ho, rehash_mem]
  by_cases hlisted : ∃ c ∈ s.mem, c.1 = coreBase n + o
  · obtain ⟨c, hc, hca⟩ := hlisted
    rw [← hca, get_of_mem hrising hc]
    refine get_foldl_set_mem _ _ _ _ ?_ c (List.mem_filter.mpr ⟨hc, by rw [hca]; exact hin⟩)
    refine (hrising.filter _).imp_of_mem fun ha hb hlt heq => ?_
    exact Nat.ne_of_lt hlt (hashMove_inj (List.mem_filter.mp ha).2 (List.mem_filter.mp hb).2 heq)
  · have hmove := hashMove_inPad (old := (getCore s n).sphash) (new := new) hin
    obtain ⟨hlo, hhi⟩ := of_decide_eq_true hmove
    obtain ⟨q, hq⟩ := Nat.exists_eq_add_of_le hlo
    rw [get_foldl_set_ne, Memory.get_of_not_mem, Memory.get_of_not_mem, unlisted_pad _ n o hn ho, hq, unlisted_pad _ n q hn (by omega)]
    · exact fun c hc hca => hlisted ⟨c, hc, hca⟩
    · intro c hc hca
      have hout := (List.mem_filter.mp hc).2
      rw [hca, hmove] at hout
      cases hout
    · intro c hc heq
      obtain ⟨hmem, hcin⟩ := List.mem_filter.mp hc
      exact hlisted ⟨c, hmem, hashMove_inj hcin hin heq⟩
end
/-- R50, R51: the byte of the same row, bank and place under a new SPHASH is the byte that stood there. -/
theorem get_rehash_of_bank {s : State} {n : Nat} (new : BitVec 55) (hs : Canon s) (hn : n < 1024) {o q : Nat} (ho : o < 0x80000)
    (hrow : q / 256 = o / 256) (hbyte : q % 8 = o % 8) (hbank : bankOf new q = bankOf (getCore s n).sphash o) :
    Memory.get s.epoch (rehash s n new).mem (coreBase n + q) = Memory.get s.epoch s.mem (coreBase n + o) := by
  have hq : q = hashOffset (getCore s n).sphash new o := by
    refine eq_of_row_bank_byte new ?_ ?_ ?_
    · rw [hrow, hashOffset_row]
    · rw [hbank, hashOffset_bank]
    · rw [hbyte, hashOffset_byte]
  rw [hq]
  exact get_rehash_pad s n new hs hn o ho
theorem sysWrite_fpctl (s : State) (v : W64) :
    sysWrite s 8 v = if 5 ≤ v.toNat % 8 then .error (.trap cOPERAND v) else .ok (modCurCtx s (fun c => { c with fpctl := v.setWidth 9 })) := by
  unfold sysWrite
  rfl
theorem sysWrite_fpflags (s : State) (v : W64) :
    sysWrite s 9 v = if mmaPending s then .error (.wait .interlock) else .ok (modCurCtx s (fun c => { c with fpflags := v.setWidth 5 })) := by
  unfold sysWrite
  rfl
theorem setRegion_eq (s : State) (base size esz : Nat) (v : W64) :
    setRegion s base size esz v = if 128 < base + size then .error (.trap cOPERAND v)
      else if tableEmpty s s.cur.core then
        .ok (modCore s s.cur.core (fun c => { c with tdbase := base, tdsize := size, tdesz := esz, regDir := [] }))
      else .error (.wait .interlock) := by
  unfold setRegion
  split
  · rfl
  · cases tableEmpty s s.cur.core <;> rfl
theorem systemWrites : SystemWrites := by
  intro s f vs p h
  refine ⟨fun row hrow hsel => ?_, fun hsel => ?_, fun hsel hmode => ?_, fun hsel hmode => ?_, fun hsel hmma => ?_, fun hsel hmma => ?_, ?_,
    fun hsel hs hn => ?_⟩
  · obtain ⟨hw, hro⟩ := sysWrite_of_row s (sval vs 0) row hrow
    exact exec_mtsr_of_written h (by rw [hsel, hro]) (by rw [hsel, hw])
  · refine exec_mtsr_of_readOnly h ?_
    simp only [List.mem_cons, List.not_mem_nil, or_false] at hsel
    rcases hsel with h | h | h | h | h | h <;> rw [h] <;> rfl
  · refine exec_mtsr_of_written h (by rw [hsel]; rfl) ?_
    rw [hsel, sysWrite_fpctl, if_neg (by omega)]
  · refine (exec_mtsr_of_stopped h (by rw [hsel]; rfl) (e := .trap cOPERAND (sval vs 0)) ?_).trans rfl
    rw [hsel, sysWrite_fpctl, if_pos hmode]
  · refine exec_mtsr_of_written h (by rw [hsel]; rfl) ?_
    rw [hsel, sysWrite_fpflags, hmma, if_neg Bool.false_ne_true]
  · refine (exec_mtsr_of_stopped h (by rw [hsel]; rfl) (e := .wait .interlock) ?_).trans rfl
    rw [hsel, sysWrite_fpflags, hmma, if_pos rfl]
  · intro k base size esz hsel
    obtain ⟨hw, hro⟩ := sysWrite_region s (sval vs 0) base size esz _ hsel
    rw [setRegion_eq] at hw
    refine ⟨fun hpast => ?_, fun hfits hbusy => ?_, fun hfits hempty => ?_⟩
    · exact (exec_mtsr_of_stopped h hro (by rw [hw, if_pos hpast])).trans rfl
    · exact (exec_mtsr_of_stopped h hro (by rw [hw, if_neg (by omega), hbusy, if_neg Bool.false_ne_true])).trans rfl
    · exact exec_mtsr_of_written h hro (by rw [hw, if_neg (by omega), hempty, if_pos rfl])
  · refine ⟨rehash s s.cur.core ((sval vs 0).setWidth 55), exec_mtsr_of_written h (by rw [hsel]; rfl) (by rw [hsel]; rfl), ?_, ?_, ?_⟩
    · unfold rehash
      simp
    · exact fun o q ho hrow hbyte hbank => get_rehash_of_bank _ hs hn ho hrow hbyte hbank
    · exact fun a ha => get_rehash_outside s s.cur.core _ a (decide_eq_false (by omega))

/-- Settles O10: MFSR and MTSR row by row, a new SPHASH as a move of the scratchpad's bytes that is one to one, and the numbers
that the decoder refuses. -/
theorem systemRegisters : Obligations.SystemRegisters := ⟨systemReads, systemWrites, systemNumbers⟩

end Sys2Proof.Machine

/-! # A stream's translation, and one level of a walk -/

namespace Sys2Proof.Machine
open Sys2Proof.Claims

theorem throughLeaf_of_refused {s : State} {e : TlbEntry} {a : Access} {va n : Nat} {sup writes whole : Bool}
    (h : permitted e.pte a sup writes = false) : throughLeaf s e a va n sup writes whole = .error 1 := by
  unfold throughLeaf leafAddress
  rw [h]
  rfl
/-- R43: a leaf's page with the offset kept. -/
theorem leafAddress_pa {e : TlbEntry} {a : Access} {va : Nat} {sup writes : Bool} {x : Xlated}
    (h : leafAddress e a va sup writes = .ok x) : x.pa = leafBase e.pte + va % 2 ^ e.log2 := by
  unfold leafAddress at h
  split at h
  · cases h
  · cases h
    rfl
theorem throughLeaf_pa {s : State} {e : TlbEntry} {a : Access} {va n : Nat} {sup writes whole : Bool} {x : Xlated}
    (h : throughLeaf s e a va n sup writes whole = .ok x) : x.pa = leafBase e.pte + va % 2 ^ e.log2 := by
  unfold throughLeaf at h
  cases hl : leafAddress e a va sup writes with
  | error k => rw [hl] at h; cases h
  | ok y =>
    rw [hl] at h
    change targeted s a n whole y = .ok x at h
    unfold targeted at h
    split at h
    · cases h
    · cases h
      exact leafAddress_pa hl
section
variable {s : State} {a : Access} {va : W64} {n : Nat} {writes whole : Bool}
theorem xlate_of_past (h : 2 ^ 48 ≤ va.toNat) :
    xlate s a va n writes whole = .error (.trap (faultCause a writes) (faultVal 3 va.toNat)) := by
  unfold xlate
  exact if_pos h
section
variable (hva : va.toNat < 2 ^ 48) (hwin : inWindow (curWindow s) va.toNat = none)
include hva hwin
/-- R43: an address of the paged space, by the leaf that covers it. -/
theorem xlate_of_leaf {e : TlbEntry} (he : tlbFind (getCluster s (clusterOf s.cur.core)).tlb (curAsid s) va.toNat = some e) :
    xlate s a va n writes whole = match throughLeaf s e a va.toNat n (curSup s) writes whole with
      | .ok x => .ok x
      | .error k => .error (.trap (faultCause a writes) (faultVal k va.toNat)) := by
  unfold xlate
  dsimp only
  rw [if_neg (Nat.not_le.mpr hva), hwin]
  dsimp only
  rw [he]
  rfl
theorem xlate_of_uncovered (he : tlbFind (getCluster s (clusterOf s.cur.core)).tlb (curAsid s) va.toNat = none)
    (hw : (curStream s).walkFault = none) : xlate s a va n writes whole = .error (.wait (.walk (curAsid s) va.toNat)) := by
  unfold xlate
  dsimp only
  rw [if_neg (Nat.not_le.mpr hva), hwin]
  dsimp only
  rw [he]
  dsimp only
  rw [hw]
  rfl
end
end
theorem translateAddress : TranslateAddress := by
  intro s a va n writes whole
  refine ⟨fun h => xlate_of_past h, fun hva hwin => ⟨fun e he => ⟨fun hp => ?_, fun hp x hx => ?_⟩, fun he hw => ?_⟩⟩
  · have hval : faultVal 1 va.toNat = BitVec.ofNat 64 (2 ^ 60 + va.toNat) := by
      unfold faultVal w64
      rw [Nat.mod_eq_of_lt hva, Nat.one_mul]
    rw [xlate_of_leaf hva hwin he, throughLeaf_of_refused (sup := curSup s) hp]
    exact congrArg (fun v => Except.error (Stop.trap (faultCause a writes) v)) hval
  · rw [xlate_of_leaf hva hwin he] at hx
    split at hx
    · next h =>
      cases hx
      exact throughLeaf_pa h
    · cases hx
  · exact xlate_of_uncovered hva hwin he hw
section
variable {s : State} {ptrs : List PtrEntry} {asid va l table : Nat} {e : W64}
  (hread : readPte s (table + levelIndex l va * 8) = .ok e)
include hread
theorem walkFrom_of_invalid (hv : pteV e = false) : (walkFrom s ptrs asid va l table).leaf = .error 0 := by
  unfold walkFrom
  dsimp only
  rw [hread]
  dsimp only
  rw [hv]
  rfl
theorem walkFrom_of_malformed (hv : pteV e = true) (hm : malformed l e = true) : (walkFrom s ptrs asid va l table).leaf = .error 2 := by
  unfold walkFrom
  dsimp only
  rw [hread]
  dsimp only
  rw [hv, hm]
  rfl
theorem walkFrom_of_leaf (hv : pteV e = true) (hm : malformed l e = false) (hl : pteLeaf e = true) :
    (walkFrom s ptrs asid va l table).leaf =
      .ok { asid := asid, vbase := va / 2 ^ levelLog l * 2 ^ levelLog l, log2 := levelLog l, pte := e } := by
  unfold walkFrom
  dsimp only
  rw [hread]
  dsimp only
  rw [hv, hm, hl]
  rfl
end
theorem walkFrom_of_pointer {s : State} {ptrs : List PtrEntry} {asid va k table : Nat} {e : W64}
    (hread : readPte s (table + levelIndex (k + 1) va * 8) = .ok e) (hv : pteV e = true) (hm : malformed (k + 1) e = false)
    (hl : pteLeaf e = false) :
    (walkFrom s ptrs asid va (k + 1) table).leaf = (walkFrom s ptrs asid va k (wbits e 8 44 * 256)).leaf := by
  rw [walkFrom]
  dsimp only
  rw [hread]
  dsimp only
  rw [hv, hm, hl]
  rfl
theorem walkOneLevel : WalkOneLevel := by
  intro s ptrs asid va l table e hread _
  refine ⟨walkFrom_of_invalid hread, walkFrom_of_malformed hread, fun hv hm hl => ⟨_, walkFrom_of_leaf hread hv hm hl, rfl, rfl, rfl, rfl⟩, ?_⟩
  rintro k rfl hv hm hl
  have hnext : wbits e 8 44 = e.toNat / 256 % 2 ^ 44 := by
    unfold wbits
    rw [Nat.shiftRight_eq_div_pow]
  rw [walkFrom_of_pointer hread hv hm hl, hnext]

/-- Settles O13: each case of a stream's translation, and each kind of entry of one level. -/
theorem translation : Obligations.Translation := ⟨translateAddress, walkOneLevel⟩

end Sys2Proof.Machine

/-! # O42: the driver's writes of hash rows, PINSIZE and plane tables; dead planes (R53-R58, R388, R389, R396) -/

namespace Sys2Proof.Machine
open Sys2Proof.Claims

section
variable {s : State} (h : Awake s)
include h

/-- R396: a write that the driver makes. -/
theorem byDriver_true_of_awake (f : State → State) : byDriver true s f = .next (f s) := event_of_awake h _
/-- R396: a write that another makes changes nothing. -/
theorem byDriver_false_of_awake (f : State → State) : byDriver false s f = .next s := event_of_awake h _

theorem exec_hashRowWrite_of_awake (row : Nat) (v : W64) : exec (.hashRowWrite row v true) s = .next (hashRowWrite s row v) := by
  rw [exec_hashRowWrite, execHashRowWrite, byDriver_true_of_awake h]
theorem exec_pinsizeWrite_of_awake (v : W64) : exec (.pinsizeWrite v true) s = .next (pinsizeWrite s v) := by
  rw [exec_pinsizeWrite, execPinsizeWrite, byDriver_true_of_awake h]
theorem exec_planeTableWrite_of_awake (off : Nat) (v : W64) :
    exec (.planeTableWrite off v true) s = .next (planeTableWrite s off 8 v.toNat) := by
  rw [exec_planeTableWrite, execPlaneTableWrite, byDriver_true_of_awake h]
theorem exec_planeDeadSet_of_awake (mask : BitVec 8) : exec (.planeDeadSet mask true) s = .next (planeDeadSet s mask) := by
  rw [exec_planeDeadSet, execPlaneDeadSet, byDriver_true_of_awake h]
theorem exec_quiesceClear_of_awake : exec (.quiesceClear true) s = .next (quiesceClear s) := by
  rw [exec_quiesceClear, execQuiesceClear, byDriver_true_of_awake h]

theorem exec_placement_of_other (row off : Nat) (v : W64) (mask : BitVec 8) :
    ∀ i ∈ [Instr.hashRowWrite row v false, .pinsizeWrite v false, .planeTableWrite off v false, .planeDeadSet mask false, .quiesceClear false],
      exec i s = .next s := by
  intro i hi
  simp only [List.mem_cons, List.not_mem_nil, or_false] at hi
  obtain rfl | rfl | rfl | rfl | rfl := hi <;>
    simp [execHashRowWrite, execPinsizeWrite, execPlaneTableWrite, execPlaneDeadSet, execQuiesceClear, byDriver_false_of_awake h]

end

/-! ### Hash rows and PINSIZE (R53, R56) -/

@[simp] theorem loseHbm_mem (s : State) : (loseHbm s).mem = withoutHbm s.mem := rfl
@[simp] theorem loseHbm_epoch (s : State) : (loseHbm s).epoch = s.epoch + 1 := rfl
@[simp] theorem loseHbm_hbmDir (s : State) : (loseHbm s).dev.hbmDir = [] := rfl
@[simp] theorem loseHbm_pinsize (s : State) : (loseHbm s).dev.pinsize = s.dev.pinsize := rfl
@[simp] theorem hashRow_loseHbm (s : State) (i : Nat) : hashRow (loseHbm s).dev i = hashRow s.dev i := rfl

theorem hashRowWrite_same {s : State} {row : Nat} {v : W64} (h : (forceRow row v).toNat = hashRow s.dev row) :
    hashRowWrite s row v = s := if_pos (.inr h)

theorem hashRowWrite_changed {s : State} {row : Nat} {v : W64} (hrow : row < 13) (h : (forceRow row v).toNat ≠ hashRow s.dev row) :
    hashRowWrite s row v =
      loseHbm (modDev s (fun d => { d with hashRows := tset (1#64 <<< homeBit row) d.hashRows row (forceRow row v) })) :=
  if_neg (by simp [h]; omega)

/-- Reading another key than the one set, with a default of its own. -/
theorem tget_tset_ne_of_defaults {α : Type} [DecidableEq α] (d e : α) (t : Tbl α) {k i : Nat} (v : α) (h : i ≠ k) :
    tget d (tset e t k v) i = tget d t i := by
  unfold tset
  split
  · exact tget_filter_ne d t k i h
  · rw [tget_tins_ne _ _ _ _ _ h]; exact tget_filter_ne d t k i h

/-- The rows in force once one of them was written. -/
theorem hashRow_tset_same (d : Dev) (row : Nat) (v : W64) :
    hashRow { d with hashRows := tset (1#64 <<< homeBit row) d.hashRows row v } row = v.toNat :=
  congrArg BitVec.toNat (tget_tset_same _ _ _ _)
theorem hashRow_tset_ne (d : Dev) {row j : Nat} (v : W64) (h : j ≠ row) :
    hashRow { d with hashRows := tset (1#64 <<< homeBit row) d.hashRows row v } j = hashRow d j :=
  congrArg BitVec.toNat (tget_tset_ne_of_defaults _ _ _ _ h)

theorem pinsizeWrite_ignored {s : State} {v : W64} (h : 80 < v.toNat % 128 ∨ v.toNat % 128 = s.dev.pinsize) : pinsizeWrite s v = s :=
  if_pos (by simpa [wbits] using h)
theorem pinsizeWrite_changed {s : State} {v : W64} (hle : v.toNat % 128 ≤ 80) (hne : v.toNat % 128 ≠ s.dev.pinsize) :
    pinsizeWrite s v = loseHbm (modDev s (fun d => { d with pinsize := v.toNat % 128 })) := by
  have hp : ¬ (80 < v.toNat % 128 ∨ v.toNat % 128 = s.dev.pinsize) := by omega
  simp [pinsizeWrite, wbits, hp]

/-! ### The plane tables (R58, R388) -/

theorem planeRowWrite_mem (s : State) (k : Nat) (v : W64) : (planeRowWrite s k v).mem = s.mem := (planeRowWrite_memory s k v).1

theorem planeTableWrite_busy {s : State} (h : s.dev.quiesce = false) (off n x : Nat) : planeTableWrite s off n x = s := by
  have hbucket : ∀ b x, bucketWrite s b x = s := fun b x => if_neg (by simp [h])
  have hfold : ∀ l : List Nat, l.foldl (fun s i => bucketWrite s (off - 0x40 + i) (x / 256 ^ i % 256)) s = s := by
    intro l
    induction l with
    | nil => rfl
    | cons i l ih => rw [List.foldl_cons, hbucket, ih]
  unfold planeTableWrite
  split
  · exact if_neg (by simp [h])
  · split
    · exact hfold _
    · rfl

/-- R58: bits [5:0] of a plane row are forced to 0. -/
theorem clear_low_six (v : W64) : w64 (v.toNat / 64 * 64) = v &&& ~~~0x3F#64 := by
  have hshift : v.toNat / 64 * 64 = (v.toNat >>> 6) <<< 6 := by rw [Nat.shiftLeft_eq, Nat.shiftRight_eq_div_pow]
  have hlow : ∀ i, (0x3F#64).getLsbD i = decide (i < 6) := fun i => by
    rw [BitVec.getLsbD_ofNat, show 0x3F = 2 ^ 6 - 1 from rfl, Nat.testBit_two_pow_sub_one]
    simp; omega
  refine BitVec.eq_of_getLsbD_eq fun i hi => ?_
  rw [hshift, w64, BitVec.getLsbD_ofNat, Nat.testBit_shiftLeft, Nat.testBit_shiftRight, BitVec.getLsbD_and, BitVec.getLsbD_not, hlow]
  by_cases h6 : 6 ≤ i
  · simp [hi, h6, BitVec.getLsbD]
  · simp [hi, h6]; omega

theorem planeTableWrite_row {s : State} (h : s.dev.quiesce = true) {k : Nat} (hk : k < 6) (v : W64) :
    planeTableWrite s (8 * k) 8 v.toNat =
      modDev (noteHeldBack s) (fun d => { d with planeRows := tset (planeRowDefault k) d.planeRows k (v &&& ~~~0x3F#64) }) := by
  have hoff : 8 * k < 0x30 := by omega
  have hrow : 8 * k / 8 = k := by omega
  have hv : w64 v.toNat = v := by simp [w64]
  simp only [planeTableWrite, hoff, if_true, hrow, hv, planeRowWrite, h, hk, and_self, clear_low_six]

/-- What a run of bucket writes keeps. -/
theorem planeRows_foldl_bucketWrite (at_ : Nat) (x : Nat → Nat) (l : List Nat) (s : State) :
    (l.foldl (fun s i => bucketWrite s (at_ + i) (x i)) s).dev.planeRows = s.dev.planeRows :=
  foldl_keeps (fun s => s.dev.planeRows) _ (fun s i => by unfold bucketWrite; split <;> rfl) l s

theorem quiesce_bucketWrite (s : State) (b x : Nat) : (bucketWrite s b x).dev.quiesce = s.dev.quiesce := by
  unfold bucketWrite; split <;> rfl

theorem planeOfBucket_bucketWrite_same {s : State} (h : s.dev.quiesce = true) {b : Nat} (hb : b < 64) (x : Nat) :
    planeOfBucket (bucketWrite s b x).dev b = x % 8 := by
  simp only [bucketWrite, h, hb, and_self, if_true]
  exact tget_tset_same _ _ _ _
theorem planeOfBucket_bucketWrite_ne (s : State) {b c : Nat} (h : c ≠ b) (x : Nat) :
    planeOfBucket (bucketWrite s b x).dev c = planeOfBucket s.dev c := by
  unfold bucketWrite
  split
  · exact tget_tset_ne_of_defaults _ _ _ _ h
  · rfl

/-- R388: a run of bucket writes sets each bucket it names, and no other. -/
theorem planeOfBucket_foldl_bucketWrite (at_ : Nat) (x : Nat → Nat) (l : List Nat) (hl : l.Nodup) {s : State}
    (h : s.dev.quiesce = true) (hlt : ∀ i ∈ l, at_ + i < 64) (i : Nat) :
    planeOfBucket (l.foldl (fun s i => bucketWrite s (at_ + i) (x i)) s).dev (at_ + i) =
      if i ∈ l then x i % 8 else planeOfBucket s.dev (at_ + i) := by
  induction l generalizing s with
  | nil => simp
  | cons j l ih =>
    obtain ⟨hj, hnodup⟩ := List.nodup_cons.mp hl
    rw [List.foldl_cons, ih hnodup ((quiesce_bucketWrite s _ _).trans h) fun k hk => hlt k (by simp [hk])]
    by_cases hij : i = j
    · subst hij
      simp [hj, planeOfBucket_bucketWrite_same h (hlt i (by simp))]
    · simp [hij, planeOfBucket_bucketWrite_ne s (show at_ + i ≠ at_ + j by omega)]

theorem planeTableWrite_buckets {s : State} {j : Nat} (hj : j < 8) (n x : Nat) :
    planeTableWrite s (0x40 + 8 * j) n x = (upFrom 0 n).foldl (fun s i => bucketWrite s (8 * j + i) (x / 256 ^ i % 256)) s := by
  have hrow : ¬ 0x40 + 8 * j < 0x30 := by omega
  have hbucket : 0x40 ≤ 0x40 + 8 * j ∧ 0x40 + 8 * j < 0x80 := by omega
  have hat : 0x40 + 8 * j - 0x40 = 8 * j := by omega
  unfold planeTableWrite
  rw [if_neg hrow, if_pos hbucket, hat]

theorem planeOfBucket_planeTableWrite {s : State} (h : s.dev.quiesce = true) {i j : Nat} (hi : i < 8) (hj : j < 8) (x : Nat) :
    planeOfBucket (planeTableWrite s (0x40 + 8 * j) 8 x).dev (8 * j + i) = x / 256 ^ i % 8 := by
  have hlist : upFrom 0 8 = List.range 8 := by decide
  rw [planeTableWrite_buckets hj, hlist,
    planeOfBucket_foldl_bucketWrite (8 * j) (fun i => x / 256 ^ i % 256) _ List.nodup_range h (by simp; omega)]
  simp [hi, Nat.mod_mod_of_dvd]

/-! ### Planes declared dead (R388) -/

theorem planeDeadSet_known {s : State} {mask : BitVec 8} (h : mask &&& ~~~s.dev.dead = 0) : planeDeadSet s mask = s := if_pos h

section
variable {s : State} {mask : BitVec 8} (h : mask &&& ~~~s.dev.dead ≠ 0)
include h

theorem dead_planeDeadSet : (planeDeadSet s mask).dev.dead = s.dev.dead ||| mask := by
  have hor : s.dev.dead ||| (mask &&& ~~~s.dev.dead) = s.dev.dead ||| mask := by
    ext i hi; simp; cases s.dev.dead[i] <;> simp
  rw [planeDeadSet, if_neg h]
  exact hor
theorem quiesce_planeDeadSet : (planeDeadSet s mask).dev.quiesce = true := by rw [planeDeadSet, if_neg h]; rfl
theorem reqs_planeDeadSet : (planeDeadSet s mask).reqs = s.reqs := by rw [planeDeadSet, if_neg h]; rfl
theorem links_planeDeadSet : (planeDeadSet s mask).dev.links = s.dev.links := by rw [planeDeadSet, if_neg h]; rfl

/-- What was sent on a plane that is declared dead is not acknowledged. -/
theorem mem_unacked_planeDeadSet {r : Req} (hr : r ∈ s.reqs) (hsent : r.id ∈ sentOn s (mask &&& ~~~s.dev.dead)) :
    r.id ∈ (planeDeadSet s mask).unacked := by
  rw [planeDeadSet, if_neg h]
  simp only [List.mem_append, List.mem_filter]
  by_cases hu : r.id ∈ s.unacked
  · have hlive : s.reqs.any (fun q => q.id == r.id) = true := List.any_eq_true.mpr ⟨r, hr, beq_self_eq_true _⟩
    exact .inl ⟨hu, by simp only [modDev, hlive, Bool.true_or]⟩
  · exact .inr ⟨hsent, by simp [hu, modDev]⟩

end

theorem mem_sentOn {s : State} {mask : BitVec 8} {r : Req} (hr : r ∈ s.reqs) {g : Seg} (hg : g ∈ unanswered r)
    (hrides : rides s r.agent mask g = true) : r.id ∈ sentOn s mask := by
  refine List.mem_append_left _ (List.mem_map.mpr ⟨r, List.mem_filter.mpr ⟨hr, ?_⟩, rfl⟩)
  exact List.any_eq_true.mpr ⟨g, List.mem_append_left _ hg, hrides⟩

theorem mem_unanswered {r : Req} {g : Seg} (h : g ∈ r.todo ++ (if r.dest = .none then [] else r.path)) : g ∈ unanswered r := by
  have htodo : g ∈ r.todo → g ∈ unperformed r := by
    unfold unperformed
    intro hg
    split
    · exact List.mem_cons_of_mem _ hg
    · split <;> simp [hg]
  rw [List.mem_append] at h
  exact List.mem_append.mpr (h.imp htodo (by simp))

theorem rides_of_bit {s : State} {a : Agent} {mask : BitVec 8} {g : Seg}
    (hout : ∀ n, agentCore a = some n → onCrossbar (clusterOf n) g = false) (hbit : mask.getLsbD (planeOf s.dev g.pa) = true) :
    rides s a mask g = true := by
  cases ha : agentCore a with
  | none => simp [rides, ha, hbit]
  | some n => simp [rides, ha, hbit, hout n ha]

/-! ### QUIESCE cleared (R388, R389) -/

/-- What clearing QUIESCE reads: the requests and fibre operations in flight, those not acknowledged, the responses the homes
keep, and the planes dead. -/
structure Resending where
  reqs : List Req
  freqs : List FReq
  unacked : List Nat
  replay : List Applied
  dead : BitVec 8
  deadNew : BitVec 8

def resending (s : State) : Resending :=
  { reqs := s.reqs, freqs := s.freqs, unacked := s.unacked, replay := s.replay, dead := s.dev.dead, deadNew := s.dev.deadNew }

theorem resending_notifyAll (s : State) (who : Session → Bool) (addr : W64) (payload : List Byte) :
    resending (notifyAll s who addr payload) = resending s := rfl
theorem resending_putEvent (s : State) (i j : Nat) (r : RingRec) :
    resending (modDev s (fun d => { d with events := tset {} d.events i r, evtwidx := j })) = resending s := rfl
theorem resending_putError (s : State) (i j : Nat) (r : RingRec) :
    resending (modDev s (fun d => { d with errors := tset {} d.errors i r, raswidx := j })) = resending s := rfl
theorem resending_driverEvent (s : State) (code core ctx aux : Nat) (addr detail : W64) :
    resending (driverEvent s code core ctx aux addr detail) = resending s := by
  unfold driverEvent
  exact (resending_notifyAll _ _ _ _).trans (resending_putEvent _ _ _ _)
theorem resending_logError (s : State) (type unit core ctx : Nat) (addr detail : W64) :
    resending (logError s type unit core ctx addr detail) = resending s := by
  unfold logError
  exact (resending_driverEvent _ _ _ _ _ _ _).trans (resending_putError _ _ _ _)
theorem raswidx_logError (s : State) (type unit core ctx : Nat) (addr detail : W64) :
    (logError s type unit core ctx addr detail).dev.raswidx = (s.dev.raswidx + 1) % 2 ^ 64 :=
  congrArg Ledger.raswidx (ledger_logError s type unit core ctx addr detail)

/-- R388: the loss of a plane, logged where the plane is newly dead. -/
def logLoss (s : State) (p : Nat) : State := if s.dev.deadNew.getLsbD p then logError s 6 p 0 0 0 0 else s

theorem resending_logLoss (s : State) (p : Nat) : resending (logLoss s p) = resending s := by
  unfold logLoss
  split
  · exact resending_logError _ _ _ _ _ _ _
  · rfl

/-- Each loss takes an index of the error log. -/
theorem raswidx_foldl_logLoss (l : List Nat) (s : State) (h : s.dev.raswidx < 2 ^ 64) :
    (l.foldl logLoss s).dev.raswidx = (s.dev.raswidx + (l.filter (fun p => s.dev.deadNew.getLsbD p)).length) % 2 ^ 64 := by
  induction l generalizing s with
  | nil => exact (Nat.mod_eq_of_lt h).symm
  | cons p l ih =>
    have hnew : (logLoss s p).dev.deadNew = s.dev.deadNew := congrArg Resending.deadNew (resending_logLoss s p)
    cases hp : s.dev.deadNew.getLsbD p with
    | false =>
      have hs : logLoss s p = s := if_neg (by simp [hp])
      rw [List.foldl_cons, hs, ih s h, List.filter_cons_of_neg (p := fun p => s.dev.deadNew.getLsbD p) (by simp [hp])]
    | true =>
      have hidx : (logLoss s p).dev.raswidx = (s.dev.raswidx + 1) % 2 ^ 64 := by
        rw [logLoss, if_pos hp]; exact raswidx_logError _ _ _ _ _ _ _
      rw [List.foldl_cons, ih _ (hidx ▸ Nat.mod_lt _ (by omega)), hnew, hidx, List.filter_cons_of_pos (p := fun p => s.dev.deadNew.getLsbD p) hp,
        List.length_cons, Nat.mod_add_mod, Nat.add_assoc, Nat.add_comm 1]

/-- The state whose lost planes are logged. -/
def lossesLogged (s : State) : State := (upFrom 0 8).foldl logLoss (noteHeldBack s)

theorem resending_lossesLogged (s : State) : resending (lossesLogged s) = resending s :=
  foldl_keeps resending logLoss resending_logLoss _ (noteHeldBack s)

theorem quiesceClear_ignored {s : State} (h : ∃ b, b < 64 ∧ s.dev.dead.getLsbD (planeOfBucket s.dev b) = true) : quiesceClear s = s := by
  have hdead : deadBucket s.dev = true := by
    obtain ⟨b, hb, hbit⟩ := h
    exact List.any_eq_true.mpr ⟨b, by simp [upFrom_eq_range', hb], hbit⟩
  exact if_pos (by simp [hdead])

theorem reissued_of_resending {s t : State} (h : resending t = resending s) : reissued t = reissued s := by
  have hu : t.unacked = s.unacked := congrArg Resending.unacked h
  have hr : t.replay = s.replay := congrArg Resending.replay h
  funext r
  simp only [reissued, hu, hr]
theorem probesAgain_of_resending {s t : State} (h : resending t = resending s) : probesAgain t = probesAgain s := by
  have hu : t.unacked = s.unacked := congrArg Resending.unacked h
  funext r
  simp only [probesAgain, hu]

/-- The requests of a state whose QUIESCE was cleared, and the fibre operations performed afresh. -/
def resent (s : State) : List Req := (s.reqs.filter (fun r => !probesAgain s r)).map (reissued s)
def probed (s : State) : List FReq := (s.reqs.filter (probesAgain s)).filterMap (·.again)

section
variable {s : State} (hq : s.dev.quiesce = true) (hb : ∀ b, b < 64 → s.dev.dead.getLsbD (planeOfBucket s.dev b) = false)
include hq hb

theorem quiesceClear_cleared : quiesceClear s =
    modDev { lossesLogged s with reqs := resent s, freqs := s.freqs ++ probed s } (fun d => { d with quiesce := false, deadNew := 0 }) := by
  have hlive : deadBucket s.dev = false := by
    simpa [deadBucket, upFrom_eq_range'] using hb
  have hkept := resending_lossesLogged s
  have hreqs : (lossesLogged s).reqs = s.reqs := congrArg Resending.reqs hkept
  have hfreqs : (lossesLogged s).freqs = s.freqs := congrArg Resending.freqs hkept
  rw [resent, probed, ← hreqs, ← hfreqs, ← reissued_of_resending hkept, ← probesAgain_of_resending hkept]
  unfold quiesceClear
  rw [if_neg (by simp [hq, hlive])]
  rfl

end

theorem id_reissued (s : State) (q : Req) : (reissued s q).id = q.id := by
  unfold reissued
  split
  · rfl
  · split
    · split <;> rfl
    · split <;> rfl

theorem reissued_acknowledged {s : State} {q : Req} (h : q.id ∉ s.unacked) : reissued s q = q := if_pos (by simp [h])

theorem mem_resent {s : State} {q : Req} (hq : q ∈ s.reqs) (h : q.again = none) : reissued s q ∈ resent s :=
  List.mem_map_of_mem (List.mem_filter.mpr ⟨hq, by simp [probesAgain, h]⟩)

/-- Each request that goes on stood before, and is changed only where it was not acknowledged. -/
theorem of_mem_resent {s : State} {r : Req} (h : r ∈ resent s) : ∃ q ∈ s.reqs, r.id = q.id ∧ (r = q ∨ q.id ∈ s.unacked) := by
  obtain ⟨q, hq, rfl⟩ := List.mem_map.mp h
  refine ⟨q, (List.mem_filter.mp hq).1, id_reissued s q, ?_⟩
  by_cases hu : q.id ∈ s.unacked
  · exact .inr hu
  · exact .inl (reissued_acknowledged hu)

/-- R389: a home that applied it returns the saved response. -/
theorem reissued_applied {s : State} {q : Req} (hu : q.id ∈ s.unacked) {e : Applied}
    (he : s.replay.find? (fun e => e.agent == q.agent && e.id == q.id) = some e) :
    (reissued s q).todo = [] ∧ (q.dest ≠ .none → (reissued s q).data = e.response) := by
  have hn : ¬ (!s.unacked.contains q.id) = true := by simp [hu]
  simp only [reissued, if_neg hn, he]
  split
  · next hd => exact ⟨rfl, fun h => absurd hd h⟩
  · exact ⟨rfl, fun _ => rfl⟩

/-- R389: a load is performed afresh. -/
theorem todo_reissued_load {s : State} {q : Req} (hu : q.id ∈ s.unacked)
    (he : s.replay.find? (fun e => e.agent == q.agent && e.id == q.id) = none) (hkind : q.kind = .load) (hdest : q.dest ≠ .none) :
    (reissued s q).todo = q.path := by
  have hn : ¬ (!s.unacked.contains q.id) = true := by simp [hu]
  simp only [reissued, if_neg hn, he, hkind, hdest, ne_eq, not_false_eq_true, and_self, if_true]

/-- R389: a read of a fibre whose response was lost is performed afresh, as the operation it was. -/
theorem mem_probed {s : State} {q : Req} (hq : q ∈ s.reqs) (hu : q.id ∈ s.unacked) {f : FReq} (hf : q.again = some f) :
    f ∈ probed s :=
  List.mem_filterMap.mpr ⟨q, List.mem_filter.mpr ⟨hq, by simp [probesAgain, hu, hf]⟩, hf⟩

theorem again_reissued (s : State) (q : Req) : (reissued s q).again = q.again := by
  unfold reissued
  split
  · rfl
  · split
    · split <;> rfl
    · split <;> rfl

theorem not_mem_resent {s : State} {q : Req} (hu : q.id ∈ s.unacked) {f : FReq} (hf : q.again = some f) : q ∉ resent s := by
  intro h
  obtain ⟨p, hp, hpq⟩ := List.mem_map.mp h
  have hid : p.id = q.id := hpq ▸ (id_reissued s p).symm
  have hagain : p.again = some f := by rw [← again_reissued s p, hpq, hf]
  have := (List.mem_filter.mp hp).2
  simp [probesAgain, hid, hu, hagain] at this

/-! ### O42 -/

/-- A changed hash row. -/
theorem exec_hashRowWrite_changed {s : State} (h : Awake s) {row : Nat} {v : W64} (hrow : row < 13)
    (hne : (forceRow row v).toNat ≠ hashRow s.dev row) :
    ∃ t, exec (.hashRowWrite row v true) s = .next t ∧ hashRow t.dev row = (forceRow row v).toNat ∧
      (∀ j, j ≠ row → hashRow t.dev j = hashRow s.dev j) ∧ t.mem = withoutHbm s.mem ∧ t.epoch = s.epoch + 1 ∧ t.dev.hbmDir = [] := by
  refine ⟨_, exec_hashRowWrite_of_awake h row v, ?_⟩
  rw [hashRowWrite_changed hrow hne]
  refine ⟨(hashRow_loseHbm _ _).trans (hashRow_tset_same _ _ _), fun j hj => (hashRow_loseHbm _ _).trans (hashRow_tset_ne _ _ hj), ?_⟩
  exact ⟨loseHbm_mem _, loseHbm_epoch _, loseHbm_hbmDir _⟩

/-- A changed PINSIZE. -/
theorem exec_pinsizeWrite_changed {s : State} (h : Awake s) {v : W64} (hle : v.toNat % 128 ≤ 80) (hne : v.toNat % 128 ≠ s.dev.pinsize) :
    ∃ t, exec (.pinsizeWrite v true) s = .next t ∧ t.dev.pinsize = v.toNat % 128 ∧ t.mem = withoutHbm s.mem ∧ t.epoch = s.epoch + 1 := by
  refine ⟨_, exec_pinsizeWrite_of_awake h v, ?_⟩
  rw [pinsizeWrite_changed hle hne]
  exact ⟨loseHbm_pinsize _, loseHbm_mem _, loseHbm_epoch _⟩

/-- The plane tables while QUIESCE is 1. -/
theorem exec_planeTableWrite_row {s : State} (h : Awake s) (hq : s.dev.quiesce = true) (v : W64) {k : Nat} (hk : k < 6) :
    ∃ t, exec (.planeTableWrite (8 * k) v true) s = .next t ∧ tget (planeRowDefault k) t.dev.planeRows k = v &&& ~~~0x3F#64 ∧
      t.dev.buckets = s.dev.buckets ∧ t.mem = s.mem := by
  refine ⟨_, exec_planeTableWrite_of_awake h _ v, ?_⟩
  rw [planeTableWrite_row hq hk]
  exact ⟨tget_tset_same _ _ _ _, rfl, rfl⟩
theorem exec_planeTableWrite_buckets {s : State} (h : Awake s) (hq : s.dev.quiesce = true) (v : W64) {j : Nat} (hj : j < 8) :
    ∃ t, exec (.planeTableWrite (0x40 + 8 * j) v true) s = .next t ∧
      (∀ i, i < 8 → planeOfBucket t.dev (8 * j + i) = v.toNat / 256 ^ i % 8) ∧ t.dev.planeRows = s.dev.planeRows ∧ t.mem = s.mem := by
  refine ⟨_, exec_planeTableWrite_of_awake h _ v, fun i hi => planeOfBucket_planeTableWrite hq hi hj _, ?_, (planeTableWrite_memory s _ _ _).1⟩
  rw [planeTableWrite_buckets hj]
  exact planeRows_foldl_bucketWrite _ _ _ _

/-- Planes newly declared dead. -/
theorem exec_planeDeadSet_new {s : State} (h : Awake s) {mask : BitVec 8} (hnew : mask &&& ~~~s.dev.dead ≠ 0) :
    ∃ t, exec (.planeDeadSet mask true) s = .next t ∧ t.dev.dead = s.dev.dead ||| mask ∧ t.dev.quiesce = true ∧
      (∀ r ∈ s.reqs, ∀ g ∈ r.todo ++ (if r.dest = .none then [] else r.path),
        (∀ n, agentCore r.agent = some n → onCrossbar (clusterOf n) g = false) →
        (mask &&& ~~~s.dev.dead).getLsbD (planeOf s.dev g.pa) = true → r.id ∈ t.unacked) ∧
      t.reqs = s.reqs ∧ t.mem = s.mem := by
  refine ⟨_, exec_planeDeadSet_of_awake h mask, dead_planeDeadSet hnew, quiesce_planeDeadSet hnew, ?_, reqs_planeDeadSet hnew,
    (planeDeadSet_memory s mask).1⟩
  intro r hr g hg hout hbit
  exact mem_unacked_planeDeadSet hnew hr (mem_sentOn hr (mem_unanswered hg) (rides_of_bit hout hbit))

/-- QUIESCE cleared: the planes lost are logged, and what was not acknowledged goes again. -/
theorem exec_quiesceClear_cleared {s : State} (h : Awake s) (hq : s.dev.quiesce = true)
    (hb : ∀ b, b < 64 → s.dev.dead.getLsbD (planeOfBucket s.dev b) = false) (hidx : s.dev.raswidx < 2 ^ 64) :
    ∃ t, exec (.quiesceClear true) s = .next t ∧ t.dev.quiesce = false ∧ t.dev.deadNew = 0 ∧ t.dev.dead = s.dev.dead ∧
      t.dev.raswidx = (s.dev.raswidx + ((List.range 8).filter (fun p => s.dev.deadNew.getLsbD p)).length) % 2 ^ 64 ∧
      (∀ r ∈ t.reqs, ∃ q ∈ s.reqs, r.id = q.id ∧ (r = q ∨ q.id ∈ s.unacked)) ∧ t.mem = s.mem ∧
      (∀ q ∈ s.reqs, q.id ∈ s.unacked → q.again = none →
        (∀ e, s.replay.find? (fun e => e.agent == q.agent && e.id == q.id) = some e → ∃ r ∈ t.reqs, r.id = q.id ∧ r.todo = [] ∧
          (q.dest ≠ .none → r.data = e.response)) ∧
        (s.replay.find? (fun e => e.agent == q.agent && e.id == q.id) = none → q.kind = .load → q.dest ≠ .none →
          ∃ r ∈ t.reqs, r.id = q.id ∧ r.todo = q.path)) ∧
      (∀ q ∈ s.reqs, q.id ∈ s.unacked → ∀ f, q.again = some f → f ∈ t.freqs ∧ q ∉ t.reqs) := by
  have ht := quiesceClear_cleared hq hb
  have hreqs : (quiesceClear s).reqs = resent s := by rw [ht]; rfl
  have hfreqs : (quiesceClear s).freqs = s.freqs ++ probed s := by rw [ht]; rfl
  have hlist : upFrom 0 8 = List.range 8 := by decide
  refine ⟨_, exec_quiesceClear_of_awake h, by rw [ht]; rfl, by rw [ht]; rfl, ?_, ?_, ?_, (quiesceClear_memory s).1, ?_, ?_⟩
  · rw [ht]
    exact congrArg Resending.dead (resending_lossesLogged s)
  · rw [ht, ← hlist]
    exact raswidx_foldl_logLoss _ (noteHeldBack s) hidx
  · rw [hreqs]
    exact fun r hr => of_mem_resent hr
  · rw [hreqs]
    intro q hr hu hagain
    refine ⟨fun e he => ⟨_, mem_resent hr hagain, id_reissued s q, reissued_applied hu he⟩, fun he hkind hdest => ?_⟩
    exact ⟨_, mem_resent hr hagain, id_reissued s q, todo_reissued_load hu he hkind hdest⟩
  · rw [hreqs, hfreqs]
    exact fun q hr hu f hf => ⟨List.mem_append_right _ (mem_probed hr hu hf), not_mem_resent hu hf⟩

/-- Settles O42: each write is that of the driver, by what its function does to the placement and to what is in flight. -/
theorem placementControl : Obligations.PlacementControl := by
  unfold Obligations.PlacementControl
  intro s v row off mask h
  refine ⟨fun _ hsame => ?_, exec_hashRowWrite_changed h, fun hv => ?_, exec_pinsizeWrite_changed h, fun hq => ?_,
    fun hq => ⟨fun k => exec_planeTableWrite_row h hq v, fun j => exec_planeTableWrite_buckets h hq v⟩, fun hold => ?_,
    exec_planeDeadSet_new h, fun hdead => ?_, exec_quiesceClear_cleared h, exec_placement_of_other h row off v mask⟩
  · rw [exec_hashRowWrite_of_awake h, hashRowWrite_same hsame]
  · rw [exec_pinsizeWrite_of_awake h, pinsizeWrite_ignored hv]
  · rw [exec_planeTableWrite_of_awake h, planeTableWrite_busy hq]
  · rw [exec_planeDeadSet_of_awake h, planeDeadSet_known hold]
  · rw [exec_quiesceClear_of_awake h, quiesceClear_ignored hdead]

end Sys2Proof.Machine

/-! # O47: refresh, scrubbing and link flits (R71, R144, R145, R378, R381, R385-R387) -/

namespace Sys2Proof.Machine
open Sys2Proof.Claims

section
variable {s : State} (h : Awake s)
include h

theorem exec_refresh_of_awake (k : Nat) (splits : Bool) : exec (.refresh k splits) s = .next (refresh s k splits) := by
  rw [exec_refresh, execRefresh, event_of_awake h]
theorem exec_scrubRead_of_awake (pa : Nat) (found : EccResult) : exec (.scrubRead pa found) s = .next (scrubRead s pa found) := by
  rw [exec_scrubRead, execScrubRead, event_of_awake h]
theorem exec_scrubWriteback_of_awake (pa : Nat) : exec (.scrubWriteback pa) s = .next (scrubWriteback s pa) := by
  rw [exec_scrubWriteback, execScrubWriteback, event_of_awake h]
theorem exec_linkFlit_of_awake (f : Flit) : exec (.linkFlit f) s = .next (linkFlit s f) := by
  rw [exec_linkFlit, execLinkFlit, event_of_awake h]

end

/-! ### Refresh (R71) -/

/-- The stack's counts after a refresh command. -/
theorem getStack_refresh (s : State) {k : Nat} (hk : k < 8) (splits : Bool) :
    getStack (refresh s k splits) k =
      if splits then { getStack s k with splitcnt := satInc (getStack s k).splitcnt }
      else { getStack s k with refpostcnt := satInc (getStack s k).refpostcnt } := by
  rw [refresh, if_neg (by omega), getStack_modStack]

/-! ### The scrubber (R381, R385) -/

/-- The error log and the poisoned units, which an event leaves alone. -/
def faultLog (s : State) : Tbl RingRec × List Nat := (s.dev.errors, s.dev.poison)

theorem faultLog_notifyAll (s : State) (who : Session → Bool) (addr : W64) (payload : List Byte) :
    faultLog (notifyAll s who addr payload) = faultLog s := rfl
theorem faultLog_putEvent (s : State) (i j : Nat) (r : RingRec) :
    faultLog (modDev s (fun d => { d with events := tset {} d.events i r, evtwidx := j })) = faultLog s := rfl
theorem faultLog_putError (s : State) (i j : Nat) (r : RingRec) :
    faultLog (modDev s (fun d => { d with errors := tset {} d.errors i r, raswidx := j })) = (tset {} s.dev.errors i r, s.dev.poison) := rfl
theorem faultLog_driverEvent (s : State) (code core ctx aux : Nat) (addr detail : W64) :
    faultLog (driverEvent s code core ctx aux addr detail) = faultLog s := by
  unfold driverEvent
  exact (faultLog_notifyAll _ _ _ _).trans (faultLog_putEvent _ _ _ _)

/-- An entry of the error log (R378). -/
def errorRecord (time type unit core ctx : Nat) (addr detail : W64) : RingRec :=
  { w0 := w64 (unit % 16 * 2 ^ 20 + ctx % 4 * 2 ^ 18 + core % 1024 * 2 ^ 8 + type), w1 := w64 time, w2 := addr, w3 := detail }

theorem faultLog_logError (s : State) (type unit core ctx : Nat) (addr detail : W64) :
    faultLog (logError s type unit core ctx addr detail) =
      (tset {} s.dev.errors (s.dev.raswidx % 256) (errorRecord s.time type unit core ctx addr detail), s.dev.poison) := by
  unfold logError
  exact (faultLog_driverEvent _ _ _ _ _ _ _).trans (faultLog_putError _ _ _ _)
theorem errors_logError (s : State) (type unit core ctx : Nat) (addr detail : W64) :
    tget {} (logError s type unit core ctx addr detail).dev.errors (s.dev.raswidx % 256) = errorRecord s.time type unit core ctx addr detail :=
  (congrArg (fun x => tget {} x.1 (s.dev.raswidx % 256)) (faultLog_logError s type unit core ctx addr detail)).trans (tget_tset_same _ _ _ _)
theorem poison_logError (s : State) (type unit core ctx : Nat) (addr detail : W64) :
    (logError s type unit core ctx addr detail).dev.poison = s.dev.poison :=
  congrArg Prod.snd (faultLog_logError s type unit core ctx addr detail)

theorem type_errorRecord (time type unit core ctx : Nat) (addr detail : W64) (h : type < 256) :
    (errorRecord time type unit core ctx addr detail).w0.toNat % 256 = type := by
  simp only [errorRecord, w64, BitVec.toNat_ofNat]
  omega

section
variable {s : State} {pa : Nat} (hmem : isMemory (place pa) = true) (hbase : unitBase pa = pa)
include hmem hbase

theorem scrubUnit_of_memory : scrubUnit pa = true := by simp [scrubUnit, hmem, hbase]

theorem scrubRead_clean : scrubRead s pa .clean = s := by
  rw [scrubRead, scrubUnit_of_memory hmem hbase]; rfl

theorem scrubRead_corrected (h : ∀ e ∈ s.dev.scrubs, e.1 ≠ pa) :
    scrubRead s pa .corrected =
      modDev (countCorrected s (if pa < hbmEnd then 1 else 0)) (fun d => { d with scrubs := d.scrubs ++ [(pa, false)] }) := by
  have hnone : ¬ s.dev.scrubs.any (fun e => e.1 == pa) = true := fun hany => by
    obtain ⟨e, he, heq⟩ := List.any_eq_true.mp hany
    exact h e he (beq_iff_eq.mp heq)
  simp only [scrubRead, scrubUnit_of_memory hmem hbase, Bool.not_true, Bool.false_eq_true, if_false, if_neg hnone]

theorem scrubRead_uncorrectable : scrubRead s pa .uncorrectable = poisonUnit s pa := by
  rw [scrubRead, scrubUnit_of_memory hmem hbase]; rfl

end

theorem corrected_countCorrected (s : State) (i : Nat) :
    tget 0 (countCorrected s i).dev.corrected i = min (2 ^ 64 - 1) (tget 0 s.dev.corrected i + 1) := tget_tset_same _ _ _ _

/-- What a poisoned unit leaves: its mark and its entry in the error log. -/
theorem poisonUnit_new {s : State} {pa : Nat} (h : pa ∉ s.dev.poison) :
    (poisonUnit s pa).dev.poison = s.dev.poison ++ [pa] ∧ (poisonUnit s pa).dev.raswidx = (s.dev.raswidx + 1) % 2 ^ 64 ∧
      ∃ unit core, tget {} (poisonUnit s pa).dev.errors (s.dev.raswidx % 256) = errorRecord s.time 3 unit core 0 (w64 pa) 0 := by
  have hnew : ¬ s.dev.poison.contains pa = true := by simpa using h
  have hunit : poisonUnit s pa = logError (modDev s (fun d => { d with poison := d.poison ++ [pa] })) 3
      (if pa < hbmEnd then (stackOf s.dev pa).1 else 0) ((coreOfPa pa).getD 0) 0 (w64 pa) 0 := if_neg hnew
  rw [hunit]
  exact ⟨poison_logError _ _ _ _ _ _ _, raswidx_logError _ _ _ _ _ _ _, _, _, errors_logError _ _ _ _ _ _ _⟩

theorem scrubWriteback_clean {s : State} {pa : Nat} (h : s.dev.scrubs.find? (fun e => e.1 == pa) = some (pa, false)) :
    scrubWriteback s pa = { s with dev := { s.dev with scrubs := s.dev.scrubs.filter (fun e => e.1 != pa) } } := by
  unfold scrubWriteback; rw [h]; rfl
theorem scrubWriteback_written {s : State} {pa : Nat} (h : s.dev.scrubs.find? (fun e => e.1 == pa) = some (pa, true)) :
    scrubWriteback s pa =
      modDev (countCorrected s 4) (fun d => { d with scrubs := d.scrubs.map (fun e => if e.1 = pa then (pa, false) else e) }) := by
  unfold scrubWriteback; rw [h]

/-- The finding that is read again stands without its mark. -/
theorem find_scrubs_reread (l : List (Nat × Bool)) {pa : Nat} {b : Bool} (h : l.find? (fun e => e.1 == pa) = some (pa, b)) :
    (l.map (fun e => if e.1 = pa then (pa, false) else e)).find? (fun e => e.1 == pa) = some (pa, false) := by
  induction l with
  | nil => simp at h
  | cons e l ih =>
    by_cases he : e.1 = pa
    · simp [he]
    · rw [List.find?_cons_of_neg (by simpa using he)] at h
      simpa [he] using ih h

/-! ### Link flits (R145, R386, R387) -/

/-- A lane group's flit that its home looks at: of a group, lane and device there are, on a live plane, held by nothing. -/
structure Received (s : State) (f : Flit) : Prop where
  group : f.group < 40
  lane : f.lane < 6
  dev : f.dev < 512
  alive : s.dev.dead.getLsbD (f.group % 8) = false
  free : remoteWaits s f.dev f.request = false
  unheld : (tget {} s.dev.links f.group).heldUntil ≤ s.cycle

/-- A flit of a group whose injector has counted it. -/
def flitCounted (s : State) (f : Flit) : State :=
  modDev s (fun d => { d with injectors := tset {} d.injectors f.group (injectFlit (tget {} d.injectors f.group) f.lane).1 })

theorem linkFlit_held {s : State} {f : Flit} (h : s.cycle < (tget {} s.dev.links f.group).heldUntil) : linkFlit s f = s :=
  if_pos (.inr (.inr (.inr (.inl h))))

/-- What becomes of a flit received: delayed, dropped as out of sequence, failed, or accepted. -/
theorem linkFlit_received {s : State} {f : Flit} (h : Received s f) :
    linkFlit s f =
      let x := injectFlit (tget {} s.dev.injectors f.group) f.lane
      if x.2 && x.1.mode == 3 && x.1.delay != 0 then holdFlits (flitCounted s f) f.group x.1.delay
      else if f.seq ≠ (tget {} s.dev.links f.group).expected then flitCounted s f
      else if (x.2 && (x.1.mode == 1 || x.1.mode == 2)) || !f.crcOk then flitFailed (flitCounted s f) f.group
      else flitGood (flitCounted s f) f := by
  obtain ⟨hgroup, hlane, hdev, halive, hfree, hheld⟩ := h
  have hno : ¬ (40 ≤ f.group ∨ 6 ≤ f.lane ∨ 512 ≤ f.dev ∨ s.cycle < (tget {} s.dev.links f.group).heldUntil ∨
      s.dev.dead.getLsbD (f.group % 8) = true ∨ remoteWaits s f.dev f.request = true) := by
    rw [halive, hfree]; simp; omega
  unfold linkFlit
  rw [if_neg hno]
  rfl

/-! #### The injector -/

theorem injectFlit_disarmed {x : Injector} (h : x.arm = false) (lane : Nat) : injectFlit x lane = (x, false) := if_pos (by simp [h])
theorem injectFlit_counting {x : Injector} (harm : x.arm = true) {lane : Nat} (hlane : x.lane = lane) (h : x.seen + 1 < x.n) :
    injectFlit x lane = ({ x with seen := x.seen + 1 }, false) := by
  rw [injectFlit, if_neg (by simp [harm, hlane]), if_pos h]
theorem injectFlit_acts {x : Injector} (harm : x.arm = true) {lane : Nat} (hlane : x.lane = lane) (h : x.n ≤ x.seen + 1) :
    injectFlit x lane = ({ x with seen := x.seen + 1, arm := false }, true) := by
  rw [injectFlit, if_neg (by simp [harm, hlane]), if_neg (by omega)]

theorem injector_flitCounted (s : State) (f : Flit) :
    tget {} (flitCounted s f).dev.injectors f.group = (injectFlit (tget {} s.dev.injectors f.group) f.lane).1 := tget_tset_same _ _ _ _

/-! #### A flit that failed -/

theorem injectors_flitFailed (s : State) (g : Nat) : (flitFailed s g).dev.injectors = s.dev.injectors := by
  unfold flitFailed
  dsimp only
  split
  · unfold planeDeadSet; dsimp only; split <;> rfl
  · rfl
theorem reqs_flitFailed (s : State) (g : Nat) : (flitFailed s g).reqs = s.reqs := by
  unfold flitFailed
  dsimp only
  split
  · unfold planeDeadSet; dsimp only; split <;> rfl
  · rfl

/-- A link whose flit failed for the nth time, n at most 16. -/
def replaying (k : Link) : Link := { k with replays := k.replays + 1 }

theorem flitFailed_replayed {s : State} {g : Nat} (h : (tget {} s.dev.links g).replays ≠ 16) :
    flitFailed s g = countCorrected (modDev s (fun d => { d with links := tset {} d.links g (replaying (tget {} s.dev.links g)) })) 3 := by
  simp only [flitFailed, h, if_false, replaying]
theorem link_flitFailed {s : State} {g : Nat} (h : (tget {} s.dev.links g).replays ≠ 16) :
    tget {} (flitFailed s g).dev.links g = replaying (tget {} s.dev.links g) := by
  rw [flitFailed_replayed h]
  exact tget_tset_same _ _ _ _

/-- A live plane declared dead. -/
theorem planeDeadSet_alive {s : State} {p : Nat} (hp : p < 8) (halive : s.dev.dead.getLsbD p = false) :
    (planeDeadSet s (1#8 <<< p)).dev.dead.getLsbD p = true ∧ (planeDeadSet s (1#8 <<< p)).dev.quiesce = true := by
  have hbit : (1#8 <<< p).getLsbD p = true := by simp [hp]
  have hnew : (1#8 <<< p) &&& ~~~s.dev.dead ≠ 0 := fun hz => by
    have hzero : ((1#8 <<< p) &&& ~~~s.dev.dead).getLsbD p = false := by rw [hz]; exact BitVec.getLsbD_zero
    rw [BitVec.getLsbD_and, hbit, BitVec.getLsbD_not, halive] at hzero
    simp [hp] at hzero
  exact ⟨by rw [dead_planeDeadSet hnew, BitVec.getLsbD_or, hbit, Bool.or_true], quiesce_planeDeadSet hnew⟩

/-- After 16 failed replays in a row the plane of the group is lost. -/
theorem flitFailed_lost {s : State} {g : Nat} (h : (tget {} s.dev.links g).replays = 16) (halive : s.dev.dead.getLsbD (g % 8) = false) :
    (flitFailed s g).dev.dead.getLsbD (g % 8) = true ∧ (flitFailed s g).dev.quiesce = true := by
  have ht : flitFailed s g = planeDeadSet (modDev s (fun d => { d with
      links := tset {} d.links g { tget {} s.dev.links g with replays := 0 } })) (1#8 <<< (g % 8)) := by
    simp only [flitFailed, h, if_true]
  rw [ht]
  exact planeDeadSet_alive (Nat.mod_lt _ (by omega)) halive

/-! #### A flit accepted, with its request (R144) -/

/-- A flit's acceptance at its link. -/
def accepted (s : State) (f : Flit) : State :=
  modDev s (fun d =>
    { d with
      links := tset {} d.links f.group { tget {} d.links f.group with replays := 0, expected := (tget {} d.links f.group).expected + 1 }
      reachable := if 8 ≤ f.group || d.reachable.contains f.dev then d.reachable else d.reachable ++ [f.dev] })

theorem flitGood_eq (s : State) (f : Flit) :
    flitGood s f =
      if f.group < 8 ∧ planeOf (accepted s f).dev (remotePa (accepted s f) f.request) = f.group ∧ remoteFits (accepted s f) f.request = true
      then remoteArrives (accepted s f) f.dev f.request else accepted s f := rfl

theorem linksReached_remoteArrives (s : State) (dev : Nat) (o : RemoteOp) :
    (remoteArrives s dev o).dev.links = s.dev.links ∧ (remoteArrives s dev o).dev.reachable = s.dev.reachable := by
  cases o with
  | barrier pa member v tag =>
    simp only [remoteArrives, remoteBarrier]
    split
    · exact ⟨rfl, rfl⟩
    · exact ⟨rfl, rfl⟩
  | none => exact ⟨rfl, rfl⟩
  | store => exact ⟨rfl, rfl⟩
  | load => exact ⟨rfl, rfl⟩
  | atomic => exact ⟨rfl, rfl⟩
  | fibre => exact ⟨rfl, rfl⟩
  | hit w => exact ⟨rfl, rfl⟩

theorem link_flitGood (s : State) (f : Flit) :
    tget {} (flitGood s f).dev.links f.group =
      { tget {} s.dev.links f.group with replays := 0, expected := (tget {} s.dev.links f.group).expected + 1 } := by
  have haccepted : tget {} (accepted s f).dev.links f.group =
      { tget {} s.dev.links f.group with replays := 0, expected := (tget {} s.dev.links f.group).expected + 1 } := by
    simp only [accepted, modDev, tget_tset_same]
  rw [flitGood_eq]
  split
  · rw [(linksReached_remoteArrives _ _ _).1, haccepted]
  · exact haccepted

theorem mem_reachable_flitGood (s : State) {f : Flit} (hg : f.group < 8) : f.dev ∈ (flitGood s f).dev.reachable := by
  have haccepted : f.dev ∈ (accepted s f).dev.reachable := by
    simp only [accepted, modDev]
    split
    · next h => simpa [Nat.not_le.mpr hg] using h
    · simp
  rw [flitGood_eq]
  split
  · rwa [(linksReached_remoteArrives _ _ _).2]
  · exact haccepted

theorem reqs_flitGood_none (s : State) {f : Flit} (h : f.request = .none) : (flitGood s f).reqs = s.reqs := by
  rw [flitGood_eq]
  split
  · rw [h]; rfl
  · rfl

/-- The home of a stretch of one line of HBM accepts a load or a store of a remote device. -/
theorem remoteFits_hbm {s : State} {o : RemoteOp} {a : Access} {pa n : Nat} (ho : remoteStretch o = some (a, pa, n))
    (ha : a = .load ∨ a = .store) (hplace : place pa = .hbm) (hout : stackOut s pa = false) (hn : 0 < n) (hline : pa % 64 + n ≤ 64) :
    remoteFits s o = true := by
  have hshape : decide (1 ≤ n ∧ pa % 64 + n ≤ 64) = true := decide_eq_true ⟨hn, hline⟩
  obtain rfl | rfl := ha <;> simp only [remoteFits, ho, hplace, hout, hshape] <;> rfl

section
variable {s : State} {f : Flit} (hg : f.group < 8) {pa : Nat} (hplane : planeOf s.dev pa = f.group) (hplace : place pa = .hbm)
  (hout : stackOut s pa = false)
include hg hplane hplace hout

/-- A flit whose request lies in one line of HBM puts it in flight. -/
theorem flitGood_arrives {a : Access} {n : Nat} (ho : remoteStretch f.request = some (a, pa, n)) (ha : a = .load ∨ a = .store)
    (hpa : remotePa s f.request = pa) (hn : 0 < n) (hline : pa % 64 + n ≤ 64) :
    flitGood s f = remoteArrives (accepted s f) f.dev f.request := by
  have hpa' : remotePa (accepted s f) f.request = pa := hpa
  rw [flitGood_eq, if_pos ⟨hg, by rw [hpa']; exact hplane, remoteFits_hbm ho ha hplace hout hn hline⟩]

theorem flitGood_load {n tag : Nat} (h : f.request = .load pa n tag) (hn : 0 < n) (hline : pa % 64 + n ≤ 64) :
    ∃ r, (flitGood s f).reqs = s.reqs ++ [r] ∧ r.agent = .remote f.dev ∧ r.kind = .load ∧ r.todo = [{ pa := pa, len := n, off := 0 }] ∧
      r.dest = .link f.dev tag := by
  rw [flitGood_arrives hg hplane hplace hout (by rw [h]; rfl) (.inl rfl) (by rw [h]; rfl) hn hline, h]
  exact ⟨_, rfl, rfl, rfl, rfl, rfl⟩

theorem flitGood_store {bs : List Byte} (h : f.request = .store pa bs) (hn : 0 < bs.length) (hline : pa % 64 + bs.length ≤ 64) :
    ∃ r, (flitGood s f).reqs = s.reqs ++ [r] ∧ r.agent = .remote f.dev ∧ r.kind = .store ∧
      r.todo = [{ pa := pa, len := bs.length, off := 0 }] ∧ r.data = BitVec.ofNat 2048 (numOf bs) := by
  rw [flitGood_arrives hg hplane hplace hout (by rw [h]; rfl) (.inr rfl) (by rw [h]; rfl) hn hline, h]
  exact ⟨_, rfl, rfl, rfl, rfl, rfl⟩

end

/-! ### What a flit received does, by its case -/

section
variable {s : State} {f : Flit} (h : Received s f)
include h

theorem linkFlit_dropped (hact : (injectFlit (tget {} s.dev.injectors f.group) f.lane).2 = false)
    (hseq : f.seq ≠ (tget {} s.dev.links f.group).expected) : linkFlit s f = flitCounted s f := by
  rw [linkFlit_received h]
  simp only [hact, Bool.false_and, Bool.false_eq_true, if_false, if_pos hseq]
theorem linkFlit_accepted (hact : (injectFlit (tget {} s.dev.injectors f.group) f.lane).2 = false) (hcrc : f.crcOk = true)
    (hseq : f.seq = (tget {} s.dev.links f.group).expected) : linkFlit s f = flitGood (flitCounted s f) f := by
  rw [linkFlit_received h]
  simp only [hact, hcrc, hseq, ne_eq, not_true, Bool.false_and, Bool.false_eq_true, if_false, Bool.not_true, Bool.or_self]
theorem linkFlit_failed (hact : (injectFlit (tget {} s.dev.injectors f.group) f.lane).2 = false) (hcrc : f.crcOk = false)
    (hseq : f.seq = (tget {} s.dev.links f.group).expected) : linkFlit s f = flitFailed (flitCounted s f) f.group := by
  rw [linkFlit_received h]
  simp only [hact, hcrc, hseq, ne_eq, not_true, Bool.false_and, Bool.false_eq_true, if_false, Bool.not_false, Bool.or_true, if_true]
/-- R387: an injector of mode 1 breaks the flit, one of mode 2 deletes it; either way it is resent. -/
theorem linkFlit_broken {x : Injector} (hact : injectFlit (tget {} s.dev.injectors f.group) f.lane = (x, true))
    (hmode : x.mode = 1 ∨ x.mode = 2) (hseq : f.seq = (tget {} s.dev.links f.group).expected) :
    linkFlit s f = flitFailed (flitCounted s f) f.group := by
  have hdelay : (x.mode == 3) = false := by obtain hm | hm := hmode <;> rw [hm] <;> rfl
  have hbreak : (x.mode == 1 || x.mode == 2) = true := by simpa using hmode
  rw [linkFlit_received h]
  simp only [hact, hdelay, hbreak, hseq, ne_eq, not_true, Bool.and_false, Bool.false_and, Bool.false_eq_true, if_false, Bool.and_self,
    Bool.true_or, if_true]
/-- R387: an injector of mode 3 delays the flit. -/
theorem linkFlit_delayed {x : Injector} (hact : injectFlit (tget {} s.dev.injectors f.group) f.lane = (x, true))
    (hmode : x.mode = 3) (hdelay : x.delay ≠ 0) : linkFlit s f = holdFlits (flitCounted s f) f.group x.delay := by
  rw [linkFlit_received h, if_pos (by simp [hact, hmode, hdelay]), hact]

end

/-! ### O47 -/

theorem exec_refresh_counted {s : State} (h : Awake s) {k : Nat} (splits : Bool) (hk : k < 8) :
    ∃ t, exec (.refresh k splits) s = .next t ∧
      (getStack t k).refpostcnt = (if splits then (getStack s k).refpostcnt else min (2 ^ 64 - 1) ((getStack s k).refpostcnt + 1)) ∧
      (getStack t k).splitcnt = (if splits then min (2 ^ 64 - 1) ((getStack s k).splitcnt + 1) else (getStack s k).splitcnt) ∧ t.mem = s.mem := by
  refine ⟨_, exec_refresh_of_awake h k splits, ?_, ?_, (refresh_memory s k splits).1⟩ <;> rw [getStack_refresh s hk]
  · cases splits <;> simp [satInc]
  · cases splits <;> simp [satInc]

theorem exec_scrubRead_corrected {s : State} (h : Awake s) {pa : Nat} (hmem : isMemory (place pa) = true) (hbase : unitBase pa = pa)
    (hnone : ∀ e ∈ s.dev.scrubs, e.1 ≠ pa) :
    ∃ t, exec (.scrubRead pa .corrected) s = .next t ∧ t.dev.scrubs = s.dev.scrubs ++ [(pa, false)] ∧
      (let i := if pa < hbmEnd then 1 else 0
       tget 0 t.dev.corrected i = min (2 ^ 64 - 1) (tget 0 s.dev.corrected i + 1)) ∧ t.mem = s.mem := by
  refine ⟨_, exec_scrubRead_of_awake h pa _, ?_, ?_, (scrubRead_memory s pa _).1⟩ <;> rw [scrubRead_corrected hmem hbase hnone]
  · rfl
  · exact corrected_countCorrected s _

theorem exec_scrubRead_uncorrectable {s : State} (h : Awake s) {pa : Nat} (hmem : isMemory (place pa) = true) (hbase : unitBase pa = pa)
    (hnew : pa ∉ s.dev.poison) :
    ∃ t, exec (.scrubRead pa .uncorrectable) s = .next t ∧ t.dev.poison = s.dev.poison ++ [pa] ∧
      t.dev.raswidx = (s.dev.raswidx + 1) % 2 ^ 64 ∧ (tget {} t.dev.errors (s.dev.raswidx % 256)).w2 = BitVec.ofNat 64 pa ∧
      (tget {} t.dev.errors (s.dev.raswidx % 256)).w0.toNat % 256 = 3 ∧ t.mem = s.mem := by
  obtain ⟨hpoison, hidx, unit, core, hrecord⟩ := poisonUnit_new hnew
  refine ⟨_, exec_scrubRead_of_awake h pa _, ?_⟩
  rw [scrubRead_uncorrectable hmem hbase, hrecord]
  refine ⟨hpoison, hidx, rfl, type_errorRecord _ _ _ _ _ _ _ (by omega), ?_⟩
  rw [← scrubRead_uncorrectable hmem hbase]
  exact (scrubRead_memory s pa _).1

theorem exec_scrubWriteback_written {s : State} (h : Awake s) {pa : Nat}
    (hfound : s.dev.scrubs.find? (fun e => e.1 == pa) = some (pa, true)) :
    ∃ t, exec (.scrubWriteback pa) s = .next t ∧ t.dev.scrubs.find? (fun e => e.1 == pa) = some (pa, false) ∧
      tget 0 t.dev.corrected 4 = min (2 ^ 64 - 1) (tget 0 s.dev.corrected 4 + 1) ∧ t.mem = s.mem := by
  refine ⟨_, exec_scrubWriteback_of_awake h pa, ?_, ?_, (scrubWriteback_memory s pa).1⟩ <;> rw [scrubWriteback_written hfound]
  · exact find_scrubs_reread _ hfound
  · exact corrected_countCorrected s 4

/-- A flit of a group whose injector is not armed, by its sequence number and its CRC. -/
theorem exec_linkFlit_disarmed {s : State} (h : Awake s) {f : Flit} (hr : Received s f) (harm : (tget {} s.dev.injectors f.group).arm = false) :
    let k := tget {} s.dev.links f.group
    (f.seq ≠ k.expected → ∃ t, exec (.linkFlit f) s = .next t ∧ t.dev.links = s.dev.links ∧ t.reqs = s.reqs ∧ t.mem = s.mem) ∧
    (f.crcOk = true → f.seq = k.expected → ∃ t, exec (.linkFlit f) s = .next t ∧
      tget {} t.dev.links f.group = { k with replays := 0, expected := k.expected + 1 } ∧
      (f.group < 8 → f.dev ∈ t.dev.reachable) ∧ (f.request = .none → t.reqs = s.reqs) ∧
      (∀ pa n tag, f.request = .load pa n tag → f.group < 8 → planeOf s.dev pa = f.group → place pa = .hbm → stackOut s pa = false →
        0 < n → pa % 64 + n ≤ 64 →
        ∃ r, t.reqs = s.reqs ++ [r] ∧ r.agent = .remote f.dev ∧ r.kind = .load ∧ r.todo = [{ pa := pa, len := n, off := 0 }] ∧
          r.dest = .link f.dev tag) ∧
      (∀ pa bs, f.request = .store pa bs → f.group < 8 → planeOf s.dev pa = f.group → place pa = .hbm → stackOut s pa = false →
        0 < bs.length → pa % 64 + bs.length ≤ 64 →
        ∃ r, t.reqs = s.reqs ++ [r] ∧ r.agent = .remote f.dev ∧ r.kind = .store ∧ r.todo = [{ pa := pa, len := bs.length, off := 0 }] ∧
          r.data = BitVec.ofNat 2048 (numOf bs)) ∧ t.mem = s.mem) ∧
    (f.crcOk = false → f.seq = k.expected → k.replays ≠ 16 → ∃ t, exec (.linkFlit f) s = .next t ∧
      tget {} t.dev.links f.group = { k with replays := k.replays + 1 } ∧
      tget 0 t.dev.corrected 3 = min (2 ^ 64 - 1) (tget 0 s.dev.corrected 3 + 1) ∧ t.reqs = s.reqs ∧ t.mem = s.mem) ∧
    (f.crcOk = false → f.seq = k.expected → k.replays = 16 → ∃ t, exec (.linkFlit f) s = .next t ∧
      t.dev.dead.getLsbD (f.group % 8) = true ∧ t.dev.quiesce = true ∧ t.reqs = s.reqs ∧ t.mem = s.mem) := by
  have hact : (injectFlit (tget {} s.dev.injectors f.group) f.lane).2 = false := by rw [injectFlit_disarmed harm]
  have hexec := exec_linkFlit_of_awake h f
  have hmem : (linkFlit s f).mem = s.mem := (linkFlit_memory s f).1
  refine ⟨fun hseq => ?_, fun hcrc hseq => ?_, fun hcrc hseq hcount => ?_, fun hcrc hseq hcount => ?_⟩
  · rw [linkFlit_dropped hr hact hseq] at hexec
    exact ⟨_, hexec, rfl, rfl, rfl⟩
  · rw [linkFlit_accepted hr hact hcrc hseq] at hexec hmem
    refine ⟨_, hexec, link_flitGood _ f, mem_reachable_flitGood _, reqs_flitGood_none _, ?_, ?_, hmem⟩
    · exact fun pa n tag ho hg hplane hplace hout hn hline => flitGood_load (s := flitCounted s f) hg hplane hplace hout ho hn hline
    · exact fun pa bs ho hg hplane hplace hout hn hline => flitGood_store (s := flitCounted s f) hg hplane hplace hout ho hn hline
  · rw [linkFlit_failed hr hact hcrc hseq] at hexec hmem
    refine ⟨_, hexec, link_flitFailed (s := flitCounted s f) hcount, ?_, reqs_flitFailed _ _, hmem⟩
    rw [flitFailed_replayed (s := flitCounted s f) hcount]
    exact corrected_countCorrected _ 3
  · rw [linkFlit_failed hr hact hcrc hseq] at hexec hmem
    obtain ⟨hdead, hquiesce⟩ := flitFailed_lost (s := flitCounted s f) hcount hr.alive
    exact ⟨_, hexec, hdead, hquiesce, reqs_flitFailed _ _, hmem⟩

/-- A flit of the lane that an armed injector counts. -/
theorem exec_linkFlit_armed {s : State} (h : Awake s) {f : Flit} (hr : Received s f) (harm : (tget {} s.dev.injectors f.group).arm = true)
    (hlane : (tget {} s.dev.injectors f.group).lane = f.lane) :
    let k := tget {} s.dev.links f.group
    let x := tget {} s.dev.injectors f.group
    (x.seen + 1 < x.n → f.seq ≠ k.expected → ∃ t, exec (.linkFlit f) s = .next t ∧
      tget {} t.dev.injectors f.group = { x with seen := x.seen + 1 } ∧ t.dev.links = s.dev.links ∧ t.reqs = s.reqs ∧ t.mem = s.mem) ∧
    (x.n ≤ x.seen + 1 → (x.mode = 1 ∨ x.mode = 2) → f.seq = k.expected → k.replays ≠ 16 → ∃ t, exec (.linkFlit f) s = .next t ∧
      (tget {} t.dev.injectors f.group).arm = false ∧ tget {} t.dev.links f.group = { k with replays := k.replays + 1 } ∧
      t.reqs = s.reqs ∧ t.mem = s.mem) ∧
    (x.n ≤ x.seen + 1 → x.mode = 3 → x.delay ≠ 0 → ∃ t, exec (.linkFlit f) s = .next t ∧
      (tget {} t.dev.injectors f.group).arm = false ∧ tget {} t.dev.links f.group = { k with heldUntil := s.cycle + x.delay } ∧
      t.reqs = s.reqs ∧ t.mem = s.mem) := by
  have hexec := exec_linkFlit_of_awake h f
  have hmem : (linkFlit s f).mem = s.mem := (linkFlit_memory s f).1
  refine ⟨fun hn hseq => ?_, fun hn hmode hseq hcount => ?_, fun hn hmode hdelay => ?_⟩
  · have hx := injectFlit_counting harm hlane hn
    rw [linkFlit_dropped hr (by rw [hx]) hseq] at hexec
    exact ⟨_, hexec, by rw [injector_flitCounted, hx], rfl, rfl, rfl⟩
  · have hx := injectFlit_acts harm hlane hn
    rw [linkFlit_broken hr hx hmode hseq] at hexec hmem
    exact ⟨_, hexec, by rw [injectors_flitFailed, injector_flitCounted, hx], link_flitFailed (s := flitCounted s f) hcount, reqs_flitFailed _ _, hmem⟩
  · have hx := injectFlit_acts harm hlane hn
    rw [linkFlit_delayed hr hx hmode hdelay] at hexec hmem
    refine ⟨_, hexec, ?_, tget_tset_same _ _ _ _, rfl, hmem⟩
    exact (congrArg Injector.arm (injector_flitCounted s f)).trans (by rw [hx])

/-- Settles O47: each event is its function, and a flit received is dropped, failed, delayed or accepted by its injector, its
sequence number and its CRC. -/
theorem rasEvents : Obligations.RasEvents := by
  unfold Obligations.RasEvents
  intro s h
  refine ⟨fun k splits hk => exec_refresh_counted h splits hk, fun pa hmem hbase => ⟨?_, exec_scrubRead_corrected h hmem hbase,
    exec_scrubRead_uncorrectable h hmem hbase⟩, fun pa => ⟨fun hfound => ?_, exec_scrubWriteback_written h⟩, ?_, ?_⟩
  · rw [exec_scrubRead_of_awake h, scrubRead_clean hmem hbase]
  · rw [exec_scrubWriteback_of_awake h, scrubWriteback_clean hfound]
  · intro f hgroup hlane hdev halive harm hfree k hheld
    exact exec_linkFlit_disarmed h ⟨hgroup, hlane, hdev, halive, hfree, hheld⟩ harm
  · intro f hgroup hlane hdev halive hfree k x
    refine ⟨fun hheld => ?_, fun hheld harm hinj => exec_linkFlit_armed h ⟨hgroup, hlane, hdev, halive, hfree, hheld⟩ harm hinj⟩
    rw [exec_linkFlit_of_awake h, linkFlit_held hheld]

end Sys2Proof.Machine

/-! # O32: stalled merges, pool timeouts, donations, resets and parked operations (R66-R68, R293) -/

namespace Sys2Proof.Machine
open Sys2Proof.Claims

section
variable {s : State} (h : Awake s)
include h

theorem exec_stalledMergeResume_of_awake (pool : Nat) : exec (.stalledMergeResume pool) s = .next (stalledResume s pool) := by
  rw [exec_stalledMergeResume, execStalledMergeResume, event_of_awake h]
theorem exec_poolTimeout_of_awake (pool : Nat) : exec (.poolTimeout pool) s = .next (poolTimeout s pool) := by
  rw [exec_poolTimeout, execPoolTimeout, event_of_awake h]
theorem exec_donate_of_awake (pool : Nat) (v : W64) :
    exec (.donate pool v true) s = .next (donate s pool (v.toNat % 2 ^ 32) (v.toNat / 2 ^ 32)) := by
  have hfirst : wbits v 0 32 = v.toNat % 2 ^ 32 := rfl
  have hcount : wbits v 32 32 = v.toNat / 2 ^ 32 := by
    rw [wbits, Nat.shiftRight_eq_div_pow, Nat.mod_eq_of_lt (by omega)]
  rw [exec_donate, execDonate, byDriver_true_of_awake h, hfirst, hcount]
theorem exec_poolReset_of_awake (pool : Nat) (v : W64) : exec (.poolReset pool v true) s = .next (poolReset s pool v) := by
  rw [exec_poolReset, execPoolReset, byDriver_true_of_awake h]
theorem exec_faultctlResume_of_awake (pool : Nat) : exec (.faultctlResume pool true) s = .next (faultResume s pool) := by
  rw [exec_faultctlResume, execFaultctlResume, byDriver_true_of_awake h]
theorem exec_faultctlAbandon_of_awake (pool : Nat) : exec (.faultctlAbandon pool true) s = .next (faultAbandon s pool) := by
  rw [exec_faultctlAbandon, execFaultctlAbandon, byDriver_true_of_awake h]

theorem exec_pool_of_other (pool : Nat) (v : W64) :
    ∀ i ∈ [Instr.donate pool v false, .poolReset pool v false, .faultctlResume pool false, .faultctlAbandon pool false], exec i s = .next s := by
  intro i hi
  simp only [List.mem_cons, List.not_mem_nil, or_false] at hi
  obtain rfl | rfl | rfl | rfl := hi <;>
    simp [execDonate, execPoolReset, execFaultctlResume, execFaultctlAbandon, byDriver_false_of_awake h]

end

/-! ### Pool descriptors (R59, R66) -/

/-- A pool's descriptor after it is set. -/
@[simp] theorem getPool_setPool (s : State) (p : Nat) (x : Pool) : getPool (setPool s p x) p = x := by
  unfold getPool setPool
  split
  · exact tget_tset_same _ _ _ _
  · simp [modCluster, getCluster]
@[simp] theorem getPool_modPool (s : State) (p : Nat) (f : Pool → Pool) : getPool (modPool s p f) p = f (getPool s p) :=
  getPool_setPool s p _

/-- The tables that hold the pool descriptors. -/
def poolTables (s : State) : Tbl Pool × Tbl Cluster := (s.dev.pools, s.clusters)

theorem getPool_of_poolTables {s t : State} (h : poolTables t = poolTables s) (p : Nat) : getPool t p = getPool s p := by
  have hdev : t.dev.pools = s.dev.pools := congrArg Prod.fst h
  have hclusters : t.clusters = s.clusters := congrArg Prod.snd h
  simp only [getPool, getCluster, hdev, hclusters]

theorem poolTables_notifyAll (s : State) (who : Session → Bool) (addr : W64) (payload : List Byte) :
    poolTables (notifyAll s who addr payload) = poolTables s := rfl
theorem poolTables_putEvent (s : State) (i j : Nat) (r : RingRec) :
    poolTables (modDev s (fun d => { d with events := tset {} d.events i r, evtwidx := j })) = poolTables s := rfl
@[simp] theorem getPool_driverEvent (s : State) (code core ctx aux : Nat) (addr detail : W64) (p : Nat) :
    getPool (driverEvent s code core ctx aux addr detail) p = getPool s p := by
  refine getPool_of_poolTables ?_ p
  unfold driverEvent
  exact (poolTables_notifyAll _ _ _ _).trans (poolTables_putEvent _ _ _ _)

/-- R66: only the count of a pool changes with its free count. -/
@[simp] theorem getPool_setFree (s : State) (p n : Nat) : getPool (setFree s p n) p = { getPool s p with freecnt := n } := by
  have hcount := getPool_modPool s p (fun q => { q with freecnt := n })
  unfold setFree
  dsimp only
  split
  · rw [getPool_driverEvent, hcount]
  · exact hcount

theorem donate_run (s : State) (pool first : Nat) {n : Nat} (hn : n ≠ 0) :
    getPool (donate s pool first n) pool =
      { getPool s pool with
        freecnt := (getPool s pool).freecnt + n, runs := (getPool s pool).runs ++ [(first, n)]
        freehead := if (getPool s pool).freecnt = 0 then first else (getPool s pool).freehead } := by
  rw [donate, if_neg hn]
  simp

theorem poolReset_empties {s : State} {pool : Nat} (hparked : (getPool s pool).parked = false) (hfree : ∀ f ∈ s.freqs, f.held = .no) :
    getPool (poolReset s pool 1) pool = { getPool s pool with freecnt := 0, freehead := noneIdx, runs := [] } := by
  have hnone : s.freqs.any (fun f => f.held != .no && poolOfHdr s f.hdr == pool) = false :=
    List.any_eq_false.mpr fun f hf => by simp [hfree f hf]
  have hgo : ¬ (((1 : W64) ≠ 1 : Bool) || (getPool s pool).parked || s.freqs.any (fun f => f.held != .no && poolOfHdr s f.hdr == pool)) = true := by
    simp [hparked, hnone]
  rw [poolReset, if_neg (by simpa using hgo)]
  simp

/-! ### Stalled operations (R67) -/

/-- The older of two stalled operations of a pool. -/
def olderStalled (s : State) (pool : Nat) (o : Option FReq) (f : FReq) : Option FReq :=
  match stalledSince f with
  | some t => if poolOfHdr s f.hdr = pool ∧ o.all (fun g => decide (t < (stalledSince g).getD 0)) then some f else o
  | none => o

theorem oldestStalled_eq_foldl (s : State) (pool : Nat) : oldestStalled s pool = s.freqs.foldl (olderStalled s pool) none := rfl

theorem olderStalled_eq_some {s : State} {pool : Nat} {o : Option FReq} {f g : FReq} (h : olderStalled s pool o f = some g) :
    o = some g ∨ (poolOfHdr s g.hdr = pool ∧ (stalledSince g).isSome = true) := by
  unfold olderStalled at h
  split at h
  · next t hf =>
    split at h
    · next hcond =>
      obtain rfl := Option.some.inj h
      exact .inr ⟨hcond.1, by rw [hf]; rfl⟩
    · exact .inl h
  · exact .inl h

/-- The operation that stalled first on a pool is a stalled one of that pool. -/
theorem stalled_oldestStalled {s : State} {pool : Nat} {f : FReq} (h : oldestStalled s pool = some f) :
    poolOfHdr s f.hdr = pool ∧ (stalledSince f).isSome = true := by
  have hfold : ∀ (l : List FReq) (o : Option FReq), l.foldl (olderStalled s pool) o = some f →
      o = some f ∨ (poolOfHdr s f.hdr = pool ∧ (stalledSince f).isSome = true) := by
    intro l
    induction l with
    | nil => exact fun o ho => .inl ho
    | cons g l ih => exact fun o ho => (ih _ ho).elim olderStalled_eq_some .inr
  rw [oldestStalled_eq_foldl] at h
  exact (hfold _ none h).resolve_left (by simp)

theorem stalledResume_applies {s : State} {pool : Nat} {f : FReq} (hmark : (getPool s pool).wmark ≤ (getPool s pool).freecnt)
    (hold : oldestStalled s pool = some f) : stalledResume s pool = fibApply s f := by
  simp only [stalledResume, if_neg (Nat.not_lt.mpr hmark), hold]

/-- The stalled operations of a launch on a pool leave. -/
def withoutStalled (s : State) (pool e : Nat) : State :=
  { s with freqs := s.freqs.filter (fun g => !(g.launch == e && (stalledSince g).isSome && poolOfHdr s g.hdr == pool)) }

theorem poolTimeout_fails {s : State} {pool t : Nat} {f : FReq} (hold : oldestStalled s pool = some f) (hsince : stalledSince f = some t)
    (htime : t + (getPool s pool).timeout * 1000 ≤ s.time) (hstill : stillStalled s pool f = true) (hlaunch : f.launch < 64) :
    poolTimeout s pool = failLaunch (withoutStalled s pool f.launch) f.launch { code := 0x11, addr := w64 f.va, detail := w64 pool } := by
  simp only [poolTimeout, hold, hsince, htime, hstill, and_self, if_true, hlaunch, withoutStalled]

theorem not_mem_withoutStalled {s : State} {pool : Nat} {f : FReq} (hold : oldestStalled s pool = some f) :
    f ∉ (withoutStalled s pool f.launch).freqs := by
  obtain ⟨hpool, hsome⟩ := stalled_oldestStalled hold
  intro hmem
  have hkept := (List.mem_filter.mp hmem).2
  simp [hpool, hsome] at hkept

/-! ### Parked operations (R68) -/

/-- FAULTCTL written: its pool's fault is no longer recorded. -/
def unpark (s : State) (pool : Nat) : State := modPool s pool (fun p => { p with parked := false })

theorem poolOfHdr_unpark (s : State) (pool hdr : Nat) : poolOfHdr (unpark s pool) hdr = poolOfHdr s hdr :=
  congrArg (fun x => (decodeHdr x).pool)
    (memRead_congr (memByte_of_ledger (modPool_mem s pool _) (ledger_modPool s pool _)) hdr 64)

theorem freqs_unpark (s : State) (pool : Nat) : (unpark s pool).freqs = s.freqs := by
  unfold unpark modPool setPool
  split <;> rfl

theorem parked_unpark (s : State) (pool : Nat) : (unpark s pool).freqs.find? (fun f => parkedAt f && poolOfHdr (unpark s pool) f.hdr == pool) =
    s.freqs.find? (fun f => parkedAt f && poolOfHdr s f.hdr == pool) := by
  simp only [freqs_unpark, poolOfHdr_unpark]

section
variable {s : State} {pool : Nat} {f : FReq} (hparked : (getPool s pool).parked = true)
  (hfind : s.freqs.find? (fun f => parkedAt f && poolOfHdr s f.hdr == pool) = some f)
include hparked hfind

theorem faultResume_applies : faultResume s pool =
    fibApply (putF (unpark s pool) { f with held := .no, begun := true }) { f with held := .no, begun := true } := by
  have hf := (parked_unpark s pool).trans hfind
  simp only [unpark] at hf
  simp only [faultResume, hparked, Bool.not_true, Bool.false_eq_true, if_false, hf, unpark]

theorem faultAbandon_fails : faultAbandon s pool =
    fibFail (unpark s pool) f { code := 0x12, addr := w64 (getPool s pool).faultva, detail := w64 pool } := by
  have hf := (parked_unpark s pool).trans hfind
  simp only [unpark] at hf
  simp only [faultAbandon, hparked, Bool.not_true, Bool.false_eq_true, if_false, hf, unpark]

end

theorem findF_dropF (s : State) (id : Nat) : findF (dropF s id) id = none := by
  refine List.find?_eq_none.mpr fun f hf => ?_
  simpa using (List.mem_filter.mp hf).2

theorem fibFail_launch {s : State} {f : FReq} (h : f.launch < 64) (r : ErrorRec) :
    fibFail s f r = failLaunch (dropF s f.id) f.launch r := if_pos h

/-! ### O32 -/

theorem exec_poolTimeout_fails {s : State} (h : Awake s) {pool t : Nat} {f : FReq} (hold : oldestStalled s pool = some f)
    (hsince : stalledSince f = some t) (htime : t + (getPool s pool).timeout * 1000 ≤ s.time) (hstill : stillStalled s pool f = true)
    (hlaunch : f.launch < 64) (hlive : (getLaunch s f.launch).failed = false) :
    ∃ u, exec (.poolTimeout pool) s = .next u ∧ f ∉ u.freqs ∧ (getLaunch u f.launch).failed = true ∧
      (getLaunch u f.launch).err.code = 0x11 ∧ (getLaunch u f.launch).err.addr = BitVec.ofNat 64 f.va ∧ u.mem = s.mem := by
  have hlive' : (getLaunch (withoutStalled s pool f.launch) f.launch).failed = false := hlive
  refine ⟨_, exec_poolTimeout_of_awake h pool, ?_⟩
  rw [poolTimeout_fails hold hsince htime hstill hlaunch, getLaunch_failLaunch hlive']
  exact ⟨not_mem_withoutStalled hold, rfl, rfl, rfl, rfl⟩

theorem exec_donate_run {s : State} (h : Awake s) (pool : Nat) (v : W64) (hn : v.toNat / 2 ^ 32 ≠ 0) :
    ∃ t, exec (.donate pool v true) s = .next t ∧ (getPool t pool).freecnt = (getPool s pool).freecnt + v.toNat / 2 ^ 32 ∧
      (getPool t pool).runs = (getPool s pool).runs ++ [(v.toNat % 2 ^ 32, v.toNat / 2 ^ 32)] ∧
      (getPool t pool).freehead = (if (getPool s pool).freecnt = 0 then v.toNat % 2 ^ 32 else (getPool s pool).freehead) ∧ t.mem = s.mem := by
  refine ⟨_, exec_donate_of_awake h pool v, ?_⟩
  rw [donate_run s pool _ hn]
  exact ⟨rfl, rfl, rfl, (donate_memory s pool _ _).1⟩

theorem exec_poolReset_empties {s : State} (h : Awake s) (pool : Nat) (hparked : (getPool s pool).parked = false)
    (hfree : ∀ f ∈ s.freqs, f.held = .no) :
    ∃ t, exec (.poolReset pool 1 true) s = .next t ∧ (getPool t pool).freecnt = 0 ∧ (getPool t pool).freehead = 0xFFFFFFFF ∧
      (getPool t pool).runs = [] ∧ t.mem = s.mem := by
  refine ⟨_, exec_poolReset_of_awake h pool 1, ?_⟩
  rw [poolReset_empties hparked hfree]
  exact ⟨rfl, rfl, rfl, (poolReset_memory s pool 1).1⟩

theorem exec_faultctlAbandon_fails {s : State} (h : Awake s) {pool : Nat} {f : FReq} (hparked : (getPool s pool).parked = true)
    (hfind : s.freqs.find? (fun f => parkedAt f && poolOfHdr s f.hdr == pool) = some f) (hlaunch : f.launch < 64)
    (hlive : (getLaunch s f.launch).failed = false) :
    ∃ t, exec (.faultctlAbandon pool true) s = .next t ∧ findF t f.id = none ∧ (getPool t pool).parked = false ∧
      (getLaunch t f.launch).failed = true ∧ (getLaunch t f.launch).err.code = 0x12 := by
  have hlaunches : getLaunch (dropF (unpark s pool) f.id) f.launch = getLaunch s f.launch :=
    congrArg (fun l : Ledger => tget ({} : Launch) l.launches f.launch) (ledger_modPool s pool (fun p => { p with parked := false }))
  have hpool : getPool (unpark s pool) pool = { getPool s pool with parked := false } := getPool_modPool s pool _
  refine ⟨_, exec_faultctlAbandon_of_awake h pool, ?_⟩
  rw [faultAbandon_fails hparked hfind, fibFail_launch hlaunch, getLaunch_failLaunch (hlaunches ▸ hlive)]
  exact ⟨findF_dropF _ _, congrArg Pool.parked hpool, rfl, rfl⟩

/-- Settles O32: each event of a pool is its function, by whether its pool stalls, is parked or is free. -/
theorem fibrePools : Obligations.FibrePools := by
  unfold Obligations.FibrePools
  intro s pool v h p
  refine ⟨fun f hmark hold => ?_, fun f t hold hsince htime hstill hlaunch hlive =>
      exec_poolTimeout_fails h hold hsince htime hstill hlaunch hlive,
    fun _ hn => exec_donate_run h pool v hn, exec_poolReset_empties h pool, fun hparked f hfind => ⟨?_, exec_faultctlAbandon_fails h hparked hfind⟩,
    exec_pool_of_other h pool v⟩
  · rw [exec_stalledMergeResume_of_awake h, stalledResume_applies hmark hold]
  · refine ⟨unpark s pool, getPool_modPool s pool _, modPool_mem s pool _, ?_⟩
    rw [exec_faultctlResume_of_awake h, faultResume_applies hparked hfind]

end Sys2Proof.Machine

/-! # O28: loads, atomics, fills and monitors at their homes, and results into registers (R45, R157, R160, R239, R245, R247, R389) -/

namespace Sys2Proof.Machine
open Sys2Proof.Claims

/-! ### A piece's bytes in a request's data -/

/-- A field of a number that fits its width. -/
theorem field_ofNat (x : Nat) {o l m : Nat} (h : o + l ≤ m) : (BitVec.ofNat m x).toNat / 2 ^ o % 2 ^ l = x / 2 ^ o % 2 ^ l := by
  obtain ⟨k, rfl⟩ := Nat.exists_eq_add_of_le (show o ≤ m by omega)
  rw [BitVec.toNat_ofNat, pow_add, Nat.mod_mul_right_div_self, Nat.mod_mod_of_dvd _ (pow_dvd_pow 2 (show l ≤ k by omega))]

/-- A field of a number whose bits from `o` are replaced by another number's. -/
theorem field_replaced (d x : Nat) {o l m : Nat} (h : o + l ≤ m) :
    (BitVec.ofNat m (d - (d &&& ((2 ^ l - 1) <<< o)) + ((x % 2 ^ l) <<< o))).toNat / 2 ^ o % 2 ^ l = x % 2 ^ l := by
  have hfield : d &&& ((2 ^ l - 1) <<< o) = d / 2 ^ o % 2 ^ l * 2 ^ o := by
    refine Nat.eq_of_testBit_eq fun i => ?_
    rw [Nat.testBit_and, Nat.testBit_shiftLeft, Nat.testBit_two_pow_sub_one, Nat.testBit_mul_two_pow, Nat.testBit_mod_two_pow,
      Nat.testBit_div_two_pow]
    by_cases hi : o ≤ i
    · simp [hi, Bool.and_comm]
    · simp [hi]
  have hparts : d = d / 2 ^ o / 2 ^ l * 2 ^ l * 2 ^ o + d / 2 ^ o % 2 ^ l * 2 ^ o + d % 2 ^ o := by
    rw [← Nat.add_mul, Nat.div_add_mod', Nat.div_add_mod']
  have hrest : d - (d &&& ((2 ^ l - 1) <<< o)) = d / 2 ^ o / 2 ^ l * 2 ^ l * 2 ^ o + d % 2 ^ o := by rw [hfield]; omega
  have hsum : d / 2 ^ o / 2 ^ l * 2 ^ l * 2 ^ o + d % 2 ^ o + x % 2 ^ l * 2 ^ o =
      d % 2 ^ o + 2 ^ o * (d / 2 ^ o / 2 ^ l * 2 ^ l + x % 2 ^ l) := by ring
  have hlow : d % 2 ^ o / 2 ^ o = 0 := Nat.div_eq_of_lt (Nat.mod_lt _ (by positivity))
  rw [field_ofNat _ h, hrest, Nat.shiftLeft_eq, hsum, Nat.add_mul_div_left _ _ (by positivity), hlow, Nat.zero_add, Nat.mul_add_mod', Nat.mod_mod]

theorem wbits_putData (d : VReg) {g : Seg} (x : Nat) (h : g.off + g.len ≤ 256) :
    wbits (putData d g x) (8 * g.off) (8 * g.len) = x % 2 ^ (8 * g.len) := by
  rw [wbits_eq_div_mod]
  exact field_replaced d.toNat x (show 8 * g.off + 8 * g.len ≤ 2048 by omega)

theorem memRead_lt (s : State) (pa n : Nat) : memRead s pa n < 2 ^ (8 * n) := by
  induction n generalizing pa with
  | zero => simp [memRead]
  | succ k ih =>
    have hfirst := (memByte s pa).isLt
    have hrest := ih (pa + 1)
    rw [memRead, Nat.mul_succ, pow_add]
    omega

theorem physRead_of_memory {s : State} {pa n : Nat} (h : ∀ i, i < n → isMemory (place (pa + i)) = true) :
    physRead s pa n = memRead s pa n := by
  induction n generalizing pa with
  | zero => rfl
  | succ k ih =>
    have hfirst : physByte s pa = memByte s pa := if_pos (h 0 (by omega))
    have hrest := ih (pa := pa + 1) fun i hi => by
      have := h (i + 1) (by omega)
      rwa [show pa + (i + 1) = pa + 1 + i by omega] at this
    rw [physRead, memRead, hfirst, hrest]

/-! ### Requests in flight -/

theorem findReq_putReq {s : State} {r q : Req} (h : findReq s r.id = some q) : findReq (putReq s r) r.id = some r := by
  have hkey : (fun q : Req => q.id == r.id) ∘ (fun q => if q.id = r.id then r else q) = fun q => q.id == r.id := by
    funext q
    by_cases hq : q.id = r.id <;> simp [hq]
  have hid : q.id = r.id := by simpa using List.find?_some h
  unfold findReq at h
  unfold findReq putReq
  rw [List.find?_map, hkey, h]
  exact congrArg some (if_pos hid)

theorem findReq_dropReq (s : State) (id : Nat) : findReq (dropReq s id) id = none := by
  refine List.find?_eq_none.mpr fun q hq => ?_
  simpa using (List.mem_filter.mp hq).2

theorem findReq_of_reqs {s t : State} (h : t.reqs = s.reqs) (id : Nat) : findReq t id = findReq s id := by
  rw [findReq, findReq, h]

theorem reqs_modStack (s : State) (k : Nat) (f : Stack → Stack) : (modStack s k f).reqs = s.reqs := rfl
theorem reqs_noteApplied (s : State) (a : Agent) (id : Nat) (h : Home) (d : VReg) : (noteApplied s a id h d).reqs = s.reqs := rfl
@[simp] theorem reqs_countUnits (s : State) (us : List Nat) : (countUnits s us).reqs = s.reqs := by
  unfold countUnits
  exact foldl_keeps (·.reqs) _ (fun s _ => reqs_modStack s _ _) us s
@[simp] theorem reqs_countPieces (s : State) (gs : List Seg) : (countPieces s gs).reqs = s.reqs := reqs_countUnits s _
@[simp] theorem reqs_addTraffic (s : State) (e : Nat) (gs : List Seg) : (addTraffic s e gs).reqs = s.reqs := by
  unfold addTraffic
  dsimp only
  split <;> rfl
@[simp] theorem reqs_noteRequest (s : State) (r : Req) (gs : List Seg) (d : VReg) : (noteRequest s r gs d).reqs = s.reqs := by
  unfold noteRequest
  exact foldl_keeps (·.reqs) _ (fun s _ => reqs_noteApplied s _ _ _ _) _ s
@[simp] theorem reqs_setDir (s : State) (r : DirRef) (e : DirEntry) : (setDir s r e).reqs = s.reqs := by
  cases r with
  | acc n d => rfl
  | slot n k => rfl
  | region n t => rfl
  | page b =>
    unfold setDir
    dsimp only
    split <;> rfl
@[simp] theorem reqs_touchTiles (s : State) (pa n : Nat) : (touchTiles s pa n).reqs = s.reqs :=
  foldl_keeps (·.reqs) _ (fun s _ => reqs_setDir s _ _) _ s
@[simp] theorem reqs_memWrite (s : State) (pa n x : Nat) : (memWrite s pa n x).reqs = s.reqs := by
  unfold memWrite hitMonitors spoil
  dsimp only
  split <;> rfl

/-! ### A request of one piece whose turn has come (R137, R139) -/

section
variable {s : State} {r : Req} {g : Seg} (hr : AtHome s r g)
include hr

theorem namedReq_of_atHome : namedReq s r.id = some (r, 0) := by
  unfold namedReq
  rw [hr.found]

theorem nextPieces_of_atHome {p : Seg → Bool} (hp : p g = true) : nextPieces s r p = [g] := by
  have hline : lineOf r g = [g] := if_neg (by simp [hr.line])
  have hfind : r.todo.find? (fun g => p g && (lineOf r g).all (pieceReady s r)) = some g := by
    rw [hr.todo]
    exact List.find?_cons_of_pos (by simp [hp, hline, hr.ready])
  unfold nextPieces
  rw [hfind]
  exact hline

theorem todo_left : r.todo.filter (fun h => !([g] : List Seg).contains h) = [] := by
  rw [hr.todo]
  simp

end

/-- R160: a request whose result is to be delivered waits for its delivery. -/
theorem settleReq_awaited (s : State) {r : Req} (h : r.dest ≠ .none) : settleReq s r = putReq s r := if_neg (by simp [h])
/-- A request with nothing to deliver leaves. -/
theorem settleReq_over (s : State) {r : Req} (htodo : r.todo = []) (h : r.dest = .none) : settleReq s r = dropReq s r.id :=
  if_pos (by simp [htodo, h])

/-! ### A load at its home (R45, R46) -/

theorem readRaw_here {g : Seg} (h : g.dev = 0) (s : State) : readRaw s g = (physRead s g.pa g.len, s) := if_neg (by simp [h])

/-- One piece of this device read into a request's data. -/
theorem readPieces_one (s : State) {r : Req} {g : Seg} (hdev : g.dev = 0) :
    readPieces s r [g] =
      ({ r with todo := r.todo.filter (fun h => !([g] : List Seg).contains h)
                data := putData r.data g (physRead (addTraffic (countPieces s [g]) r.launch [g]) g.pa g.len) },
        addTraffic (countPieces s [g]) r.launch [g]) := by
  unfold readPieces joinPieces joinPieces
  simp only [List.foldl_cons, List.foldl_nil, readRaw_here hdev]

/-- What a request that has read one piece is left with. -/
def withRead (r : Req) (g : Seg) (x : Nat) : Req := { r with todo := [], data := putData r.data g x }

theorem dataAt_withRead (r : Req) {g : Seg} (h : g.off + g.len ≤ 256) {x : Nat} (hx : x < 2 ^ (8 * g.len)) : dataAt (withRead r g x) g = x :=
  (wbits_putData r.data x h).trans (Nat.mod_eq_of_lt hx)

section
variable {s : State} {r : Req} {g : Seg} (hr : AtHome s r g)
include hr

theorem loadAtHome_read (hkind : r.kind = .load) (hdest : r.dest ≠ .none) (hmem : ∀ i, i < g.len → isMemory (place (g.pa + i)) = true) :
    loadAtHome s r.id = putReq (addTraffic (countPieces s [g]) r.launch [g]) (withRead r g (memRead s g.pa g.len)) := by
  have hbytes : memByte (addTraffic (countPieces s [g]) r.launch [g]) = memByte s := memByte_of_ledger (by simp) (by simp)
  unfold loadAtHome
  rw [namedReq_of_atHome hr]
  dsimp only
  rw [if_pos hkind, nextPieces_of_atHome hr (by rfl), readPieces_one s hr.here, physRead_of_memory hmem, memRead_congr hbytes,
    todo_left hr]
  exact settleReq_awaited _ hdest

end

/-! ### An atomic at its home (R245, R389) -/

theorem ite_place_ne {p : Prop} [Decidable p] {a b c : Place} (ha : a ≠ c) (hb : b ≠ c) : (if p then a else b) ≠ c := by
  split
  · exact ha
  · exact hb
theorem corePlace_ne_hbm (n o : Nat) : corePlace n o ≠ .hbm := by
  unfold corePlace scalarPlace
  repeat' apply ite_place_ne
  all_goals exact nofun
theorem clusterPlace_ne_hbm (k o : Nat) : clusterPlace k o ≠ .hbm := by
  unfold clusterPlace
  repeat' apply ite_place_ne
  all_goals exact nofun

/-- A place of HBM is an address below its end (R7). -/
theorem lt_hbmEnd_of_place {pa : Nat} (h : place pa = .hbm) : pa < hbmEnd := by
  by_contra hpa
  unfold place at h
  rw [if_neg hpa] at h
  refine absurd h (ite_place_ne (corePlace_ne_hbm _ _) (ite_place_ne (clusterPlace_ne_hbm _ _) (ite_place_ne ?_ ?_)))
  · split <;> exact nofun
  · exact nofun

theorem place_of_lt_hbmEnd {pa : Nat} (h : pa < hbmEnd) : place pa = .hbm := if_pos h

/-- R362: no redirection parts the bytes of a 4 KiB sector. -/
theorem homePa_sector (s : State) {pa i : Nat} (h : pa / 4096 = (pa + i) / 4096) : homePa s (pa + i) = homePa s pa + i := by
  have hpage : (pa + i) / 65536 = pa / 65536 := by omega
  have hoff : (pa + i) % 65536 = pa % 65536 + i := by omega
  have hsector : (pa % 65536 + i) / 4096 = pa % 65536 / 4096 := by omega
  have hhbm : pa + i < hbmEnd ↔ pa < hbmEnd := by unfold hbmEnd; omega
  unfold homePa redirectRead
  simp only [hpage, hoff, hsector, hhbm]
  split
  · split
    · split
      · rw [Nat.add_assoc]
      · rfl
    · rfl
  · rfl

/-- R45, R362: the bytes of a store within a sector. -/
theorem memByte_memWrite_sector (s : State) {pa n i : Nat} (x : Nat) (h : pa / 4096 = (pa + n - 1) / 4096) (hi : i < n) :
    memByte (memWrite s pa n x) (pa + i) = BitVec.ofNat 8 (x / 256 ^ i) := by
  have hhome : ∀ j, j < n → homePa s (pa + j) = homePa s pa + j := fun j hj => homePa_sector s (by omega)
  have hcells : (memWrite s pa n x).mem =
      (upFrom 0 n).foldl (fun m j => Memory.set s.epoch m (homePa s pa + j) (BitVec.ofNat 8 (x / 256 ^ j))) s.mem := by
    rw [memWrite_mem]
    refine List.foldl_ext _ _ _ (fun m j hj => ?_)
    have hjn : j < n := by simpa [upFrom_eq_range'] using hj
    rw [hhome j hjn, shiftRight_eight_mul]
  have hset := Memory.get_foldl_set_upFrom s.epoch (homePa s pa) (fun j => BitVec.ofNat 8 (x / 256 ^ j)) 0 n s.mem (homePa s pa + i)
  rw [if_pos (by omega), Nat.add_sub_cancel_left] at hset
  unfold memByte
  rw [homePa_congr (memWrite_migrations s pa n x), hhome i hi, memWrite_epoch, hcells, hset]

/-- Bytes set elsewhere. -/
theorem get_foldl_set_of_ne (e : Nat) (addr : Nat → Nat) (byte : Nat → Byte) (is : List Nat) (m : List Host.Cell) (a : Nat)
    (h : ∀ i ∈ is, a ≠ addr i) : Memory.get e (is.foldl (fun m i => Memory.set e m (addr i) (byte i)) m) a = Memory.get e m a := by
  induction is generalizing m with
  | nil => rfl
  | cons i is ih =>
    rw [List.foldl_cons, ih _ fun j hj => h j (by simp [hj]), Memory.get_set_ne _ _ _ _ _ (h i (by simp))]

/-- R45: a store moves no byte but its own, by where they stand. -/
theorem memByte_memWrite_of_not_stored (s : State) {g : Seg} (x a : Nat) (h : ¬ stored s g a) :
    memByte (memWrite s g.pa g.len x) a = memByte s a := by
  unfold memByte
  rw [homePa_congr (memWrite_migrations s g.pa g.len x), memWrite_epoch, memWrite_mem]
  refine get_foldl_set_of_ne _ _ _ _ _ _ fun i hi heq => h ⟨i, ?_, heq⟩
  simpa [upFrom_eq_range'] using hi

theorem memByte_storeMem_plain {pa : Nat} (h : PlainMemory pa) (s : State) (n x : Nat) :
    memByte (storeMem s pa n x) = memByte (memWrite s pa n x) := by
  rw [storeMem_of_plain h]
  exact memByte_of_ledger (touchTiles_mem _ _ _) (ledger_touchTiles _ _ _)

/-- A store of a piece of plain memory. -/
theorem memByte_storeMem_piece {s : State} {g : Seg} (hplain : PlainMemory g.pa) (haligned : 0 < g.len ∧ g.pa / 4096 = (g.pa + g.len - 1) / 4096)
    (x : Nat) : (∀ i, i < g.len → memByte (storeMem s g.pa g.len x) (g.pa + i) = BitVec.ofNat 8 (x / 256 ^ i)) ∧
      (∀ a, ¬ stored s g a → memByte (storeMem s g.pa g.len x) a = memByte s a) := by
  rw [memByte_storeMem_plain hplain]
  exact ⟨fun i hi => memByte_memWrite_sector s x haligned.2 hi, fun a => memByte_memWrite_of_not_stored s x a⟩

theorem stored_congr {s t : State} (h : t.dev.migrations = s.dev.migrations) (g : Seg) (a : Nat) : stored t g a ↔ stored s g a := by
  simp only [stored, homePa_congr h]

@[simp] theorem reqs_storeMem_plain {pa : Nat} (h : PlainMemory pa) (s : State) (n x : Nat) : (storeMem s pa n x).reqs = s.reqs := by
  rw [storeMem_of_plain h, reqs_touchTiles, reqs_memWrite]

/-- R389: what a home of a piece of this device keeps of a request it has applied. -/
theorem mem_replay_noteRequest (s : State) (r : Req) {g : Seg} (hdev : g.dev = 0) (d : VReg) :
    ∃ e ∈ (noteRequest s r [g] d).replay, e.agent = r.agent ∧ e.id = r.id ∧ e.response = d := by
  have hhome : homeOf s g ∈ (((r.path ++ [g]).filter (·.dev == 0)).map (homeOf s)).eraseDups :=
    List.mem_eraseDups.mpr (List.mem_map_of_mem (by simp [hdev]))
  obtain hnil | ⟨l, h, hl⟩ := List.eq_nil_or_concat (((r.path ++ [g]).filter (·.dev == 0)).map (homeOf s)).eraseDups
  · rw [hnil] at hhome
    exact absurd hhome (by simp)
  · unfold noteRequest
    rw [hl, List.concat_eq_append, List.foldl_append]
    exact ⟨{ home := h, agent := r.agent, id := r.id, response := d }, List.mem_append_right _ (by simp), rfl, rfl, rfl⟩

theorem atomicStore_of_plain {pa : Nat} (h : PlainMemory pa) (s : State) (n x : Nat) : atomicStore s pa n x = storeMem s pa n x := by
  unfold atomicStore
  rcases h with h | ⟨c, o, h⟩ <;> rw [h]

theorem readSeg_here {g : Seg} (h : g.dev = 0) (s : State) : readSeg s g = (physRead s g.pa g.len, countPieces s [g]) := by
  rw [readSeg, readRaw_here h]

/-- R245: an atomic's read and write, as one act. -/
theorem atomicAtHome_applied {s : State} {r : Req} {g : Seg} (hr : AtHome s r g) {op : AmoOp} {b e : W64} (hkind : r.kind = .atomic op b e)
    (hplain : PlainMemory g.pa) (hmem : ∀ i, i < g.len → isMemory (place (g.pa + i)) = true) (hdest : r.dest ≠ .none) :
    atomicAtHome s r.id =
      noteRequest (putReq (storeMem (countPieces (addTraffic s r.launch [g]) [g]) g.pa g.len
          (amoNew op (8 * g.len) (memRead s g.pa g.len) b.toNat e.toNat))
        (withRead r g (memRead s g.pa g.len))) r [g] (withRead r g (memRead s g.pa g.len)).data := by
  have hbytes : memByte (addTraffic s r.launch [g]) = memByte s := memByte_of_ledger (by simp) (by simp)
  unfold atomicAtHome
  rw [hr.found]
  dsimp only
  rw [hkind]
  dsimp only
  rw [nextPieces_of_atHome hr (by rfl)]
  dsimp only
  rw [readSeg_here hr.here, physRead_of_memory hmem, memRead_congr hbytes, if_pos hr.here, atomicStore_of_plain hplain,
    settleReq_awaited _ (by exact hdest)]
  unfold withRead
  rw [hkind]

/-! ### A result into its register (R160, R239) -/

/-- R5: a number's low bits read as two's complement. -/
theorem toSigned_toNat {n : Nat} (hn : 0 < n) (x : BitVec n) : toSigned n x.toNat = x.toInt := by
  have hhalf : 2 ^ n = 2 * 2 ^ (n - 1) := by rw [← pow_succ']; congr 1; omega
  have hcond : x.toNat < 2 ^ (n - 1) ↔ 2 * x.toNat < 2 ^ n := by omega
  rw [toSigned, Nat.mod_eq_of_lt x.isLt, BitVec.toInt_eq_toNat_cond]
  simp only [hcond]

/-- R239: the scalar of a result of 1, 2, 4 or 8 bytes. -/
theorem scalarResult_eq {r : Req} {n : Nat} (hn : n ∈ [1, 2, 4, 8]) (hsize : r.size = n) : scalarResult r = extended r.data n r.signed := by
  have hpos : 0 < n ∧ n ≤ 8 := by
    simp only [List.mem_cons, List.not_mem_nil, or_false] at hn
    omega
  have hbits : wbits r.data 0 (8 * min r.size 8) = (r.data.setWidth (8 * n)).toNat := by
    rw [hsize, Nat.min_eq_left hpos.2, wbits_eq_div_mod, BitVec.toNat_setWidth, pow_zero, Nat.div_one]
  have hzero : w64 (r.data.setWidth (8 * n)).toNat = (r.data.setWidth (8 * n)).setWidth 64 := BitVec.ofNat_toNat _ _
  unfold scalarResult extended
  rw [hbits, hsize]
  cases r.signed with
  | false => exact hzero
  | true =>
    by_cases hlt : n < 8
    · have hsign : toSigned (8 * n) (r.data.setWidth (8 * n)).toNat = (r.data.setWidth (8 * n)).toInt := toSigned_toNat (by omega) _
      simp only [hsign, hlt, decide_true, Bool.and_self, if_true]
      rfl
    · obtain rfl : n = 8 := by omega
      have hsame : (r.data.setWidth 64).signExtend 64 = r.data.setWidth 64 := BitVec.signExtend_eq _
      simp only [hlt, decide_false, Bool.and_false, Bool.false_eq_true, if_false, if_true]
      exact hzero.trans ((BitVec.setWidth_eq _).trans hsame.symm)

theorem sget_sput (x : Stream) {p : Nat} (hp : 0 < p) (v : W64) : sget (sput x p v) p = v := by
  have hne : ¬ p = 0 := by omega
  simp [sget, sput, hne]
theorem sfullAt_sput (x : Stream) {p : Nat} (hp : 0 < p) (hlt : p < 136) (v : W64) : sfullAt (sput x p v) p = true := by
  have hne : ¬ p = 0 := by omega
  simp [sfullAt, sput, hne, getLsbD_one_shiftLeft p hlt]

/-- The residue that a delivery leaves moves neither the value nor the full bit. -/
theorem fillScalar_eq (x : Stream) (p : Nat) (v : W64) : ∃ t, fillScalar x p v = { sput x p v with residue := t } := by
  unfold fillScalar
  dsimp only
  split
  · exact ⟨_, rfl⟩
  · exact ⟨_, rfl⟩
theorem sget_fillScalar (x : Stream) {p : Nat} (hp : 0 < p) (v : W64) : sget (fillScalar x p v) p = v := by
  obtain ⟨t, ht⟩ := fillScalar_eq x p v
  rw [ht]
  exact sget_sput x hp v
theorem sfullAt_fillScalar (x : Stream) {p : Nat} (hp : 0 < p) (hlt : p < 136) (v : W64) : sfullAt (fillScalar x p v) p = true := by
  obtain ⟨t, ht⟩ := fillScalar_eq x p v
  rw [ht]
  exact sfullAt_sput x hp hlt v

theorem registerFill_scalar {s : State} {r : Req} {w : StreamId} {p : Nat} (hfound : findReq s r.id = some r) (hagent : r.agent = .stream w)
    (htodo : r.todo = []) (hfiring : sameFiring s w r.slot r.fir = true) (hturn : responseTurn s r = true) (hdest : r.dest = .scalar p) :
    registerFill s r.id = dropReq (modStream s w (fun x => fillScalar x p (scalarResult r))) r.id := by
  have hgo : ¬ (r.dest = .none ∨ (!r.todo.isEmpty) = true ∨ (!responseTurn s r) = true) := by simp [hdest, htodo, hturn]
  have hsame : ¬ (!sameFiring s w r.slot r.fir) = true := by simp [hfiring]
  unfold registerFill
  rw [hfound]
  dsimp only
  rw [hagent]
  dsimp only
  rw [if_neg hgo, if_neg hsame, fillDest, hdest]

theorem getStream_dropReq (s : State) (id : Nat) (w : StreamId) : getStream (dropReq s id) w = getStream s w := rfl

/-! ### A monitor at its home (R247) -/

theorem monitorRegister_placed {s : State} {r : Req} {g : Seg} {w : StreamId} (hr : AtHome s r g) (hkind : r.kind = .monitor)
    (hagent : r.agent = .stream w) :
    monitorRegister s r.id = dropReq (modStream s w (fun x =>
      if x.monitor.armed then { x with monitor := { x.monitor with placed := true } } else x)) r.id := by
  unfold monitorRegister
  rw [hr.found]
  dsimp only
  rw [hkind, hagent]
  dsimp only
  rw [nextPieces_of_atHome hr (by rfl)]
  rfl

/-! ### A fill's arrival (R157) -/

theorem sget_smark (x : Stream) (p q : Nat) (full : Bool) : sget (smark x q full) p = sget x p := by
  unfold smark
  split <;> rfl
theorem sfullAt_smark (x : Stream) {p : Nat} (hp : 0 < p) (hlt : p < 136) (full : Bool) : sfullAt (smark x p full) p = full := by
  have hne : ¬ p = 0 := by omega
  cases full <;> simp [sfullAt, smark, hne, hlt]

theorem cores_modStack (s : State) (k : Nat) (f : Stack → Stack) : (modStack s k f).cores = s.cores := rfl
@[simp] theorem cores_countPieces (s : State) (gs : List Seg) : (countPieces s gs).cores = s.cores := by
  unfold countPieces countUnits
  exact foldl_keeps (·.cores) _ (fun s _ => cores_modStack s _ _) _ s
@[simp] theorem cores_addTraffic (s : State) (e : Nat) (gs : List Seg) : (addTraffic s e gs).cores = s.cores := by
  unfold addTraffic
  dsimp only
  split <;> rfl
theorem getStream_of_cores {s t : State} (h : t.cores = s.cores) (w : StreamId) : getStream t w = getStream s w := by
  simp only [getStream, getCore, h]
theorem getCtx_of_cores {s t : State} (h : t.cores = s.cores) (n c : Nat) : getCtx t n c = getCtx s n c := by
  simp only [getCtx, getCore, h]

/-- A register of a window that comes back, with its full bit. -/
def filled (v : W64) (full : Bool) (reg : Nat) (x : Stream) : Stream := smark (sput x reg v) reg full

theorem fillArrive_arrives {s : State} {n c reg : Nat} {f : Fill} (hfind : (getCtx s n c).fills.find? (fun f => f.reg == reg) = some f)
    (hval : f.val.dev = 0) (hfull : f.full.dev = 0) (hready : pieceReady s (fillReq s n c f) f.val = true)
    (hready' : pieceReady s (fillReq s n c f) f.full = true) :
    ∃ u, u.cores = s.cores ∧ u.mem = s.mem ∧ fillArrive s n c reg =
      modCtx (modStream u (cpOf n c) (filled (w64 (physRead s f.val.pa f.val.len)) ((physRead s f.full.pa f.full.len).testBit f.bit) reg)) n c
        (fun x => { x with fills := x.fills.filter (fun g => g.reg != reg) }) := by
  have hgo : ¬ (!(pieceReady s (fillReq s n c f) f.val && pieceReady s (fillReq s n c f) f.full)) = true := by simp [hready, hready']
  refine ⟨addTraffic (countPieces s [f.val, f.full]) (((getCtx s n c).firing.map (·.launch)).getD 64) [f.val, f.full], by simp, by simp, ?_⟩
  unfold fillArrive
  rw [hfind]
  dsimp only
  rw [readRaw_here hval, readRaw_here hfull]
  exact if_neg hgo

/-! ### O28 -/

theorem exec_loadAtHome_of_awake {s : State} (h : Awake s) (id : Nat) : exec (.loadAtHome id) s = .next (loadAtHome s id) := by
  rw [exec_loadAtHome, execLoadAtHome, event_of_awake h]
theorem exec_atomicAtHome_of_awake {s : State} (h : Awake s) (id : Nat) : exec (.atomicAtHome id) s = .next (atomicAtHome s id) := by
  rw [exec_atomicAtHome, execAtomicAtHome, event_of_awake h]
theorem exec_registerFill_of_awake {s : State} (h : Awake s) (id : Nat) : exec (.registerFill id) s = .next (registerFill s id) := by
  rw [exec_registerFill, execRegisterFill, event_of_awake h]
theorem exec_monitorRegister_of_awake {s : State} (h : Awake s) (id : Nat) : exec (.monitorRegister id) s = .next (monitorRegister s id) := by
  rw [exec_monitorRegister, execMonitorRegister, event_of_awake h]
theorem exec_fillArrive_of_awake {s : State} (h : Awake s) (n c reg : Nat) : exec (.fillArrive n c reg) s = .next (fillArrive s n c reg) := by
  rw [exec_fillArrive, execFillArrive, event_of_awake h]

theorem exec_loadAtHome_read {s : State} (h : Awake s) {r : Req} {g : Seg} (hr : AtHome s r g) (hkind : r.kind = .load)
    (hdest : r.dest ≠ .none) (hmem : ∀ i, i < g.len → isMemory (place (g.pa + i)) = true) :
    ∃ t q, exec (.loadAtHome r.id) s = .next t ∧ findReq t r.id = some q ∧ q.todo = [] ∧ q.dest = r.dest ∧
      dataAt q g = memRead s g.pa g.len ∧ t.mem = s.mem := by
  refine ⟨_, withRead r g (memRead s g.pa g.len), exec_loadAtHome_of_awake h _, ?_, rfl, rfl, dataAt_withRead r hr.fits (memRead_lt s _ _), ?_⟩
  · rw [loadAtHome_read hr hkind hdest hmem]
    exact findReq_putReq (r := withRead r g _) ((findReq_of_reqs (by simp) _).trans hr.found)
  · exact (loadAtHome_memory s r.id).1

theorem exec_atomicAtHome_applied {s : State} (h : Awake s) {r : Req} {g : Seg} {op : AmoOp} {b e : W64} (hr : AtHome s r g)
    (hplace : place g.pa = .hbm) (hkind : r.kind = .atomic op b e) (hlen : g.len = 4 ∨ g.len = 8) (hword : g.pa % g.len = 0)
    (hdest : r.dest ≠ .none) :
    ∃ t q, exec (.atomicAtHome r.id) s = .next t ∧ findReq t r.id = some q ∧ q.todo = [] ∧ dataAt q g = memRead s g.pa g.len ∧
      memRead t g.pa g.len = amoNew op (8 * g.len) (memRead s g.pa g.len) b.toNat e.toNat % 2 ^ (8 * g.len) ∧
      (∀ a, ¬ stored s g a → memByte t a = memByte s a) ∧ ∃ e ∈ t.replay, e.agent = r.agent ∧ e.id = r.id ∧ e.response = q.data := by
  have hlt := lt_hbmEnd_of_place hplace
  have hmem : ∀ i, i < g.len → isMemory (place (g.pa + i)) = true := fun i hi => by
    have hin : g.pa + i < hbmEnd := by
      unfold hbmEnd at hlt ⊢
      rcases hlen with hl | hl <;> rw [hl] at hword hi <;> omega
    rw [place_of_lt_hbmEnd hin]
    rfl
  let u := countPieces (addTraffic s r.launch [g]) [g]
  let x := amoNew op (8 * g.len) (memRead s g.pa g.len) b.toNat e.toNat
  have hledger : ledger u = ledger s := by simp [u]
  have hbefore : memByte u = memByte s := memByte_of_ledger (by simp [u]) hledger
  obtain ⟨hin, hout⟩ := memByte_storeMem_piece (s := u) (.inl hplace) hr.aligned x
  have ht := atomicAtHome_applied hr hkind (.inl hplace) hmem hdest
  have hafter : memByte (atomicAtHome s r.id) = memByte (storeMem u g.pa g.len x) := by
    rw [ht]
    exact memByte_of_ledger (noteRequest_memory _ _ _ _).1 (ledger_noteRequest _ _ _ _)
  refine ⟨_, withRead r g (memRead s g.pa g.len), exec_atomicAtHome_of_awake h _, ?_, rfl, dataAt_withRead r hr.fits (memRead_lt s _ _), ?_, ?_, ?_⟩
  · rw [ht, findReq_of_reqs (reqs_noteRequest _ _ _ _)]
    refine findReq_putReq (r := withRead r g _) ((findReq_of_reqs ?_ _).trans hr.found)
    rw [reqs_storeMem_plain (.inl hplace)]
    simp
  · rw [memRead_of_memByte _ _ _ x (fun i hi => by rw [hafter, hin i hi]), pow_mul]
    rfl
  · exact fun a ha => by rw [hafter, hout a (by rwa [stored_congr (migrations_of_ledger hledger)]), hbefore]
  · rw [ht]
    exact mem_replay_noteRequest _ r hr.here _

theorem exec_registerFill_scalar {s : State} (h : Awake s) {r : Req} {w : StreamId} {p n : Nat} (hfound : findReq s r.id = some r)
    (hagent : r.agent = .stream w) (htodo : r.todo = []) (hfiring : sameFiring s w r.slot r.fir = true) (hturn : responseTurn s r = true)
    (hdest : r.dest = .scalar p) (hp : 0 < p) (hlt : p < 136) (hn : n ∈ [1, 2, 4, 8]) (hsize : r.size = n) :
    ∃ t, exec (.registerFill r.id) s = .next t ∧ sget (getStream t w) p = extended r.data n r.signed ∧ sfullAt (getStream t w) p = true ∧
      findReq t r.id = none ∧ t.mem = s.mem := by
  refine ⟨_, exec_registerFill_of_awake h _, ?_⟩
  rw [registerFill_scalar hfound hagent htodo hfiring hturn hdest, getStream_dropReq, getStream_modStream]
  exact ⟨(sget_fillScalar _ hp _).trans (scalarResult_eq hn hsize), sfullAt_fillScalar _ hp hlt _, findReq_dropReq _ _, rfl⟩

theorem exec_monitorRegister_placed {s : State} (h : Awake s) {r : Req} {g : Seg} {w : StreamId} (hr : AtHome s r g) (hkind : r.kind = .monitor)
    (hagent : r.agent = .stream w) (harmed : (getStream s w).monitor.armed = true) :
    ∃ t, exec (.monitorRegister r.id) s = .next t ∧ (getStream t w).monitor = { (getStream s w).monitor with placed := true } ∧
      findReq t r.id = none ∧ t.mem = s.mem := by
  refine ⟨_, exec_monitorRegister_of_awake h _, ?_⟩
  rw [monitorRegister_placed hr hkind hagent, getStream_dropReq, getStream_modStream, if_pos harmed]
  exact ⟨rfl, findReq_dropReq _ _, rfl⟩

theorem exec_fillArrive_arrives {s : State} (h : Awake s) {n c reg : Nat} {f : Fill}
    (hfind : (getCtx s n c).fills.find? (fun f => f.reg == reg) = some f) (hpos : 0 < reg) (hlt : reg < 136)
    (hval : f.val.dev = 0) (hfull : f.full.dev = 0) (hready : pieceReady s (fillReq s n c f) f.val = true)
    (hready' : pieceReady s (fillReq s n c f) f.full = true) :
    ∃ t, exec (.fillArrive n c reg) s = .next t ∧ sget (getStream t (cpOf n c)) reg = BitVec.ofNat 64 (physRead s f.val.pa f.val.len) ∧
      sfullAt (getStream t (cpOf n c)) reg = (physRead s f.full.pa f.full.len).testBit f.bit ∧
      (getCtx t n c).fills = (getCtx s n c).fills.filter (fun g => g.reg != reg) ∧ t.mem = s.mem := by
  obtain ⟨u, hcores, hmem, ht⟩ := fillArrive_arrives hfind hval hfull hready hready'
  refine ⟨_, exec_fillArrive_of_awake h n c reg, ?_⟩
  rw [ht, getStream_modCtx, getStream_modStream, getCtx_modCtx, getCtx_modStream, getStream_of_cores hcores, getCtx_of_cores hcores]
  exact ⟨(sget_smark _ _ _ _).trans (sget_sput _ hpos _), sfullAt_smark _ hpos hlt _, rfl, hmem⟩

/-- Settles O28: each event at a home is its function, on the request or the register that it names. -/
theorem readsAtHome : Obligations.ReadsAtHome := by
  unfold Obligations.ReadsAtHome
  intro s r g h
  refine ⟨fun hr _ hkind hdest hmem => exec_loadAtHome_read h hr hkind hdest hmem,
    fun op b e hr hplace hkind _ hlen hword hdest => exec_atomicAtHome_applied h hr hplace hkind hlen hword hdest,
    fun w p n hfound hagent htodo hfiring hturn hdest hp hlt hn hsize =>
      exec_registerFill_scalar h hfound hagent htodo hfiring hturn hdest hp hlt hn hsize,
    fun w hr hkind hagent harmed => exec_monitorRegister_placed h hr hkind hagent harmed,
    fun n c reg f hfind hpos hlt hval hfull hready hready' => exec_fillArrive_arrives h hfind hpos hlt hval hfull hready hready'⟩

end Sys2Proof.Machine

/-! # O29: stores, window writes, held writes and spills at their homes (R45, R48, R157, R193) -/

namespace Sys2Proof.Machine
open Sys2Proof.Claims

/-! ### Plain memory and the window ports (R48) -/

/-- An address past the scratchpads of the cores' windows is no scratchpad's. -/
theorem place_ne_spad {pa : Nat} (h : 0x80000 ≤ pa % 0x400000) (n o : Nat) : place pa ≠ .spad n o := by
  unfold place
  refine ite_place_ne nofun (ite_place_ne ?_ (ite_place_ne ?_ (ite_place_ne ?_ nofun)))
  · unfold corePlace scalarPlace
    rw [if_neg (show ¬ pa % 0x400000 < 0x80000 by omega)]
    repeat' apply ite_place_ne
    all_goals exact nofun
  · unfold clusterPlace
    repeat' apply ite_place_ne
    all_goals exact nofun
  · split <;> exact nofun

/-- Plain memory is reached through no window port. -/
theorem windowPiece_of_plain {g : Seg} (h : PlainMemory g.pa) : windowPiece g = false := by
  rcases h with h | ⟨n, o, h⟩
  · have hlt := lt_hbmEnd_of_place h
    have hcore : coreOfPa g.pa = none := if_neg (by unfold hbmEnd at hlt; unfold coreWin; omega)
    simp [windowPiece, hcore]
  · have hoff : ¬ 0x80000 ≤ g.pa % 0x400000 := fun hoff => place_ne_spad hoff n o h
    simp [windowPiece, hoff]

/-! ### One piece of a store (R45, R46, R98) -/

theorem memoryPiece_of_memory {g : Seg} (hdev : g.dev = 0) (h : isMemory (place g.pa) = true) : memoryPiece g = true := by
  simp [memoryPiece, hdev, h]

theorem storeLine_one (s : State) (r : Req) {g : Seg} (hdev : g.dev = 0) (h : isMemory (place g.pa) = true) :
    storeLine s r [g] = countPieces (putPiece (dataAt r) (addTraffic s r.launch [g]) g) [g] := by
  have hpiece := memoryPiece_of_memory hdev h
  have hmem : [g].filter memoryPiece = [g] := by simp [hpiece]
  have hrest : [g].filter (fun g => !memoryPiece g) = [] := by simp [hpiece]
  have hview : [g].filter (fun g => g.dev == 0 && !isMemory (place g.pa)) = [] := by simp [h]
  have hjoin : joinPieces [g] = [g] := rfl
  unfold storeLine
  dsimp only
  rw [hmem, hrest, hjoin, List.append_nil]
  unfold storePieces
  dsimp only
  rw [hmem, hview]
  rfl

theorem storeLine_one_mem (s : State) (r : Req) {g : Seg} (hdev : g.dev = 0) (h : isMemory (place g.pa) = true) :
    (storeLine s r [g]).mem = (storeMem (addTraffic s r.launch [g]) g.pa g.len (dataAt r g)).mem := by
  rw [storeLine_one s r hdev h, countPieces_mem, putPiece, dropRows_mem]

/-- A request whose last piece is applied leaves, with what its homes keep of it. -/
theorem dropPieces_last (s : State) {r : Req} {g : Seg} (htodo : r.todo = [g]) (hdest : r.dest = .none) :
    dropPieces s r [g] = noteRequest (dropReq s r.id) r [g] 0 := by
  have hleft : r.todo.filter (fun h => !([g] : List Seg).contains h) = [] := by rw [htodo]; simp
  unfold dropPieces
  dsimp only
  rw [hleft, settleReq_over _ (r := { r with todo := [] }) rfl hdest]
  rfl

theorem storeAtHome_plain {s : State} {r : Req} {g : Seg} (hr : AtHome s r g) (hplain : PlainMemory g.pa) (hkind : r.kind = .store)
    (hdest : r.dest = .none) : storeAtHome s r.id = noteRequest (dropReq (storeLine s r [g]) r.id) r [g] 0 := by
  unfold storeAtHome
  rw [namedReq_of_atHome hr]
  dsimp only
  rw [hkind]
  dsimp only
  unfold storeAt
  rw [nextPieces_of_atHome hr (by simp [windowPiece_of_plain hplain, passes])]
  exact dropPieces_last _ hr.todo hdest

/-! ### The registers of the streams -/

/-- The scalar registers of a stream. -/
def sregs (s : State) (w : StreamId) : Tbl W64 := (getStream s w).sreg

theorem sregs_of_cores {s t : State} (h : t.cores = s.cores) : sregs t = sregs s := by
  funext w
  rw [sregs, sregs, getStream_of_cores h]

/-- A core's change that moves no stream. -/
theorem sregs_modCore (s : State) (n : Nat) (f : Core → Core) (hcps : (f (getCore s n)).cps = (getCore s n).cps)
    (haps : (f (getCore s n)).aps = (getCore s n).aps) : sregs (modCore s n f) = sregs s := by
  funext w
  unfold sregs getStream
  by_cases hw : w.core = n
  · rw [hw, getCore_modCore, hcps, haps]
  · rw [getCore_modCore_ne _ _ _ _ hw]

/-- R247: a hit moves no register. -/
theorem sreg_hitStreams (pa n : Nat) (t : Tbl Stream) (k : Nat) : (tget {} (hitStreams pa n t) k).sreg = (tget {} t k).sreg := by
  unfold hitStreams
  split
  · exact tget_map_keeps (·.sreg) {} (fun _ x => if monitorOn pa n x then { x with monitor := { x.monitor with hit := true } } else x)
      (fun _ _ => by split <;> rfl) t k
  · rfl
/-- What a write does to the monitors of a core (R247). -/
def hitCore (pa n : Nat) (c : Core) : Core := { c with cps := hitStreams pa n c.cps, aps := hitStreams pa n c.aps }
theorem getCore_hitMonitors (s : State) (pa n k : Nat) : getCore (hitMonitors s pa n) k = hitCore pa n (getCore s k) :=
  tget_map ({} : Core) (fun _ => hitCore pa n) s.cores k rfl
theorem sregs_hitMonitors (s : State) (pa n : Nat) : sregs (hitMonitors s pa n) = sregs s := by
  funext w
  unfold sregs getStream
  rw [getCore_hitMonitors]
  split <;> exact sreg_hitStreams _ _ _ _
theorem sregs_spoil (s : State) (pa n : Nat) : sregs (spoil s pa n) = sregs s := sregs_of_cores (by unfold spoil; split <;> rfl)
theorem sregs_memWrite (s : State) (pa n x : Nat) : sregs (memWrite s pa n x) = sregs s := by
  unfold memWrite
  exact (sregs_hitMonitors _ _ _).trans (sregs_spoil _ _ _)
theorem sregs_setDir (s : State) (r : DirRef) (e : DirEntry) : sregs (setDir s r e) = sregs s := by
  cases r with
  | acc n d => exact sregs_modCore s n _ rfl rfl
  | slot n k => exact sregs_modCore s n _ rfl rfl
  | region n t => exact sregs_modCore s n _ rfl rfl
  | page b =>
    unfold setDir
    dsimp only
    split <;> rfl
theorem sregs_touchTiles (s : State) (pa n : Nat) : sregs (touchTiles s pa n) = sregs s := foldl_keeps sregs _ (fun s _ => sregs_setDir s _ _) _ s
theorem sregs_dropBufs (s : State) (n : Nat) (ts : List Tile) : sregs (dropBufs s n ts) = sregs s := by
  unfold dropBufs
  split
  · rfl
  · exact sregs_modCore s n _ rfl rfl
theorem sregs_dropRows (s : State) (g : Seg) : sregs (dropRows s g) = sregs s := foldl_keeps sregs _ (fun s _ => sregs_dropBufs s _ _) _ s

theorem sregs_putPiece (f : Seg → Nat) (s : State) {g : Seg} (hplain : PlainMemory g.pa) : sregs (putPiece f s g) = sregs s := by
  rw [putPiece, sregs_dropRows, storeMem_of_plain hplain, sregs_touchTiles, sregs_memWrite]

theorem cores_noteApplied (s : State) (a : Agent) (id : Nat) (h : Home) (d : VReg) : (noteApplied s a id h d).cores = s.cores := rfl
theorem cores_noteRequest (s : State) (r : Req) (gs : List Seg) (d : VReg) : (noteRequest s r gs d).cores = s.cores := by
  unfold noteRequest
  exact foldl_keeps (·.cores) _ (fun s _ => cores_noteApplied s _ _ _ _) _ s
theorem cores_dropReq (s : State) (id : Nat) : (dropReq s id).cores = s.cores := rfl

/-! ### The window port (R48, R193) -/

theorem windowWrite_port {s : State} {r : Req} {g : Seg} {n c q : Nat} (hr : AtHome s r g) (hkind : r.kind = .store)
    (hport : windowPiece g = true) (hreg : regView (place g.pa) = some (n, c, q)) (hheld : heldPiece s r g = false) :
    windowWrite s r.id = portWrite s r g n c q := by
  unfold windowWrite
  rw [namedReq_of_atHome hr]
  dsimp only
  rw [hkind, nextPieces_of_atHome hr (by simp [hport, hheld, passes])]
  dsimp only
  rw [hreg]
  rfl

theorem portWrite_open {s : State} {r : Req} {g : Seg} {n c q : Nat} (hstop : regStopped s n c = false) (hopen : regOpen s n c q = true) :
    portWrite s r g n c q = windowDone (putRegister s n c q (BitVec.ofNat 2048 (dataAt r g))) r g := by
  rw [portWrite, if_neg (by simp [hstop]), if_pos hopen]
theorem portWrite_held {s : State} {r : Req} {g : Seg} {n c q : Nat} (hstop : regStopped s n c = false) (hopen : regOpen s n c q = false)
    (hroom : (getCore s n).heldWrites.length < 64) :
    portWrite s r g n c q = modCore s n (fun k =>
      { k with heldWrites := k.heldWrites ++ [{ ctx := c, reg := q, data := BitVec.ofNat 2048 (dataAt r g), id := r.id }] }) := by
  rw [portWrite, if_neg (by simp [hstop]), if_neg (by simp [hopen]), if_neg (by omega)]

theorem windowDone_store (s : State) {r : Req} (g : Seg) (hkind : r.kind = .store) : windowDone s r g = dropPieces s r [g] := by
  unfold windowDone
  rw [hkind]

/-- A scalar register that a window write fills. -/
theorem putRegister_scalar (s : State) (n c : Nat) {q : Nat} (hq : q < 136) (d : VReg) :
    putRegister s n c q d = modStream s (cpOf n c) (fun x => sput { x with early := [] } q (d.setWidth 64)) := by
  have hscalar : q < 200 := by omega
  simp only [putRegister, hscalar, decide_true, Bool.or_true, if_true]

theorem sget_putRegister (s : State) (n c : Nat) {q : Nat} (hpos : 0 < q) (hq : q < 136) (d : VReg) :
    sget (getStream (putRegister s n c q d) (cpOf n c)) q = d.setWidth 64 := by
  rw [putRegister_scalar s n c hq, getStream_modStream, sget_sput _ hpos]
theorem sfullAt_putRegister (s : State) (n c : Nat) {q : Nat} (hpos : 0 < q) (hq : q < 136) (d : VReg) :
    sfullAt (getStream (putRegister s n c q d) (cpOf n c)) q = true := by
  rw [putRegister_scalar s n c hq, getStream_modStream, sfullAt_sput _ hpos hq]

/-! ### Held writes (R193) -/

/-- The streams of a core and the writes held at its window port. -/
def portsOf (c : Core) : Tbl Stream × Tbl Stream × List HeldWrite := (c.cps, c.aps, c.heldWrites)
def ports (s : State) (n : Nat) : Tbl Stream × Tbl Stream × List HeldWrite := portsOf (getCore s n)

theorem getStream_of_ports {s t : State} (h : ports t = ports s) (w : StreamId) : getStream t w = getStream s w := by
  have hcps : (getCore t w.core).cps = (getCore s w.core).cps := congrArg (fun x => (x w.core).1) h
  have haps : (getCore t w.core).aps = (getCore s w.core).aps := congrArg (fun x => (x w.core).2.1) h
  simp only [getStream, hcps, haps]
theorem heldWrites_of_ports {s t : State} (h : ports t = ports s) (n : Nat) : (getCore t n).heldWrites = (getCore s n).heldWrites :=
  congrArg (fun x => (x n).2.2) h
theorem ports_of_cores {s t : State} (h : t.cores = s.cores) : ports t = ports s := by
  funext n
  simp only [ports, getCore, h]
theorem ports_modCore (s : State) (n : Nat) (f : Core → Core) (h : portsOf (f (getCore s n)) = portsOf (getCore s n)) :
    ports (modCore s n f) = ports s := by
  funext m
  unfold ports
  by_cases hm : m = n
  · rw [hm, getCore_modCore, h]
  · rw [getCore_modCore_ne _ _ _ _ hm]
theorem ports_modCtx (s : State) (n c : Nat) (f : Ctx → Ctx) : ports (modCtx s n c f) = ports s := ports_modCore s n _ rfl
theorem ports_modCopy (s : State) (eng k : Nat) (f : Copy → Copy) : ports (modCopy s eng k f) = ports s := by
  unfold modCopy setCopy
  split
  · exact ports_modCore s _ _ rfl
  · rfl
theorem ports_withdrawFault (s : State) (eng k : Nat) : ports (withdrawFault s eng k) = ports s := by
  unfold withdrawFault
  dsimp only
  split
  · exact ports_modCtx s _ _ _
  · rfl
theorem ports_settleSuspend (s : State) (eng k : Nat) : ports (settleSuspend s eng k) = ports s := by
  unfold settleSuspend
  dsimp only
  split
  · rfl
  · exact (ports_modCopy _ eng k _).trans (ports_withdrawFault s eng k)
theorem ports_sectorDone (s : State) (eng k sec : Nat) : ports (sectorDone s eng k sec) = ports s := by
  unfold sectorDone
  dsimp only
  split
  · rfl
  · exact (ports_settleSuspend _ eng k).trans (ports_modCopy s eng k _)
theorem cores_dropPieces (s : State) (r : Req) (gs : List Seg) : (dropPieces s r gs).cores = s.cores := by
  have hsettle : ∀ q, (settleReq s q).cores = s.cores := fun q => by unfold settleReq; split <;> rfl
  unfold dropPieces
  dsimp only
  split
  · rw [cores_noteRequest, hsettle]
  · exact hsettle _
theorem ports_windowDone (s : State) (r : Req) (g : Seg) : ports (windowDone s r g) = ports s := by
  have hdrop := ports_of_cores (cores_dropPieces s r [g])
  unfold windowDone
  dsimp only
  split
  · exact (ports_sectorDone _ _ _ _).trans hdrop
  · exact hdrop

/-- The request whose write has been delivered goes on. -/
def heldDone (s : State) (n : Nat) (h : HeldWrite) : State :=
  match findReq s h.id with
  | some r =>
    match r.todo.find? (fun g => regView (place g.pa) == some (n, h.ctx, h.reg)) with
    | some g => windowDone s r g
    | none => s
  | none => s

theorem ports_heldDone (s : State) (n : Nat) (h : HeldWrite) : ports (heldDone s n h) = ports s := by
  unfold heldDone
  split
  · split
    · exact ports_windowDone _ _ _
    · rfl
  · rfl

/-- A held write leaves its port. -/
def unheld (s : State) (n i : Nat) : State := modCore s n (fun k => { k with heldWrites := k.heldWrites.eraseIdx i })

theorem heldDelivery_first {s : State} {n i : Nat} {h : HeldWrite} (hfound : (getCore s n).heldWrites[i]? = some h)
    (hfirst : ∀ j x, j < i → (getCore s n).heldWrites[j]? = some x → ¬ (x.ctx = h.ctx ∧ x.reg = h.reg))
    (hempty : regFull s n h.ctx h.reg = false) (hpending : regPending s n h.ctx h.reg = false) (hstop : regStopped s n h.ctx = false) :
    heldDelivery s n i = heldDone (putRegister (unheld s n i) n h.ctx h.reg h.data) n h := by
  have hnone : ((getCore s n).heldWrites.take i).any (fun x => x.ctx == h.ctx && x.reg == h.reg) = false := by
    refine List.any_eq_false.mpr fun x hx => ?_
    obtain ⟨j, hj⟩ := List.mem_iff_getElem?.mp hx
    rw [List.getElem?_take] at hj
    split at hj
    · next hji => simpa using hfirst j x hji hj
    · simp at hj
  unfold heldDelivery
  dsimp only
  rw [hfound]
  dsimp only
  rw [if_neg (by rw [hnone, hempty, hpending, hstop]; decide)]
  rfl

theorem heldWrites_putRegister (s : State) (n c : Nat) {q : Nat} (hq : q < 136) (d : VReg) (m : Nat) :
    (getCore (putRegister s n c q d) m).heldWrites = (getCore s m).heldWrites := by
  rw [putRegister_scalar s n c hq, modStream, setStream]
  by_cases hm : m = n
  · rw [hm]
    exact (congrArg Core.heldWrites (getCore_modCore s n _)).trans rfl
  · exact congrArg Core.heldWrites (getCore_modCore_ne s n m _ hm)

/-! ### Spills (R157, R158) -/

theorem dataAt_spillReq (s : State) (n c : Nat) (b : SpillBuf) {g : Seg} (h : g.off + g.len ≤ 256) :
    dataAt (spillReq s n c b [g]) g = spillBytes b / 2 ^ (8 * g.off) % 2 ^ (8 * g.len) :=
  (wbits_eq_div_mod _ _ _).trans (field_ofNat _ (by omega))

theorem nextPieces_spillReq {s : State} {n c : Nat} {b : SpillBuf} {g : Seg} (hready : pieceReady s (spillReq s n c b [g]) g = true) :
    nextPieces s (spillReq s n c b [g]) (fun _ => true) = [g] := by
  have hline : lineOf (spillReq s n c b [g]) g = [g] := by simp [lineOf, spillReq]
  have hfind : (spillReq s n c b [g]).todo.find? (fun h => true && (lineOf (spillReq s n c b [g]) h).all (pieceReady s (spillReq s n c b [g]))) = some g :=
    List.find?_cons_of_pos (by simp [hline, hready])
  unfold nextPieces
  rw [hfind]
  exact hline

theorem reqs_dropRows (s : State) (g : Seg) : (dropRows s g).reqs = s.reqs := by
  have hbufs : ∀ s n ts, (dropBufs s n ts).reqs = s.reqs := fun s n ts => by unfold dropBufs; split <;> rfl
  unfold dropRows
  exact foldl_keeps (·.reqs) _ (fun s _ => hbufs s _ _) _ s
theorem getCtx_noteRequest (s : State) (r : Req) (gs : List Seg) (d : VReg) (n c : Nat) : getCtx (noteRequest s r gs d) n c = getCtx s n c :=
  getCtx_of_cores (cores_noteRequest s r gs d) n c

/-- The last piece of a spill record written. -/
theorem spillWrite_last {s : State} {n c : Nat} {b : SpillBuf} {rest : List SpillBuf} {g : Seg} (hspill : (getCtx s n c).spills = b :: rest)
    (hsaved : ctxSaved s n c = false) (hsegs : b.segs = [g]) (hport : windowPiece g = false)
    (hready : pieceReady s (spillReq s n c b [g]) g = true)
    (hlast : ∀ q ∈ (storeLine s (spillReq s n c b [g]) [g]).reqs, q.id ≠ b.id) :
    spillWrite s n c = modCtx (noteRequest (storeLine s (spillReq s n c b [g]) [g]) { spillReq s n c b [g] with path := [] } [g] 0) n c
      (fun x => { x with spills := rest }) := by
  have hviews : [g].filter windowPiece = [] := by simp [hport]
  have hleft : [g].filter (fun h => !([g] : List Seg).contains h) = [] := by simp
  have hdone : (noteRequest (storeLine s (spillReq s n c b [g]) [g]) { spillReq s n c b [g] with path := [] } [g] 0).reqs.any
      (fun q => q.id == b.id) = false := by
    rw [reqs_noteRequest]
    exact List.any_eq_false.mpr fun q hq => by simpa using hlast q hq
  unfold spillWrite
  rw [hspill]
  dsimp only
  rw [if_neg (by simp [hsaved]), hsegs, hviews, nextPieces_spillReq hready, hleft, hdone]
  rfl

/-- What lies in memory outside the window ports is plain (R7, R48). -/
theorem plain_of_memory {g : Seg} (hdev : g.dev = 0) (hmem : isMemory (place g.pa) = true) (hport : windowPiece g = false) : PlainMemory g.pa := by
  have hcluster : ∀ k o, isMemory (clusterPlace k o) = false := by
    intro k o
    unfold clusterPlace
    split_ifs <;> rfl
  by_cases hhbm : g.pa < hbmEnd
  · exact .inl (place_of_lt_hbmEnd hhbm)
  · by_cases hcore : coreWin ≤ g.pa ∧ g.pa < coreWin + 0x100000000
    · have hoff : g.pa % 0x400000 < 0x80000 := by simpa [windowPiece, hdev, coreOfPa, hcore] using hport
      refine .inr ⟨(g.pa - coreWin) / 0x400000, g.pa % 0x400000, ?_⟩
      rw [place, if_neg hhbm, if_pos hcore, corePlace, if_pos hoff]
    · rw [place, if_neg hhbm, if_neg hcore] at hmem
      split at hmem
      · rw [hcluster] at hmem
        cases hmem
      · split at hmem
        · split at hmem <;> cases hmem
        · cases hmem

theorem reqs_storeLine_one (s : State) (r : Req) {g : Seg} (hdev : g.dev = 0) (hplain : PlainMemory g.pa) :
    (storeLine s r [g]).reqs = s.reqs := by
  rw [storeLine_one s r hdev (isMemory_of_plain hplain), reqs_countPieces, putPiece, reqs_dropRows, reqs_storeMem_plain hplain, reqs_addTraffic]

/-- The cells after a store do not depend on the traffic counted. -/
theorem storeMem_addTraffic_mem (s : State) (e : Nat) (gs : List Seg) {pa : Nat} (hplain : PlainMemory pa) (n x : Nat) :
    (storeMem (addTraffic s e gs) pa n x).mem = (storeMem s pa n x).mem := by
  have hledger := ledger_addTraffic s e gs
  have hhome : ∀ a, homePa (addTraffic s e gs) a = homePa s a := homePa_congr (migrations_of_ledger hledger)
  rw [storeMem_of_plain hplain, storeMem_of_plain hplain, touchTiles_mem, touchTiles_mem, memWrite_mem, memWrite_mem, addTraffic_mem,
    epoch_of_ledger hledger]
  simp only [hhome]

/-! ### O29 -/

theorem exec_storeAtHome_of_awake {s : State} (h : Awake s) (id : Nat) : exec (.storeAtHome id) s = .next (storeAtHome s id) := by
  rw [exec_storeAtHome, execStoreAtHome, event_of_awake h]
theorem exec_windowWrite_of_awake {s : State} (h : Awake s) (id : Nat) : exec (.windowWrite id) s = .next (windowWrite s id) := by
  rw [exec_windowWrite, execWindowWrite, event_of_awake h]
theorem exec_heldWriteDelivery_of_awake {s : State} (h : Awake s) (n i : Nat) :
    exec (.heldWriteDelivery n i) s = .next (heldDelivery s n i) := by
  rw [exec_heldWriteDelivery, execHeldWriteDelivery, event_of_awake h]
theorem exec_spillWrite_of_awake {s : State} (h : Awake s) (n c : Nat) : exec (.spillWrite n c) s = .next (spillWrite s n c) := by
  rw [exec_spillWrite, execSpillWrite, event_of_awake h]

theorem findReq_noteRequest (s : State) (r : Req) (gs : List Seg) (d : VReg) (id : Nat) : findReq (noteRequest s r gs d) id = findReq s id :=
  findReq_of_reqs (reqs_noteRequest s r gs d) id

theorem exec_storeAtHome_plain {s : State} (h : Awake s) {r : Req} {g : Seg} (hr : AtHome s r g) (hplain : PlainMemory g.pa)
    (hkind : r.kind = .store) (hdest : r.dest = .none) :
    ∃ t, exec (.storeAtHome r.id) s = .next t ∧ findReq t r.id = none ∧
      (∀ i, i < g.len → memByte t (g.pa + i) = BitVec.ofNat 8 (dataAt r g / 2 ^ (8 * i))) ∧
      (∀ a, ¬ stored s g a → memByte t a = memByte s a) ∧ (∀ w, (getStream t w).sreg = (getStream s w).sreg) := by
  have ht := storeAtHome_plain hr hplain hkind hdest
  have hline := storeLine_one s r hr.here (isMemory_of_plain hplain)
  have hledger := ledger_addTraffic s r.launch [g]
  have hbefore : memByte (addTraffic s r.launch [g]) = memByte s := memByte_of_ledger (addTraffic_mem _ _ _) hledger
  have hafter : memByte (storeAtHome s r.id) = memByte (storeMem (addTraffic s r.launch [g]) g.pa g.len (dataAt r g)) := by
    rw [ht, memByte_of_ledger (noteRequest_memory _ _ _ _).1 (ledger_noteRequest _ _ _ _)]
    refine (memByte_congr rfl rfl rfl : memByte (dropReq (storeLine s r [g]) r.id) = memByte (storeLine s r [g])).trans ?_
    rw [hline, memByte_of_ledger (countPieces_mem _ _) (ledger_countPieces _ _)]
    exact memByte_of_ledger (dropRows_mem _ _) (ledger_dropRows _ _)
  obtain ⟨hin, hout⟩ := memByte_storeMem_piece (s := addTraffic s r.launch [g]) hplain hr.aligned (dataAt r g)
  refine ⟨_, exec_storeAtHome_of_awake h _, ?_, fun i hi => ?_, fun a ha => ?_, fun w => ?_⟩
  · rw [ht, findReq_noteRequest, findReq_dropReq]
  · rw [hafter, hin i hi, pow_mul]
    rfl
  · rw [hafter, hout a (by rwa [stored_congr (migrations_of_ledger hledger)]), hbefore]
  · have hsregs : sregs (storeAtHome s r.id) = sregs s := by
      rw [ht, sregs_of_cores (cores_noteRequest _ _ _ _), sregs_of_cores (cores_dropReq _ _), hline, sregs_of_cores (cores_countPieces _ _),
        sregs_putPiece _ _ hplain, sregs_of_cores (cores_addTraffic _ _ _)]
    exact congrFun hsregs w

theorem exec_windowWrite_open {s : State} (h : Awake s) {r : Req} {g : Seg} {n c q : Nat} (hr : AtHome s r g) (hkind : r.kind = .store)
    (hdest : r.dest = .none) (hport : windowPiece g = true) (hreg : regView (place g.pa) = some (n, c, q)) (hheld : heldPiece s r g = false)
    (hstop : regStopped s n c = false) (hlt : q < 136) (hpos : 0 < q) (hopen : regOpen s n c q = true) :
    ∃ t, exec (.windowWrite r.id) s = .next t ∧ sget (getStream t (cpOf n c)) q = BitVec.ofNat 64 (dataAt r g) ∧
      sfullAt (getStream t (cpOf n c)) q = true ∧ findReq t r.id = none ∧ t.mem = s.mem := by
  have ht : windowWrite s r.id = noteRequest (dropReq (putRegister s n c q (BitVec.ofNat 2048 (dataAt r g))) r.id) r [g] 0 := by
    rw [windowWrite_port hr hkind hport hreg hheld, portWrite_open hstop hopen, windowDone_store _ g hkind, dropPieces_last _ hr.todo hdest]
  have hstream : ∀ w, getStream (windowWrite s r.id) w = getStream (putRegister s n c q (BitVec.ofNat 2048 (dataAt r g))) w := fun w => by
    rw [ht, getStream_of_cores (cores_noteRequest _ _ _ _), getStream_dropReq]
  refine ⟨_, exec_windowWrite_of_awake h _, ?_, ?_, ?_, ?_⟩
  · rw [hstream, sget_putRegister s n c hpos hlt]
    exact BitVec.setWidth_ofNat_of_le (by omega) _
  · rw [hstream, sfullAt_putRegister s n c hpos hlt]
  · rw [ht, findReq_noteRequest, findReq_dropReq]
  · rw [ht]
    exact (noteRequest_memory _ _ _ _).1.trans (putRegister_memory s n c q _).1

theorem exec_windowWrite_held {s : State} (h : Awake s) {r : Req} {g : Seg} {n c q : Nat} (hr : AtHome s r g) (hkind : r.kind = .store)
    (hport : windowPiece g = true) (hreg : regView (place g.pa) = some (n, c, q)) (hheld : heldPiece s r g = false)
    (hstop : regStopped s n c = false) (hopen : regOpen s n c q = false) (hroom : (getCore s n).heldWrites.length < 64) :
    ∃ t, exec (.windowWrite r.id) s = .next t ∧
      (getCore t n).heldWrites = (getCore s n).heldWrites ++ [{ ctx := c, reg := q, data := BitVec.ofNat 2048 (dataAt r g), id := r.id }] ∧
      getStream t (cpOf n c) = getStream s (cpOf n c) ∧ t.reqs = s.reqs ∧ t.mem = s.mem := by
  refine ⟨_, exec_windowWrite_of_awake h _, ?_⟩
  rw [windowWrite_port hr hkind hport hreg hheld, portWrite_held hstop hopen hroom]
  refine ⟨congrArg Core.heldWrites (getCore_modCore s n _), ?_, rfl, rfl⟩
  exact congrArg (fun k : Core => tget {} k.cps c) (getCore_modCore s n _)

theorem exec_heldWriteDelivery_first {s : State} (h : Awake s) {n i : Nat} {x : HeldWrite} (hfound : (getCore s n).heldWrites[i]? = some x)
    (hpos : 0 < x.reg) (hlt : x.reg < 136)
    (hfirst : ∀ j y, j < i → (getCore s n).heldWrites[j]? = some y → ¬ (y.ctx = x.ctx ∧ y.reg = x.reg))
    (hempty : regFull s n x.ctx x.reg = false) (hpending : regPending s n x.ctx x.reg = false) (hstop : regStopped s n x.ctx = false) :
    ∃ t, exec (.heldWriteDelivery n i) s = .next t ∧ sget (getStream t (cpOf n x.ctx)) x.reg = x.data.setWidth 64 ∧
      sfullAt (getStream t (cpOf n x.ctx)) x.reg = true ∧ (getCore t n).heldWrites = (getCore s n).heldWrites.eraseIdx i ∧ t.mem = s.mem := by
  have ht := heldDelivery_first hfound hfirst hempty hpending hstop
  have hports : ports (heldDelivery s n i) = ports (putRegister (unheld s n i) n x.ctx x.reg x.data) := by rw [ht, ports_heldDone]
  refine ⟨_, exec_heldWriteDelivery_of_awake h n i, ?_, ?_, ?_, (heldDelivery_memory s n i).1⟩
  · rw [getStream_of_ports hports, sget_putRegister _ n x.ctx hpos hlt]
  · rw [getStream_of_ports hports, sfullAt_putRegister _ n x.ctx hpos hlt]
  · rw [heldWrites_of_ports hports, heldWrites_putRegister _ n x.ctx hlt]
    exact congrArg Core.heldWrites (getCore_modCore s n _)

theorem exec_spillWrite_last {s : State} (h : Awake s) {n c : Nat} {b : SpillBuf} {rest : List SpillBuf} {g : Seg}
    (hspill : (getCtx s n c).spills = b :: rest) (hsaved : ctxSaved s n c = false) (hsegs : b.segs = [g]) (hdev : g.dev = 0)
    (hmem : isMemory (place g.pa) = true) (hport : windowPiece g = false) (hready : pieceReady s (spillReq s n c b [g]) g = true)
    (hlast : ∀ q ∈ s.reqs, q.id ≠ b.id) (hfits : 8 * (g.off + g.len) ≤ 1152) :
    ∃ t, exec (.spillWrite n c) s = .next t ∧ (getCtx t n c).spills = rest ∧
      t.mem = (storeMem s g.pa g.len (spillBytes b / 2 ^ (8 * g.off) % 2 ^ (8 * g.len))).mem := by
  have hplain := plain_of_memory hdev hmem hport
  have ht := spillWrite_last hspill hsaved hsegs hport hready (by rwa [reqs_storeLine_one s _ hdev hplain])
  refine ⟨_, exec_spillWrite_of_awake h n c, by rw [ht, getCtx_modCtx], ?_⟩
  rw [ht, ← dataAt_spillReq s n c b (show g.off + g.len ≤ 256 by omega)]
  refine (noteRequest_memory _ _ _ _).1.trans ?_
  rw [storeLine_one_mem s _ hdev hmem, storeMem_addTraffic_mem s _ _ hplain]

/-- Settles O29: each event at a home is its function, on the request, the port or the spill buffer that it names. -/
theorem writesAtHome : Obligations.WritesAtHome := by
  unfold Obligations.WritesAtHome
  intro s r g h
  refine ⟨fun hr hplain hkind hdest => exec_storeAtHome_plain h hr hplain hkind hdest, fun n c q hr hkind hdest hport hreg hheld hstop =>
      ⟨fun hlt hpos hopen => exec_windowWrite_open h hr hkind hdest hport hreg hheld hstop hlt hpos hopen,
        fun hopen hroom => exec_windowWrite_held h hr hkind hport hreg hheld hstop hopen hroom⟩,
    fun n i x hfound hpos hlt hfirst hempty hpending hstop => exec_heldWriteDelivery_first h hfound hpos hlt hfirst hempty hpending hstop,
    fun n c b rest hspill hsaved hsegs hdev hmem hport hready hlast hfits _ =>
      exec_spillWrite_last h hspill hsaved hsegs hdev hmem hport hready hlast hfits⟩

end Sys2Proof.Machine

/-! # O31: fibre operations at their homes (R59-R68, R251-R259) -/

namespace Sys2Proof.Machine
open Sys2Proof.Claims

/-! ### A home that has only read

A home counts what its stacks serve (R374) and takes the results of its walks (R349); nothing else of the state moves until it
writes. -/

/-- What translates and serves in a stack is as it was. -/
def SameService (x y : Stack) : Prop := x.tlb = y.tlb ∧ x.inService = y.inService

/-- `t` is `s` but for the units the stacks have served and the walks' results taken. -/
def Quiet (s t : State) : Prop :=
  ∃ (hbm : Tbl Stack) (ends : List WalkEnd), t = { s with hbm := hbm, dev := { s.dev with walkEnds := ends } } ∧
    ∀ k, SameService (tget {} hbm k) (getStack s k)

theorem Quiet.refl (s : State) : Quiet s s := ⟨s.hbm, s.dev.walkEnds, rfl, fun _ => ⟨rfl, rfl⟩⟩
theorem Quiet.trans {s t u : State} (h : Quiet s t) (h' : Quiet t u) : Quiet s u := by
  obtain ⟨hbm, ends, rfl, hstacks⟩ := h
  obtain ⟨hbm', ends', rfl, hstacks'⟩ := h'
  exact ⟨hbm', ends', rfl, fun k => ⟨(hstacks' k).1.trans (hstacks k).1, (hstacks' k).2.trans (hstacks k).2⟩⟩

section
variable {s t : State} (h : Quiet s t)
include h

theorem Quiet.stack (k : Nat) : SameService (getStack t k) (getStack s k) := by
  obtain ⟨hbm, ends, rfl, hstacks⟩ := h
  exact hstacks k
theorem Quiet.clusters : t.clusters = s.clusters := by obtain ⟨hbm, ends, rfl, -⟩ := h; rfl
theorem Quiet.cores : t.cores = s.cores := by obtain ⟨hbm, ends, rfl, -⟩ := h; rfl
theorem Quiet.reqs : t.reqs = s.reqs := by obtain ⟨hbm, ends, rfl, -⟩ := h; rfl
theorem Quiet.freqs : t.freqs = s.freqs := by obtain ⟨hbm, ends, rfl, -⟩ := h; rfl
theorem Quiet.time : t.time = s.time := by obtain ⟨hbm, ends, rfl, -⟩ := h; rfl
theorem Quiet.mem : t.mem = s.mem := by obtain ⟨hbm, ends, rfl, -⟩ := h; rfl
theorem Quiet.migrations : t.dev.migrations = s.dev.migrations := by obtain ⟨hbm, ends, rfl, -⟩ := h; rfl
theorem Quiet.poison : t.dev.poison = s.dev.poison := by obtain ⟨hbm, ends, rfl, -⟩ := h; rfl
theorem Quiet.pools : t.dev.pools = s.dev.pools := by obtain ⟨hbm, ends, rfl, -⟩ := h; rfl
theorem Quiet.memByte : memByte t = memByte s := by obtain ⟨hbm, ends, rfl, -⟩ := h; rfl
theorem Quiet.memRead (pa n : Nat) : memRead t pa n = memRead s pa n := memRead_congr h.memByte pa n
theorem Quiet.getPool (p : Nat) : getPool t p = getPool s p := by obtain ⟨hbm, ends, rfl, -⟩ := h; rfl
theorem Quiet.poisonedAt (pa n : Nat) : poisonedAt t pa n = poisonedAt s pa n := by obtain ⟨hbm, ends, rfl, -⟩ := h; rfl
theorem Quiet.stackOf (pa : Nat) : stackOf t.dev pa = stackOf s.dev pa := by obtain ⟨hbm, ends, rfl, -⟩ := h; rfl
theorem Quiet.redirectHeld (pa n : Nat) : redirectHeld t.dev pa n = redirectHeld s.dev pa n := by obtain ⟨hbm, ends, rfl, -⟩ := h; rfl
theorem Quiet.homeTlb (home : FibHome) : homeTlb t home = homeTlb s home := by
  cases home with
  | stack k => exact (h.stack k).1
  | cluster c =>
    obtain ⟨hbm, ends, rfl, -⟩ := h
    rfl
theorem Quiet.stackOut (pa : Nat) : stackOut t pa = stackOut s pa := by
  unfold Machine.stackOut
  rw [h.stackOf, (h.stack _).2]
theorem Quiet.throughLeaf (e : TlbEntry) (a : Access) (va n : Nat) (sup wr whole : Bool) :
    throughLeaf t e a va n sup wr whole = throughLeaf s e a va n sup wr whole := by
  have hout : ∀ pa, stackOutIn t pa n = stackOutIn s pa n := fun pa => by unfold stackOutIn; simp only [h.stackOut]
  have hreach : t.dev.reachable = s.dev.reachable := by obtain ⟨hbm, ends, rfl, -⟩ := h; rfl
  have htarget : targeted t a n whole = targeted s a n whole := by
    funext x
    simp only [targeted, checkTarget, hout, hreach]
  rw [Machine.throughLeaf, Machine.throughLeaf, htarget]

end

theorem quiet_modStack (s : State) (j : Nat) (f : Stack → Stack) (hf : SameService (f (getStack s j)) (getStack s j)) :
    Quiet s (modStack s j f) := by
  refine ⟨_, s.dev.walkEnds, rfl, fun k => ?_⟩
  by_cases hk : k = j
  · rw [hk, tget_tset_same]
    exact hf
  · rw [tget_tset_ne _ _ _ _ _ hk]
    exact ⟨rfl, rfl⟩
/-- Units counted as served. -/
theorem quiet_countUnits (s : State) (us : List Nat) : Quiet s (countUnits s us) := by
  induction us generalizing s with
  | nil => exact Quiet.refl s
  | cons u us ih => exact (quiet_modStack s _ _ ⟨rfl, rfl⟩).trans (ih _)
theorem quiet_countBursts (s : State) (pa n : Nat) : Quiet s (countBursts s pa n) := quiet_countUnits s _
theorem quiet_takeEnd (s : State) (u : WalkUnit) (asid va : Nat) : Quiet s (takeEnd s u asid va) := by
  unfold takeEnd
  split
  · exact ⟨s.hbm, _, rfl, fun _ => ⟨rfl, rfl⟩⟩
  · exact Quiet.refl s

/-! ### What an act gives from a home that has only read -/

section
variable {α β : Type} {s : State}

/-- From `s`, or what reads have left of it, the act gives `x`, with a state of which `P` holds. -/
def Gives (s : State) (a : FM α) (x : α) (P : State → Prop) : Prop := ∀ t, Quiet s t → ∃ u, FM.run a t = (.ok x, u) ∧ P u
/-- The act reads `x` and writes nothing. -/
def Reads (s : State) (a : FM α) (x : α) : Prop := Gives s a x (Quiet s)
/-- The act has the error `e` and has written nothing. -/
def Fails (s : State) (a : FM α) (e : FErr) : Prop := ∀ t, Quiet s t → ∃ u, FM.run a t = (.error e, u) ∧ Quiet s u

theorem reads_pure (x : α) : Reads s (pure x) x := fun t ht => ⟨t, rfl, ht⟩
theorem fails_fail (e : FErr) : Fails s (FM.fail e : FM α) e := fun t ht => ⟨t, rfl, ht⟩

theorem Reads.bind {a : FM α} {k : α → FM β} {x : α} {y : β} {P : State → Prop} (ha : Reads s a x) (hk : Gives s (k x) y P) :
    Gives s (a >>= k) y P := by
  intro t ht
  obtain ⟨u, hu, hquiet⟩ := ha t ht
  obtain ⟨v, hv, hP⟩ := hk u hquiet
  exact ⟨v, by rw [FM.run_bind, hu]; exact hv, hP⟩
theorem Reads.bind_fails {a : FM α} {k : α → FM β} {x : α} {e : FErr} (ha : Reads s a x) (hk : Fails s (k x) e) : Fails s (a >>= k) e := by
  intro t ht
  obtain ⟨u, hu, hquiet⟩ := ha t ht
  obtain ⟨v, hv, hP⟩ := hk u hquiet
  exact ⟨v, by rw [FM.run_bind, hu]; exact hv, hP⟩
theorem Fails.bind {a : FM α} {k : α → FM β} {e : FErr} (ha : Fails s a e) : Fails s (a >>= k) e := by
  intro t ht
  obtain ⟨u, hu, hquiet⟩ := ha t ht
  exact ⟨u, by rw [FM.run_bind, hu], hquiet⟩
theorem gives_get_bind {k : State → FM β} {y : β} {P : State → Prop} (hk : ∀ t, Quiet s t → Gives s (k t) y P) :
    Gives s (get >>= k) y P := by
  intro t ht
  obtain ⟨v, hv, hP⟩ := hk t ht t ht
  exact ⟨v, by rw [FM.run_bind, FM.run_get]; exact hv, hP⟩
theorem fails_get_bind {k : State → FM β} {e : FErr} (hk : ∀ t, Quiet s t → Fails s (k t) e) : Fails s (get >>= k) e := by
  intro t ht
  obtain ⟨v, hv, hP⟩ := hk t ht t ht
  exact ⟨v, by rw [FM.run_bind, FM.run_get]; exact hv, hP⟩
theorem reads_set {t : State} (ht : Quiet s t) : Reads s (set t : FM PUnit) ⟨⟩ := fun _ _ => ⟨t, rfl, ht⟩
/-- An act that writes, and one that goes on from there. -/
theorem Gives.bind {a : FM α} {k : α → FM β} {x : α} {y : β} {P Q : State → Prop} (ha : Gives s a x P)
    (hk : ∀ u, P u → ∃ v, FM.run (k x) u = (.ok y, v) ∧ Q v) : Gives s (a >>= k) y Q := by
  intro t ht
  obtain ⟨u, hu, hP⟩ := ha t ht
  obtain ⟨v, hv, hQ⟩ := hk u hP
  exact ⟨v, by rw [FM.run_bind, hu]; exact hv, hQ⟩

/-- An act carried out. -/
theorem Gives.exec {a : FM α} {x : α} {P : State → Prop} (h : Gives s a x P) : ∃ t, a.exec s = .ok (x, t) ∧ P t := by
  obtain ⟨t, ht, hP⟩ := h s (Quiet.refl s)
  refine ⟨t, ?_, hP⟩
  unfold FM.run at ht
  rw [FM.exec, ht]
theorem Fails.exec {a : FM α} {e : FErr} (h : Fails s a e) : ∃ t, a.exec s = .error (e, t) ∧ Quiet s t := by
  obtain ⟨t, ht, hquiet⟩ := h s (Quiet.refl s)
  refine ⟨t, ?_, hquiet⟩
  unfold FM.run at ht
  rw [FM.exec, ht]
  obtain ⟨hbm, ends, rfl, -⟩ := hquiet
  rfl

end

/-! ### Headers and pods read and written (R59-R61) -/

section
variable {s : State}

theorem reads_fibRead {pa n : Nat} (h : poisonedAt s pa n = none) : Reads s (fibRead pa n) (memRead s pa n) := by
  unfold fibRead
  refine gives_get_bind fun t ht => (reads_set (ht.trans (quiet_countBursts t pa n))).bind ?_
  have hclean : ¬ (poisonedAt t pa n).isSome = true := by rw [ht.poisonedAt, h]; simp
  rw [if_neg hclean, ht.memRead]
  exact reads_pure _

theorem reads_readHdr {pa : Nat} (h : HdrAt s pa) : Reads s (readHdr pa) (hdrOf s pa) := (reads_fibRead h.clean).bind (reads_pure _)

/-- Pod `i` of a pool as its home finds it at `a`, by its cache and without poison. -/
structure PodOpen (s : State) (h : FibHome) (pool i : Nat) (wr : Bool) (a : Nat) : Prop where
  low : (getPool s pool).base + i * 256 < 2 ^ 48
  leaf : ∃ e x, tlbFind (homeTlb s h) (getPool s pool).asid ((getPool s pool).base + i * 256) = some e ∧
    throughLeaf s e .fibre ((getPool s pool).base + i * 256) 256 true wr false = .ok x ∧ x.dev = 0 ∧ x.pa = a
  clean : poisonedAt s a 256 = none

theorem podOpen_of_onePod {f : FReq} {wr : Bool} {i a : Nat} (h : OnePod s f wr i a) :
    PodOpen s (fibHome s f.hdr) (hdrOf s f.hdr).pool i wr a := by
  obtain ⟨x, hx, hdev, hpa⟩ := h.page
  obtain ⟨e, he⟩ := h.held
  unfold unitXlate at hx
  split at hx
  · cases hx
  · next hlow =>
    rw [he] at hx
    dsimp only at hx
    cases hleaf : throughLeaf s e .fibre ((getPool s (hdrOf s f.hdr).pool).base + i * 256) 256 true wr false with
    | error k =>
      rw [hleaf] at hx
      cases hx
    | ok y =>
      rw [hleaf] at hx
      cases hx
      exact ⟨by omega, ⟨e, _, he, hleaf, hdev, hpa⟩, h.clean⟩

section
variable {h : FibHome} {pool i a : Nat} {wr : Bool} (hp : PodOpen s h pool i wr a)
include hp

theorem reads_podPa : Reads s (podPa h pool i wr) a := by
  obtain ⟨e, x, he, hx, hdev, hpa⟩ := hp.leaf
  have hxlate : Reads s (fibXlate h (getPool s pool).asid ((getPool s pool).base + i * 256) 256 .fibre wr) x := by
    unfold fibXlate
    refine gives_get_bind fun t ht => ?_
    have htlb := ht.homeTlb h
    have hwaits : unitWaits t (homeUnit h) (homeTlb t h) (homeDieOf h) (getPool s pool).asid ((getPool s pool).base + i * 256) = false := by
      simp [unitWaits, htlb, he]
    have hreads : unitReads t (homeUnit h) (homeTlb t h) (homePtrs t h) (getPool s pool).asid ((getPool s pool).base + i * 256) = [] := by
      simp [unitReads, htlb, he]
    have hxlate : unitXlate t (homeUnit h) (homeTlb t h) (homePtrs t h) (getPool s pool).asid ((getPool s pool).base + i * 256) .fibre 256 wr =
        .ok (x, none) := by
      rw [unitXlate, if_neg (Nat.not_le.mpr hp.low), htlb, he]
      dsimp only
      rw [ht.throughLeaf, hx]
      rfl
    simp only [hwaits, hreads, hxlate, Bool.false_eq_true, if_false]
    have hend := ht.trans (quiet_takeEnd t (homeUnit h) (getPool s pool).asid ((getPool s pool).base + i * 256))
    exact (reads_set hend).bind ((reads_set hend).bind (reads_pure x))
  unfold podPa
  refine gives_get_bind fun t ht => ?_
  rw [ht.getPool]
  refine hxlate.bind ?_
  rw [if_neg (by simp [hdev]), hpa]
  exact reads_pure a

theorem reads_readPod (fx : Bool) : Reads s (readPod h pool fx wr i) (decodePod fx (memRead s a 256)) := by
  unfold readPod
  exact (reads_podPa hp).bind ((reads_fibRead hp.clean).bind (reads_pure _))

end

/-! #### Writes -/

/-- A stretch written by a home, and counted. -/
def fibPut (s : State) (pa n x : Nat) : State := countBursts (storeMem s pa n x) pa n

theorem run_fibWrite {t : State} {pa n x : Nat} (h : redirectHeld t.dev pa n = false) : FM.run (fibWrite pa n x) t = (.ok (), fibPut t pa n x) := by
  unfold fibWrite
  rw [FM.run_bind, FM.run_get]
  dsimp only
  rw [if_neg (by simp [h])]
  rfl

/-- What a home writes of a data pod: its live part. -/
def podLen (fx : Bool) (p : Pod) : Nat := 8 + (if fx then 16 else 8) * p.ents.length
def podNum (fx : Bool) (p : Pod) : Nat :=
  p.next % 2 ^ 32 + p.ents.length * 2 ^ 32 +
    2 ^ 64 * (if fx then packNat 128 (p.ents.map (fun e => e.1 % 2 ^ 32 + 2 ^ 64 * e.2)) else entryWords p.ents)

/-- A pod written at `a`, and the header of its fibre written after it. -/
def podPut (s : State) (a : Nat) (fx : Bool) (p : Pod) : State := fibPut s a (podLen fx p) (podNum fx p)
def hdrPut (s : State) (pa : Nat) (y : FHdr) : State := fibPut s pa 64 (encodeHdr y)

theorem gives_writePod {h : FibHome} {pool i a : Nat} (hp : PodOpen s h pool i true a) (hstill : ∀ m ∈ s.dev.migrations, m.2.act = false)
    (fx : Bool) (p : Pod) : Gives s (writePod h pool fx i p) () (fun u => ∃ r, Quiet s r ∧ u = podPut r a fx p) := by
  unfold writePod
  refine (reads_podPa hp).bind fun t ht => ?_
  have hheld : redirectHeld t.dev a (podLen fx p) = false := by
    rw [ht.redirectHeld]
    exact List.any_eq_false.mpr fun m hm => by simp [hstill m hm]
  exact ⟨_, run_fibWrite hheld, t, ht, rfl⟩

theorem gives_writeHdr {pa : Nat} (h : redirectHeld s.dev pa 64 = false) (y : FHdr) :
    Gives s (writeHdr pa y) () (fun u => ∃ r, Quiet s r ∧ u = hdrPut r pa y) := by
  intro t ht
  exact ⟨_, run_fibWrite (by rw [ht.redirectHeld, h]), t, ht, rfl⟩

end

/-! ### The bytes of a pod (R60) -/

theorem nbits_eq (x lo len : Nat) : nbits x lo len = x / 2 ^ lo % 2 ^ len := by rw [nbits, Nat.shiftRight_eq_div_pow]

/-- A field below 2^n of a number depends on the number's low n bits. -/
theorem nbits_congr {x y n lo len : Nat} (h : x % 2 ^ n = y % 2 ^ n) (hlen : lo + len ≤ n) : nbits x lo len = nbits y lo len := by
  have hfield : ∀ z, z / 2 ^ lo % 2 ^ len = z % 2 ^ n / 2 ^ lo % 2 ^ len := fun z => by
    obtain ⟨k, rfl⟩ := Nat.exists_eq_add_of_le (show lo ≤ n by omega)
    rw [pow_add, Nat.mod_mul_right_div_self, Nat.mod_mod_of_dvd _ (pow_dvd_pow 2 (show len ≤ k by omega))]
  rw [nbits_eq, nbits_eq, hfield x, hfield y, h]

/-- A field within word `i` of packed words. -/
theorem nbits_within {x w i o len : Nat} (h : o + len ≤ w) : nbits x (w * i + o) len = nbits (nbits x (w * i) w) o len := by
  rw [nbits_eq, nbits_eq, nbits_eq, pow_add, ← Nat.div_div_eq_div_mul]
  obtain ⟨k, rfl⟩ := Nat.exists_eq_add_of_le (show o ≤ w by omega)
  rw [pow_add 2 o k, Nat.mod_mul_right_div_self, Nat.mod_mod_of_dvd _ (pow_dvd_pow 2 (show len ≤ k by omega))]

theorem nbits_packNat (w : Nat) (xs : List Nat) {i : Nat} (hi : i < xs.length) : nbits (packNat w xs) (w * i) w = xs[i] % 2 ^ w := by
  have hpos : 0 < 2 ^ w := by positivity
  rw [nbits_eq]
  induction xs generalizing i with
  | nil => simp at hi
  | cons x r ih =>
    cases i with
    | zero => rw [packNat, Nat.mul_zero, pow_zero, Nat.div_one, Nat.add_mul_mod_self_left, Nat.mod_mod, List.getElem_cons_zero]
    | succ i =>
      rw [packNat, Nat.mul_succ, Nat.add_comm (w * i), pow_add, ← Nat.div_div_eq_div_mul, Nat.add_mul_div_left _ _ hpos,
        Nat.div_eq_of_lt (Nat.mod_lt _ hpos), Nat.zero_add, List.getElem_cons_succ]
      exact ih (by simpa using hi)

/-- A field past the first word of a number. -/
theorem nbits_past {a e k : Nat} (ha : a < 2 ^ k) (lo len : Nat) : nbits (a + 2 ^ k * e) (k + lo) len = nbits e lo len := by
  rw [nbits_eq, nbits_eq, pow_add, ← Nat.div_div_eq_div_mul, Nat.add_mul_div_left _ _ (by positivity), Nat.div_eq_of_lt ha, Nat.zero_add]

/-- An entry's word in a pod: FX64 entries take 16 bytes, the others 8. -/
def entryWidth (fx : Bool) : Nat := if fx then 128 else 64
def entryWord (fx : Bool) (e : Nat × Nat) : Nat := if fx then e.1 % 2 ^ 32 + 2 ^ 64 * e.2 else e.1 + 2 ^ 32 * e.2
/-- Where an entry's word holds its value. -/
def valueWidth (fx : Bool) : Nat := if fx then 64 else 32

theorem podNum_eq (fx : Bool) (p : Pod) :
    podNum fx p = p.next % 2 ^ 32 + p.ents.length * 2 ^ 32 + 2 ^ 64 * packNat (entryWidth fx) (p.ents.map (entryWord fx)) := by
  cases fx <;> rfl
theorem podLen_eq (fx : Bool) (p : Pod) : 8 * podLen fx p = 64 + entryWidth fx * p.ents.length := by
  cases fx <;> simp only [podLen, entryWidth, Bool.false_eq_true, if_false, if_true] <;> omega
theorem decodePod_eq (fx : Bool) (z : Nat) :
    decodePod fx z =
      { next := nbits z 0 32
        ents := (upFrom 0 (min (nbits z 32 8) (if fx then 15 else 31))).map (fun i =>
          (nbits z (64 + entryWidth fx * i) 32, nbits z (64 + entryWidth fx * i + valueWidth fx) (valueWidth fx))) } := by
  cases fx <;> rfl

/-- An entry's word holds its coordinate and its value. -/
theorem nbits_entryWord (fx : Bool) {e : Nat × Nat} (h : e.1 < 2 ^ 32) :
    nbits (entryWord fx e % 2 ^ entryWidth fx) 0 32 = e.1 ∧
      nbits (entryWord fx e % 2 ^ entryWidth fx) (valueWidth fx) (valueWidth fx) = e.2 % 2 ^ valueWidth fx := by
  rw [nbits_eq, nbits_eq]
  cases fx <;> simp only [entryWord, entryWidth, valueWidth, Bool.false_eq_true, if_false, if_true] <;> omega

theorem valueWidth_eq (fmt : Nat) : valueWidth (decide (fmt = 11)) = podWidth fmt := by
  by_cases h : fmt = 11 <;> simp [valueWidth, podWidth, h]
theorem podCap_eq (fmt : Nat) : podCap fmt = if decide (fmt = 11) then 15 else 31 := by
  by_cases h : fmt = 11 <;> simp [podCap, h]

/-- The entries of a pod as its bytes hold them. -/
def heldEntry (fmt : Nat) (e : Nat × Nat) : Nat × Nat := (e.1, e.2 % 2 ^ podWidth fmt)

/-- A pod that a home may write: its entries fit, each with a coordinate. -/
structure PodOk (fmt : Nat) (p : Pod) : Prop where
  fits : p.ents.length ≤ podCap fmt
  coord : ∀ e ∈ p.ents, e.1 < 2 ^ 32

theorem podLen_le {fmt : Nat} {p : Pod} (h : PodOk fmt p) : podLen (decide (fmt = 11)) p ≤ 256 := by
  have hlen := podLen_eq (decide (fmt = 11)) p
  have hfits := h.fits
  rw [podCap_eq] at hfits
  generalize decide (fmt = 11) = fx at hlen hfits ⊢
  cases fx <;> simp only [entryWidth, Bool.false_eq_true, if_false, if_true] at hlen hfits <;> omega

/-- NEXT and CNT of a pod's first word. -/
theorem nbits_podHead (next e : Nat) {n : Nat} (hn : n ≤ 31) :
    nbits (next % 2 ^ 32 + n * 2 ^ 32 + 2 ^ 64 * e) 0 32 = next % 2 ^ 32 ∧ nbits (next % 2 ^ 32 + n * 2 ^ 32 + 2 ^ 64 * e) 32 8 = n := by
  rw [nbits_eq, nbits_eq]
  omega

theorem upFrom_length (n : Nat) : (upFrom 0 n).length = n := by rw [upFrom_eq_range', List.length_range']
theorem upFrom_getElem (n : Nat) {i : Nat} (hi : i < (upFrom 0 n).length) : (upFrom 0 n)[i] = i := by simp [upFrom_eq_range']

/-- R60: a pod written and read back. -/
theorem decodePod_podNum {fmt : Nat} {p : Pod} (h : PodOk fmt p) {z : Nat}
    (hz : z % 2 ^ (8 * podLen (decide (fmt = 11)) p) = podNum (decide (fmt = 11)) p % 2 ^ (8 * podLen (decide (fmt = 11)) p)) :
    decodePod (decide (fmt = 11)) z = { next := p.next % 2 ^ 32, ents := p.ents.map (heldEntry fmt) } := by
  have hfits := h.fits
  have hcap := podCap_eq fmt
  have hvalue := valueWidth_eq fmt
  generalize decide (fmt = 11) = fx at hz hcap hvalue ⊢
  have hcap31 : podCap fmt ≤ 31 := by rw [hcap]; split <;> omega
  rw [podLen_eq, podNum_eq] at hz
  have hlow : p.next % 2 ^ 32 + p.ents.length * 2 ^ 32 < 2 ^ 64 := by omega
  have hnext : nbits z 0 32 = p.next % 2 ^ 32 := by
    rw [nbits_congr hz (by omega)]
    exact (nbits_podHead _ _ (hfits.trans hcap31)).1
  have hcount : min (nbits z 32 8) (if fx then 15 else 31) = p.ents.length := by
    rw [← hcap, nbits_congr hz (by omega), (nbits_podHead _ _ (hfits.trans hcap31)).2]
    exact Nat.min_eq_left hfits
  have hentry : ∀ i, (hi : i < p.ents.length) → ∀ o len, o + len ≤ entryWidth fx →
      nbits z (64 + entryWidth fx * i + o) len = nbits (entryWord fx p.ents[i] % 2 ^ entryWidth fx) o len := by
    intro i hi o len ho
    have hle : entryWidth fx * i + entryWidth fx ≤ entryWidth fx * p.ents.length := by
      rw [← Nat.mul_succ]
      exact Nat.mul_le_mul_left _ hi
    have hword := nbits_packNat (entryWidth fx) (p.ents.map (entryWord fx)) (i := i) (by simpa using hi)
    rw [nbits_congr hz (by omega), Nat.add_assoc 64, nbits_past hlow, nbits_within ho, hword, List.getElem_map]
  rw [decodePod_eq, hnext, hcount]
  congr 1
  refine List.ext_getElem ?_ fun i hi hi' => ?_
  · rw [List.length_map, List.length_map, upFrom_length]
  · have hip : i < p.ents.length := by simpa using hi'
    obtain ⟨hcoord, hval⟩ := nbits_entryWord fx (h.coord _ (List.getElem_mem hip))
    have hwidth : 32 ≤ entryWidth fx ∧ valueWidth fx + valueWidth fx ≤ entryWidth fx := by cases fx <;> decide
    have hfirst := hentry i hip 0 32 (by omega)
    rw [Nat.add_zero, hcoord] at hfirst
    rw [List.getElem_map, List.getElem_map, upFrom_getElem, hfirst, hentry i hip _ _ hwidth.2, hval, hvalue]
    rfl

/-- A pod read has entries that fit, with coordinates and values of their widths. -/
theorem podOk_podAt (s : State) (fmt a : Nat) : PodOk fmt (podAt s fmt a) := by
  rw [podAt, decodePod_eq]
  refine ⟨?_, fun e he => ?_⟩
  · rw [List.length_map, upFrom_length, podCap_eq]
    exact Nat.min_le_right _ _
  · obtain ⟨i, -, rfl⟩ := List.mem_map.mp he
    exact Nat.mod_lt _ (by positivity)
theorem heldEntry_podAt {s : State} {fmt a : Nat} {e : Nat × Nat} (he : e ∈ (podAt s fmt a).ents) : heldEntry fmt e = e := by
  rw [podAt, decodePod_eq] at he
  obtain ⟨i, -, rfl⟩ := List.mem_map.mp he
  rw [heldEntry, valueWidth_eq]
  exact Prod.ext rfl (Nat.mod_eq_of_lt (Nat.mod_lt _ (by positivity)))
theorem next_podAt (s : State) (fmt a : Nat) : (podAt s fmt a).next % 2 ^ 32 = (podAt s fmt a).next := by
  rw [podAt, decodePod_eq]
  exact Nat.mod_eq_of_lt (Nat.mod_lt _ (by positivity))

/-! ### What a home's writes leave (R44, R60) -/

theorem ledger_fibPut (s : State) (pa n x : Nat) : ledger (fibPut s pa n x) = ledger s := by
  unfold fibPut countBursts
  rw [ledger_countUnits, ledger_storeMem]
theorem memByte_fibPut (s : State) (pa n x : Nat) : memByte (fibPut s pa n x) = memByte (storeMem s pa n x) :=
  memByte_of_ledger (countUnits_mem _ _) (ledger_countUnits _ _)
theorem still_of_ledger {s t : State} (h : ledger t = ledger s) (hstill : ∀ m ∈ s.dev.migrations, m.2.act = false) :
    ∀ m ∈ t.dev.migrations, m.2.act = false := by rwa [migrations_of_ledger h]

theorem memRead_add (s : State) (pa n m : Nat) : memRead s pa (n + m) = memRead s pa n + 2 ^ (8 * n) * memRead s (pa + n) m := by
  induction n generalizing pa with
  | zero => simp [memRead]
  | succ k ih =>
    rw [Nat.add_right_comm, memRead, memRead, ih, Nat.mul_succ, pow_add, show pa + 1 + k = pa + (k + 1) by omega]
    ring

theorem memRead_of_apart {s t : State} {pa n : Nat} (h : ∀ i, i < n → memByte t (pa + i) = memByte s (pa + i)) :
    memRead t pa n = memRead s pa n := by
  induction n generalizing pa with
  | zero => rfl
  | succ k ih =>
    have hrest := ih (pa := pa + 1) fun i hi => by
      have := h (i + 1) (by omega)
      rwa [show pa + (i + 1) = pa + 1 + i by omega] at this
    rw [memRead, memRead, hrest, ← Nat.add_zero pa, h 0 (by omega)]

/-- R59: a header written and read back. -/
theorem memRead_hdrPut {s : State} {pa : Nat} (hplain : PlainMemory pa) (haligned : pa % 64 = 0) (y : FHdr) :
    memRead (hdrPut s pa y) pa 64 = encodeHdr y % 2 ^ 512 := by
  have hstore := memByte_storeMem_piece (s := s) (g := { pa := pa, len := 64, off := 0 }) hplain ⟨Nat.succ_pos 63, by dsimp only; omega⟩ (encodeHdr y)
  have hread := memRead_of_memByte (hdrPut s pa y) pa 64 (encodeHdr y) fun i hi => by
    rw [hdrPut, memByte_fibPut]
    exact hstore.1 i hi
  rw [hread, show (256 : Nat) = 2 ^ 8 by norm_num, ← pow_mul]

section
variable {s : State} (hstill : ∀ m ∈ s.dev.migrations, m.2.act = false)
include hstill

theorem memRead_hdrPut_apart {pa a : Nat} (hplain : PlainMemory pa) (hapart : a + 256 ≤ pa ∨ pa + 64 ≤ a) (y : FHdr) :
    memRead (hdrPut s pa y) a 256 = memRead s a 256 := by
  refine memRead_of_apart fun i hi => ?_
  rw [hdrPut, memByte_fibPut, memByte_storeMem hplain s _ _ _ hstill, if_neg (by omega)]

theorem podAt_podPut {fmt a : Nat} {p : Pod} (hplain : PlainMemory a) (hp : PodOk fmt p) :
    podAt (podPut s a (decide (fmt = 11)) p) fmt a = { next := p.next % 2 ^ 32, ents := p.ents.map (heldEntry fmt) } := by
  have hlen := podLen_le hp
  have hbytes := memRead_of_memByte (podPut s a (decide (fmt = 11)) p) a (podLen (decide (fmt = 11)) p) (podNum (decide (fmt = 11)) p) fun i hi => by
    rw [podPut, memByte_fibPut, memByte_storeMem hplain s _ _ _ hstill, if_pos (by omega), Nat.add_sub_cancel_left]
  refine decodePod_podNum hp ?_
  obtain ⟨m, hm⟩ := Nat.exists_eq_add_of_le hlen
  rw [hm, memRead_add, Nat.add_mul_mod_self_left, hbytes, pow_mul]
  exact Nat.mod_mod _ _

/-- A pod written, and then the header of its fibre. -/
theorem podAt_hdrPut {fmt a pa : Nat} {p : Pod} (hplain : PlainMemory a) (hhdr : PlainMemory pa) (hapart : a + 256 ≤ pa ∨ pa + 64 ≤ a)
    (hp : PodOk fmt p) (y : FHdr) :
    podAt (hdrPut (podPut s a (decide (fmt = 11)) p) pa y) fmt a = { next := p.next % 2 ^ 32, ents := p.ents.map (heldEntry fmt) } := by
  have hstill' : ∀ m ∈ (podPut s a (decide (fmt = 11)) p).dev.migrations, m.2.act = false := still_of_ledger (ledger_fibPut _ _ _ _) hstill
  rw [podAt, memRead_hdrPut_apart hstill' hhdr hapart]
  exact podAt_podPut hstill hplain hp

end

/-! ### An operation applied and gone -/

theorem fibDone_eq (s : State) (f : FReq) (d : VReg) (dest : Dest) :
    ∃ r q, fibDone s f d dest = { dropF s f.id with replay := r, reqs := q } := by
  unfold fibDone
  dsimp only
  split <;> split <;> exact ⟨_, _, rfl⟩
theorem findF_fibDone (s : State) (f : FReq) (d : VReg) (dest : Dest) : findF (fibDone s f d dest) f.id = none := by
  obtain ⟨r, q, h⟩ := fibDone_eq s f d dest
  rw [h]
  exact findF_dropF s f.id
theorem memByte_fibDone (s : State) (f : FReq) (d : VReg) (dest : Dest) : memByte (fibDone s f d dest) = memByte s := by
  obtain ⟨r, q, h⟩ := fibDone_eq s f d dest
  rw [h]
  rfl
theorem addTraffic_eq (s : State) (e : Nat) (gs : List Seg) : ∃ x, addTraffic s e gs = { s with traffic := x } := by
  unfold addTraffic
  dsimp only
  split <;> exact ⟨_, rfl⟩

section
variable (s t : State) (f : FReq)

theorem findF_counted (id : Nat) : findF (counted s t f) id = findF t id := by
  obtain ⟨x, h⟩ := addTraffic_eq t f.launch [{ pa := 0, len := 32 * (served t - served s), off := 0 }]
  rw [counted, h]
  rfl
theorem counted_dev : (counted s t f).dev = t.dev := by
  obtain ⟨x, h⟩ := addTraffic_eq t f.launch [{ pa := 0, len := 32 * (served t - served s), off := 0 }]
  rw [counted, h]
theorem memByte_counted : memByte (counted s t f) = memByte t := memByte_of_ledger (addTraffic_mem _ _ _) (ledger_addTraffic _ _ _)
theorem findF_applied : findF (applied s t f) f.id = none := (findF_counted s _ f f.id).trans (findF_fibDone t f 0 .none)
theorem memByte_applied : memByte (applied s t f) = memByte t := (memByte_counted s _ f).trans (memByte_fibDone t f 0 .none)

end

theorem podAt_congr {s t : State} (h : memByte t = memByte s) (fmt a : Nat) : podAt t fmt a = podAt s fmt a := by
  rw [podAt, podAt, memRead_congr h]
theorem Quiet.still {s t : State} (h : Quiet s t) (hstill : ∀ m ∈ s.dev.migrations, m.2.act = false) : ∀ m ∈ t.dev.migrations, m.2.act = false := by
  rwa [h.migrations]

/-- What an act that writes the one pod of a fibre, and then its header, leaves of both. -/
theorem onePod_after {s r u : State} {f : FReq} {i a fmt : Nat} {p : Pod} {y : FHdr} (h : OnePod s f true i a) (hr : Quiet s r)
    (hp : PodOk fmt p) (hu : memByte u = memByte (hdrPut (podPut r a (decide (fmt = 11)) p) f.hdr y)) :
    memRead u f.hdr 64 = encodeHdr y % 2 ^ 512 ∧ podAt u fmt a = { next := p.next % 2 ^ 32, ents := p.ents.map (heldEntry fmt) } := by
  rw [memRead_congr hu, podAt_congr hu]
  exact ⟨memRead_hdrPut h.header.plain h.header.aligned y, podAt_hdrPut (hr.still h.still) h.plain h.header.plain h.apart hp y⟩

/-! ### An operation's turn (R65, R67) -/

section
variable {s : State} {f : FReq} (hturn : Turn s f)
include hturn

theorem fibEvent_of_turn {p : FOp → Bool} (hp : p f.op = true) : fibEvent s f.id p = counted s (fibApply s f) f := by
  have hgo : (p f.op && f.held == .no && fibTurn s f) = true := by simp [hp, hturn.free, hturn.turn]
  unfold fibEvent
  rw [hturn.found]
  dsimp only
  rw [if_pos hgo]
  rfl

end

/-! ### An act on a fibre of one pod (R60-R63) -/

/-- A pod written at `a`, after nothing but reads; and then the header at `pa`. -/
def PodWritten (s : State) (a : Nat) (fx : Bool) (p : Pod) (u : State) : Prop := ∃ r, Quiet s r ∧ u = podPut r a fx p
def FibreWritten (s : State) (a : Nat) (fx : Bool) (p : Pod) (pa : Nat) (y : FHdr) (u : State) : Prop :=
  ∃ r, Quiet s r ∧ u = hdrPut (podPut r a fx p) pa y
/-- The header written, after nothing but reads. -/
def HdrWritten (s : State) (pa : Nat) (y : FHdr) (u : State) : Prop := ∃ r, Quiet s r ∧ u = hdrPut r pa y

section
variable {α : Type} {s : State}

theorem Gives.then_pure {a : FM Unit} {x : α} {P : State → Prop} (h : Gives s a () P) : Gives s (a >>= fun _ => pure x) x P :=
  h.bind fun u hu => ⟨u, rfl, hu⟩

theorem redirectHeld_of_still {t : State} (h : ∀ m ∈ t.dev.migrations, m.2.act = false) (pa n : Nat) : redirectHeld t.dev pa n = false :=
  List.any_eq_false.mpr fun m hm => by simp [h m hm]

/-- A pod written, and then its fibre's header. -/
theorem Gives.then_writeHdr {act : FM α} {x : α} {a pa : Nat} {fx : Bool} {p : Pod} (g : α → FHdr)
    (hstill : ∀ m ∈ s.dev.migrations, m.2.act = false) (h : Gives s act x (PodWritten s a fx p)) :
    Gives s (act >>= fun y => writeHdr pa (g y)) () (FibreWritten s a fx p pa (g x)) := by
  refine h.bind ?_
  rintro u ⟨r, hr, rfl⟩
  have hstill' : ∀ m ∈ (podPut r a fx p).dev.migrations, m.2.act = false := still_of_ledger (ledger_fibPut _ _ _ _) (hr.still hstill)
  exact ⟨_, run_fibWrite (redirectHeld_of_still hstill' _ _), r, hr, rfl⟩

end

/-- R61: a fibre in one pod has its entries there. -/
def onlyPod (i : Nat) : Loc := { pod := i, top := 0, pos := 0 }

theorem lastAtMost_one (i c : Nat) : lastAtMost [(0, i)] c = some 0 := by simp [lastAtMost]
theorem lastAtMost_nil (c : Nat) : lastAtMost [] c = none := rfl

section
variable {s : State} {x : FHdr} (h : FibHome) (wr : Bool) (c : Nat)

theorem reads_locate_one {i : Nat} (hlv : x.lv = false) (hdir : x.dir = [(0, i)]) : Reads s (locate h x wr c) (some (onlyPod i)) := by
  unfold locate
  rw [hdir, lastAtMost_one]
  dsimp only
  rw [if_neg (by simp [hlv])]
  exact reads_pure _
theorem reads_locate_none (hdir : x.dir = []) : Reads s (locate h x wr c) none := by
  unfold locate
  rw [hdir, lastAtMost_nil]
  exact reads_pure _

end

/-- The pod of a fibre in one pod, read. -/
theorem reads_onePod {s : State} {f : FReq} {wr : Bool} {i a : Nat} (hpod : OnePod s f wr i a) :
    Reads s (readPod (fibHome s f.hdr) (hdrOf s f.hdr).pool (decide ((hdrOf s f.hdr).fmt = 11)) wr i) (podAt s (hdrOf s f.hdr).fmt a) :=
  reads_readPod (podOpen_of_onePod hpod) _

section
variable {s : State} {f : FReq} {i a : Nat} (hpod : OnePod s f true i a)
include hpod

theorem gives_onlyPod (p : Pod) : Gives s (writePod (fibHome s f.hdr) (hdrOf s f.hdr).pool (decide ((hdrOf s f.hdr).fmt = 11)) i p) ()
    (PodWritten s a (decide ((hdrOf s f.hdr).fmt = 11)) p) := gives_writePod (podOpen_of_onePod hpod) hpod.still _ p

/-- What an act that has written the fibre leaves, once its operation has left. -/
theorem applied_fibre {act : FM Unit} {ins : Instr} (hexec : ∀ t, act.exec s = .ok ((), t) → exec ins s = .next (applied s t f)) {p : Pod}
    {y : FHdr} (hp : PodOk (hdrOf s f.hdr).fmt p) (hact : Gives s act () (FibreWritten s a (decide ((hdrOf s f.hdr).fmt = 11)) p f.hdr y)) :
    ∃ t, exec ins s = .next t ∧ findF t f.id = none ∧ memRead t f.hdr 64 = encodeHdr y % 2 ^ 512 ∧
      podAt t (hdrOf s f.hdr).fmt a = { next := p.next % 2 ^ 32, ents := p.ents.map (heldEntry (hdrOf s f.hdr).fmt) } := by
  obtain ⟨t, ht, r, hr, rfl⟩ := hact.exec
  obtain ⟨hhdr, hents⟩ := onePod_after hpod hr hp (memByte_applied s _ f)
  exact ⟨_, hexec _ ht, findF_applied _ _ _, hhdr, hents⟩

/-- What an act that has written the header alone leaves of the pod. -/
theorem applied_header_onePod {act : FM Unit} {ins : Instr} (hexec : ∀ t, act.exec s = .ok ((), t) → exec ins s = .next (applied s t f))
    {y : FHdr} (hact : Gives s act () (HdrWritten s f.hdr y)) :
    ∃ t, exec ins s = .next t ∧ findF t f.id = none ∧ memRead t f.hdr 64 = encodeHdr y % 2 ^ 512 ∧
      podAt t (hdrOf s f.hdr).fmt a = podAt s (hdrOf s f.hdr).fmt a := by
  obtain ⟨t, ht, r, hr, rfl⟩ := hact.exec
  have hbytes := memByte_applied s (hdrPut r f.hdr y) f
  refine ⟨_, hexec _ ht, findF_applied _ _ _, ?_, ?_⟩
  · rw [memRead_congr hbytes, memRead_hdrPut hpod.header.plain hpod.header.aligned]
  · rw [podAt_congr hbytes, podAt, memRead_hdrPut_apart (hr.still hpod.still) hpod.header.plain hpod.apart, hr.memRead]
    rfl

end

/-- What an act that has written the header leaves of it. -/
theorem applied_header {s : State} {f : FReq} (hplain : PlainMemory f.hdr) (haligned : f.hdr % 64 = 0) {act : FM Unit} {ins : Instr}
    (hexec : ∀ t, act.exec s = .ok ((), t) → exec ins s = .next (applied s t f)) {y : FHdr} (hact : Gives s act () (HdrWritten s f.hdr y)) :
    ∃ t, exec ins s = .next t ∧ findF t f.id = none ∧ memRead t f.hdr 64 = encodeHdr y % 2 ^ 512 := by
  obtain ⟨t, ht, r, hr, rfl⟩ := hact.exec
  refine ⟨_, hexec _ ht, findF_applied _ _ _, ?_⟩
  rw [memRead_congr (memByte_applied s _ f), memRead_hdrPut hplain haligned]

/-! ### Merges (R62, R63, R67, R256) -/

/-- A new entry placed in a fibre of one pod with room. -/
theorem gives_insertEntry {s : State} {f : FReq} {i a : Nat} (hpod : OnePod s f true i a)
    (hroom : (podAt s (hdrOf s f.hdr).fmt a).ents.length < podCap (hdrOf s f.hdr).fmt) (e : Nat × Nat) :
    Gives s (insertEntry (fibHome s f.hdr) (hdrOf s f.hdr) (some (onlyPod i)) e)
      { hdrOf s f.hdr with len := (hdrOf s f.hdr).len + 1 } (PodWritten s a (decide ((hdrOf s f.hdr).fmt = 11))
        { podAt s (hdrOf s f.hdr).fmt a with ents := putEntry (podAt s (hdrOf s f.hdr).fmt a).ents e }) := by
  unfold insertEntry
  dsimp only
  refine (reads_onePod hpod).bind ?_
  rw [if_pos hroom]
  exact (gives_onlyPod hpod _).then_pure

section
variable {s : State} {f : FReq} {i a : Nat} (hpod : OnePod s f true i a) {op c v : Nat} (hmax : c ≤ (hdrOf s f.hdr).maxc) (hcoord : c < noneIdx)
include hpod hmax hcoord

/-- A merge into a fibre of one pod, of a coordinate held. -/
theorem gives_mergeOne_held {e : Nat × Nat} (he : (podAt s (hdrOf s f.hdr).fmt a).ents.find? (fun e => e.1 == c) = some e)
    (hkeep : ¬ ((hdrOf s f.hdr).zp = true ∧
      fibZero (hdrOf s f.hdr).fmt (combine op (hdrOf s f.hdr).fmt e.2 (fibCanon (hdrOf s f.hdr).fmt v)) = true)) :
    Gives s (mergeOne (fibHome s f.hdr) f.hdr (hdrOf s f.hdr) op c v) () (FibreWritten s a (decide ((hdrOf s f.hdr).fmt = 11))
      { podAt s (hdrOf s f.hdr).fmt a with
        ents := (podAt s (hdrOf s f.hdr).fmt a).ents.map (fun e' => if e'.1 = c then
          (c, combine op (hdrOf s f.hdr).fmt e.2 (fibCanon (hdrOf s f.hdr).fmt v)) else e') }
      f.hdr { hdrOf s f.hdr with ver := bump (hdrOf s f.hdr).ver 1 }) := by
  have hin : ¬ ((hdrOf s f.hdr).maxc < c ∨ c = noneIdx) := by omega
  unfold mergeOne
  simp only [if_neg hin]
  refine (reads_locate_one _ _ _ hpod.flat hpod.dir).bind ((reads_onePod hpod).bind ?_)
  rw [he]
  dsimp only
  rw [if_neg (by simpa using hkeep)]
  rw [pure_bind]
  exact (gives_onlyPod hpod _).then_writeHdr (fun _ => { hdrOf s f.hdr with ver := bump (hdrOf s f.hdr).ver 1 }) hpod.still

/-- A merge into a fibre of one pod with room, of a new coordinate. -/
theorem gives_mergeOne_new (he : (podAt s (hdrOf s f.hdr).fmt a).ents.find? (fun e => e.1 == c) = none)
    (hkeep : ¬ ((hdrOf s f.hdr).zp = true ∧ fibZero (hdrOf s f.hdr).fmt (fibCanon (hdrOf s f.hdr).fmt v) = true))
    (hcap : (hdrOf s f.hdr).len ≠ (hdrOf s f.hdr).cap) (hroom : (podAt s (hdrOf s f.hdr).fmt a).ents.length < podCap (hdrOf s f.hdr).fmt) :
    Gives s (mergeOne (fibHome s f.hdr) f.hdr (hdrOf s f.hdr) op c v) () (FibreWritten s a (decide ((hdrOf s f.hdr).fmt = 11))
      { podAt s (hdrOf s f.hdr).fmt a with
        ents := putEntry (podAt s (hdrOf s f.hdr).fmt a).ents (c, fibCanon (hdrOf s f.hdr).fmt v) }
      f.hdr { hdrOf s f.hdr with len := (hdrOf s f.hdr).len + 1, ver := bump (hdrOf s f.hdr).ver 1 }) := by
  have hin : ¬ ((hdrOf s f.hdr).maxc < c ∨ c = noneIdx) := by omega
  unfold mergeOne
  simp only [if_neg hin]
  refine (reads_locate_one _ _ _ hpod.flat hpod.dir).bind ((reads_onePod hpod).bind ?_)
  rw [he]
  dsimp only
  rw [if_neg (by simpa using hkeep), if_neg hcap]
  have hact := (gives_insertEntry hpod hroom (c, fibCanon (hdrOf s f.hdr).fmt v)).then_writeHdr (pa := f.hdr)
    (fun y => { y with ver := bump y.ver 1 }) hpod.still
  generalize hdrOf s f.hdr = x at *
  exact hact

end

/-- What a merge checks before it is applied. -/
theorem gives_mergeAct {s : State} {f : FReq} (hhdr : HdrAt s f.hdr) {op vt c w : Nat} {v : W64} {P : State → Prop}
    (hmark : (getPool s (hdrOf s f.hdr).pool).wmark ≤ (getPool s (hdrOf s f.hdr).pool).freecnt)
    (hop : (if op = 8 then (hdrOf s f.hdr).op else op) ≠ 7)
    (hvalue : enterValue (hdrOf s f.hdr).fmt vt (getPool s (hdrOf s f.hdr).pool).scale v = some w)
    (hone : Gives s (mergeOne (fibHome s f.hdr) f.hdr (hdrOf s f.hdr) (if op = 8 then (hdrOf s f.hdr).op else op) c w) () P) :
    Gives s (mergeAct (fibHome s f.hdr) f.hdr f.va op vt c v) () P := by
  have hgood : hdrBad (hdrOf s f.hdr) = false := hhdr.good
  unfold mergeAct
  refine (reads_readHdr hhdr).bind ?_
  simp only [hgood, Bool.false_eq_true, if_false]
  refine gives_get_bind fun t ht => ?_
  simp only [ht.getPool, if_neg (Nat.not_lt.mpr hmark), if_neg hop]
  refine gives_get_bind fun u hu => ?_
  rw [hu.getPool, hvalue]
  exact hone

/-- A merge past MAXC, or one that its operator or its value rejects first. -/
theorem fails_mergeAct_reject {s : State} {f : FReq} (hhdr : HdrAt s f.hdr) {op vt c : Nat} {v : W64}
    (hmark : (getPool s (hdrOf s f.hdr).pool).wmark ≤ (getPool s (hdrOf s f.hdr).pool).freecnt) (hmax : (hdrOf s f.hdr).maxc < c) :
    Fails s (mergeAct (fibHome s f.hdr) f.hdr f.va op vt c v) .reject := by
  have hgood : hdrBad (hdrOf s f.hdr) = false := hhdr.good
  unfold mergeAct
  refine (reads_readHdr hhdr).bind_fails ?_
  simp only [hgood, Bool.false_eq_true, if_false]
  refine fails_get_bind fun t ht => ?_
  by_cases hop : (if op = 8 then (hdrOf s f.hdr).op else op) = 7
  · simp only [ht.getPool, if_neg (Nat.not_lt.mpr hmark), if_pos hop]
    exact (fails_fail _).bind
  · simp only [ht.getPool, if_neg (Nat.not_lt.mpr hmark), if_neg hop]
    refine fails_get_bind fun u hu => ?_
    split
    · exact fails_fail _
    · unfold mergeOne
      simp only [if_pos (Or.inl hmax : (hdrOf s f.hdr).maxc < c ∨ c = noneIdx)]
      exact (fails_fail _).bind

theorem gives_rejectAct {s : State} {pa : Nat} (hhdr : HdrAt s pa) : Gives s (rejectAct pa) () (HdrWritten s pa { hdrOf s pa with ovf := true }) := by
  unfold rejectAct
  exact (reads_readHdr hhdr).bind (gives_writeHdr hhdr.still _)

/-! #### The entries of a pod changed -/

theorem podOk_of_subset {fmt : Nat} {p q : Pod} (hp : PodOk fmt p) (hlen : q.ents.length ≤ p.ents.length) (hsub : ∀ e ∈ q.ents, e ∈ p.ents) :
    PodOk fmt q := ⟨hlen.trans hp.fits, fun e he => hp.coord e (hsub e he)⟩

section
variable {s : State} {fmt a c : Nat}

theorem podOk_map (hc : c < 2 ^ 32) (n : Nat) :
    PodOk fmt { podAt s fmt a with ents := (podAt s fmt a).ents.map (fun e => if e.1 = c then (c, n) else e) } := by
  have hp := podOk_podAt s fmt a
  refine ⟨by simpa using hp.fits, fun e he => ?_⟩
  obtain ⟨e', he', rfl⟩ := List.mem_map.mp he
  split
  · exact hc
  · exact hp.coord e' he'
theorem held_map (n : Nat) :
    ((podAt s fmt a).ents.map (fun e => if e.1 = c then (c, n) else e)).map (heldEntry fmt) =
      (podAt s fmt a).ents.map (fun e => if e.1 = c then (c, n % 2 ^ podWidth fmt) else e) := by
  rw [List.map_map]
  refine List.map_congr_left fun e he => ?_
  have hsame := heldEntry_podAt he
  by_cases hec : e.1 = c
  · simp [hec, heldEntry]
  · simp [hec, hsame]

theorem length_putEntry (l : List (Nat × Nat)) (e : Nat × Nat) (h : l.find? (fun x => x.1 == e.1) = none) :
    (putEntry l e).length = l.length + 1 := by
  have hsplit : (l.filter (fun x => decide (x.1 < e.1))).length + (l.filter (fun x => decide (e.1 < x.1))).length = l.length := by
    induction l with
    | nil => rfl
    | cons x r ih =>
      rw [List.find?_cons] at h
      cases hx : (x.1 == e.1) with
      | true => simp [hx] at h
      | false =>
        rw [hx] at h
        have hr := ih h
        have hne : x.1 ≠ e.1 := by simpa using hx
        rcases Nat.lt_or_gt_of_ne hne with hlt | hgt
        · rw [List.filter_cons_of_pos (by simpa using hlt), List.filter_cons_of_neg (by simp; omega), List.length_cons, List.length_cons]
          omega
        · rw [List.filter_cons_of_neg (by simp; omega), List.filter_cons_of_pos (by simpa using hgt), List.length_cons, List.length_cons]
          omega
  unfold putEntry
  simp only [List.length_append, List.length_cons, List.length_nil]
  omega
theorem mem_putEntry {l : List (Nat × Nat)} {e x : Nat × Nat} (h : x ∈ putEntry l e) : x = e ∨ x ∈ l := by
  unfold putEntry at h
  simp only [List.mem_append, List.mem_filter, List.mem_singleton] at h
  rcases h with (⟨h, -⟩ | h) | ⟨h, -⟩
  · exact .inr h
  · exact .inl h
  · exact .inr h
theorem podOk_putEntry (hc : c < 2 ^ 32) (n : Nat) (hnew : (podAt s fmt a).ents.find? (fun e => e.1 == c) = none)
    (hroom : (podAt s fmt a).ents.length < podCap fmt) : PodOk fmt { podAt s fmt a with ents := putEntry (podAt s fmt a).ents (c, n) } := by
  refine ⟨(length_putEntry _ (c, n) hnew).trans_le hroom, fun e he => ?_⟩
  rcases mem_putEntry he with rfl | he
  · exact hc
  · exact (podOk_podAt s fmt a).coord e he
theorem held_filter (p : Nat × Nat → Bool) : ((podAt s fmt a).ents.filter p).map (heldEntry fmt) = (podAt s fmt a).ents.filter p := by
  refine (List.map_congr_left fun e he => ?_).trans (List.map_id _)
  exact heldEntry_podAt (List.mem_filter.mp he).1
theorem held_ents : (podAt s fmt a).ents.map (heldEntry fmt) = (podAt s fmt a).ents :=
  (List.map_congr_left fun _ he => heldEntry_podAt he).trans (List.map_id _)
theorem held_putEntry (n : Nat) :
    (putEntry (podAt s fmt a).ents (c, n)).map (heldEntry fmt) = putEntry (podAt s fmt a).ents (c, n % 2 ^ podWidth fmt) := by
  unfold putEntry
  simp only [List.map_append, held_filter]
  rfl

end

/-! ### Merges at their home (R62, R63, R67, R256) -/

/-- What a home's writes leave alone of the rest. -/
def besides (s : State) : Tbl Pool × Tbl Cluster × List FReq × List Req := (s.dev.pools, s.clusters, s.freqs, s.reqs)

theorem besides_countUnits (s : State) (us : List Nat) : besides (countUnits s us) = besides s := by
  unfold countUnits
  refine foldl_keeps besides _ ?_ us s
  exact fun _ _ => rfl
theorem besides_setDir (s : State) (r : DirRef) (e : DirEntry) : besides (setDir s r e) = besides s := by
  cases r with
  | acc n d => rfl
  | slot n k => rfl
  | region n t => rfl
  | page b =>
    unfold setDir
    dsimp only
    split <;> rfl
theorem besides_memWrite (s : State) (pa n x : Nat) : besides (memWrite s pa n x) = besides s := by
  unfold memWrite hitMonitors spoil
  dsimp only
  split <;> rfl
theorem besides_fibPut {pa : Nat} (hplain : PlainMemory pa) (s : State) (n x : Nat) : besides (fibPut s pa n x) = besides s := by
  unfold fibPut countBursts
  rw [besides_countUnits, storeMem_of_plain hplain]
  exact (foldl_keeps besides _ (fun s _ => besides_setDir s _ _) _ _).trans (besides_memWrite s pa n x)
theorem Quiet.besides {s t : State} (h : Quiet s t) : besides t = besides s := by
  obtain ⟨hbm, ends, rfl, -⟩ := h
  rfl

theorem exec_ok_of_run {α : Type} {a : FM α} {s t : State} {x : α} (h : FM.run a s = (.ok x, t)) : a.exec s = .ok (x, t) := by
  unfold FM.run at h
  rw [FM.exec, h]
theorem exec_error_of_run {α : Type} {a : FM α} {s t : State} {e : FErr} (h : FM.run a s = (.error e, t)) :
    a.exec s = .error (e, { s with hbm := t.hbm, dev := { s.dev with walkEnds := t.dev.walkEnds } }) := by
  unfold FM.run at h
  rw [FM.exec, h]

theorem dropF_putF (s : State) (f : FReq) : dropF (putF s f) f.id = dropF s f.id := by
  unfold dropF putF
  dsimp only
  congr 1
  induction s.freqs with
  | nil => rfl
  | cons g l ih =>
    by_cases hg : g.id = f.id
    · simp [hg] at ih ⊢
      exact ih
    · simp [hg] at ih ⊢
      exact ih

section
variable {s : State} {f : FReq}

theorem exec_mergeAtHome_of_turn (h : Awake s) (hturn : Turn s f) {op vt : Nat} {ls : List (Nat × W64)} (hop : f.op = .merge op vt ls) :
    exec (.mergeAtHome f.id) s = .next (counted s (mergeLanesAt s f op vt ls) f) := by
  rw [exec_mergeAtHome, execMergeAtHome, event_of_awake h, fibEvent_of_turn hturn (by rw [hop]; rfl)]
  unfold fibApply mergeAt
  rw [if_neg (by simp [hturn.here]), hop]

/-- The last lane of a merge applied: the merge is gone. -/
theorem mergeLanesAt_nil {op vt op' vt' : Nat} {ls : List (Nat × W64)} (hop : f.op = .merge op' vt' ls) (t : State) :
    mergeLanesAt (putF t { f with op := .merge op vt [], held := .no, begun := true })
      { f with op := .merge op vt [], held := .no, begun := true } op vt [] = fibDone t f 0 .none := by
  have hdrop := dropF_putF t { f with op := .merge op vt [], held := .no, begun := true }
  have hprobe : isProbe f = isProbe { f with op := .merge op vt [], held := .no, begun := true } := by
    unfold isProbe
    rw [hop]
  rw [mergeLanesAt]
  unfold fibDone
  rw [hdrop, hprobe]
  rfl

theorem mergeLanesAt_of_ok {op vt c : Nat} {v : W64} (hop : f.op = .merge op vt [(c, v)]) {t : State}
    (hact : (mergeAct (fibHome s f.hdr) f.hdr f.va op vt c v).exec s = .ok ((), t)) :
    mergeLanesAt s f op vt [(c, v)] = fibDone t f 0 .none := by
  unfold mergeLanesAt
  dsimp only
  rw [hact]
  exact mergeLanesAt_nil hop t
theorem mergeLanesAt_of_reject {op vt c : Nat} {v : W64} (hop : f.op = .merge op vt [(c, v)]) {r t : State}
    (hact : (mergeAct (fibHome s f.hdr) f.hdr f.va op vt c v).exec s = .error (.reject, r)) (hrej : (rejectAct f.hdr).exec r = .ok ((), t)) :
    mergeLanesAt s f op vt [(c, v)] = fibDone t f 0 .none := by
  unfold mergeLanesAt
  dsimp only
  rw [hact]
  dsimp only
  rw [hrej]
  exact mergeLanesAt_nil hop t
theorem mergeLanesAt_of_stall {op vt c : Nat} {v : W64} {r : State}
    (hact : (mergeAct (fibHome s f.hdr) f.hdr f.va op vt c v).exec s = .error (.stall, r)) :
    mergeLanesAt s f op vt [(c, v)] = fibError r f .stall := by
  unfold mergeLanesAt
  dsimp only
  rw [hact]

end

theorem countUnits_dev (s : State) (us : List Nat) : (countUnits s us).dev = s.dev := by
  unfold countUnits
  refine foldl_keeps (·.dev) _ ?_ us s
  exact fun _ _ => rfl
theorem run_readHdr {s : State} {pa : Nat} (h : HdrAt s pa) : FM.run (readHdr pa) s = (.ok (hdrOf s pa), countBursts s pa 64) := by
  have hclean : ¬ (poisonedAt s pa 64).isSome = true := by rw [h.clean]; simp
  unfold readHdr fibRead
  rw [FM.run_bind, FM.run_bind, FM.run_get]
  dsimp only
  rw [if_neg hclean]
  rfl

/-- R67: a merge that stalls has only counted what it read. -/
theorem run_mergeAct_stall {s : State} {f : FReq} (hhdr : HdrAt s f.hdr) {op vt c : Nat} {v : W64}
    (hmark : (getPool s (hdrOf s f.hdr).pool).freecnt < (getPool s (hdrOf s f.hdr).pool).wmark) :
    FM.run (mergeAct (fibHome s f.hdr) f.hdr f.va op vt c v) s = (.error .stall, countBursts s f.hdr 64) := by
  have hgood : hdrBad (hdrOf s f.hdr) = false := hhdr.good
  have hmark' : (getPool (countBursts s f.hdr 64) (hdrOf s f.hdr).pool).freecnt < (getPool (countBursts s f.hdr 64) (hdrOf s f.hdr).pool).wmark := by
    rwa [(quiet_countBursts s f.hdr 64).getPool]
  unfold mergeAct
  rw [FM.run_bind, run_readHdr hhdr]
  simp only [hgood, Bool.false_eq_true, if_false]
  rw [FM.run_bind, FM.run_get]
  simp only [if_pos hmark']
  rfl

theorem findF_putF {s : State} {f : FReq} {id : Nat} (hfound : findF s id = some f) (g : FReq) (hid : g.id = f.id) :
    findF (putF s g) id = some g := by
  have hf : f.id = id := by simpa using List.find?_some hfound
  unfold findF at hfound ⊢
  unfold putF
  dsimp only
  generalize s.freqs = l at hfound ⊢
  induction l with
  | nil => cases hfound
  | cons x l ih =>
    by_cases hx : x.id = id
    · simp [hx, hid, hf]
    · rw [List.find?_cons_of_neg (by simpa using hx)] at hfound
      rw [List.map_cons, if_neg (by omega), List.find?_cons_of_neg (by simpa using hx)]
      exact ih hfound

theorem applied_eq (s t : State) (f : FReq) : ∃ x r q, applied s t f = { dropF t f.id with replay := r, reqs := q, traffic := x } := by
  obtain ⟨x, hx⟩ := addTraffic_eq (fibDone t f 0 .none) f.launch [{ pa := 0, len := 32 * (served (fibDone t f 0 .none) - served s), off := 0 }]
  obtain ⟨r, q, hq⟩ := fibDone_eq t f 0 .none
  exact ⟨x, r, q, by rw [applied, counted, hx, hq]⟩

section
variable (s t : State) (f : FReq)

theorem applied_dev : (applied s t f).dev = t.dev := by
  obtain ⟨x, r, q, h⟩ := applied_eq s t f
  rw [h]
  rfl
theorem applied_clusters : (applied s t f).clusters = t.clusters := by
  obtain ⟨x, r, q, h⟩ := applied_eq s t f
  rw [h]
  rfl
theorem applied_cores : (applied s t f).cores = t.cores := by
  obtain ⟨x, r, q, h⟩ := applied_eq s t f
  rw [h]
  rfl
theorem applied_mem : (applied s t f).mem = t.mem := by
  obtain ⟨x, r, q, h⟩ := applied_eq s t f
  rw [h]
  rfl

end

section
variable {s : State} {f : FReq} {op vt c : Nat} {v : W64} (h : Awake s) (hturn : Turn s f) (hop : f.op = .merge op vt [(c, v)])
include h hturn hop

theorem exec_mergeAtHome_applied (t : State) (hact : (mergeAct (fibHome s f.hdr) f.hdr f.va op vt c v).exec s = .ok ((), t)) :
    exec (.mergeAtHome f.id) s = .next (applied s t f) := by
  rw [exec_mergeAtHome_of_turn h hturn hop, mergeLanesAt_of_ok hop hact, applied]

/-- R62, R63: a merge of a coordinate that the one pod of its fibre holds. -/
theorem exec_mergeAtHome_held {i a w : Nat} {e : Nat × Nat} (hpod : OnePod s f true i a)
    (hmark : (getPool s (hdrOf s f.hdr).pool).wmark ≤ (getPool s (hdrOf s f.hdr).pool).freecnt)
    (ho : (if op = 8 then (hdrOf s f.hdr).op else op) ≠ 7) (hmax : c ≤ (hdrOf s f.hdr).maxc) (hcoord : c < noneIdx)
    (hvalue : enterValue (hdrOf s f.hdr).fmt vt (getPool s (hdrOf s f.hdr).pool).scale v = some w)
    (he : (podAt s (hdrOf s f.hdr).fmt a).ents.find? (fun e => e.1 == c) = some e)
    (hkeep : ¬ ((hdrOf s f.hdr).zp = true ∧ fibZero (hdrOf s f.hdr).fmt
      (combine (if op = 8 then (hdrOf s f.hdr).op else op) (hdrOf s f.hdr).fmt e.2 (fibCanon (hdrOf s f.hdr).fmt w)) = true)) :
    ∃ t, exec (.mergeAtHome f.id) s = .next t ∧ findF t f.id = none ∧
      memRead t f.hdr 64 = encodeHdr { hdrOf s f.hdr with ver := bump (hdrOf s f.hdr).ver 1 } % 2 ^ 512 ∧
      podAt t (hdrOf s f.hdr).fmt a = { podAt s (hdrOf s f.hdr).fmt a with
        ents := (podAt s (hdrOf s f.hdr).fmt a).ents.map (fun e' => if e'.1 = c then
          (c, combine (if op = 8 then (hdrOf s f.hdr).op else op) (hdrOf s f.hdr).fmt e.2 (fibCanon (hdrOf s f.hdr).fmt w)
            % 2 ^ podWidth (hdrOf s f.hdr).fmt) else e') } := by
  have hact := gives_mergeAct hpod.header hmark ho hvalue (gives_mergeOne_held hpod hmax hcoord he hkeep)
  have hc : c < 2 ^ 32 := hcoord.trans (by decide)
  obtain ⟨t, ht, hgone, hhdr, hents⟩ := applied_fibre hpod (exec_mergeAtHome_applied h hturn hop) (podOk_map hc _) hact
  exact ⟨t, ht, hgone, hhdr, hents.trans (by rw [next_podAt, held_map])⟩

/-- R62, R63: a merge of a new coordinate into a pod with room. -/
theorem exec_mergeAtHome_new {i a w : Nat} (hpod : OnePod s f true i a)
    (hmark : (getPool s (hdrOf s f.hdr).pool).wmark ≤ (getPool s (hdrOf s f.hdr).pool).freecnt)
    (ho : (if op = 8 then (hdrOf s f.hdr).op else op) ≠ 7) (hmax : c ≤ (hdrOf s f.hdr).maxc) (hcoord : c < noneIdx)
    (hvalue : enterValue (hdrOf s f.hdr).fmt vt (getPool s (hdrOf s f.hdr).pool).scale v = some w)
    (he : (podAt s (hdrOf s f.hdr).fmt a).ents.find? (fun e => e.1 == c) = none)
    (hkeep : ¬ ((hdrOf s f.hdr).zp = true ∧ fibZero (hdrOf s f.hdr).fmt (fibCanon (hdrOf s f.hdr).fmt w) = true))
    (hcap : (hdrOf s f.hdr).len ≠ (hdrOf s f.hdr).cap) (hroom : (podAt s (hdrOf s f.hdr).fmt a).ents.length < podCap (hdrOf s f.hdr).fmt) :
    ∃ t, exec (.mergeAtHome f.id) s = .next t ∧ findF t f.id = none ∧
      memRead t f.hdr 64 = encodeHdr { hdrOf s f.hdr with len := (hdrOf s f.hdr).len + 1, ver := bump (hdrOf s f.hdr).ver 1 } % 2 ^ 512 ∧
      podAt t (hdrOf s f.hdr).fmt a = { podAt s (hdrOf s f.hdr).fmt a with
        ents := putEntry (podAt s (hdrOf s f.hdr).fmt a).ents (c, fibCanon (hdrOf s f.hdr).fmt w % 2 ^ podWidth (hdrOf s f.hdr).fmt) } := by
  have hact := gives_mergeAct hpod.header hmark ho hvalue (gives_mergeOne_new hpod hmax hcoord he hkeep hcap hroom)
  have hc : c < 2 ^ 32 := hcoord.trans (by decide)
  obtain ⟨t, ht, hgone, hhdr, hents⟩ := applied_fibre hpod (exec_mergeAtHome_applied h hturn hop) (podOk_putEntry hc _ he hroom) hact
  exact ⟨t, ht, hgone, hhdr, hents.trans (by rw [next_podAt, held_putEntry])⟩

/-- R62, R256: a merge past MAXC. -/
theorem exec_mergeAtHome_rejected (hhdr : HdrAt s f.hdr) (hmax : (hdrOf s f.hdr).maxc < c)
    (hmark : (getPool s (hdrOf s f.hdr).pool).wmark ≤ (getPool s (hdrOf s f.hdr).pool).freecnt) :
    ∃ t, exec (.mergeAtHome f.id) s = .next t ∧ findF t f.id = none ∧
      memRead t f.hdr 64 = encodeHdr { hdrOf s f.hdr with ovf := true } % 2 ^ 512 ∧ t.dev.pools = s.dev.pools ∧ t.clusters = s.clusters := by
  obtain ⟨r, hr, hquiet⟩ := (fails_mergeAct_reject (vt := vt) (op := op) (v := v) hhdr hmark hmax).exec
  obtain ⟨u, hu, q, hq, rfl⟩ := gives_rejectAct hhdr r hquiet
  have hrun := mergeLanesAt_of_reject hop hr (exec_ok_of_run hu)
  have hrest : besides (hdrPut q f.hdr { hdrOf s f.hdr with ovf := true }) = besides s := (besides_fibPut hhdr.plain q 64 _).trans hq.besides
  refine ⟨applied s (hdrPut q f.hdr { hdrOf s f.hdr with ovf := true }) f, ?_, findF_applied _ _ _, ?_, ?_, ?_⟩
  · rw [exec_mergeAtHome_of_turn h hturn hop, hrun, applied]
  · rw [memRead_congr (memByte_applied s _ f), memRead_hdrPut hhdr.plain hhdr.aligned]
  · exact (congrArg (·.pools) (applied_dev _ _ _)).trans (congrArg (·.1) hrest)
  · exact (applied_clusters _ _ _).trans (congrArg (·.2.1) hrest)

/-- R67: a merge that finds its pool below its watermark. -/
theorem exec_mergeAtHome_stalled (hhdr : HdrAt s f.hdr)
    (hmark : (getPool s (hdrOf s f.hdr).pool).freecnt < (getPool s (hdrOf s f.hdr).pool).wmark) :
    ∃ t g, exec (.mergeAtHome f.id) s = .next t ∧ findF t f.id = some g ∧ g.held = .stalled s.time ∧ t.mem = s.mem ∧ t.dev = s.dev := by
  have hact := exec_error_of_run (run_mergeAct_stall (op := op) (vt := vt) (c := c) (v := v) hhdr hmark)
  have hfree := hturn.free
  have hlanes : mergeLanesAt s f op vt [(c, v)] =
      putF { s with hbm := (countBursts s f.hdr 64).hbm } { f with held := .stalled s.time } := by
    rw [mergeLanesAt_of_stall hact]
    unfold fibError countBursts
    simp only [hfree, countUnits_dev]
  refine ⟨_, { f with held := .stalled s.time }, by rw [exec_mergeAtHome_of_turn h hturn hop, hlanes], ?_, rfl, ?_, ?_⟩
  · rw [findF_counted]
    exact findF_putF hturn.found _ rfl
  · rw [counted, addTraffic_mem]
    rfl
  · rw [counted_dev]
    rfl

end

theorem mergesAtHome : MergesAtHome := by
  intro s f op vt c v h hturn hop
  refine ⟨exec_mergeAtHome_applied h hturn hop, ?_, ?_, exec_mergeAtHome_stalled h hturn hop⟩
  · intro i a w hpod hmark ho hmax hcoord hvalue
    exact ⟨fun e he hkeep => exec_mergeAtHome_held h hturn hop hpod hmark ho hmax hcoord hvalue he hkeep,
      fun he hkeep hcap hroom => exec_mergeAtHome_new h hturn hop hpod hmark ho hmax hcoord hvalue he hkeep hcap hroom⟩
  · exact exec_mergeAtHome_rejected h hturn hop

/-! ### Deletions at their home (R62, R63, R251) -/

section
variable {s : State} {f : FReq}

theorem simpleAt_of_ok {act : FM Unit} {t : State} (h : act.exec s = .ok ((), t)) : counted s (simpleAt s f act) f = applied s t f := by
  unfold simpleAt
  rw [h, applied]

theorem exec_deleteAtHome_applied (h : Awake s) (hturn : Turn s f) {c : Nat} (hop : f.op = .delete c) (t : State)
    (hact : (deleteAct (fibHome s f.hdr) f.hdr f.va c).exec s = .ok ((), t)) : exec (.deleteAtHome f.id) s = .next (applied s t f) := by
  rw [exec_deleteAtHome, execDeleteAtHome, event_of_awake h, fibEvent_of_turn hturn (by rw [hop]; rfl)]
  unfold fibApply
  rw [if_neg (by simp [hturn.here]), hop]
  exact congrArg _ (simpleAt_of_ok hact)

/-- A coordinate that no pod holds is not deleted; VER advances. -/
theorem gives_deleteAct_none {s : State} {f : FReq} (hhdr : HdrAt s f.hdr) (hdir : (hdrOf s f.hdr).dir = []) (c : Nat) :
    Gives s (deleteAct (fibHome s f.hdr) f.hdr f.va c) () (HdrWritten s f.hdr { hdrOf s f.hdr with ver := bump (hdrOf s f.hdr).ver 1 }) := by
  have hgood : hdrBad (hdrOf s f.hdr) = false := hhdr.good
  unfold deleteAct
  refine (reads_readHdr hhdr).bind ?_
  simp only [hgood, Bool.false_eq_true, if_false]
  refine (reads_locate_none _ _ _ hdir).bind ?_
  dsimp only
  rw [pure_bind]
  exact gives_writeHdr hhdr.still _

section
variable {i a : Nat} (hpod : OnePod s f true i a) (c : Nat)
include hpod

theorem gives_deleteAct_absent (hc : (podAt s (hdrOf s f.hdr).fmt a).ents.any (fun e => e.1 == c) = false) :
    Gives s (deleteAct (fibHome s f.hdr) f.hdr f.va c) () (HdrWritten s f.hdr { hdrOf s f.hdr with ver := bump (hdrOf s f.hdr).ver 1 }) := by
  have hgood : hdrBad (hdrOf s f.hdr) = false := hpod.header.good
  unfold deleteAct
  refine (reads_readHdr hpod.header).bind ?_
  simp only [hgood, Bool.false_eq_true, if_false]
  refine (reads_locate_one _ _ _ hpod.flat hpod.dir).bind ((reads_onePod hpod).bind ?_)
  rw [if_neg (by simp [hc]), pure_bind]
  exact gives_writeHdr hpod.header.still _

theorem gives_removeEntry (hrest : (podAt s (hdrOf s f.hdr).fmt a).ents.filter (fun e => e.1 != c) ≠ []) :
    Gives s (removeEntry (fibHome s f.hdr) (hdrOf s f.hdr) (onlyPod i) (podAt s (hdrOf s f.hdr).fmt a) c)
      { hdrOf s f.hdr with len := (hdrOf s f.hdr).len - 1 } (PodWritten s a (decide ((hdrOf s f.hdr).fmt = 11))
        { podAt s (hdrOf s f.hdr).fmt a with ents := (podAt s (hdrOf s f.hdr).fmt a).ents.filter (fun e => e.1 != c) }) := by
  unfold removeEntry
  dsimp only
  rw [if_neg (by simpa only [List.isEmpty_iff] using hrest)]
  exact (gives_onlyPod hpod _).then_pure

theorem gives_deleteAct_held (hc : (podAt s (hdrOf s f.hdr).fmt a).ents.any (fun e => e.1 == c) = true)
    (hrest : (podAt s (hdrOf s f.hdr).fmt a).ents.filter (fun e => e.1 != c) ≠ []) :
    Gives s (deleteAct (fibHome s f.hdr) f.hdr f.va c) () (FibreWritten s a (decide ((hdrOf s f.hdr).fmt = 11))
      { podAt s (hdrOf s f.hdr).fmt a with ents := (podAt s (hdrOf s f.hdr).fmt a).ents.filter (fun e => e.1 != c) }
      f.hdr { hdrOf s f.hdr with len := (hdrOf s f.hdr).len - 1, ver := bump (hdrOf s f.hdr).ver 1 }) := by
  have hgood : hdrBad (hdrOf s f.hdr) = false := hpod.header.good
  unfold deleteAct
  refine (reads_readHdr hpod.header).bind ?_
  simp only [hgood, Bool.false_eq_true, if_false]
  refine (reads_locate_one _ _ _ hpod.flat hpod.dir).bind ((reads_onePod hpod).bind ?_)
  rw [if_pos hc]
  have hact := (gives_removeEntry hpod c hrest).then_writeHdr (pa := f.hdr) (fun y => { y with ver := bump y.ver 1 }) hpod.still
  generalize hdrOf s f.hdr = x at *
  exact hact

end

end

theorem podOk_filter (s : State) (fmt a : Nat) (p : Nat × Nat → Bool) : PodOk fmt { podAt s fmt a with ents := (podAt s fmt a).ents.filter p } :=
  podOk_of_subset (podOk_podAt s fmt a) (List.length_filter_le _ _) fun _ he => (List.mem_filter.mp he).1

theorem deletesAtHome : DeletesAtHome := by
  intro s f c h hturn hop
  have hexec := exec_deleteAtHome_applied h hturn hop
  refine ⟨hexec, fun i a hpod => ⟨fun hc hrest => ?_, fun hc => ?_⟩, fun hhdr hdir => ?_⟩
  · obtain ⟨t, ht, hgone, hhdr, hents⟩ := applied_fibre hpod hexec (podOk_filter _ _ _ _) (gives_deleteAct_held hpod c hc hrest)
    exact ⟨t, ht, hgone, hhdr, hents.trans (by rw [next_podAt, held_filter])⟩
  · exact applied_header_onePod hpod hexec (gives_deleteAct_absent hpod c hc)
  · exact applied_header hhdr.plain hhdr.aligned hexec (gives_deleteAct_none hhdr hdir c)

/-! ### FINIT and FPACK at their home (R252, R254) -/

section
variable {s : State} {f : FReq}

theorem exec_finitAtHome_applied (h : Awake s) (hturn : Turn s f) {cap maxc pool fmt op : Nat} {zp : Bool}
    (hop : f.op = .init cap maxc pool fmt op zp) (t : State) (hact : (initAct f.hdr cap maxc pool fmt op zp).exec s = .ok ((), t)) :
    exec (.finitAtHome f.id) s = .next (applied s t f) := by
  rw [exec_finitAtHome, execFinitAtHome, event_of_awake h, fibEvent_of_turn hturn (by rw [hop]; rfl)]
  unfold fibApply
  rw [if_neg (by simp [hturn.here]), hop]
  exact congrArg _ (simpleAt_of_ok hact)
theorem exec_fpackAtHome_applied (h : Awake s) (hturn : Turn s f) (hop : f.op = .pack) (t : State)
    (hact : (packAct (fibHome s f.hdr) f.hdr f.va).exec s = .ok ((), t)) : exec (.fpackAtHome f.id) s = .next (applied s t f) := by
  rw [exec_fpackAtHome, execFpackAtHome, event_of_awake h, fibEvent_of_turn hturn (by rw [hop]; rfl)]
  unfold fibApply
  rw [if_neg (by simp [hturn.here]), hop]
  exact congrArg _ (simpleAt_of_ok hact)

theorem reads_allPods_flat (h : FibHome) {x : FHdr} (hlv : x.lv = false) : Reads s (allPods h x) (x.dir.map (·.2), []) := by
  unfold allPods
  rw [if_pos (by simp [hlv])]
  exact reads_pure _

/-- Entries that fit into one pod are one piece. -/
theorem podChunks_one {α : Type} {xs : List α} {n k : Nat} (hne : xs ≠ []) (hfits : xs.length ≤ k) : podChunks (n + 2) k xs = [xs] := by
  have hrest : podChunks (n + 1) k ([] : List α) = [] := rfl
  rw [podChunks, if_neg (by simpa only [List.isEmpty_iff] using hne), List.take_of_length_le hfits, List.drop_eq_nil_of_le hfits, hrest]

/-- A fibre without pods packed: only VER advances. -/
theorem gives_packAct_none (hhdr : HdrAt s f.hdr) (hdir : (hdrOf s f.hdr).dir = []) (hlv : (hdrOf s f.hdr).lv = false) :
    Gives s (packAct (fibHome s f.hdr) f.hdr f.va) () (HdrWritten s f.hdr { hdrOf s f.hdr with npod := 0, ver := bump (hdrOf s f.hdr).ver 1 }) := by
  have hgood : hdrBad (hdrOf s f.hdr) = false := hhdr.good
  have hpods := reads_allPods_flat (s := s) (fibHome s f.hdr) hlv
  rw [hdir] at hpods
  have hsame : ({ hdrOf s f.hdr with npod := 0, ver := bump (hdrOf s f.hdr).ver 1 } : FHdr) =
      { hdrOf s f.hdr with npod := 0, ver := bump (hdrOf s f.hdr).ver 1, lv := false, dir := [] } := by
    generalize hdrOf s f.hdr = x at *
    simp [← hdir, ← hlv]
  unfold packAct
  refine (reads_readHdr hhdr).bind ?_
  simp only [hgood, Bool.false_eq_true, if_false]
  refine hpods.bind ?_
  rw [hsame]
  exact gives_writeHdr hhdr.still _

/-- FPACK of a fibre in one pod ends its chain there. -/
theorem gives_packAct_one {i a : Nat} (hpod : OnePod s f true i a) (hents : (podAt s (hdrOf s f.hdr).fmt a).ents ≠ []) :
    Gives s (packAct (fibHome s f.hdr) f.hdr f.va) () (FibreWritten s a (decide ((hdrOf s f.hdr).fmt = 11))
      { podAt s (hdrOf s f.hdr).fmt a with next := noneIdx } f.hdr { hdrOf s f.hdr with npod := 1, ver := bump (hdrOf s f.hdr).ver 1 }) := by
  have hgood : hdrBad (hdrOf s f.hdr) = false := hpod.header.good
  have hpods : Reads s (allPods (fibHome s f.hdr) (hdrOf s f.hdr)) ([i], []) := by
    have := reads_allPods_flat (s := s) (fibHome s f.hdr) hpod.flat
    rwa [hpod.dir] at this
  have hmap : Reads s ([i].mapM (readPod (fibHome s f.hdr) (hdrOf s f.hdr).pool (decide ((hdrOf s f.hdr).fmt = 11)) true))
      [podAt s (hdrOf s f.hdr).fmt a] := by
    simp only [List.mapM_cons, List.mapM_nil, pure_bind]
    exact (reads_onePod hpod).bind (reads_pure _)
  have hkept : [i].zip (podChunks 200 (podCap (hdrOf s f.hdr).fmt) ([podAt s (hdrOf s f.hdr).fmt a].flatMap (·.ents))) =
      [(i, (podAt s (hdrOf s f.hdr).fmt a).ents)] := by
    rw [List.flatMap_singleton, podChunks_one hents (podOk_podAt _ _ _).fits]
    rfl
  have hsame : ({ hdrOf s f.hdr with npod := 1, ver := bump (hdrOf s f.hdr).ver 1 } : FHdr) =
      { hdrOf s f.hdr with npod := 1, ver := bump (hdrOf s f.hdr).ver 1, lv := false, dir := [(0, i)] } := by
    have hdir := hpod.dir
    have hlv := hpod.flat
    generalize hdrOf s f.hdr = x at *
    simp [← hdir, ← hlv]
  unfold packAct
  refine (reads_readHdr hpod.header).bind ?_
  simp only [hgood, Bool.false_eq_true, if_false]
  refine hpods.bind (hmap.bind ?_)
  dsimp only
  rw [hkept, hsame, writeChain, writeChain]
  have hdir : packedDir [(i, (podAt s (hdrOf s f.hdr).fmt a).ents)] = [(0, i)] := rfl
  have hnone : ∀ g : Nat → FM PUnit, ([] : List Nat).forM g = pure ⟨⟩ := fun _ => rfl
  simp only [hdir, hnone, pure_bind, List.length_singleton, List.drop_one, List.tail_cons, Nat.one_le_ofNat, if_true]
  have hchain := (gives_onlyPod hpod { podAt s (hdrOf s f.hdr).fmt a with next := noneIdx }).then_pure (x := ())
  have hact := hchain.then_writeHdr (pa := f.hdr)
    (fun _ => { hdrOf s f.hdr with npod := 1, ver := bump (hdrOf s f.hdr).ver 1, lv := false, dir := [(0, i)] }) hpod.still
  exact hact

end

theorem podOk_next {fmt : Nat} {p : Pod} (h : PodOk fmt p) (n : Nat) : PodOk fmt { p with next := n } := ⟨h.fits, h.coord⟩

theorem headersAtHome : HeadersAtHome := by
  intro s f h hturn
  refine ⟨fun cap maxc pool fmt op zp hop hplain haligned hstill => ?_, fun hop => ?_⟩
  · exact applied_header hplain haligned (exec_finitAtHome_applied h hturn hop) (gives_writeHdr hstill _)
  · have hexec := exec_fpackAtHome_applied h hturn hop
    refine ⟨hexec, fun i a hpod hents => ?_, fun hhdr hdir hlv => ?_⟩
    · have hok := podOk_next (podOk_podAt s (hdrOf s f.hdr).fmt a) noneIdx
      obtain ⟨t, ht, hgone, hhdr, hpodAt⟩ := applied_fibre hpod hexec hok (gives_packAct_one hpod hents)
      have hend : noneIdx % 2 ^ 32 = noneIdx := by decide
      exact ⟨t, ht, hgone, hhdr, hpodAt.trans (by rw [held_ents, hend])⟩
    · exact applied_header hhdr.plain hhdr.aligned hexec (gives_packAct_none hhdr hdir hlv)

/-! ### Probes at their home (R251, R253, R257) -/

section
variable {α β : Type} {s : State}

theorem reads_mapM {act : α → FM β} {g : α → β} (h : ∀ x, Reads s (act x) (g x)) (l : List α) : Reads s (l.mapM act) (l.map g) := by
  induction l with
  | nil => exact reads_pure _
  | cons x l ih =>
    rw [List.mapM_cons]
    exact (h x).bind (ih.bind (reads_pure _))

end

section
variable {s : State} {f : FReq}

theorem reads_lookup_none (h : FibHome) {x : FHdr} (hdir : x.dir = []) (c : Nat) : Reads s (lookup h x c) none := by
  unfold lookup
  exact (reads_locate_none h false c hdir).bind (reads_pure _)
theorem reads_lookup_one {i a : Nat} (hpod : OnePod s f false i a) (c : Nat) :
    Reads s (lookup (fibHome s f.hdr) (hdrOf s f.hdr) c) (((podAt s (hdrOf s f.hdr).fmt a).ents.find? (fun e => e.1 == c)).map (·.2)) := by
  unfold lookup
  exact (reads_locate_one _ _ _ hpod.flat hpod.dir).bind ((reads_onePod hpod).bind (reads_pure _))

/-- The result of an operation that reads a fibre, on its way. -/
def probeAnswer (f : FReq) (unit : Nat) (d : VReg) (dest : Dest) : Req :=
  { id := f.id, agent := f.agent, slot := f.slot, fir := f.fir, launch := f.launch, kind := .ready, todo := [], data := d, dest := dest
    path := [headerSeg f], unit := unit, again := some f }

theorem fibDone_probe (hprobe : isProbe f = true) (u : State) (d : VReg) {dest : Dest} (hsome : dest ≠ .none) :
    fibDone u f d dest = { dropF u f.id with reqs := u.reqs ++ [probeAnswer f (fibreUnit (dropF u f.id) (headerSeg f)) d dest] } := by
  unfold fibDone
  simp only [hprobe, Bool.true_or, if_true]
  cases dest with
  | none => exact absurd rfl hsome
  | _ => rfl

theorem fibApply_read (hhere : f.dev = 0) (hread : isRead' f.op = true) : fibApply s f = probeAt s f := by
  unfold fibApply
  rw [if_neg (by simp [hhere])]
  generalize f.op = o at hread
  cases o <;> simp [isRead'] at hread ⊢

/-- An operation that reads a fibre, at its home: it has gone, with its result on the way. -/
theorem exec_probeAtHome_delivers (h : Awake s) (hturn : Turn s f) (hread : isRead' f.op = true) {d : VReg} {m : W64}
    (hact : Reads s (probeAct (fibHome s f.hdr) f.hdr f.va f.op) (d, m)) {dest : Dest}
    (hdest : (match f.dest with | .probe v p _ => .probe v p m | d => d) = dest) (hsome : dest ≠ .none) :
    ∃ t r, exec (.probeAtHome f.id) s = .next t ∧ findF t f.id = none ∧ t.reqs = s.reqs ++ [r] ∧ r.kind = .ready ∧ r.agent = f.agent ∧
      r.dest = dest ∧ r.data = d ∧ t.mem = s.mem := by
  obtain ⟨u, hu, hquiet⟩ := Gives.exec hact
  have hdone := fibDone_probe (f := f) hread u d hsome
  have happly : fibApply s f = fibDone u f d dest := by
    rw [fibApply_read hturn.here hread, probeAt, hu]
    exact congrArg (fibDone u f d) hdest
  obtain ⟨x, hx⟩ := addTraffic_eq (fibDone u f d dest) f.launch [{ pa := 0, len := 32 * (served (fibDone u f d dest) - served s), off := 0 }]
  refine ⟨counted s (fibDone u f d dest) f, probeAnswer f (fibreUnit (dropF u f.id) (headerSeg f)) d dest, ?_, ?_, ?_, rfl, rfl, rfl, rfl, ?_⟩
  · rw [exec_probeAtHome, execProbeAtHome, event_of_awake h, fibEvent_of_turn hturn hread, happly]
  · rw [findF_counted]
    exact findF_fibDone _ _ _ _
  · rw [counted, hx, hdone, ← hquiet.reqs]
  · rw [counted, addTraffic_mem, hdone]
    exact hquiet.mem

end

/-! #### Lanes of a result -/

theorem nbits_ofNat {w lo len : Nat} (x : Nat) (h : lo + len ≤ w) : nbits (BitVec.ofNat w x).toNat lo len = nbits x lo len :=
  nbits_congr (by rw [BitVec.toNat_ofNat, Nat.mod_mod]) h
theorem lane_ofLanes {xs : List W32} (hlen : xs.length ≤ 64) {k : Nat} (hk : k < xs.length) : lane (ofLanes xs) k = xs[k] := by
  have hfield : nbits ((ofLanes xs).toNat) (32 * k) 32 = nbits (packNat 32 (xs.map BitVec.toNat)) (32 * k) 32 := nbits_ofNat _ (by omega)
  have hword := nbits_packNat 32 (xs.map BitVec.toNat) (i := k) (by simpa using hk)
  rw [lane, elem, ← nbits, hfield, hword, List.getElem_map, Nat.mod_eq_of_lt xs[k].isLt, BitVec.ofNat_toNat, BitVec.setWidth_eq]
theorem getLsbD_packNat {bs : List Bool} (hlen : bs.length ≤ 64) {k : Nat} (hk : k < bs.length) :
    (BitVec.ofNat 64 (packNat 1 (bs.map bit))).getLsbD k = bs[k] := by
  have hword := nbits_packNat 1 (bs.map bit) (i := k) (by simpa using hk)
  rw [nbits_eq, List.getElem_map, Nat.one_mul] at hword
  rw [BitVec.getLsbD_ofNat, Nat.testBit_eq_decide_div_mod_eq]
  cases hb : bs[k] with
  | false =>
    rw [hb] at hword
    simpa [bit, hk.trans_le hlen] using hword
  | true =>
    rw [hb] at hword
    simpa [bit, hk.trans_le hlen] using hword
theorem packNat_replicate_zero (w n : Nat) : packNat w (List.replicate n 0) = 0 := by
  induction n with
  | zero => rfl
  | succ n ih => rw [List.replicate_succ, packNat, ih, Nat.zero_mod, Nat.mul_zero]

/-- Lanes that all hold nothing. -/
theorem ofLanes_replicate_zero (n : Nat) : ofLanes (List.replicate n 0) = 0 := by
  rw [ofLanes, List.map_replicate]
  exact congrArg (BitVec.ofNat 2048) (packNat_replicate_zero 32 n)
theorem probeLane_some (fmt v : Nat) :
    probeLane fmt (some v) =
      if fmt = 11 then BitVec.ofInt 32 (max (-(2 ^ 31)) (min (2 ^ 31 - 1) (BitVec.ofNat 64 v).toInt)) else BitVec.ofNat 32 v := by
  have hsigned : toSigned 64 v = (BitVec.ofNat 64 v).toInt := by
    rw [BitVec.toInt_eq_toNat_cond, BitVec.toNat_ofNat, toSigned]
    split <;> split <;> omega
  rw [probeLane, clampInt_eq_clamp _ (by decide), hsigned, clamp]
  rfl

/-! #### Probes of a fibre -/

section
variable {s : State} {f : FReq}

theorem reads_probeAct_len (hhdr : HdrAt s f.hdr) :
    Reads s (probeAct (fibHome s f.hdr) f.hdr f.va .len)
      (BitVec.ofNat 2048 ((hdrOf s f.hdr).len + bit (hdrOf s f.hdr).ovf * 2 ^ 32), 0) := by
  have hgood : hdrBad (hdrOf s f.hdr) = false := hhdr.good
  unfold probeAct
  refine (reads_readHdr hhdr).bind ?_
  simp only [hgood, Bool.false_eq_true, if_false]
  exact reads_pure _

theorem reads_probeAct_probe (hhdr : HdrAt s f.hdr) {c : Nat} {r : Option Nat} (hr : Reads s (lookup (fibHome s f.hdr) (hdrOf s f.hdr) c) r) :
    Reads s (probeAct (fibHome s f.hdr) f.hdr f.va (.probe c)) (BitVec.ofNat 2048 (probeWord (hdrOf s f.hdr).fmt r), 0) := by
  have hgood : hdrBad (hdrOf s f.hdr) = false := hhdr.good
  unfold probeAct
  refine (reads_readHdr hhdr).bind ?_
  simp only [hgood, Bool.false_eq_true, if_false]
  exact hr.bind (reads_pure _)

theorem reads_probeAct_probev (hhdr : HdrAt s f.hdr) {cs : VReg} {m : W64} {r : Nat → Option Nat}
    (hr : ∀ k, Reads s (lookup (fibHome s f.hdr) (hdrOf s f.hdr) (lane cs k).toNat) (r k)) :
    Reads s (probeAct (fibHome s f.hdr) f.hdr f.va (.probev cs m))
      (ofLanes (((upFrom 0 64).map (fun k => if active m k then r k else none)).map (probeLane (hdrOf s f.hdr).fmt)),
        BitVec.ofNat 64 (packNat 1 (((upFrom 0 64).map (fun k => if active m k then r k else none)).map (fun r => bit r.isSome)))) := by
  have hgood : hdrBad (hdrOf s f.hdr) = false := hhdr.good
  unfold probeAct
  refine (reads_readHdr hhdr).bind ?_
  simp only [hgood, Bool.false_eq_true, if_false]
  refine (reads_mapM (g := fun k => if active m k then r k else none) (fun k => ?_) _).bind (reads_pure _)
  cases active m k with
  | true => exact hr k
  | false => exact reads_pure none

end

/-- The result of a vector probe, lane by lane. -/
theorem probev_lanes (fmt : Nat) (r : Nat → Option Nat) {k : Nat} (hk : k < 64) :
    lane (ofLanes (((upFrom 0 64).map r).map (probeLane fmt))) k = probeLane fmt (r k) ∧
      (BitVec.ofNat 64 (packNat 1 (((upFrom 0 64).map r).map (fun x => bit x.isSome)))).getLsbD k = (r k).isSome := by
  have hget : ∀ {β : Type} (g : Option Nat → β) (h : k < (((upFrom 0 64).map r).map g).length), (((upFrom 0 64).map r).map g)[k] = g (r k) := by
    intro β g h
    rw [List.getElem_map, List.getElem_map, upFrom_getElem]
  have hlen : ∀ {β : Type} (g : Option Nat → β), (((upFrom 0 64).map r).map g).length = 64 := by
    intro β g
    rw [List.length_map, List.length_map, upFrom_length]
  constructor
  · rw [lane_ofLanes (hlen _).le (by rw [hlen]; exact hk), hget]
  · have hbits : ((upFrom 0 64).map r).map (fun x => bit x.isSome) = (((upFrom 0 64).map r).map Option.isSome).map bit := by rw [List.map_map]; rfl
    rw [hbits, getLsbD_packNat (hlen _).le (by rw [hlen]; exact hk), hget]

section
variable {s : State} {f : FReq} (h : Awake s) (hturn : Turn s f) (hread : isRead' f.op = true) {d : VReg} {m : W64}
  (hact : Reads s (probeAct (fibHome s f.hdr) f.hdr f.va f.op) (d, m))
include h hturn hread hact

theorem exec_probeAtHome_scalar {p : Nat} (hdest : f.dest = .scalar p) :
    ∃ t r, exec (.probeAtHome f.id) s = .next t ∧ findF t f.id = none ∧ t.reqs = s.reqs ++ [r] ∧ r.kind = .ready ∧ r.agent = f.agent ∧
      r.dest = .scalar p ∧ r.data = d ∧ t.mem = s.mem := exec_probeAtHome_delivers h hturn hread hact (by rw [hdest]) Dest.noConfusion
theorem exec_probeAtHome_probe {v p : Nat} {b : W64} (hdest : f.dest = .probe v p b) :
    ∃ t r, exec (.probeAtHome f.id) s = .next t ∧ findF t f.id = none ∧ t.reqs = s.reqs ++ [r] ∧ r.kind = .ready ∧ r.agent = f.agent ∧
      r.dest = .probe v p m ∧ r.data = d ∧ t.mem = s.mem := exec_probeAtHome_delivers h hturn hread hact (by rw [hdest]) Dest.noConfusion

end

theorem probeWord_some (fmt v : Nat) : probeWord fmt (some v) = if fmt = 11 then v else v % 2 ^ 32 + 2 ^ 32 := rfl
theorem lenWord_eq (n : Nat) (b : Bool) : n + bit b * 2 ^ 32 = n + (if b then 2 ^ 32 else 0) := by cases b <;> rfl

theorem probesAtHome : ProbesAtHome := by
  intro s f p h hturn
  refine ⟨fun hop hdest hhdr => ?_, fun c hop hdest => ⟨fun hhdr hdir => ?_, fun i a hpod => ?_⟩,
    fun cs m v b hop hdest => ⟨fun hhdr hdir => ?_, fun i a hpod => ?_⟩⟩
  · have hact := reads_probeAct_len hhdr
    rw [← hop, lenWord_eq] at hact
    exact exec_probeAtHome_scalar h hturn (by rw [hop]; rfl) hact hdest
  · have hact := reads_probeAct_probe hhdr (reads_lookup_none (fibHome s f.hdr) hdir c)
    rw [← hop] at hact
    exact exec_probeAtHome_scalar h hturn (by rw [hop]; rfl) hact hdest
  · have hact := reads_probeAct_probe hpod.header (reads_lookup_one hpod c)
    rw [← hop] at hact
    have hdelivers := exec_probeAtHome_scalar h hturn (by rw [hop]; rfl) hact hdest
    cases hfind : (podAt s (hdrOf s f.hdr).fmt a).ents.find? (fun e => e.1 == c) with
    | none =>
      rw [hfind] at hdelivers
      exact hdelivers
    | some e =>
      rw [hfind, Option.map_some, probeWord_some] at hdelivers
      exact hdelivers
  · have hact := reads_probeAct_probev (m := m) hhdr (fun k => reads_lookup_none (fibHome s f.hdr) hdir (lane cs k).toNat)
    rw [← hop] at hact
    have hnone : (upFrom 0 64).map (fun k => if active m k then (none : Option Nat) else none) = List.replicate 64 none := by
      simp [upFrom_length]
    have hbits : packNat 1 (List.replicate 64 (bit (none : Option Nat).isSome)) = 0 := packNat_replicate_zero 1 64
    have hlanes : ofLanes (List.replicate 64 (probeLane (hdrOf s f.hdr).fmt none)) = 0 := ofLanes_replicate_zero 64
    rw [hnone, List.map_replicate, List.map_replicate, hlanes, hbits] at hact
    exact exec_probeAtHome_probe h hturn (by rw [hop]; rfl) hact hdest
  · have hact := reads_probeAct_probev (m := m) hpod.header (fun k => reads_lookup_one hpod (lane cs k).toNat)
    rw [← hop] at hact
    refine ⟨_, _, exec_probeAtHome_probe h hturn (by rw [hop]; rfl) hact hdest, fun k hk => ?_⟩
    obtain ⟨hlane, hfound⟩ := probev_lanes (hdrOf s f.hdr).fmt _ hk
    rw [hlane, hfound]
    dsimp only
    rw [active]
    cases m.getLsbD k with
    | false => exact ⟨rfl, rfl⟩
    | true =>
      rw [if_pos rfl, if_pos rfl]
      cases (podAt s (hdrOf s f.hdr).fmt a).ents.find? (fun e => e.1 == (lane cs k).toNat) with
      | none => exact ⟨rfl, rfl⟩
      | some e => exact ⟨rfl, probeLane_some _ _⟩

/-! ### Scans at their home (R258) -/

section
variable {s : State} {f : FReq} {next left : Nat}

theorem reads_nextEntries_none (h : FibHome) {x : FHdr} (hdir : x.dir = []) (c : Nat) : Reads s (nextEntries h x c) [] := by
  unfold nextEntries
  exact (reads_locate_none h false c hdir).bind (reads_pure _)
theorem reads_nextEntries_one {i a : Nat} (hpod : OnePod s f false i a) (c : Nat)
    (hsome : (podAt s (hdrOf s f.hdr).fmt a).ents.filter (fun e => decide (c ≤ e.1)) ≠ []) :
    Reads s (nextEntries (fibHome s f.hdr) (hdrOf s f.hdr) c) ((podAt s (hdrOf s f.hdr).fmt a).ents.filter (fun e => decide (c ≤ e.1))) := by
  unfold nextEntries
  refine (reads_locate_one _ _ _ hpod.flat hpod.dir).bind ((reads_onePod hpod).bind ?_)
  rw [if_pos (by simp only [Bool.or_eq_true, Bool.not_eq_true', List.isEmpty_eq_false_iff]; exact .inl hsome)]
  exact reads_pure _

/-- A scan that reads entries, or comes to the end of its fibre. -/
theorem reads_scanAct_entries (hhdr : HdrAt s f.hdr) {es : List (Nat × Nat)} (hes : Reads s (nextEntries (fibHome s f.hdr) (hdrOf s f.hdr) next) es)
    (hsome : es.take left ≠ []) :
    Reads s (scanAct (fibHome s f.hdr) f.hdr f.va next left)
      ((es.take left).flatMap (scanWords (hdrOf s f.hdr).fmt), ((es.take left).getLastD (0, 0)).1 + 1, left - (es.take left).length) := by
  have hgood : hdrBad (hdrOf s f.hdr) = false := hhdr.good
  unfold scanAct
  refine (reads_readHdr hhdr).bind ?_
  simp only [hgood, Bool.false_eq_true, if_false]
  refine hes.bind ?_
  cases htake : es.take left with
  | nil => exact absurd htake hsome
  | cons e r => exact reads_pure _
theorem reads_scanAct_end (hhdr : HdrAt s f.hdr) (hes : Reads s (nextEntries (fibHome s f.hdr) (hdrOf s f.hdr) next) []) :
    Reads s (scanAct (fibHome s f.hdr) f.hdr f.va next left) (scanWords (hdrOf s f.hdr).fmt (noneIdx, 0), next, 0) := by
  have hgood : hdrBad (hdrOf s f.hdr) = false := hhdr.good
  unfold scanAct
  refine (reads_readHdr hhdr).bind ?_
  simp only [hgood, Bool.false_eq_true, if_false]
  refine hes.bind ?_
  rw [List.take_nil]
  exact reads_pure _

end

section
variable {s : State} {f : FReq} (h : Awake s) (hturn : Turn s f) {next left q dst pv : Nat} {pg : Seg}
include h hturn

theorem exec_scanAtHome_of_turn {buf : List W64} (hop : f.op = .scan next left q dst pv pg buf) :
    exec (.scanAtHome f.id) s = .next (counted s (scanAt s f) f) := by
  rw [exec_scanAtHome, execScanAtHome, event_of_awake h, fibEvent_of_turn hturn (by rw [hop]; rfl)]
  unfold fibApply
  rw [if_neg (by simp [hturn.here]), hop]

/-- A scan that has read a pod keeps what it read. -/
theorem exec_scanAtHome_read (hop : f.op = .scan next left q dst pv pg []) (hleft : 0 < left) {ws : List W64} {c n : Nat}
    (hact : Reads s (scanAct (fibHome s f.hdr) f.hdr f.va next left) (ws, c, n)) :
    ∃ t, exec (.scanAtHome f.id) s = .next t ∧ t.mem = s.mem ∧ findF t f.id = some { f with op := .scan c n q dst pv pg ws, begun := false } := by
  obtain ⟨t, ht, hquiet⟩ := Gives.exec hact
  have hfree := hturn.free
  have hscan : scanAt s f = putF t { f with op := .scan c n q dst pv pg ws, begun := false } := by
    unfold scanAt
    rw [hop]
    dsimp only
    rw [if_neg (by simp; omega), ht]
    dsimp only
    rw [← hfree]
  have hfound : findF t f.id = some f := by
    rw [findF, hquiet.freqs]
    exact hturn.found
  refine ⟨_, by rw [exec_scanAtHome_of_turn h hturn hop, hscan], ?_, ?_⟩
  · rw [counted, addTraffic_mem]
    exact hquiet.mem
  · rw [findF_counted]
    exact findF_putF hfound _ rfl

end

/-! #### What a scan has read delivered -/

theorem queue_producePush (s : State) (w : StreamId) (q : Nat) (v : VReg) :
    tget [] (getCtx (producePush s w q v) w.core w.ctx).queues q = tget [] (getCtx s w.core w.ctx).queues q ++ [v] := by
  rw [producePush, noteProducer, getCtx_modCtx, pushQueue, getCtx_modCtx]
  exact tget_tset_same _ _ _ _

section
variable {s : State} {f : FReq} {next q dst pv : Nat} {pg : Seg} {v : W64}

/-- A scan whose one word is left goes with it into its queue. -/
theorem scanAt_push (hop : f.op = .scan next 0 q dst pv pg [v]) (hq : q < 4) {w : StreamId} (hagent : f.agent = .stream w)
    (hruns : streamStopped s w = false) (hsame : sameFiring s w f.slot f.fir = true) (hroom : pushTurn s w f.id q = true) :
    scanAt s f = fibDone (producePush s w q (v.setWidth 2048)) f 0 .none := by
  have hpush : scanPush s f w next 0 q pg [v] = fibDone (producePush s w q (v.setWidth 2048)) f 0 .none := by
    rw [scanPush, if_pos hroom, scanPush, if_pos rfl]
  unfold scanAt
  rw [hop]
  dsimp only
  rw [if_pos (by simp)]
  unfold scanDeliver
  rw [hop]
  dsimp only
  rw [if_neg (by omega), hagent]
  dsimp only
  rw [if_neg (by simp [hruns]), if_pos hsame, hpush]

theorem scanAt_write {buf : List W64} (hop : f.op = .scan next 0 8 dst pv pg buf) : scanAt s f = scanWrite s f next 0 8 pv pg dst buf := by
  unfold scanAt
  rw [hop]
  dsimp only
  rw [if_pos (by simp)]
  unfold scanDeliver
  rw [hop]
  dsimp only
  rw [if_pos rfl]
theorem scanWrite_nil (hparts : partsLeft s f = false) : scanWrite s f next 0 8 pv pg dst [] = fibDone s f 0 .none := by
  rw [scanWrite, if_neg (by simp), if_neg (by simp [hparts])]

/-- Where a scan's word goes on the page that it translated last. -/
def scanSeg (dst : Nat) (pg : Seg) : Seg := { pa := pg.pa + dst % 65536, len := 8, off := 0 }

theorem scanPa_page (hpage : dst / 65536 = pv) (hdev : pg.dev = 0) (hserved : stackOut s (pg.pa + dst % 65536) = false) :
    scanPa s f dst pv pg = .ok (scanSeg dst pg, s) := by
  unfold scanPa
  dsimp only
  rw [if_pos hpage, if_neg (by simp [hserved]), hdev]
  rfl

theorem writeWord_plain {g : Seg} (hdev : g.dev = 0) (hplain : PlainMemory g.pa) (n : Nat) : writeWord s f g n = fibPut s g.pa g.len n := by
  rw [writeWord, if_neg (by simp [hdev]), if_pos (isMemory_of_plain hplain), fibPut]

/-- A scan's last word written. -/
theorem scanWrite_last (hpage : dst / 65536 = pv) (hdev : pg.dev = 0) (hserved : stackOut s (pg.pa + dst % 65536) = false)
    (hplain : PlainMemory (scanSeg dst pg).pa) (hready : wordReady s f (scanSeg dst pg) = true) (hparts : partsLeft s f = false) :
    memByte (scanWrite s f next 0 8 pv pg dst [v]) = memByte (fibPut s (scanSeg dst pg).pa 8 v.toNat) ∧
      ((dst + 8) % 64 ≠ 0 → findF (scanWrite s f next 0 8 pv pg dst [v]) f.id = none) := by
  have hput := besides_fibPut hplain s 8 v.toNat
  rw [scanWrite, scanPa_page hpage hdev hserved]
  dsimp only
  rw [if_neg (by simp [hready]), writeWord_plain rfl hplain]
  have hparts' : partsLeft (putF (fibPut s (scanSeg dst pg).pa (scanSeg dst pg).len v.toNat) { f with op := .scan next 0 8 (dst + 8) pv pg [] })
      { f with op := .scan next 0 8 (dst + 8) pv pg [] } = false := by
    have hreqs : (fibPut s (scanSeg dst pg).pa 8 v.toNat).reqs = s.reqs := congrArg (·.2.2.2) hput
    unfold partsLeft at hparts ⊢
    exact (congrArg (·.any (fun r => r.part == some f.id)) hreqs).trans hparts
  split
  · next hline => exact ⟨rfl, fun h => absurd hline h⟩
  · rw [scanWrite_nil hparts']
    exact ⟨memByte_fibDone _ _ _ _, fun _ => findF_fibDone _ { f with op := .scan next 0 8 (dst + 8) pv pg [] } _ _⟩

end

/-- A word written and read back. -/
theorem memRead_word {s u : State} {g : Seg} (hplain : PlainMemory g.pa) (haligned : g.pa % 8 = 0) (hlen : g.len = 8) {n : Nat}
    (hu : memByte u = memByte (fibPut s g.pa 8 n)) : memRead u g.pa 8 = n % 2 ^ 64 := by
  have hstore := memByte_storeMem_piece (s := s) (g := g) hplain (by rw [hlen]; omega) n
  rw [hlen] at hstore
  rw [memRead_congr hu, memRead_of_memByte _ g.pa 8 n fun i hi => by rw [memByte_fibPut]; exact hstore.1 i hi,
    show (256 : Nat) = 2 ^ 8 by norm_num, ← pow_mul]

theorem scansAtHome : ScansAtHome := by
  intro s f next left q dst pv pg h hturn
  refine ⟨fun hop hleft => ⟨fun hhdr hdir => ?_, fun i a hpod => ?_⟩, fun w v hop hq hagent hruns hsame hroom => ?_,
    fun v hop hpage hdev => ?_, fun hop hparts => ?_⟩
  · exact exec_scanAtHome_read h hturn hop hleft (reads_scanAct_end hhdr (reads_nextEntries_none _ hdir next))
  · intro es hes
    have hsome : (podAt s (hdrOf s f.hdr).fmt a).ents.filter (fun e => decide (next ≤ e.1)) ≠ [] := fun hnil => hes (by simp [es, hnil])
    exact exec_scanAtHome_read h hturn hop hleft (reads_scanAct_entries hpod.header (reads_nextEntries_one hpod next hsome) hes)
  · have hexec : exec (.scanAtHome f.id) s = .next (applied s (producePush s w q (v.setWidth 2048)) f) := by
      rw [exec_scanAtHome_of_turn h hturn hop, scanAt_push hop hq hagent hruns hsame hroom, applied]
    refine ⟨_, hexec, findF_applied _ _ _, ?_, ?_⟩
    · rw [getCtx_of_cores (applied_cores _ _ _), queue_producePush]
    · rw [applied_mem]
      rfl
  · intro g hplain haligned hserved hready hparts
    obtain ⟨hbytes, hgone⟩ := scanWrite_last (v := v) (next := next) hpage hdev hserved hplain hready hparts
    refine ⟨_, exec_scanAtHome_of_turn h hturn hop, ?_, fun hline => ?_⟩
    · exact (memRead_word (s := s) hplain haligned rfl (by rw [memByte_counted, scanAt_write hop]; exact hbytes)).trans (Nat.mod_eq_of_lt v.isLt)
    · rw [findF_counted, scanAt_write hop]
      exact hgone hline
  · have hexec : exec (.scanAtHome f.id) s = .next (applied s s f) := by
      rw [exec_scanAtHome_of_turn h hturn hop, scanAt_write hop, scanWrite_nil hparts, applied]
    exact ⟨_, hexec, findF_applied _ _ _, applied_mem _ _ _⟩

/-! ### Unions at their home (R65, R134, R259) -/

/-! #### What a union's acts read -/

section
variable {s : State} {f : FReq} {a b : Seg} {va vb op : Nat}

/-- R259: the conditions of a union. -/
def unionFits (s : State) (f : FReq) (a b : Seg) (op : Nat) : Prop :=
  (hdrOf s a.pa).fmt = (hdrOf s f.hdr).fmt ∧ (hdrOf s b.pa).fmt = (hdrOf s f.hdr).fmt ∧ (hdrOf s f.hdr).len = 0 ∧ a.pa ≠ f.hdr ∧ b.pa ≠ f.hdr ∧
    (if op = 8 then (hdrOf s f.hdr).op else op) ≠ 7

theorem reads_sourceHdr (ha : a.dev = 0) (hhdr : HdrAt s a.pa) : Reads s (sourceHdr a) (hdrOf s a.pa) := by
  unfold sourceHdr
  rw [if_pos ha]
  exact reads_readHdr hhdr

theorem reads_unionCheck (ha : a.dev = 0) (hb : b.dev = 0) (hhdr : HdrAt s f.hdr) (hhdrA : HdrAt s a.pa) (hhdrB : HdrAt s b.pa) {ok : Bool}
    (hok : ok = true ↔ unionFits s f a b op) : Reads s (unionCheck f.hdr f.va a b va vb op) ok := by
  have hgood : hdrBad (hdrOf s f.hdr) = false := hhdr.good
  have hgoodA : hdrBad (hdrOf s a.pa) = false := hhdrA.good
  have hgoodB : hdrBad (hdrOf s b.pa) = false := hhdrB.good
  unfold unionCheck
  refine (reads_readHdr hhdr).bind ((reads_sourceHdr ha hhdrA).bind ((reads_sourceHdr hb hhdrB).bind ?_))
  simp only [hgood, hgoodA, hgoodB, Bool.false_eq_true, if_false]
  have hsame : ok = !((hdrOf s a.pa).fmt != (hdrOf s f.hdr).fmt || (hdrOf s b.pa).fmt != (hdrOf s f.hdr).fmt || (hdrOf s f.hdr).len != 0 ||
      (a.dev == 0 && f.hdr == a.pa) || (b.dev == 0 && f.hdr == b.pa) || (if op = 8 then (hdrOf s f.hdr).op else op) == 7) := by
    rw [Bool.eq_iff_iff, hok, unionFits]
    simp [ha, hb, and_assoc, eq_comm (a := f.hdr)]
  rw [hsame]
  exact reads_pure _

theorem reads_unionRead_end (h : FibHome) (ha : a.dev = 0) (hhdr : HdrAt s f.hdr) (hhdrA : HdrAt s a.pa)
    (hfmt : (hdrOf s a.pa).fmt = (hdrOf s f.hdr).fmt) (hdir : (hdrOf s a.pa).dir = []) (next : Nat) :
    Reads s (unionRead h f.hdr a va next) (some []) := by
  have hgoodA : hdrBad (hdrOf s a.pa) = false := hhdrA.good
  unfold unionRead
  refine (reads_readHdr hhdr).bind ?_
  rw [if_neg (by simp [ha])]
  refine (reads_readHdr hhdrA).bind ?_
  simp only [hgoodA, Bool.false_eq_true, if_false]
  rw [if_neg (by simp [hfmt])]
  exact (reads_nextEntries_none h hdir next).bind (reads_pure _)
theorem reads_unionRead_format (h : FibHome) (ha : a.dev = 0) (hhdr : HdrAt s f.hdr) (hhdrA : HdrAt s a.pa)
    (hfmt : (hdrOf s a.pa).fmt ≠ (hdrOf s f.hdr).fmt) (next : Nat) : Reads s (unionRead h f.hdr a va next) none := by
  have hgoodA : hdrBad (hdrOf s a.pa) = false := hhdrA.good
  unfold unionRead
  refine (reads_readHdr hhdr).bind ?_
  rw [if_neg (by simp [ha])]
  refine (reads_readHdr hhdrA).bind ?_
  simp only [hgoodA, Bool.false_eq_true, if_false]
  rw [if_pos hfmt]
  exact reads_pure _

end

/-! #### One coordinate taken up -/

section
variable {s : State} {f : FReq} {i pa : Nat} (hpod : OnePod s f true i pa)
include hpod

/-- An entry put behind the others of a fibre in one pod with room. -/
theorem gives_appendAct (hcap : (hdrOf s f.hdr).len ≠ (hdrOf s f.hdr).cap)
    (hroom : (podAt s (hdrOf s f.hdr).fmt pa).ents.length < podCap (hdrOf s f.hdr).fmt) (c n : Nat) :
    Gives s (appendAct (fibHome s f.hdr) f.hdr c n) () (FibreWritten s pa (decide ((hdrOf s f.hdr).fmt = 11))
      { podAt s (hdrOf s f.hdr).fmt pa with ents := (podAt s (hdrOf s f.hdr).fmt pa).ents ++ [(c, n)] }
      f.hdr { hdrOf s f.hdr with len := (hdrOf s f.hdr).len + 1 }) := by
  unfold appendAct
  refine (reads_readHdr hpod.header).bind ?_
  simp only [if_neg hcap]
  refine (reads_locate_one _ _ _ hpod.flat hpod.dir).bind ((reads_onePod hpod).bind ?_)
  rw [if_pos hroom]
  exact (gives_onlyPod hpod _).then_writeHdr (fun _ => { hdrOf s f.hdr with len := (hdrOf s f.hdr).len + 1 }) hpod.still

theorem gives_unionPut {op c : Nat} {zp : Bool} {as bs : List (Nat × Nat)} (hcap : (hdrOf s f.hdr).len ≠ (hdrOf s f.hdr).cap)
    (hroom : (podAt s (hdrOf s f.hdr).fmt pa).ents.length < podCap (hdrOf s f.hdr).fmt)
    (hkeep : ¬ (zp = true ∧ fibZero (hdrOf s f.hdr).fmt (unionValue (hdrOf s f.hdr) op c as bs) = true)) :
    Gives s (unionPut (fibHome s f.hdr) f.hdr op zp c as bs) () (FibreWritten s pa (decide ((hdrOf s f.hdr).fmt = 11))
      { podAt s (hdrOf s f.hdr).fmt pa with
        ents := (podAt s (hdrOf s f.hdr).fmt pa).ents ++ [(c, unionValue (hdrOf s f.hdr) op c as bs)] }
      f.hdr { hdrOf s f.hdr with len := (hdrOf s f.hdr).len + 1 }) := by
  unfold unionPut
  refine (reads_readHdr hpod.header).bind ?_
  dsimp only
  rw [if_neg (by simpa using hkeep)]
  exact gives_appendAct hpod hcap hroom c _

end

theorem podOk_append {s : State} {fmt a c : Nat} (hc : c < 2 ^ 32) (n : Nat) (hroom : (podAt s fmt a).ents.length < podCap fmt) :
    PodOk fmt { podAt s fmt a with ents := (podAt s fmt a).ents ++ [(c, n)] } := by
  refine ⟨by rw [List.length_append]; exact hroom, fun e he => ?_⟩
  rcases List.mem_append.mp he with he | he
  · exact (podOk_podAt s fmt a).coord e he
  · rw [List.mem_singleton.mp he]
    exact hc
theorem held_append (s : State) (fmt a c n : Nat) :
    ((podAt s fmt a).ents ++ [(c, n)]).map (heldEntry fmt) = (podAt s fmt a).ents ++ [(c, n % 2 ^ podWidth fmt)] := by
  rw [List.map_append, held_ents]
  rfl

/-! #### A union that leaves -/

section
variable {s u : State} {f : FReq} {a b st : Seg} {va vb op next seq : Nat} {zp : Bool}

/-- A union whose writes of its destination are over, and which has no stamp, leaves. -/
theorem unionOver_unstamped (hop : f.op = .union a b va vb op zp st next 0 seq) (hparts : partsLeft u f = false) (failed : Bool) :
    findF (unionOver u f failed) f.id = none ∧ memByte (unionOver u f failed) = memByte u := by
  have hover : unionOver u f failed = fibDone (putF u { f with held := .no, begun := true, outcome := some failed })
      { f with held := .no, begun := true, outcome := some failed } 0 .none := by
    have hparts' : partsLeft (putF u { f with held := .no, begun := true, outcome := some failed })
        { f with held := .no, begun := true, outcome := some failed } = false := hparts
    unfold unionOver
    rw [hop]
    dsimp only
    rw [unionStamp, if_neg (by rw [← hop, hparts']; decide), if_pos rfl]
  rw [hover]
  exact ⟨findF_fibDone _ { f with held := .no, begun := true, outcome := some failed } _ _, memByte_fibDone _ _ _ _⟩

theorem partsLeft_of_reqs {s t : State} (h : t.reqs = s.reqs) (f : FReq) : partsLeft t f = partsLeft s f := by unfold partsLeft; rw [h]

/-- A union that fails sets OVF of its destination. -/
theorem unionFail_unstamped {t : State} (ht : Quiet s t) (hhdr : HdrAt s f.hdr) (hop : f.op = .union a b va vb op zp st next 0 seq)
    (hparts : partsLeft s f = false) :
    findF (unionFail t f) f.id = none ∧ memRead (unionFail t f) f.hdr 64 = encodeHdr { hdrOf s f.hdr with ovf := true } % 2 ^ 512 := by
  obtain ⟨u, hu, r, hr, rfl⟩ := gives_rejectAct hhdr t ht
  have hreqs : (hdrPut r f.hdr { hdrOf s f.hdr with ovf := true }).reqs = s.reqs :=
    (congrArg (·.2.2.2) (besides_fibPut hhdr.plain r 64 _)).trans hr.reqs
  obtain ⟨hgone, hbytes⟩ := unionOver_unstamped hop ((partsLeft_of_reqs hreqs f).trans hparts) true
  rw [unionFail, exec_ok_of_run hu]
  dsimp only
  exact ⟨hgone, by rw [memRead_congr hbytes, memRead_hdrPut hhdr.plain hhdr.aligned]⟩

/-- A union at the end of both sources. -/
theorem unionEnd_unstamped (hhdr : HdrAt s f.hdr) (hop : f.op = .union a b va vb op zp st next 0 seq) (hparts : partsLeft s f = false) :
    findF (unionEnd s f) f.id = none ∧
      memRead (unionEnd s f) f.hdr 64 = encodeHdr { hdrOf s f.hdr with ver := bump (hdrOf s f.hdr).ver 1 } % 2 ^ 512 := by
  have hact : Gives s (readHdr f.hdr >>= fun x => writeHdr f.hdr { x with ver := bump x.ver 1 }) ()
      (HdrWritten s f.hdr { hdrOf s f.hdr with ver := bump (hdrOf s f.hdr).ver 1 }) := (reads_readHdr hhdr).bind (gives_writeHdr hhdr.still _)
  obtain ⟨u, hu, r, hr, rfl⟩ := hact.exec
  have hreqs : (hdrPut r f.hdr { hdrOf s f.hdr with ver := bump (hdrOf s f.hdr).ver 1 }).reqs = s.reqs :=
    (congrArg (·.2.2.2) (besides_fibPut hhdr.plain r 64 _)).trans hr.reqs
  obtain ⟨hgone, hbytes⟩ := unionOver_unstamped hop ((partsLeft_of_reqs hreqs f).trans hparts) false
  unfold unionEnd
  dsimp only
  rw [hu]
  exact ⟨hgone, by rw [memRead_congr hbytes, memRead_hdrPut hhdr.plain hhdr.aligned]⟩

end

/-! #### The acts of a union -/

section
variable {s : State} {f : FReq} (h : Awake s) (hturn : Turn s f) {a b st : Seg} {va vb op stva seq next : Nat} {zp : Bool}
  (hop : f.op = .union a b va vb op zp st next stva seq)
include h hturn hop

theorem exec_funionAtHome_of_turn : exec (.funionAtHome f.id) s = .next (counted s (unionAt s f) f) := by
  rw [exec_funionAtHome, execFunionAtHome, event_of_awake h, fibEvent_of_turn hturn (by rw [hop]; rfl)]
  unfold fibApply
  rw [if_neg (by simp [hturn.here]), hop]

/-- A union goes on with what an act of it has read. -/
theorem exec_funionAtHome_goesOn {t : State} {g : FReq} (ht : Quiet s t) (hid : g.id = f.id) (hat : unionAt s f = putF t g) :
    ∃ u, exec (.funionAtHome f.id) s = .next u ∧ findF u f.id = some g ∧ u.mem = s.mem := by
  have hfound : findF t f.id = some f := by
    rw [findF, ht.freqs]
    exact hturn.found
  refine ⟨_, by rw [exec_funionAtHome_of_turn h hturn hop, hat], ?_, ?_⟩
  · rw [findF_counted]
    exact findF_putF hfound g hid
  · rw [counted, addTraffic_mem]
    exact ht.mem

/-- A union that leaves with its destination's header written. -/
theorem exec_funionAtHome_leaves {t : State} {y : FHdr} (hat : unionAt s f = t) (hgone : findF t f.id = none)
    (hhdr : memRead t f.hdr 64 = encodeHdr y % 2 ^ 512) :
    ∃ u, exec (.funionAtHome f.id) s = .next u ∧ findF u f.id = none ∧ memRead u f.hdr 64 = encodeHdr y % 2 ^ 512 := by
  refine ⟨_, by rw [exec_funionAtHome_of_turn h hturn hop, hat], ?_, ?_⟩
  · rw [findF_counted]
    exact hgone
  · rw [memRead_congr (memByte_counted s t f)]
    exact hhdr

end

section
variable {s : State} {f : FReq} {a b st : Seg} {va vb op stva seq next : Nat} {zp : Bool}
  (hop : f.op = .union a b va vb op zp st next stva seq) (hfree : f.held = .no)
include hop

/-- The act of a union, by how far it has come. -/
theorem unionAt_stamp {failed : Bool} (hout : f.outcome = some failed) : unionAt s f = unionStamp s f failed st stva seq := by
  unfold unionAt
  rw [hop]
  dsimp only
  rw [hout]
theorem unionAt_end (hout : f.outcome = none) (hchecked : f.checked = true) (ha : f.bufA = some []) (hb : f.bufB = some []) :
    unionAt s f = unionEnd s f := by
  unfold unionAt
  rw [hop]
  dsimp only
  rw [hout, hchecked, ha, hb]
  rfl

include hfree

theorem unionAt_check (hout : f.outcome = none) (hchecked : f.checked = false) {ok : Bool} {t : State}
    (hact : (unionCheck f.hdr f.va a b va vb op).exec s = .ok (ok, t)) :
    unionAt s f = if ok then putF t { f with begun := true, checked := true } else unionFail t f := by
  cases f
  dsimp only at hop hfree hout hchecked hact
  subst hop hfree hout hchecked
  unfold unionAt unionAct
  dsimp only
  rw [hact]
theorem unionAt_readA (hout : f.outcome = none) (hchecked : f.checked = true) (ha : f.bufA = none) {r : Option (List (Nat × Nat))} {t : State}
    (hact : (unionRead (fibHome s f.hdr) f.hdr a va next).exec s = .ok (r, t)) :
    unionAt s f = r.elim (unionFail t f) (fun es => putF t { f with bufA := some es }) := by
  cases f
  dsimp only at hop hfree hout hchecked ha hact
  subst hop hfree hout hchecked ha
  unfold unionAt unionAct
  dsimp only
  rw [hact]
  cases r <;> rfl
theorem unionAt_readB {as : List (Nat × Nat)} (hout : f.outcome = none) (hchecked : f.checked = true) (ha : f.bufA = some as) (hb : f.bufB = none)
    {r : Option (List (Nat × Nat))} {t : State} (hact : (unionRead (fibHome s f.hdr) f.hdr b vb next).exec s = .ok (r, t)) :
    unionAt s f = r.elim (unionFail t f) (fun es => putF t { f with bufB := some es }) := by
  cases f
  dsimp only at hop hfree hout hchecked ha hb hact
  subst hop hfree hout hchecked ha hb
  unfold unionAt unionAct
  dsimp only
  rw [hact]
  cases r <;> rfl
theorem unionAt_put {as bs : List (Nat × Nat)} {c : Nat} (hout : f.outcome = none) (hchecked : f.checked = true) (ha : f.bufA = some as)
    (hb : f.bufB = some bs) (hc : unionNext as bs = some c) {t : State}
    (hact : (unionPut (fibHome s f.hdr) f.hdr op zp c as bs).exec s = .ok ((), t)) :
    unionAt s f = putF t { f with op := .union a b va vb op zp st (c + 1) stva seq, bufA := restOf c as, bufB := restOf c bs } := by
  cases f
  dsimp only at hop hfree hout hchecked ha hb hact
  subst hop hfree hout hchecked ha hb
  unfold unionAt unionAct
  dsimp only
  rw [hc]
  dsimp only
  rw [hact]

end

/-! #### What the acts leave -/

theorem unionValue_eq (x : FHdr) (op c : Nat) (as bs : List (Nat × Nat)) :
    unionValue x op c as bs = fibCanon x.fmt (match as.find? (fun e => e.1 == c), bs.find? (fun e => e.1 == c) with
      | some p, some q => combine (if op = 8 then x.op else op) x.fmt p.2 q.2
      | some p, none => p.2
      | none, some q => q.2
      | none, none => 0) := by
  refine congrArg (fibCanon x.fmt) ?_
  cases as.find? (fun e => e.1 == c) with
  | none => cases bs.find? (fun e => e.1 == c) <;> rfl
  | some p => cases bs.find? (fun e => e.1 == c) <;> rfl

section
variable {s : State} {f : FReq} (h : Awake s) (hturn : Turn s f) {a b st : Seg} {va vb op stva seq next : Nat} {zp : Bool}
  (hop : f.op = .union a b va vb op zp st next stva seq) (hparts : partsLeft s f = false)
include h hturn hop

/-- R259: a union whose conditions hold has begun. -/
theorem exec_funionAtHome_begun (hout : f.outcome = none) (hchecked : f.checked = false) (ha : a.dev = 0) (hb : b.dev = 0) (hhdr : HdrAt s f.hdr)
    (hhdrA : HdrAt s a.pa) (hhdrB : HdrAt s b.pa) (hfits : unionFits s f a b op) :
    ∃ t, exec (.funionAtHome f.id) s = .next t ∧ findF t f.id = some { f with begun := true, checked := true } ∧ t.mem = s.mem := by
  obtain ⟨t, ht, hquiet⟩ := Gives.exec (reads_unionCheck (va := va) (vb := vb) ha hb hhdr hhdrA hhdrB (ok := true) (iff_of_true rfl hfits))
  have hat := unionAt_check hop hturn.free hout hchecked ht
  rw [if_pos rfl] at hat
  exact exec_funionAtHome_goesOn h hturn hop hquiet rfl hat

theorem exec_funionAtHome_bufA (hout : f.outcome = none) (hchecked : f.checked = true) (hbuf : f.bufA = none) (ha : a.dev = 0) (hhdr : HdrAt s f.hdr)
    (hhdrA : HdrAt s a.pa) (hfmt : (hdrOf s a.pa).fmt = (hdrOf s f.hdr).fmt) (hdir : (hdrOf s a.pa).dir = []) :
    ∃ t, exec (.funionAtHome f.id) s = .next t ∧ findF t f.id = some { f with bufA := some [] } ∧ t.mem = s.mem := by
  obtain ⟨t, ht, hquiet⟩ := Gives.exec (reads_unionRead_end (va := va) (fibHome s f.hdr) ha hhdr hhdrA hfmt hdir next)
  exact exec_funionAtHome_goesOn h hturn hop hquiet rfl (unionAt_readA hop hturn.free hout hchecked hbuf ht)
theorem exec_funionAtHome_bufB {as : List (Nat × Nat)} (hout : f.outcome = none) (hchecked : f.checked = true) (hbufA : f.bufA = some as)
    (hbuf : f.bufB = none) (hb : b.dev = 0) (hhdr : HdrAt s f.hdr) (hhdrB : HdrAt s b.pa) (hfmt : (hdrOf s b.pa).fmt = (hdrOf s f.hdr).fmt)
    (hdir : (hdrOf s b.pa).dir = []) :
    ∃ t, exec (.funionAtHome f.id) s = .next t ∧ findF t f.id = some { f with bufB := some [] } ∧ t.mem = s.mem := by
  obtain ⟨t, ht, hquiet⟩ := Gives.exec (reads_unionRead_end (va := vb) (fibHome s f.hdr) hb hhdr hhdrB hfmt hdir next)
  exact exec_funionAtHome_goesOn h hturn hop hquiet rfl (unionAt_readB hop hturn.free hout hchecked hbufA hbuf ht)

/-- R62: a coordinate put behind the others of a destination in one pod. -/
theorem exec_funionAtHome_put {as bs : List (Nat × Nat)} {c i pa : Nat} (hout : f.outcome = none) (hchecked : f.checked = true)
    (hbufA : f.bufA = some as) (hbufB : f.bufB = some bs) (hc : unionNext as bs = some c) (hpod : OnePod s f true i pa)
    (hcap : (hdrOf s f.hdr).len ≠ (hdrOf s f.hdr).cap) (hroom : (podAt s (hdrOf s f.hdr).fmt pa).ents.length < podCap (hdrOf s f.hdr).fmt)
    (hkeep : ¬ (zp = true ∧ fibZero (hdrOf s f.hdr).fmt (unionValue (hdrOf s f.hdr) op c as bs) = true)) (hcoord : c < 2 ^ 32) :
    ∃ t, exec (.funionAtHome f.id) s = .next t ∧ memRead t f.hdr 64 = encodeHdr { hdrOf s f.hdr with len := (hdrOf s f.hdr).len + 1 } % 2 ^ 512 ∧
      podAt t (hdrOf s f.hdr).fmt pa = { podAt s (hdrOf s f.hdr).fmt pa with ents := (podAt s (hdrOf s f.hdr).fmt pa).ents ++
        [(c, unionValue (hdrOf s f.hdr) op c as bs % 2 ^ podWidth (hdrOf s f.hdr).fmt)] } := by
  obtain ⟨t, ht, r, hr, rfl⟩ := (gives_unionPut hpod hcap hroom hkeep).exec
  refine ⟨_, by rw [exec_funionAtHome_of_turn h hturn hop, unionAt_put hop hturn.free hout hchecked hbufA hbufB hc ht], ?_⟩
  obtain ⟨hhdr, hents⟩ := onePod_after hpod hr (podOk_append hcoord _ hroom) (memByte_counted s (putF _ _) f)
  exact ⟨hhdr, hents.trans (by rw [next_podAt, held_append])⟩

end

section
variable {s : State} {f : FReq} (h : Awake s) (hturn : Turn s f) {a b st : Seg} {va vb op seq next : Nat} {zp : Bool}
  (hop : f.op = .union a b va vb op zp st next 0 seq) (hparts : partsLeft s f = false)
include h hturn hop hparts

/-- R259: a union whose conditions do not hold sets OVF of its destination and leaves. -/
theorem exec_funionAtHome_unfit (hout : f.outcome = none) (hchecked : f.checked = false) (ha : a.dev = 0) (hb : b.dev = 0) (hhdr : HdrAt s f.hdr)
    (hhdrA : HdrAt s a.pa) (hhdrB : HdrAt s b.pa) (hfits : ¬ unionFits s f a b op) :
    ∃ t, exec (.funionAtHome f.id) s = .next t ∧ findF t f.id = none ∧
      memRead t f.hdr 64 = encodeHdr { hdrOf s f.hdr with ovf := true } % 2 ^ 512 := by
  obtain ⟨t, ht, hquiet⟩ := Gives.exec (reads_unionCheck (va := va) (vb := vb) ha hb hhdr hhdrA hhdrB (ok := false) (iff_of_false nofun hfits))
  have hat := unionAt_check hop hturn.free hout hchecked ht
  rw [if_neg nofun] at hat
  obtain ⟨hgone, hovf⟩ := unionFail_unstamped hquiet hhdr hop hparts
  exact exec_funionAtHome_leaves h hturn hop hat hgone hovf
theorem exec_funionAtHome_format (hout : f.outcome = none) (hchecked : f.checked = true) (hbuf : f.bufA = none) (ha : a.dev = 0)
    (hhdr : HdrAt s f.hdr) (hhdrA : HdrAt s a.pa) (hfmt : (hdrOf s a.pa).fmt ≠ (hdrOf s f.hdr).fmt) :
    ∃ t, exec (.funionAtHome f.id) s = .next t ∧ findF t f.id = none ∧
      memRead t f.hdr 64 = encodeHdr { hdrOf s f.hdr with ovf := true } % 2 ^ 512 := by
  obtain ⟨t, ht, hquiet⟩ := Gives.exec (reads_unionRead_format (va := va) (fibHome s f.hdr) ha hhdr hhdrA hfmt next)
  obtain ⟨hgone, hovf⟩ := unionFail_unstamped hquiet hhdr hop hparts
  exact exec_funionAtHome_leaves h hturn hop (unionAt_readA hop hturn.free hout hchecked hbuf ht) hgone hovf
/-- R62: at the end of both sources VER advances. -/
theorem exec_funionAtHome_end (hout : f.outcome = none) (hchecked : f.checked = true) (hbufA : f.bufA = some []) (hbufB : f.bufB = some [])
    (hhdr : HdrAt s f.hdr) :
    ∃ t, exec (.funionAtHome f.id) s = .next t ∧ findF t f.id = none ∧
      memRead t f.hdr 64 = encodeHdr { hdrOf s f.hdr with ver := bump (hdrOf s f.hdr).ver 1 } % 2 ^ 512 := by
  obtain ⟨hgone, hver⟩ := unionEnd_unstamped hhdr hop hparts
  exact exec_funionAtHome_leaves h hturn hop (unionAt_end hop hout hchecked hbufA hbufB) hgone hver

end

/-- R259: the stamp of a union, written last. -/
theorem exec_funionAtHome_stamped {s : State} {f : FReq} (h : Awake s) (hturn : Turn s f) {a b st : Seg} {va vb op stva seq next : Nat} {zp : Bool}
    (hop : f.op = .union a b va vb op zp st next stva seq) (hparts : partsLeft s f = false) {failed : Bool} (hout : f.outcome = some failed)
    (hstva : stva ≠ 0) (hdev : st.dev = 0) (hplain : PlainMemory st.pa) (haligned : st.pa % 8 = 0) (hlen : st.len = 8)
    (hready : wordReady s f st = true) :
    ∃ t, exec (.funionAtHome f.id) s = .next t ∧ findF t f.id = none ∧
      memRead t st.pa 8 = (seq + (if failed then 2 ^ 63 else 0)) % 2 ^ 64 := by
  have hreqs : (fibPut s st.pa 8 (bit failed * 2 ^ 63 + seq)).reqs = s.reqs := congrArg (·.2.2.2) (besides_fibPut hplain s 8 _)
  have hat : unionAt s f = fibDone (fibPut s st.pa 8 (bit failed * 2 ^ 63 + seq)) f 0 .none := by
    rw [unionAt_stamp hop hout, unionStamp, if_neg (by simp [hparts]), if_neg hstva, if_neg (by simp [hready]), writeWord_plain hdev hplain, hlen]
    dsimp only
    rw [if_neg (by rw [partsLeft_of_reqs hreqs, hparts]; decide)]
  have hword : bit failed * 2 ^ 63 + seq = seq + (if failed then 2 ^ 63 else 0) := by
    rw [Nat.add_comm]
    cases failed <;> rfl
  have hexec : exec (.funionAtHome f.id) s = .next (applied s (fibPut s st.pa 8 (bit failed * 2 ^ 63 + seq)) f) := by
    rw [exec_funionAtHome_of_turn h hturn hop, hat, applied]
  refine ⟨_, hexec, findF_applied _ _ _, ?_⟩
  rw [← hword]
  exact memRead_word hplain haligned hlen (memByte_applied _ _ _)

theorem unionsAtHome : UnionsAtHome := by
  intro s f a b st va vb op stva seq zp next h hturn hop hparts
  refine ⟨fun hout hchecked ha hb hhdr hhdrA hhdrB => ⟨?_, ?_⟩, fun hout hchecked hbuf => ⟨?_, ?_, ?_⟩, fun as hout hchecked hbufA hbufB => ⟨?_, ?_⟩,
    fun as bs hout hchecked hbufA hbufB => ⟨?_, fun c hc => ⟨?_, ?_⟩⟩, fun failed hout => exec_funionAtHome_stamped h hturn hop hparts hout⟩
  · exact exec_funionAtHome_begun h hturn hop hout hchecked ha hb hhdr hhdrA hhdrB
  · rintro hfits rfl
    exact exec_funionAtHome_unfit h hturn hop hparts hout hchecked ha hb hhdr hhdrA hhdrB hfits
  · exact exec_funionAtHome_bufA h hturn hop hout hchecked hbuf
  · rintro ha hhdr hhdrA hfmt rfl
    exact exec_funionAtHome_format h hturn hop hparts hout hchecked hbuf ha hhdr hhdrA hfmt
  · intro es t ht
    rw [exec_funionAtHome_of_turn h hturn hop, unionAt_readA hop hturn.free hout hchecked hbuf ht]
    rfl
  · exact exec_funionAtHome_bufB h hturn hop hout hchecked hbufA hbufB
  · intro es t ht
    rw [exec_funionAtHome_of_turn h hturn hop, unionAt_readB hop hturn.free hout hchecked hbufA hbufB ht]
    rfl
  · rintro rfl rfl rfl hhdr
    exact exec_funionAtHome_end h hturn hop hparts hout hchecked hbufA hbufB hhdr
  · intro t ht
    rw [exec_funionAtHome_of_turn h hturn hop, unionAt_put hop hturn.free hout hchecked hbufA hbufB hc ht]
  · intro i pa v hpod hcap hroom hv hkeep hcoord
    obtain rfl : v = unionValue (hdrOf s f.hdr) op c as bs := hv.trans (unionValue_eq _ _ _ _ _).symm
    exact exec_funionAtHome_put h hturn hop hout hchecked hbufA hbufB hc hpod hcap hroom hkeep hcoord

/-- Settles O31: each act is computed on the home's state, the pod and the header it writes read back as they were encoded, and the operation
then leaves or goes on. -/
theorem fibreHomes : Obligations.FibreHomes :=
  ⟨mergesAtHome, deletesAtHome, headersAtHome, probesAtHome, scansAtHome, unionsAtHome⟩

end Sys2Proof.Machine

/-! # O19: vector members that round their lanes (R81-R90, R218, R219, R222, R235) -/

namespace Sys2Proof.Machine
open Sys2Proof.Claims

/-! ### What a change of the issuing stream or its context leaves alone -/

theorem pendingDests_of_tasks {s t : State} {w : StreamId} (htasks : (getCore t w.core).tasks = (getCore s w.core).tasks)
    (hreqs : t.reqs = s.reqs) (hfreqs : t.freqs = s.freqs) : pendingDests t w = pendingDests s w := by
  unfold pendingDests
  rw [htasks, hreqs, hfreqs]

theorem pendingDests_modCtx (s : State) (n c : Nat) (f : Ctx → Ctx) (w : StreamId) :
    pendingDests (modCtx s n c f) w = pendingDests s w :=
  pendingDests_of_tasks (core_modCore_keeps (·.tasks) s n _ rfl w.core) rfl rfl

theorem pendingDests_modStream (s : State) (u : StreamId) (f : Stream → Stream) (w : StreamId) :
    pendingDests (modStream s u f) w = pendingDests s w :=
  pendingDests_of_tasks (core_modCore_keeps (·.tasks) s u.core _ (by split <;> rfl) w.core) rfl rfl

@[simp] theorem curStream_modCurCtx (s : State) (f : Ctx → Ctx) : curStream (modCurCtx s f) = curStream s := getStream_modCtx s _ _ f _
@[simp] theorem curCtx_modCurCtx (s : State) (f : Ctx → Ctx) : curCtx (modCurCtx s f) = f (curCtx s) := getCtx_modCtx s _ _ f

/-- R161: no producer starts and none ends while the registers of a context change, its fills apart. -/
theorem freeV_modCurCtx {s : State} {c : BitVec 6} (h : FreeV s c) (f : Ctx → Ctx) : FreeV (modCurCtx s f) c := by
  unfold FreeV vectorPending
  rw [show pendingDests (modCurCtx s f) (modCurCtx s f).cur = pendingDests s s.cur from pendingDests_modCtx s _ _ f _]
  exact h

theorem freeS_modCurCtx {s : State} {c : BitVec 6} (h : FreeS s c) {f : Ctx → Ctx} (hf : (f (curCtx s)).fills = (curCtx s).fills) :
    FreeS (modCurCtx s f) c := by
  unfold FreeS scalarPending phys
  rw [show pendingDests (modCurCtx s f) (modCurCtx s f).cur = pendingDests s s.cur from pendingDests_modCtx s _ _ f _,
    curStream_modCurCtx, show getCtx (modCurCtx s f) _ _ = f (curCtx s) from curCtx_modCurCtx s f, hf]
  exact h

/-! ### Flags and generators (R84-R87) -/

theorem upFrom_zero (n : Nat) : upFrom 0 n = List.range n := by rw [upFrom_eq_range', List.range_eq_range']

/-- R82: the rounding mode that a member's field names. -/
theorem roundMode_curCtx (s : State) (f : VF) : roundMode (curCtx s) f.rnd3 = modeOf s f := by
  unfold roundMode modeOf wbits
  rw [Nat.shiftRight_zero]
  rfl

theorem raiseFlags_of_masked {s : State} {fl : Flags} (h : trapEnables (curCtx s) &&& fl = 0) : raiseFlags s fl = .ok (flagged s fl) := by
  unfold raiseFlags
  rw [if_neg (by simpa using h)]
  rfl

theorem raiseFlags_of_enabled {s : State} {fl : Flags} (h : trapEnables (curCtx s) &&& fl ≠ 0) :
    raiseFlags s fl = trapEx cFP (fl.setWidth 64) := by
  unfold raiseFlags
  rw [if_pos (by simpa using h)]
  rfl

@[simp] theorem stepGens_fills (c : Ctx) (ks : List Nat) : (stepGens c ks).fills = c.fills := by
  induction ks generalizing c with
  | nil => rfl
  | cons k ks ih => exact ih _

/-- R85: no generator steps in another mode than 4. -/
theorem stepIn_zero (s : State) (ks : List Nat) : stepIn s 0 ks = s := rfl

theorem freeV_stepIn {s : State} {c : BitVec 6} (h : FreeV s c) (mode : Nat) (ks : List Nat) : FreeV (stepIn s mode ks) c := by
  unfold stepIn
  split
  · exact freeV_modCurCtx h _
  · exact h

theorem freeS_stepIn {s : State} {c : BitVec 6} (h : FreeS s c) (mode : Nat) (ks : List Nat) : FreeS (stepIn s mode ks) c := by
  unfold stepIn
  split
  · exact freeS_modCurCtx h (stepGens_fills _ _)
  · exact h

theorem freeV_flagged {s : State} {c : BitVec 6} (h : FreeV s c) (fl : Flags) : FreeV (flagged s fl) c := freeV_modCurCtx h _
theorem freeS_flagged {s : State} {c : BitVec 6} (h : FreeS s c) (fl : Flags) : FreeS (flagged s fl) c := freeS_modCurCtx h rfl

theorem freeV_raisedAndStepped {s : State} {f : VF} {c : BitVec 6} (h : FreeV s c) (mode : Nat) (fl : Flags) :
    FreeV (raisedAndStepped s f mode fl) c :=
  freeV_stepIn (freeV_flagged h _) _ _

/-! ### Lanes rounded and written (R218, R219) -/

/-- What each lane of a rounding member gives, and the flags of all of them. -/
theorem roundedLanes_flags (s : State) (f : VF) (g : Nat → W32 → Rounded) :
    ((upFrom 0 64).map (roundedLanes s f g)).foldl (fun a r => a ||| r.flags) 0 = lanesRaise s f g := by
  rw [upFrom_zero, List.foldl_map]
  rfl

/-- R87, R219: no enabled flag is raised: the flags stick, the generators step, and the lanes have their results. -/
theorem roundLanes_of_masked {s : State} {f : VF} (mode : Nat) {g : Nat → W32 → Rounded}
    (h : trapEnables (curCtx s) &&& lanesRaise s f g = 0) :
    roundLanes s (activeMask s f.pm) mode g = .ok (raisedAndStepped s f mode (lanesRaise s f g),
      (upFrom 0 64).map (fun k => BitVec.ofNat 32 (roundedLanes s f g k).bits)) := by
  show (raiseFlags s (((upFrom 0 64).map (roundedLanes s f g)).foldl (fun a r => a ||| r.flags) 0) >>= _) = _
  rw [roundedLanes_flags, raiseFlags_of_masked h]
  show Except.ok (_, ((upFrom 0 64).map (roundedLanes s f g)).map _) = _
  rw [List.map_map]
  rfl

/-- R87: an enabled flag traps FP_TRAP with the flags of all lanes. -/
theorem roundLanes_of_enabled {s : State} {f : VF} (mode : Nat) {g : Nat → W32 → Rounded}
    (h : trapEnables (curCtx s) &&& lanesRaise s f g ≠ 0) :
    roundLanes s (activeMask s f.pm) mode g = .error (.trap cFP ((lanesRaise s f g).setWidth 64)) := by
  show (raiseFlags s (((upFrom 0 64).map (roundedLanes s f g)).foldl (fun a r => a ||| r.flags) 0) >>= _) = _
  rw [roundedLanes_flags, raiseFlags_of_enabled h]
  rfl

theorem getD_upFrom_map {α : Type} (d : α) (res : Nat → α) (n : Nat) {k : Nat} (hk : k ∈ upFrom 0 n) :
    ((upFrom 0 n).map res).getD k d = res k := by
  rw [upFrom_zero] at hk ⊢
  simp [List.mem_range.mp hk]

/-- R218: results listed by lane are written as results given by lane. -/
theorem mergeLanes_listed (s : State) (f : VF) (vs : List VReg) (res : Nat → W32) :
    mergeLanes (activeMask s f.pm) f.zm (oldVd s f vs) (fun k => ((upFrom 0 64).map res).getD k 0) = laneResult s f vs res := by
  unfold mergeLanes laneResult
  rw [← upFrom_zero]
  refine congrArg ofLanes (List.map_congr_left fun k hk => ?_)
  dsimp only
  rw [getD_upFrom_map 0 res 64 hk]
  rfl

section
variable {s : State} {f : VF} {ops : List Opnd} {vs : List VReg} (i : Instr) (hready : OpsReady s { ops := ops } vs)
include hready

/-- R219: a rounding member whose lanes raise no enabled flag completes. -/
theorem roundMember_of_masked {g : Nat → Bool → List VReg → Nat → W32 → Rounded} (hfree : FreeV s f.vd)
    (h : trapEnables (curCtx s) &&& lanesRaise s f (g (modeOf s f) (ftzOf s) (restVd s f vs)) = 0) :
    roundMember i f ops g s = fpDone i s f { ops := ops } vs (modeOf s f) (g (modeOf s f) (ftzOf s) (restVd s f vs)) := by
  unfold roundMember
  refine (perform_completes i _ hready ?_).trans rfl
  rw [roundMode_curCtx]
  show (roundLanes s _ _ (g (modeOf s f) (ftzOf s) (restVd s f vs)) >>= _) = _
  rw [roundLanes_of_masked _ h]
  show (setVec _ f.vd (mergeLanes _ _ _ _) >>= _) = _
  rw [setVec_free (freeV_raisedAndStepped hfree _ _), mergeLanes_listed]
  rfl

/-- R87: a rounding member whose lanes raise an enabled flag traps FP_TRAP. -/
theorem roundMember_of_enabled {g : Nat → Bool → List VReg → Nat → W32 → Rounded}
    (h : trapEnables (curCtx s) &&& lanesRaise s f (g (modeOf s f) (ftzOf s) (restVd s f vs)) ≠ 0) :
    roundMember i f ops g s =
      .next (takeTrap s cFP ((lanesRaise s f (g (modeOf s f) (ftzOf s) (restVd s f vs))).setWidth 64) (instrWords i)) := by
  unfold roundMember
  refine (perform_of_ready i _ hready).trans ?_
  rw [roundMode_curCtx]
  show finish s i ((roundLanes s _ _ (g (modeOf s f) (ftzOf s) (restVd s f vs)) >>= _) >>= _) = _
  rw [roundLanes_of_enabled _ h]
  rfl

/-- R82, R222: a member that rounds nothing completes as one in rounding mode 0, in which no generator steps. -/
theorem flagMember_of_masked {g : Bool → List VReg → Nat → Rounded} (hfree : FreeV s f.vd)
    (h : trapEnables (curCtx s) &&& lanesRaise s f (fun k _ => g (ftzOf s) (restVd s f vs) k) = 0) :
    flagMember i f ops g s = fpDone i s f { ops := ops } vs 0 (fun k _ => g (ftzOf s) (restVd s f vs) k) := by
  unfold flagMember
  refine (perform_completes i _ hready ?_).trans rfl
  show (roundLanes s _ 0 (fun k _ => g (ftzOf s) (restVd s f vs) k) >>= _) = _
  rw [roundLanes_of_masked _ h]
  show (setVec _ f.vd (mergeLanes _ _ _ _) >>= _) = _
  rw [setVec_free (freeV_raisedAndStepped hfree _ _), mergeLanes_listed]
  rfl

theorem flagMember_of_enabled {g : Bool → List VReg → Nat → Rounded}
    (h : trapEnables (curCtx s) &&& lanesRaise s f (fun k _ => g (ftzOf s) (restVd s f vs) k) ≠ 0) :
    flagMember i f ops g s =
      .next (takeTrap s cFP ((lanesRaise s f (fun k _ => g (ftzOf s) (restVd s f vs) k)).setWidth 64) (instrWords i)) := by
  unfold flagMember
  refine (perform_of_ready i _ hready).trans ?_
  show finish s i ((roundLanes s _ 0 (fun k _ => g (ftzOf s) (restVd s f vs) k) >>= _) >>= _) = _
  rw [roundLanes_of_enabled _ h]
  rfl

end

/-! ### O19 -/

/-- R222: the FP32 members of two sources are rounding members, MIN and MAX members that only raise flags. -/
theorem vectorFloat : VectorFloat := by
  intro s f vs hty hfree hready
  simp only [fpRows2, List.forall_mem_cons, List.not_mem_nil, false_imp_iff, implies_true, and_true, exec_vadd, exec_vsub, exec_vmul,
    exec_vmin, exec_vmax, execVadd, execVsub, execVmul, execVmin, execVmax, arith2, pick2, hty, if_true]
  exact ⟨⟨fun h => roundMember_of_masked _ hready hfree h, fun h => roundMember_of_enabled _ hready h⟩,
    ⟨fun h => roundMember_of_masked _ hready hfree h, fun h => roundMember_of_enabled _ hready h⟩,
    ⟨fun h => roundMember_of_masked _ hready hfree h, fun h => roundMember_of_enabled _ hready h⟩,
    ⟨fun h => flagMember_of_masked _ hready hfree h, fun h => flagMember_of_enabled _ hready h⟩,
    ⟨fun h => flagMember_of_masked _ hready hfree h, fun h => flagMember_of_enabled _ hready h⟩⟩

/-- R219, R222, R235: VFMA and VDQMX are rounding members. -/
theorem vectorFused : VectorFused := by
  intro s f vs hfree
  refine ⟨fun hready h => ?_, fun hready h => ?_⟩
  · rw [exec_vfma, execVfma]
    exact roundMember_of_masked _ hready hfree h
  · rw [exec_vdqmx, execVdqmx]
    exact roundMember_of_masked _ hready hfree h

/-- Settles O19: every member of the family is a rounding member, or one that only raises flags, and completes or traps as such. -/
theorem vectorArithmetic : Obligations.VectorArithmetic := ⟨vectorFloat, vectorFused⟩

end Sys2Proof.Machine

/-! # O20: reductions, scans and histograms (R82, R85-R87, R226-R228) -/

namespace Sys2Proof.Machine
open Sys2Proof.Claims

/-! ### Lanes chosen -/

theorem pickLanes_activeLanes (s : State) (f : VF) (v : VReg) : pickLanes v (activeLanes (activeMask s f.pm)) = chosen s f v := by
  unfold pickLanes activeLanes chosen
  rw [upFrom_zero]
  rfl

/-- R227: the active lanes up to lane k, or below it. -/
theorem pickLanes_scanLanes (s : State) (f : VF) (v : VReg) (k : Nat) :
    pickLanes v (scanLanes (activeLanes (activeMask s f.pm)) k (f.imm13.getLsbD 2)) = upTo s f v k := by
  unfold pickLanes scanLanes activeLanes upTo
  rw [upFrom_zero, List.filter_filter]
  simp only [Bool.and_comm, active]

theorem activeLanes_isEmpty (m : BitVec 64) : (activeLanes m).isEmpty = decide (m = 0) := by
  rw [Bool.eq_iff_iff, List.isEmpty_iff, decide_eq_true_eq]
  unfold activeLanes
  rw [upFrom_zero, List.filter_eq_nil_iff]
  constructor
  · intro h
    refine BitVec.eq_of_getLsbD_eq fun k hk => ?_
    rw [show m.getLsbD k = false from Bool.eq_false_iff.mpr (h k (List.mem_range.mpr hk))]
    exact BitVec.getLsbD_zero.symm
  · rintro rfl k _
    simp [active]

/-! ### Lanes reduced (R226) -/

theorem lt_three_cases {n : Nat} (h : n < 3) : n = 0 ∨ n = 1 ∨ n = 2 := by omega

/-- R226: integer lanes reduced raise no flag. -/
theorem reduceLanes_int {ty : BitVec 4} (hty : ty ≠ 0) {op : Nat} (hop : op < 3) (mode : Nat) (ftz : Bool) (r : W32) (xs : List W32) :
    reduceLanes ty op mode ftz r xs = { bits := (reduced ty op xs).toNat } := by
  unfold reduceLanes
  rw [if_neg hty]
  rcases lt_three_cases hop with rfl | rfl | rfl
  · rfl
  · simp only [reduceId, hty, if_false]
    rfl
  · simp only [reduceId, hty, if_false]
    rfl

/-- R226: FP32 lanes reduced: a sum rounds, the least and the greatest do not. -/
theorem reduceLanes_fp {s : State} {f : VF} (hty : f.ty4 = 0) (hop : f.immBits 0 2 < 3) (r : W32) (xs : List W32) :
    reduceLanes f.ty4 (f.immBits 0 2) (modeOf s f) (ftzOf s) r xs = reducedFP s f r xs := by
  unfold reduceLanes reducedFP
  rw [if_pos hty]
  rcases lt_three_cases hop with hop | hop | hop <;> rw [hop]
  · rfl
  · simp only [reduceId, hty]
    rfl
  · simp only [reduceId, hty]
    rfl

/-- R226: the least and the greatest of FP32 lanes depend on no mode and no generator. -/
theorem reduceLanes_unrounded {ty : BitVec 4} (hty : ty = 0) {op : Nat} (hop : op ≠ 0) (mode mode' : Nat) (ftz : Bool) (r r' : W32)
    (xs : List W32) : reduceLanes ty op mode ftz r xs = reduceLanes ty op mode' ftz r' xs := by
  unfold reduceLanes
  rw [if_pos hty, if_neg hop, if_pos hty, if_neg hop]

theorem foldl_add_carry (c : W32) (xs : List W32) : xs.foldl (· + ·) c = c + xs.foldl (· + ·) 0 := by
  induction xs generalizing c with
  | nil => exact (add_zero c).symm
  | cons x xs ih => rw [List.foldl_cons, List.foldl_cons, ih, ih (0 + x), zero_add, add_assoc]

/-- R227: a word carried into an integer sum is added to it. -/
theorem reduced_carry (ty : BitVec 4) (op : Nat) (c : W32) (xs : List W32) :
    reduced ty op ((if op = 0 then [c] else []) ++ xs) = (if op = 0 then c else 0) + reduced ty op xs := by
  by_cases h : op = 0
  · subst h
    show xs.foldl (· + ·) (0 + c) = c + xs.foldl (· + ·) 0
    rw [zero_add, foldl_add_carry]
  · rw [if_neg h, if_neg h, List.nil_append, zero_add]

/-! ### VRED (R226) -/

section
variable {s : State} {f : VF} {vs : List VReg}

/-- The reduction that VRED performs. -/
def redOf (s : State) (f : VF) (v : VReg) : Rounded :=
  reduceLanes f.ty4 (f.immBits 0 2) (modeOf s f) (ftzOf s) (laneGen (curCtx s) 0) (chosen s f v)

/-- R82, R226: VRED steps generator 0 where it rounds a sum over some lane. -/
theorem stepIn_reduces (t : State) :
    (if reduceRounds f.ty4 (f.immBits 0 2) && !(activeLanes (activeMask s f.pm)).isEmpty then stepIn t (modeOf s f) [0] else t) =
      stepIn t (if f.ty4 = 0 ∧ f.immBits 0 2 = 0 ∧ activeMask s f.pm ≠ 0 then modeOf s f else 0) [0] := by
  have hiff : (reduceRounds f.ty4 (f.immBits 0 2) && !(activeLanes (activeMask s f.pm)).isEmpty) = true ↔
      f.ty4 = 0 ∧ f.immBits 0 2 = 0 ∧ activeMask s f.pm ≠ 0 := by
    rw [activeLanes_isEmpty]
    unfold reduceRounds
    simp [and_assoc]
  by_cases h : f.ty4 = 0 ∧ f.immBits 0 2 = 0 ∧ activeMask s f.pm ≠ 0
  · rw [if_pos (hiff.mpr h), if_pos h]
  · rw [if_neg (mt hiff.mp h), if_neg h]
    rfl

variable (hready : OpsReady s { ops := [dstS f.vd, srcV 1 f.vs1 f.w1, pmOp f.pm] } vs)
include hready

theorem exec_vred_of_masked (hfree : FreeS s f.vd) (h : trapEnables (curCtx s) &&& (redOf s f (vval vs 0)).flags = 0) :
    exec (.vred f) s = .next (completed (.vred f) { ops := [dstS f.vd, srcV 1 f.vs1 f.w1, pmOp f.pm] }
      (wrote (stepIn (flagged s (redOf s f (vval vs 0)).flags)
          (if f.ty4 = 0 ∧ f.immBits 0 2 = 0 ∧ activeMask s f.pm ≠ 0 then modeOf s f else 0) [0]) f.vd
        (if f.ty4 = 9 then (BitVec.ofNat 32 (redOf s f (vval vs 0)).bits).signExtend 64
          else (BitVec.ofNat 32 (redOf s f (vval vs 0)).bits).setWidth 64)) .seq) := by
  rw [exec_vred, execVred]
  refine perform_completes _ _ hready ?_
  dsimp only
  rw [roundMode_curCtx, pickLanes_activeLanes]
  show (raiseFlags s (redOf s f (vval vs 0)).flags >>= _) = _
  rw [raiseFlags_of_masked h]
  dsimp only [bind, Except.bind]
  rw [stepIn_reduces, setReg_free (freeS_stepIn (freeS_flagged hfree _) _ _)]
  rfl

theorem exec_vred_of_enabled (h : trapEnables (curCtx s) &&& (redOf s f (vval vs 0)).flags ≠ 0) :
    exec (.vred f) s = .next (takeTrap s cFP ((redOf s f (vval vs 0)).flags.setWidth 64) (instrWords (.vred f))) := by
  rw [exec_vred, execVred]
  refine (perform_of_ready _ _ hready).trans ?_
  dsimp only
  rw [roundMode_curCtx, pickLanes_activeLanes]
  show finish s _ ((raiseFlags s (redOf s f (vval vs 0)).flags >>= _) >>= _) = _
  rw [raiseFlags_of_enabled h]
  rfl

end

/-! ### Integer reductions and scans (R226, R227) -/

/-- R219: lanes that raise no flag raise none together. -/
theorem lanesRaise_of_silent {s : State} {f : VF} {g : Nat → W32 → Rounded} (h : ∀ k r, (g k r).flags = 0) : lanesRaise s f g = 0 := by
  have hlane (k : Nat) : (roundedLanes s f g k).flags = 0 := by
    unfold roundedLanes
    split
    · exact h _ _
    · rfl
  unfold lanesRaise
  simp only [hlane]
  rfl

/-- R218: what a lane gives that is not active is not written. -/
theorem laneResult_congr {s : State} {f : VF} {vs : List VReg} {a b : Nat → W32}
    (h : ∀ k, (activeMask s f.pm).getLsbD k = true → a k = b k) : laneResult s f vs a = laneResult s f vs b := by
  refine congrArg ofLanes (List.map_congr_left fun k _ => ?_)
  split
  · next hk => exact h k hk
  · rfl

theorem laneResult_roundedLanes (s : State) (f : VF) (vs : List VReg) (g : Nat → W32 → Rounded) :
    laneResult s f vs (fun k => BitVec.ofNat 32 (roundedLanes s f g k).bits) =
      laneResult s f vs (fun k => BitVec.ofNat 32 (g k (laneGen (curCtx s) k)).bits) :=
  laneResult_congr fun k hk => by rw [roundedLanes, if_pos hk]

/-- What VSCAN carries into each of its reductions: a word before the lanes of a sum (R227). -/
def carryIn (f : VF) (ws : List VReg) : List W32 := if f.immBits 0 2 = 0 then [(sval ws 1).setWidth 32] else []

/-- R227: a VSCAN that rounds no sum only raises flags. -/
theorem execVscan_of_unrounded {s : State} {f : VF} (h : reduceRounds f.ty4 (f.immBits 0 2) = false) :
    execVscan f s = flagMember (.vscan f) f (planScan s f).ops
      (fun ftz ws k => reduceLanes f.ty4 (f.immBits 0 2) 0 ftz 0 (carryIn f ws ++ upTo s f (vval ws 0) k)) s := by
  unfold execVscan
  simp only [h, pickLanes_scanLanes]
  rfl

theorem execVscan_of_rounded {s : State} {f : VF} (h : reduceRounds f.ty4 (f.immBits 0 2) = true) :
    execVscan f s = roundMember (.vscan f) f (planScan s f).ops
      (fun mode ftz ws k r => reduceLanes f.ty4 (f.immBits 0 2) mode ftz r (carryIn f ws ++ upTo s f (vval ws 0) k)) s := by
  unfold execVscan
  simp only [h, pickLanes_scanLanes]
  rfl

theorem vectorReduceInteger : VectorReduceInteger := by
  intro s f vs hty hop
  have hint : f.ty4 ≠ 0 := by rcases hty with h | h <;> rw [h] <;> decide
  refine ⟨fun hfree hready => ?_, fun hfree hready => ?_⟩
  · have hred : redOf s f (vval vs 0) = { bits := (reduced f.ty4 (f.immBits 0 2) (chosen s f (vval vs 0))).toNat } := reduceLanes_int hint hop _ _ _ _
    rw [exec_vred_of_masked hready hfree (by rw [hred]; exact BitVec.and_zero), hred, if_neg (fun h => hint h.1)]
    simp only [BitVec.ofNat_toNat, BitVec.setWidth_eq, stepIn_zero]
  · have hunrounded : reduceRounds f.ty4 (f.immBits 0 2) = false := by
      rw [reduceRounds, beq_eq_false_iff_ne.mpr hint, Bool.false_and]
    have hsilent (ws : List VReg) : lanesRaise s f (fun k _ =>
        reduceLanes f.ty4 (f.immBits 0 2) 0 (ftzOf s) 0 (carryIn f ws ++ upTo s f (vval ws 0) k)) = 0 :=
      lanesRaise_of_silent fun k _ => by rw [reduceLanes_int hint hop]
    rw [exec_vscan, execVscan_of_unrounded hunrounded]
    refine (flagMember_of_masked _ hready hfree (by rw [hsilent]; exact BitVec.and_zero)).trans ?_
    rw [fpDone, hsilent, laneResult_roundedLanes]
    simp only [reduceLanes_int hint hop, carryIn, reduced_carry, BitVec.ofNat_toNat, BitVec.setWidth_eq]
    rfl

/-! ### FP32 reductions and scans (R226, R227) -/

theorem vectorReduceFloat : VectorReduceFloat := by
  intro s f vs hty hop
  have hred (r : W32) (xs : List W32) := reduceLanes_fp (s := s) hty hop r xs
  refine ⟨fun hfree hready => ⟨fun h => ?_, fun h => ?_⟩, fun hfree hready => ?_⟩
  · rw [← hred] at h ⊢
    have hsigned : f.ty4 ≠ 9 := by rw [hty]; decide
    refine (exec_vred_of_masked hready hfree h).trans ?_
    simp only [if_neg hsigned, and_iff_right hty]
    rfl
  · rw [← hred] at h ⊢
    exact exec_vred_of_enabled hready h
  · intro ws carry g h
    have hg : g = fun k r => reduceLanes f.ty4 (f.immBits 0 2) (modeOf s f) (ftzOf s) r (carryIn f ws ++ upTo s f (vval ws 0) k) := by
      simp only [hred]
      rfl
    clear_value g
    subst hg
    rw [exec_vscan]
    by_cases hsum : f.immBits 0 2 = 0
    · rw [execVscan_of_rounded (by rw [reduceRounds, hty, hsum]; rfl), if_pos hsum]
      exact roundMember_of_masked _ hready hfree h
    · rw [execVscan_of_unrounded (by rw [reduceRounds, beq_eq_false_iff_ne.mpr hsum, Bool.and_false]), if_neg hsum]
      have hmode (r : W32) (xs : List W32) := reduceLanes_unrounded hty hsum (modeOf s f) 0 (ftzOf s) r 0 xs
      simp only [hmode] at h ⊢
      exact flagMember_of_masked _ hready hfree h

theorem vectorReduce : VectorReduce := ⟨vectorReduceInteger, vectorReduceFloat⟩

/-! ### VHIST (R228) -/

/-- What VHIST asks of a counter of a block: its total added, where a lane counts there. -/
def counterAdd (ks : List Nat) (idx wgt : Nat → Nat) (base i : Nat) : Option (ReqKind × List Seg) :=
  (histTotal ks idx wgt i).map (fun n => (.atomic .add (w64 n) 0, [{ pa := base + i * 8, len := 8, off := 0 }]))

/-- One counter's turn of VHIST. -/
def histStep (ks : List Nat) (idx wgt : Nat → Nat) (base : Nat) (u : State) (i : Nat) : State :=
  match histTotal ks idx wgt i with
  | none => u
  | some n =>
    addReq u { id := 0, agent := curAgent u, slot := curSlot u, fir := curOrd u, launch := curLaunch u
               kind := .atomic .add (w64 n) 0, todo := [{ pa := base + i * 8, len := 8, off := 0 }] }

section
variable (ks : List Nat) (idx wgt : Nat → Nat) (base : Nat)

/-- R228: a counter's turn adds its request alone. -/
theorem histStep_request (u : State) (i : Nat) : ∃ rs, (histStep ks idx wgt base u i).reqs = u.reqs ++ rs ∧
    rs.map (fun r => (r.kind, r.todo)) = (counterAdd ks idx wgt base i).toList ∧ (histStep ks idx wgt base u i).mem = u.mem := by
  unfold histStep counterAdd
  cases histTotal ks idx wgt i with
  | none => exact ⟨[], (List.append_nil _).symm, rfl, rfl⟩
  | some n => exact ⟨[_], rfl, rfl, rfl⟩

/-- R228: the requests of VHIST, in the order of the counters. -/
theorem histSteps_requests (is : List Nat) (u : State) : ∃ rs, (is.foldl (histStep ks idx wgt base) u).reqs = u.reqs ++ rs ∧
    rs.map (fun r => (r.kind, r.todo)) = is.filterMap (counterAdd ks idx wgt base) ∧
    (is.foldl (histStep ks idx wgt base) u).mem = u.mem := by
  induction is generalizing u with
  | nil => exact ⟨[], (List.append_nil _).symm, rfl, rfl⟩
  | cons i is ih =>
    obtain ⟨rs, hreqs, hkinds, hmem⟩ := histStep_request ks idx wgt base u i
    obtain ⟨qs, hreqs', hkinds', hmem'⟩ := ih (histStep ks idx wgt base u i)
    refine ⟨rs ++ qs, ?_, ?_, hmem'.trans hmem⟩
    · rw [List.foldl_cons, hreqs', hreqs, List.append_assoc]
    · rw [List.map_append, hkinds, hkinds', List.filterMap_cons]
      cases counterAdd ks idx wgt base i <;> rfl

theorem histTotal_of_counted {i k : Nat} (hk : k ∈ ks) (hi : idx k = i) :
    histTotal ks idx wgt i = some ((ks.filter (fun k => idx k == i)).foldl (fun a k => a + wgt k) 0) := by
  have hmem : k ∈ ks.filter (fun k => idx k == i) := List.mem_filter.mpr ⟨hk, beq_iff_eq.mpr hi⟩
  unfold histTotal
  cases hjs : ks.filter (fun k => idx k == i) with
  | nil => rw [hjs] at hmem; cases hmem
  | cons j js => rfl

theorem counted_of_histTotal {i n : Nat} (h : histTotal ks idx wgt i = some n) : ∃ k ∈ ks, idx k = i := by
  unfold histTotal at h
  cases hjs : ks.filter (fun k => idx k == i) with
  | nil => rw [hjs] at h; cases h
  | cons j js =>
    obtain ⟨hj, hi⟩ := List.mem_filter.mp (hjs ▸ List.mem_cons_self : j ∈ ks.filter (fun k => idx k == i))
    exact ⟨j, hj, beq_iff_eq.mp hi⟩

theorem counterAdd_eq_some {i : Nat} {a : ReqKind × List Seg} (h : counterAdd ks idx wgt base i = some a) :
    (∃ k ∈ ks, idx k = i) ∧ a.2.map (·.pa) = [base + i * 8] := by
  unfold counterAdd at h
  obtain ⟨n, hn, rfl⟩ := Option.map_eq_some_iff.mp h
  exact ⟨counted_of_histTotal ks idx wgt hn, rfl⟩

end

/-- R228: no two counters share an address. -/
theorem counterAdd_addresses_nodup (ks : List Nat) (idx wgt : Nat → Nat) (base n : Nat) :
    (((List.range n).filterMap (counterAdd ks idx wgt base)).map (fun a => a.2.map (·.pa))).Nodup := by
  rw [List.map_filterMap]
  refine List.Nodup.filterMap (fun i j b hi hj => ?_) List.nodup_range
  obtain ⟨a, ha, rfl⟩ := Option.map_eq_some_iff.mp hi
  obtain ⟨c, hc, hca⟩ := Option.map_eq_some_iff.mp hj
  rw [(counterAdd_eq_some _ _ _ _ ha).2, (counterAdd_eq_some _ _ _ _ hc).2, List.cons.injEq] at hca
  omega

theorem mem_activeLanes {m : BitVec 64} {k : Nat} : k ∈ activeLanes m ↔ k < 64 ∧ m.getLsbD k = true := by
  unfold activeLanes
  rw [upFrom_zero, List.mem_filter, List.mem_range]
  rfl

/-- The counter that a lane of VHIST counts in. -/
def histIndex (vs : List VReg) (k : Nat) : Nat := (lane (vval vs 0) k).toNat

/-- What a lane of VHIST adds to its counter: its weight, or one. -/
def histWeight (f : VF) (vs : List VReg) (k : Nat) : Nat := if f.imm13.getLsbD 0 then (lane (vval vs 1) k).toNat else 1

/-- The first counter of the block that imm13 names. -/
def histBlock (s : State) (f : VF) : Nat := clusterWin + s.cur.core / 64 * 0x1000000 + 0x10000 + f.immBits 7 6 * 0x200

/-- What the instruction asks of counter `i`. -/
def histRequest (s : State) (f : VF) (vs : List VReg) (i : Nat) : Option (ReqKind × List Seg) :=
  counterAdd (activeLanes (activeMask s f.pm)) (histIndex vs) (histWeight f vs) (histBlock s f) i

/-- Counter `i`'s turn in the instruction. -/
def histTurn (s : State) (f : VF) (vs : List VReg) : State → Nat → State :=
  histStep (activeLanes (activeMask s f.pm)) (histIndex vs) (histWeight f vs) (histBlock s f)

/-- R228: VHIST's effect is one request for each counter that a lane counts in. -/
theorem vectorHistogram : VectorHistogram := by
  intro s f vs hready
  obtain ⟨rs, hreqs, hkinds, hmem⟩ :=
    histSteps_requests (activeLanes (activeMask s f.pm)) (histIndex vs) (histWeight f vs) (histBlock s f) (List.range 64) s
  have hsent {r : Req} (hr : r ∈ rs) : ∃ i, i < 64 ∧ histRequest s f vs i = some (r.kind, r.todo) := by
    obtain ⟨i, hi, hadd⟩ := List.mem_filterMap.mp (hkinds ▸ List.mem_map_of_mem hr : (r.kind, r.todo) ∈ (List.range 64).filterMap _)
    exact ⟨i, List.mem_range.mp hi, hadd⟩
  refine ⟨(List.range 64).foldl (histTurn s f vs) s, rs, ?_, hreqs, hmem, ?_, ?_, ?_⟩
  · rw [exec_vhist, execVhist]
    refine (perform_completes (t := (upFrom 0 64).foldl (histTurn s f vs) s) (f := .seq) _ _ hready rfl).trans ?_
    rw [upFrom_zero]
    rfl
  · intro i hi k hactive hk hidx
    have hadd : histRequest s f vs i = some (_, _) :=
      congrArg (Option.map _) (histTotal_of_counted _ _ _ (mem_activeLanes.mpr ⟨hk, hactive⟩) hidx)
    have hmem : (_, _) ∈ rs.map (fun r => (r.kind, r.todo)) := hkinds ▸ List.mem_filterMap.mpr ⟨i, List.mem_range.mpr hi, hadd⟩
    obtain ⟨r, hr, heq⟩ := List.mem_map.mp hmem
    obtain ⟨hkind, htodo⟩ := Prod.mk.inj heq
    refine ⟨r, hr, htodo, hkind.trans ?_⟩
    simp only [activeLanes, upFrom_zero, List.filter_filter, histIndex, histWeight, w64, active, Bool.and_comm]
  · have hnodup := counterAdd_addresses_nodup (activeLanes (activeMask s f.pm)) (histIndex vs) (histWeight f vs) (histBlock s f) 64
    rw [← hkinds, List.map_map] at hnodup
    exact hnodup
  · intro r hr
    obtain ⟨i, hi, hadd⟩ := hsent hr
    obtain ⟨⟨k, hk, hidx⟩, hpa⟩ := counterAdd_eq_some _ _ _ _ hadd
    obtain ⟨hk64, hactive⟩ := mem_activeLanes.mp hk
    exact ⟨i, k, hi, hk64, hactive, hidx, hpa⟩

/-- Settles O20: integer and FP32 reductions by their operation, and the requests of VHIST counter by counter. -/
theorem vectorReductions : Obligations.VectorReductions := ⟨vectorReduce, vectorHistogram⟩

end Sys2Proof.Machine

/-! # O22: transcendental, converting, look-up and quantising members (R78, R80, R230, R233-R236) -/

namespace Sys2Proof.Machine
open Sys2Proof.Claims

/-! ### Members whose register comes later (R230) -/

@[simp] theorem curStream_emptiedV (s : State) (c : BitVec 6) : curStream (emptiedV s c) = vmark (curStream s) c.toNat false :=
  curStream_modCur s _
@[simp] theorem curCtx_emptiedV (s : State) (c : BitVec 6) : curCtx (emptiedV s c) = curCtx s := curCtx_modCur s _
@[simp] theorem activeMask_emptiedV (s : State) (c : BitVec 6) (pm : BitVec 3) : activeMask (emptiedV s c) pm = activeMask s pm := by
  unfold activeMask
  rw [curStream_emptiedV]
  rfl

theorem roundedLanes_emptiedV (s : State) (c : BitVec 6) (f : VF) (g : Nat → W32 → Rounded) :
    roundedLanes (emptiedV s c) f g = roundedLanes s f g := by
  funext k
  unfold roundedLanes
  rw [activeMask_emptiedV, curCtx_emptiedV]

theorem lanesRaise_emptiedV (s : State) (c : BitVec 6) (f : VF) (g : Nat → W32 → Rounded) :
    lanesRaise (emptiedV s c) f g = lanesRaise s f g := by
  unfold lanesRaise
  rw [roundedLanes_emptiedV]

/-- R80, R230: a transcendental member whose lanes raise no enabled flag leaves vd empty, its lanes on their way. -/
theorem transMember_of_masked (i : Instr) {s : State} {f : VF} {vs : List VReg} (op : Trans) (hfree : FreeV s f.vd)
    (hready : OpsReady s (planV1 s f) vs) {g : Nat → W32 → Rounded}
    (hg : g = fun k r => transLane op (modeOf s f) (ftzOf s) r (lane (vval (restVd s f vs) 0) k).toNat)
    (h : trapEnables (curCtx s) &&& lanesRaise s f g = 0) :
    transMember i f op s = .next (completed i (planV1 s f)
      (deliver (raisedAndStepped (emptiedV s f.vd) f (modeOf s f) (lanesRaise s f g)) (.vector f.vd.toNat)
        (laneResult s f vs (fun k => BitVec.ofNat 32 (roundedLanes s f g k).bits))) .seq) := by
  unfold transMember
  refine (perform_completes i _ hready ?_).trans rfl
  dsimp only
  rw [roundMode_curCtx, emptyVec_free hfree, ← activeMask_emptiedV s f.vd]
  show (roundLanes (emptiedV s f.vd) _ _ (fun k r => transLane op (modeOf s f) (ftzOf s) r (lane (vval (restVd s f vs) 0) k).toNat) >>= _) = _
  rw [← hg, roundLanes_of_masked _ (by rw [curCtx_emptiedV, lanesRaise_emptiedV]; exact h), lanesRaise_emptiedV, roundedLanes_emptiedV]
  show Except.ok (deliver _ _ (mergeLanes _ _ _ _), Flow.seq) = _
  rw [activeMask_emptiedV, mergeLanes_listed]

theorem transcendentals : Transcendentals := by
  intro s f vs hfree hready
  simp only [transRows, List.forall_mem_cons, List.not_mem_nil, false_imp_iff, implies_true, and_true, exec_vexp2, exec_vrcp, exec_vrsq,
    exec_vlog2, execVexp2, execVrcp, execVrsq, execVlog2]
  exact ⟨transMember_of_masked _ _ hfree hready rfl, transMember_of_masked _ _ hfree hready rfl,
    transMember_of_masked _ _ hfree hready rfl, transMember_of_masked _ _ hfree hready rfl⟩

/-! ### VCVT (R233, R234) -/

/-- R233: results listed by lane replace a part's elements as results given by lane. -/
theorem putPart_listed (old : VReg) (w dp : Nat) (m : BitVec 64) (zm : Bool) (res : Nat → W32) :
    putPart old w dp m zm (fun k => (((upFrom 0 64).map res).getD k 0).toNat) = putPart old w dp m zm (fun k => (res k).toNat) := by
  unfold putPart
  refine congrArg (fun xs => setElem old (64 * w) dp (packNat w xs)) (List.map_congr_left fun k hk => ?_)
  dsimp only
  rw [getD_upFrom_map 0 res 64 hk]

section
variable {s : State} {f : VF} {vs : List VReg}

/-- R233: what VCVT makes of an element of its source part. -/
def cvtLane (s : State) (f : VF) (vs : List VReg) (k : Nat) (r : W32) : Rounded :=
  let src := f.immBits 0 4
  let e := elem (vval vs (if cvtReads s f then 1 else 0)) (fmtWidth src) (64 * f.immBits 4 3 + k)
  convert f.ty4.toNat (modeOf s f) (ftzOf s) r (flushIn (ftzOf s) src (readElem src e) e)

theorem exec_vcvt_of_masked (hfree : FreeV s f.vd) (hready : OpsReady s (planCvt s f) vs)
    (h : trapEnables (curCtx s) &&& lanesRaise s f (cvtLane s f vs) = 0) :
    exec (.vcvt f) s = .next (completed (.vcvt f) (planCvt s f)
      (wroteV (raisedAndStepped s f (modeOf s f) (lanesRaise s f (cvtLane s f vs))) f.vd
        (putPart (if cvtReads s f then vval vs 0 else 0) (fmtWidth f.ty4.toNat) (f.immBits 7 3) (activeMask s f.pm) f.zm
          (fun k => (BitVec.ofNat 32 (roundedLanes s f (cvtLane s f vs) k).bits).toNat))) .seq) := by
  rw [exec_vcvt, execVcvt]
  refine perform_completes _ _ hready ?_
  dsimp only
  rw [roundMode_curCtx]
  show (roundLanes s _ _ (cvtLane s f vs) >>= _) = _
  rw [roundLanes_of_masked _ h]
  show (setVec _ f.vd (putPart _ _ _ _ _ _) >>= _) = _
  rw [setVec_free (freeV_raisedAndStepped hfree _ _), putPart_listed]
  rfl

/-! ### VLUT (R78, R236) -/

theorem exec_vlut_of_idle (hfree : FreeV s f.vd) (hready : OpsReady s (planV1 s f) vs) (hcb : (curCtx s).cbBusy = 0) :
    exec (.vlut f) s = .next (completed (.vlut f) (planV1 s f) (wroteV s f.vd (laneResult s f vs (fun k =>
      BitVec.ofNat 32 ((curCtx s).cb.toNat / 2 ^ (16 * elem (vval (restVd s f vs) 0) 4 (64 * f.immBits 4 3 + k)) % 2 ^ 16 * 2 ^ 16)))) .seq) := by
  have hidle : cbReady s = .ok () := by
    unfold cbReady
    rw [if_neg (not_not.mpr hcb)]
  rw [exec_vlut, execVlut]
  refine perform_completes _ _ hready ?_
  rw [hidle]
  show (setVec s f.vd (mergeLanes _ _ _ _) >>= _) = _
  rw [setVec_free hfree]
  simp only [cbEntry, wbits, Nat.shiftRight_eq_div_pow]
  unfold mergeLanes
  rw [upFrom_zero]
  rfl

end

/-! ### What completing leaves of a stream, its context and the rest (R163, R205) -/

/-- What a change of a context leaves alone, popping queues leaves alone. -/
theorem popRead_keeps {α : Type} (view : State → α) (hctx : ∀ s n c f, view (modCtx s n c f) = view s) (s : State) (p : Plan) (f : Flow) :
    view (popRead s p f) = view s := by
  have hpop (w : StreamId) (qs : List Nat) (s : State) : view (popQueues s w qs) = view s := by
    induction qs generalizing s with
    | nil => rfl
    | cons q qs ih => exact (ih _).trans (hctx s _ _ _)
  unfold popRead
  split
  · rfl
  · exact hpop _ _ _

theorem popRead_cur (s : State) (p : Plan) (f : Flow) : (popRead s p f).cur = s.cur := popRead_keeps State.cur (fun _ _ _ _ => rfl) s p f

/-- What a change of a context or of a stream leaves alone, completing leaves alone. -/
theorem completed_keeps {α : Type} (view : State → α) (hctx : ∀ s n c f, view (modCtx s n c f) = view s)
    (hstream : ∀ s w f, view (modStream s w f) = view s) (i : Instr) (p : Plan) (t : State) (f : Flow) : view (completed i p t f) = view t := by
  unfold completed modCur
  rw [hstream, popRead_keeps view hctx]

theorem curStream_completed (i : Instr) (p : Plan) (t : State) (f : Flow) :
    curStream (completed i p t f) = flowStream (curStream t) (instrSize i) f := by
  unfold completed
  rw [curStream_modCur]
  unfold curStream
  rw [popRead_cur, popRead_keeps (fun s => getStream s t.cur) (fun s n c f => getStream_modCtx s n c f _)]

/-- R163: completing pops queues of its context, and changes nothing else there. -/
theorem curCtx_completed (i : Instr) (p : Plan) (t : State) (f : Flow) :
    ∃ qs ps, curCtx (completed i p t f) = { curCtx t with queues := qs, queueParity := ps } := by
  have hpop (qs : List Nat) (s : State) : ∃ a b, curCtx (popQueues s s.cur qs) = { curCtx s with queues := a, queueParity := b } := by
    induction qs generalizing s with
    | nil => exact ⟨_, _, rfl⟩
    | cons q qs ih =>
      obtain ⟨a, b, h⟩ := ih (modCurCtx s (fun c => { c with
        queues := tset [] c.queues q (tget [] c.queues q).tail
        queueParity := (c.queueParity.filter (· != (q, 0))).map (fun e => if e.1 = q then (q, e.2 - 1) else e) }))
      rw [curCtx_modCurCtx] at h
      exact ⟨a, b, h⟩
  unfold completed
  rw [curCtx_modCur]
  unfold popRead
  split
  · exact ⟨_, _, rfl⟩
  · exact hpop _ t

theorem fpflags_completed (i : Instr) (p : Plan) (t : State) (f : Flow) : (curCtx (completed i p t f)).fpflags = (curCtx t).fpflags := by
  obtain ⟨qs, ps, h⟩ := curCtx_completed i p t f
  rw [h]

theorem closeLevel_vreg (x : Stream) (l : Level) : (closeLevel x l).vreg = x.vreg := rfl

/-- R205: the end test touches no register. -/
theorem endTest_vreg (ls : List Level) (x : Stream) (a next : W64) : (endTest x ls a next).1.vreg = x.vreg := by
  induction ls generalizing x with
  | nil => rfl
  | cons l ls ih =>
    unfold endTest
    split
    · dsimp only
      split
      · rfl
      · exact ih _
    · rfl

theorem vget_flowStream_seq (x : Stream) (n v : Nat) : vget (flowStream x n .seq) v = vget x v := by
  unfold vget flowStream advance
  rw [endTest_vreg]

/-! ### VQMX (R235) -/

theorem freeV_wroteV {s : State} {c : BitVec 6} (h : FreeV s c) (d : BitVec 6) (v : VReg) : FreeV (wroteV s d v) c := by
  unfold FreeV vectorPending wroteV noteProducer
  rw [pendingDests_modCtx]
  exact (congrArg (fun l : List Dest => l.any (destsVector · c.toNat)) (pendingDests_modStream s s.cur _ _)).trans h

@[simp] theorem curStream_wroteV (s : State) (c : BitVec 6) (v : VReg) : curStream (wroteV s c v) = vput (curStream s) c.toNat v :=
  (getStream_modCtx _ _ _ _ _).trans (curStream_modCur s _)

theorem vget_vput_same (x : Stream) (v : Nat) (d : VReg) : vget (vput x v d) v = d := tget_tset_same _ _ _ _
theorem vget_vput_ne (x : Stream) {u v : Nat} (h : u ≠ v) (d : VReg) : vget (vput x v d) u = vget x u := tget_tset_ne _ _ _ _ _ h

@[simp] theorem stepGens_fpflags (c : Ctx) (ks : List Nat) : (stepGens c ks).fpflags = c.fpflags := by
  induction ks generalizing c with
  | nil => rfl
  | cons k ks ih => exact ih _

@[simp] theorem curStream_stepIn (s : State) (mode : Nat) (ks : List Nat) : curStream (stepIn s mode ks) = curStream s := by
  unfold stepIn
  split
  · exact curStream_modCurCtx s _
  · rfl

theorem fpflags_stepIn (s : State) (mode : Nat) (ks : List Nat) : (curCtx (stepIn s mode ks)).fpflags = (curCtx s).fpflags := by
  unfold stepIn
  split
  · rw [curCtx_modCurCtx, stepGens_fpflags]
  · rfl

theorem fpflags_wroteV (s : State) (c : BitVec 6) (v : VReg) : (curCtx (wroteV s c v)).fpflags = (curCtx s).fpflags := by
  have h : curCtx (wroteV s c v) = _ := getCtx_modCtx (modCur s (fun x => vput x c.toNat v)) s.cur.core s.cur.ctx _
  rw [h]
  show (curCtx (modCur s (fun x => vput x c.toNat v))).fpflags = _
  rw [curCtx_modCur]

section
variable {s : State} {f : VF} {vs : List VReg}

/-- R235: what VQMX makes of a block of 32 lanes: scale, elements and flags. -/
def qmxBlock (s : State) (f : VF) (vs : List VReg) (b : Nat) : Nat × List Nat × Flags :=
  quantBlock f.ty4.toNat (modeOf s f) ((List.range 32).map (fun j => laneGen (curCtx s) (32 * b + j)))
    ((List.range 32).map (fun j => fp32 (ftzOf s) (lane (vval vs 1) (32 * b + j))))

/-- The flags of both blocks. -/
def qmxFlags (s : State) (f : VF) (vs : List VReg) : Flags := (qmxBlock s f vs 0).2.2 ||| (qmxBlock s f vs 1).2.2

/-- R235: the elements of both blocks in vd's part, their scales in vs3. -/
def qmxElems (s : State) (f : VF) (vs : List VReg) : VReg :=
  setElem (vval vs 0) (64 * fmtWidth f.ty4.toNat) (f.immBits 7 3)
    (packNat (fmtWidth f.ty4.toNat) ((qmxBlock s f vs 0).2.1 ++ (qmxBlock s f vs 1).2.1))
def qmxScales (s : State) (f : VF) (vs : List VReg) : VReg :=
  setElem (setElem (vval vs 2) 8 (2 * f.immBits 7 3) (qmxBlock s f vs 0).1) 8 (2 * f.immBits 7 3 + 1) (qmxBlock s f vs 1).1

theorem map_upFrom_add {α : Type} (g : Nat → α) (i n : Nat) : (upFrom i n).map g = (List.range n).map (fun j => g (i + j)) := by
  rw [upFrom_eq_range', List.range'_eq_map_range, List.map_map]
  rfl

variable (hready : OpsReady s (planQmx f) vs)
include hready

theorem exec_vqmx_of_clash (h : f.vs3 = f.vd ∨ f.vs3 = f.vs1) :
    exec (.vqmx f) s = .next (takeTrap s cOPERAND (f.vs3.setWidth 64) (instrWords (.vqmx f))) := by
  rw [exec_vqmx, execVqmx]
  refine (perform_of_ready _ _ hready).trans ?_
  rw [if_pos h]
  rfl

theorem exec_vqmx_of_masked (hvd : f.vs3 ≠ f.vd) (hvs1 : f.vs3 ≠ f.vs1) (hfreed : FreeV s f.vd) (hfree3 : FreeV s f.vs3)
    (h : trapEnables (curCtx s) &&& qmxFlags s f vs = 0) :
    exec (.vqmx f) s = .next (completed (.vqmx f) (planQmx f)
      (wroteV (wroteV (stepIn (flagged s (qmxFlags s f vs)) (modeOf s f) (upFrom 0 64)) f.vd (qmxElems s f vs)) f.vs3 (qmxScales s f vs)) .seq) := by
  rw [exec_vqmx, execVqmx]
  refine perform_completes _ _ hready ?_
  rw [if_neg (not_or.mpr ⟨hvd, hvs1⟩)]
  dsimp only
  rw [roundMode_curCtx]
  simp only [map_upFrom_add]
  show (raiseFlags s (qmxFlags s f vs) >>= _) = _
  rw [raiseFlags_of_masked h]
  show (setVec (stepIn (flagged s (qmxFlags s f vs)) (modeOf s f) (upFrom 0 64)) f.vd (qmxElems s f vs) >>= _) = _
  have hkeep {c : BitVec 6} (hc : FreeV s c) := freeV_stepIn (freeV_flagged hc (qmxFlags s f vs)) (modeOf s f) (upFrom 0 64)
  rw [setVec_free (hkeep hfreed)]
  show (setVec (wroteV _ _ _) f.vs3 (qmxScales s f vs) >>= _) = _
  rw [setVec_free (freeV_wroteV (hkeep hfree3) _ _)]
  rfl

end

/-! ### O22 -/

/-- R78, R233-R236: VCVT, VLUT and VQMX. -/
theorem vectorConvert : VectorConvert := by
  intro s f vs
  refine ⟨fun hfree hready => ?_, fun hfree hready hcb => exec_vlut_of_idle hfree hready hcb,
    fun hready => ⟨fun h => exec_vqmx_of_clash hready h, fun hvd hvs1 hfreed hfree3 => ?_⟩⟩
  · exact exec_vcvt_of_masked hfree hready
  intro fmt blk h
  refine ⟨_, exec_vqmx_of_masked hready hvd hvs1 hfreed hfree3 h, ?_, ?_, ?_, ?_⟩
  · have hne : f.vd.toNat ≠ f.vs3.toNat := fun heq => hvd (BitVec.eq_of_toNat_eq heq).symm
    rw [curStream_completed, vget_flowStream_seq, curStream_wroteV, vget_vput_ne _ hne, curStream_wroteV, vget_vput_same]
    rfl
  · rw [curStream_completed, vget_flowStream_seq, curStream_wroteV, vget_vput_same]
    rfl
  · rw [fpflags_completed, fpflags_wroteV, fpflags_wroteV, fpflags_stepIn, flagged, curCtx_modCurCtx]
    exact (BitVec.or_assoc _ _ _).symm
  · exact (memoryCanonical.2 s _ (.vqmx f) rfl (fun _ => nofun) (fun _ => nofun) (exec_vqmx_of_masked hready hvd hvs1 hfreed hfree3 h)).1

/-- Settles O22: the transcendental members deliver later, VCVT, VLUT and VQMX write at once. -/
theorem vectorConversion : Obligations.VectorConversion := ⟨transcendentals, vectorConvert⟩

end Sys2Proof.Machine

/-! # O26: copies accepted, asked after and cancelled (R73, R277-R280) -/

namespace Sys2Proof.Machine
open Sys2Proof.Claims

/-! ### Copies while contexts and streams change -/

theorem getCtx_modCore (s : State) (n : Nat) (f : Core → Core) (h : (f (getCore s n)).ctxs = (getCore s n).ctxs) (m c : Nat) :
    getCtx (modCore s n f) m c = getCtx s m c :=
  congrArg (tget ({} : Ctx) · c) (core_modCore_keeps (·.ctxs) s n f h m)

theorem getCopy_of_core {s t : State} {n : Nat} (hn : n < 1024) (h : (getCore t n).copies = (getCore s n).copies) (k : Nat) :
    getCopy t n k = getCopy s n k := by
  unfold getCopy
  rw [if_pos hn, if_pos hn, h]

theorem getCopy_setCopy {n : Nat} (hn : n < 1024) (s : State) (k : Nat) (c : Copy) : getCopy (setCopy s n k c) n k = c := by
  unfold getCopy setCopy
  rw [if_pos hn, if_pos hn, getCore_modCore]
  exact tget_tset_same _ _ _ _

theorem getCopy_modCtx {n : Nat} (hn : n < 1024) (k : Nat) (s : State) (m c : Nat) (f : Ctx → Ctx) :
    getCopy (modCtx s m c f) n k = getCopy s n k :=
  getCopy_of_core hn (core_modCore_keeps (·.copies) s m _ rfl n) k

theorem getCopy_modStream {n : Nat} (hn : n < 1024) (k : Nat) (s : State) (w : StreamId) (f : Stream → Stream) :
    getCopy (modStream s w f) n k = getCopy s n k :=
  getCopy_of_core hn (core_modCore_keeps (·.copies) s w.core _ (by split <;> rfl) n) k

theorem getCopy_completed {n : Nat} (hn : n < 1024) (k : Nat) (i : Instr) (p : Plan) (t : State) (f : Flow) :
    getCopy (completed i p t f) n k = getCopy t n k :=
  completed_keeps (getCopy · n k) (getCopy_modCtx hn k) (getCopy_modStream hn k) i p t f

/-! ### Handles (R277, R279) -/

section
variable (s : State) (h : W64)

/-- R279: a handle names a slot below 128 and a generation, its upper bits clear. -/
theorem handleSlot_of_named (hgen : h.toNat < 2 ^ 40) (hslot : h.toNat % 256 < 128) :
    handleSlot s h = .ok (h.toNat % 256, (getCopy s s.cur.core (h.toNat % 256)).gen == h.toNat / 256) := by
  unfold handleSlot wbits
  simp only [Nat.shiftRight_eq_div_pow, Nat.reducePow]
  rw [if_neg (by omega), show h.toNat / 256 % 4294967296 = h.toNat / 256 by omega, Nat.div_one]

theorem handleSlot_of_unnamed (hbad : 2 ^ 40 ≤ h.toNat ∨ 128 ≤ h.toNat % 256) : handleSlot s h = trapEx cOPERAND h := by
  have hlt := h.isLt
  unfold handleSlot wbits
  simp only [Nat.shiftRight_eq_div_pow, Nat.reducePow]
  rw [if_pos (by omega)]

end

/-! ### CPYSTAT (R279) -/

section
variable {s : State} {f : EF} {vs : List VReg} (hready : OpsReady s (planM [dstS f.rd, srcS 1 f.rs1 f.w]) vs)
include hready

theorem exec_cpystat_of_named (hfree : FreeS s f.rd) (hgen : (sval vs 0).toNat < 2 ^ 40) (hslot : (sval vs 0).toNat % 256 < 128) :
    exec (.cpystat f) s = .next (completed (.cpystat f) (planM [dstS f.rd, srcS 1 f.rs1 f.w])
      (wrote s f.rd (if (getCopy s s.cur.core ((sval vs 0).toNat % 256)).gen = (sval vs 0).toNat / 256 then
          BitVec.ofNat 64 ((getCopy s s.cur.core ((sval vs 0).toNat % 256)).secdone * 2 ^ 32 +
            (getCopy s s.cur.core ((sval vs 0).toNat % 256)).state)
        else 8)) .seq) := by
  rw [exec_cpystat, execCpystat]
  refine perform_completes _ _ hready ?_
  rw [handleSlot_of_named s _ hgen hslot]
  show (setReg s f.rd _ >>= _) = _
  rw [setReg_free hfree]
  simp only [beq_iff_eq]
  rfl

theorem exec_cpystat_of_unnamed (hbad : 2 ^ 40 ≤ (sval vs 0).toNat ∨ 128 ≤ (sval vs 0).toNat % 256) :
    exec (.cpystat f) s = .next (takeTrap s cOPERAND (sval vs 0) (instrWords (.cpystat f))) := by
  rw [exec_cpystat, execCpystat]
  refine (perform_of_ready _ _ hready).trans ?_
  rw [handleSlot_of_unnamed s _ hbad]
  rfl

end

/-! ### CPYCANCEL (R280) -/

theorem withdrawFault_cur (s : State) (n k : Nat) : (withdrawFault s n k).cur = s.cur := by
  unfold withdrawFault
  dsimp only
  split <;> rfl

section
variable {s : State} {f : EF} {vs : List VReg} (hready : OpsReady s (planM [srcS 1 f.rs1 f.w]) vs)
include hready

theorem exec_cpycancel_of_unnamed (hbad : 2 ^ 40 ≤ (sval vs 0).toNat ∨ 128 ≤ (sval vs 0).toNat % 256) :
    exec (.cpycancel f) s = .next (takeTrap s cOPERAND (sval vs 0) (instrWords (.cpycancel f))) := by
  rw [exec_cpycancel, execCpycancel]
  refine (perform_of_ready _ _ hready).trans ?_
  rw [handleSlot_of_unnamed s _ hbad]
  rfl

/-- R280: of a stale handle, or of a copy that has ended, CPYCANCEL completes. -/
theorem exec_cpycancel_of_ended (hgen : (sval vs 0).toNat < 2 ^ 40) (hslot : (sval vs 0).toNat % 256 < 128)
    (hended : (getCopy s s.cur.core ((sval vs 0).toNat % 256)).gen ≠ (sval vs 0).toNat / 256 ∨
      copyLive (getCopy s s.cur.core ((sval vs 0).toNat % 256)) = false) :
    exec (.cpycancel f) s = .next (completed (.cpycancel f) (planM [srcS 1 f.rs1 f.w]) s .seq) := by
  rw [exec_cpycancel, execCpycancel]
  refine perform_completes _ _ hready ?_
  rw [handleSlot_of_named s _ hgen hslot]
  refine if_pos ?_
  rcases hended with h | h <;> simp [h]

/-- A copy told to issue no further sector, its COPY_FAULT withdrawn (R280, R359). -/
def cancelled (s : State) (k : Nat) : State :=
  modCopy (withdrawFault s s.cur.core k) s.cur.core k
    (fun c => { c with cancel := true, suspend := false, state := if c.state = 1 then 1 else 2 })

/-- R280: a copy that may still issue sectors is told to stop, and the stream waits for its end. -/
theorem exec_cpycancel_of_live (hgen : (sval vs 0).toNat < 2 ^ 40) (hslot : (sval vs 0).toNat % 256 < 128)
    (hcur : (getCopy s s.cur.core ((sval vs 0).toNat % 256)).gen = (sval vs 0).toNat / 256)
    (hlive : copyLive (getCopy s s.cur.core ((sval vs 0).toNat % 256)) = true)
    (hissues : copyEnding (getCopy s s.cur.core ((sval vs 0).toNat % 256)) = false ∨ (getCopy s s.cur.core ((sval vs 0).toNat % 256)).state = 3) :
    exec (.cpycancel f) s =
      .next (completed (.cpycancel f) (planM [srcS 1 f.rs1 f.w]) (cancelled s ((sval vs 0).toNat % 256)) (.hold .interlock)) := by
  rw [exec_cpycancel, execCpycancel]
  refine perform_completes _ _ hready ?_
  rw [handleSlot_of_named s _ hgen hslot]
  refine (if_neg ?_).trans ((if_neg ?_).trans ?_)
  · simp [hcur, hlive]
  · rcases hissues with h | h <;> simp [h]
  · unfold cancelled
    dsimp only
    rw [withdrawFault_cur]

end

theorem withdrawFault_eq {n : Nat} (hn : n < 1024) (s : State) (k : Nat) :
    withdrawFault s n k = modCtx s (getCopy s n k).core (getCopy s n k).ctx (fun x =>
      { x with pending := x.pending.filter (fun t => !(t.cause == cCOPY && t.inst == copyHandle (getCopy s n k) k)) }) := by
  unfold withdrawFault
  dsimp only
  rw [if_pos hn]

theorem getCtx_setCopy (s : State) (n k : Nat) (c : Copy) (m x : Nat) : getCtx (setCopy s n k c) m x = getCtx s m x := by
  unfold setCopy
  split
  · exact getCtx_modCore s n _ rfl m x
  · rfl

section
variable {s : State} (hn : s.cur.core < 1024) (k : Nat)
include hn

theorem getCopy_cancelled : getCopy (cancelled s k) s.cur.core k =
    { getCopy s s.cur.core k with cancel := true, suspend := false, state := if (getCopy s s.cur.core k).state = 1 then 1 else 2 } := by
  unfold cancelled modCopy
  rw [getCopy_setCopy hn, withdrawFault_eq hn, getCopy_modCtx hn]

/-- R359: no COPY_FAULT of a cancelled copy is pending. -/
theorem pending_cancelled (a : AsyncTrap)
    (h : a ∈ (getCtx (cancelled s k) (getCopy s s.cur.core k).core (getCopy s s.cur.core k).ctx).pending) :
    ¬ (a.cause = cCOPY ∧ a.inst = copyHandle (getCopy s s.cur.core k) k) := by
  unfold cancelled modCopy at h
  rw [getCtx_setCopy, withdrawFault_eq hn, getCtx_modCtx] at h
  simpa [imp_iff_not_or] using (List.mem_filter.mp h).2

theorem curStream_cancelled : curStream (cancelled s k) = curStream s := by
  have hstream (t : State) (c : Copy) : getStream (setCopy t s.cur.core k c) s.cur = getStream t s.cur := by
    unfold setCopy
    rw [if_pos hn]
    unfold getStream
    rw [core_modCore_keeps (·.aps) t s.cur.core _ rfl, core_modCore_keeps (·.cps) t s.cur.core _ rfl]
  have hcur : (cancelled s k).cur = s.cur := by
    unfold cancelled modCopy setCopy
    rw [if_pos hn, withdrawFault_eq hn]
    rfl
  unfold curStream
  rw [hcur]
  unfold cancelled modCopy
  rw [hstream, withdrawFault_eq hn, getStream_modCtx]

end

/-! ### What a read of pieces gives and leaves alone (R374) -/

/-- Free bytes draw free values and change nothing else. -/
theorem freeBytes_keeps {α : Type} (view : State → α) (hopen : ∀ s c, view { s with openCnt := c } = view s) (s : State) (n : Nat) :
    view (freeBytes s n).2 = view s := by
  have hfold (ks : List Nat) (a : Nat × State) : view (ks.foldl (fun r k =>
      let w := takeFree r.2
      (r.1 + w.1.toNat * 2 ^ (64 * k), w.2)) a).2 = view a.2 := by
    induction ks generalizing a with
    | nil => rfl
    | cons k ks ih => exact (ih _).trans (hopen a.2 _)
  exact hfold _ (0, s)

theorem readRaw_keeps {α : Type} (view : State → α) (hopen : ∀ s c, view { s with openCnt := c } = view s) (s : State) (g : Seg) :
    view (readRaw s g).2 = view s := by
  unfold readRaw
  split
  · exact freeBytes_keeps view hopen s g.len
  · rfl

/-- A piece of a read, joined to the data before it. -/
def readInto1 (a : Req × State) (g : Seg) : Req × State :=
  ({ a.1 with data := putData a.1.data g (readRaw a.2 g).1 }, (readRaw a.2 g).2)

/-- A request without the pieces read. -/
def withoutPieces (r : Req) (gs : List Seg) : Req := { r with todo := r.todo.filter (fun g => !gs.contains g) }

theorem readPieces_eq (s : State) (r : Req) (gs : List Seg) : readPieces s r gs =
    (joinPieces gs).foldl readInto1 (withoutPieces r gs, addTraffic (countPieces s gs) r.launch gs) := rfl

/-- A read counts its bursts and its traffic, and draws free values. -/
theorem readPieces_keeps {α : Type} (view : State → α) (hopen : ∀ s c, view { s with openCnt := c } = view s)
    (hhbm : ∀ s k f, view (modStack s k f) = view s) (htraffic : ∀ s x, view { s with traffic := x } = view s) (s : State) (r : Req) (gs : List Seg) :
    view (readPieces s r gs).2 = view s := by
  have hfold (gs : List Seg) (a : Req × State) : view (gs.foldl readInto1 a).2 = view a.2 := by
    induction gs generalizing a with
    | nil => rfl
    | cons g gs ih => exact (ih _).trans (readRaw_keeps view hopen a.2 g)
  have hcount : view (countPieces s gs) = view s := foldl_keeps view _ (fun s _ => hhbm s _ _) _ s
  have hadd (s : State) (e : Nat) : view (addTraffic s e gs) = view s := by
    unfold addTraffic
    dsimp only
    split
    · rfl
    · exact htraffic s _
  rw [readPieces_eq, hfold, hadd, hcount]

/-- The state with other traffic counted. -/
def withTraffic (x : Tbl Nat) (s : State) : State := { s with traffic := x }

theorem freeBytes_withTraffic (x : Tbl Nat) (s : State) (n : Nat) :
    freeBytes (withTraffic x s) n = ((freeBytes s n).1, withTraffic x (freeBytes s n).2) := by
  have hfold (step : Nat × State → Nat → Nat × State)
      (hstep : ∀ a t k, step (a, withTraffic x t) k = ((step (a, t) k).1, withTraffic x (step (a, t) k).2)) (ks : List Nat) (a : Nat) (t : State) :
      ks.foldl step (a, withTraffic x t) = ((ks.foldl step (a, t)).1, withTraffic x (ks.foldl step (a, t)).2) := by
    induction ks generalizing a t with
    | nil => rfl
    | cons k ks ih => rw [List.foldl_cons, hstep, ih, List.foldl_cons]
  exact hfold _ (fun _ _ _ => rfl) _ 0 s

theorem readRaw_withTraffic (x : Tbl Nat) (s : State) (g : Seg) :
    readRaw (withTraffic x s) g = ((readRaw s g).1, withTraffic x (readRaw s g).2) := by
  unfold readRaw
  split
  · rw [freeBytes_withTraffic]
  · rw [withTraffic, physRead_traffic]

theorem readInto1_withTraffic (x : Tbl Nat) (gs : List Seg) {r q : Req} (h : r.data = q.data) (s : State) :
    (gs.foldl readInto1 (r, withTraffic x s)).1.data = (gs.foldl readInto1 (q, s)).1.data := by
  induction gs generalizing r q s with
  | nil => exact h
  | cons g gs ih =>
    rw [List.foldl_cons, List.foldl_cons, readInto1, readInto1, readRaw_withTraffic]
    exact ih (by rw [h]) _

/-- What a read gives depends neither on the traffic counted nor on what else its request says. -/
theorem readPieces_data {r q : Req} (h : r.data = q.data) (s : State) (gs : List Seg) :
    (readPieces s r gs).1.data = (readPieces s q gs).1.data := by
  obtain ⟨x, hx⟩ := addTraffic_eq (countPieces s gs) r.launch gs
  obtain ⟨y, hy⟩ := addTraffic_eq (countPieces s gs) q.launch gs
  rw [readPieces_eq, readPieces_eq, show addTraffic _ r.launch gs = withTraffic x _ from hx, show addTraffic _ q.launch gs = withTraffic y _ from hy]
  exact (readInto1_withTraffic x _ (r := withoutPieces r gs) (q := withoutPieces q gs) h _).trans (readInto1_withTraffic y _ rfl _).symm

/-! ### The table's entries (R109) -/

/-- What a core's part of the table is read from. -/
def tableView (c : Core) : List Task × Tbl Copy × Tbl Ctx × Nat × Nat × Nat := (c.tasks, c.copies, c.ctxs, c.tdbase, c.tdsize, c.tdesz)

theorem tableCount_congr {s t : State} (h : ∀ k, tableView (getCore t k) = tableView (getCore s k)) (hreqs : t.reqs = s.reqs) (n : Nat) :
    tableCount t n = tableCount s n := by
  simp only [tableView, Prod.mk.injEq] at h
  have htiles : windowTiles t = windowTiles s := by
    funext pa m
    unfold windowTiles
    split
    case h_5 c _ _ =>
      obtain ⟨-, -, -, hbase, hsize, hesz⟩ := h c
      dsimp only
      rw [hbase, hsize, hesz]
    all_goals rfl
  obtain ⟨htasks, hcopies, hctxs, _⟩ := h n
  have hmeets : meetsTiles t n = meetsTiles s n := by
    unfold meetsTiles coreTiles
    rw [htiles]
  unfold tableCount spillEntries
  rw [htasks, hcopies, hctxs, hmeets, hreqs]

theorem tableCount_modStream (s : State) (w : StreamId) (f : Stream → Stream) (n : Nat) : tableCount (modStream s w f) n = tableCount s n :=
  tableCount_congr (fun k => core_modCore_keeps tableView s w.core _ (by split <;> rfl) k) rfl n

/-! ### CPY (R277, R278) -/

theorem cbReady_of_idle {s : State} (h : (curCtx s).cbBusy = 0) : cbReady s = .ok () := by
  unfold cbReady
  rw [if_neg (not_not.mpr h)]

/-- R289: where the codebook is read only where `c` says so, and then no CBLOAD is pending, a member goes on. -/
theorem ite_cbReady {α : Type} {s : State} {c : Prop} [Decidable c] (h : c → (curCtx s).cbBusy = 0) {x : Ex α} :
    (if c then cbReady s >>= fun _ => x else x) = x := by
  split
  · next hc =>
    rw [cbReady_of_idle (h hc)]
    rfl
  · rfl

/-- The descriptor that CPY reads, and the state after the read (R271, R277). -/
def cpyRead (s : State) (segs : List Seg) : Req × State := readPieces s { atIssue s .load false false with todo := segs } segs
def cpyDesc (s : State) (segs : List Seg) : CopyDesc :=
  CopyDesc.ofWords ((upFrom 0 16).map (fun j => w64 (wbits (cpyRead s segs).1.data (64 * j) 64)))

/-- What a copy keeps of the stream that issues it. -/
def cpyBase (s : State) : Copy :=
  { ctx := s.cur.ctx, asid := curAsid s, root := curRoot s, sup := curSup s, core := s.cur.core, window := curWindow s
    cb := (curCtx s).cb, launch := curLaunch s, slot := curSlot s, fir := curOrd s
    replay := (curCtx s).firing.any (·.replay) }

/-- The copy that CPY puts in slot `k`. -/
def cpyCopy (s : State) (rd : BitVec 6) (segs : List Seg) (k : Nat) : Copy :=
  newCopy (emptied (cpyRead s segs).2 rd) s.cur.core k (cpyDesc s segs) (cpyBase s)

/-- The engine with the copy that CPY puts in slot `k`. -/
def cpyStarted (s : State) (rd : BitVec 6) (segs : List Seg) (k : Nat) : State :=
  startCopy (emptied (cpyRead s segs).2 rd) s.cur.core k (cpyCopy s rd segs k)

theorem cpyRead_keeps (s : State) (segs : List Seg) :
    (cpyRead s segs).2.cores = s.cores ∧ (cpyRead s segs).2.reqs = s.reqs ∧ (cpyRead s segs).2.freqs = s.freqs ∧ (cpyRead s segs).2.cur = s.cur := by
  have h : (fun s : State => (s.cores, s.reqs, s.freqs, s.cur)) (cpyRead s segs).2 = (s.cores, s.reqs, s.freqs, s.cur) :=
    readPieces_keeps (fun s => (s.cores, s.reqs, s.freqs, s.cur)) (fun _ _ => rfl) (fun _ _ _ => rfl) (fun _ _ => rfl) s
      { atIssue s .load false false with todo := segs } segs
  simpa only [Prod.mk.injEq] using h

section
variable {s : State} {f : EF} {vs : List VReg} {segs : List Seg} {k : Nat}

theorem freeS_cpyRead {c : BitVec 6} (h : FreeS s c) : FreeS (cpyRead s segs).2 c := by
  obtain ⟨hcores, hreqs, hfreqs, hcur⟩ := cpyRead_keeps s segs
  unfold FreeS scalarPending pendingDests phys curStream getStream getCtx getCore at h ⊢
  rw [hcur, hcores, hreqs, hfreqs]
  exact h

theorem roomFor_cpyRead (h : RoomFor s) : tableFull (emptied (cpyRead s segs).2 f.rd) s.cur.core = false := by
  obtain ⟨hcores, hreqs, -, -⟩ := cpyRead_keeps s segs
  unfold tableFull
  rw [show tableCount (emptied (cpyRead s segs).2 f.rd) s.cur.core = tableCount s s.cur.core from
    (tableCount_modStream _ _ _ _).trans (tableCount_congr (fun m => by unfold getCore; rw [hcores]) hreqs _)]
  exact decide_eq_false (Nat.not_le.mpr h)

theorem exec_cpy_of_ready (hready : OpsReady s (planM [dstS f.rd, addrS 1 f.rs1 f.w]) vs) (halign : (sval vs 0).toNat % 64 = 0)
    (hsegs : xlatePieces s .load 64 false false (pagePieces (sval vs 0) 128 0) = .ok segs) (hslot : freeCopySlot s s.cur.core = some k)
    (hissue : issueReady s .load false false segs = true) (hpoison : poisonIn s segs = none) (hfree : FreeS s f.rd) (hroom : RoomFor s)
    (hcb : (cpyDesc s segs).sfmt = 6 → (curCtx s).cbBusy = 0) :
    exec (.cpy f) s = .next (completed (.cpy f) (planM [dstS f.rd, addrS 1 f.rs1 f.w])
      (deliverFrom (cpyStarted s f.rd segs k) copyUnit (scalarDest s f.rd)
        ((copyHandle (getCopy (cpyStarted s f.rd segs k) s.cur.core k) k).setWidth 2048)) .seq) := by
  have haligned : aligned (sval vs 0) 64 = .ok () := if_pos halign
  have htable : enterTable s segs = .ok () := by
    unfold enterTable tableRoom tableFull
    rw [if_pos]
    simp [show ¬ 32 ≤ tableCount s s.cur.core from Nat.not_le.mpr hroom]
  have hclean : checkPoison s (sval vs 0) segs = .ok () := by
    unfold checkPoison
    rw [hpoison]
  rw [exec_cpy, execCpy]
  refine perform_completes _ _ hready ?_
  dsimp only
  rw [haligned, hslot, hsegs]
  refine (if_neg (by rw [hissue]; decide)).trans ?_
  rw [htable]
  show (checkPoison s (sval vs 0) segs >>= _) = _
  rw [hclean]
  refine (ite_cbReady hcb).trans ?_
  show (emptyReg (cpyRead s segs).2 f.rd >>= _) = _
  rw [emptyReg_free (freeS_cpyRead hfree)]
  refine (if_neg ?_).trans rfl
  show ¬ (!_ && tableFull (emptied (cpyRead s segs).2 f.rd) s.cur.core) = true
  rw [roomFor_cpyRead hroom, Bool.and_false]
  exact Bool.false_ne_true

end

/-! #### The copy accepted -/

/-- The engine with a copy in a slot, before a fault of its descriptor is reported. -/
def copyAccepted (s : State) (n k : Nat) (c : Copy) : State :=
  dropBufs (dropMisses (setCopy { s with nextId := s.nextId + 1 } n k c) (.copy n k)) n c.writes

theorem startCopy_eq {n : Nat} (hn : n < 1024) (s : State) (k : Nat) (c : Copy) : startCopy s n k c =
    if !copyFmt c.desc.sfmt || !copyFmt c.desc.dfmt then reportCopy (copyAccepted s n k c) n k 0 else copyAccepted s n k c := by
  unfold startCopy copyAccepted
  dsimp only
  rw [if_pos hn]

theorem dropBufs_keeps {α : Type} (view : State → α) (hview : ∀ s n (bs : Core → List RowBuf), view (modCore s n (fun c => { c with rowBufs := bs c })) = view s)
    (s : State) (n : Nat) (ts : List Tile) : view (dropBufs s n ts) = view s := by
  unfold dropBufs
  split
  · rfl
  · exact hview s n _

theorem dropMisses_keeps {α : Type} (view : State → α) (hview : ∀ s f, view (modDev s f) = view s) (s : State) (u : WalkUnit) :
    view (dropMisses s u) = view s := by
  unfold dropMisses
  split
  · rfl
  · exact hview s _

theorem getCopy_copyAccepted {n : Nat} (hn : n < 1024) (s : State) (k : Nat) (c : Copy) : getCopy (copyAccepted s n k c) n k = c := by
  unfold copyAccepted
  rw [dropBufs_keeps (getCopy · n k) (fun s m _ => getCopy_of_core hn (core_modCore_keeps (·.copies) s m _ rfl n) k),
    dropMisses_keeps (getCopy · n k) (fun _ _ => rfl), getCopy_setCopy hn]

theorem getCtx_copyAccepted (s : State) (n k : Nat) (c : Copy) (m x : Nat) : getCtx (copyAccepted s n k c) m x = getCtx s m x := by
  unfold copyAccepted
  rw [dropBufs_keeps (getCtx · m x) (fun s n _ => getCtx_modCore s n _ rfl m x), dropMisses_keeps (getCtx · m x) (fun _ _ => rfl),
    getCtx_setCopy]
  rfl

theorem setCopy_cur (s : State) (n k : Nat) (c : Copy) : (setCopy s n k c).cur = s.cur := by
  unfold setCopy
  split <;> rfl

theorem copyAccepted_cur (s : State) (n k : Nat) (c : Copy) : (copyAccepted s n k c).cur = s.cur := by
  unfold copyAccepted
  rw [dropBufs_keeps State.cur (fun _ _ _ => rfl), dropMisses_keeps State.cur (fun _ _ => rfl), setCopy_cur]

/-- What a change of the device's or the management's registers leaves alone, a driver event leaves alone. -/
theorem driverEvent_keeps {α : Type} (view : State → α) (hdev : ∀ s f, view (modDev s f) = view s) (hmgmt : ∀ s f, view (modMgmt s f) = view s)
    (s : State) (code core ctx aux : Nat) (addr detail : W64) : view (driverEvent s code core ctx aux addr detail) = view s := by
  unfold driverEvent notifyAll
  exact (hmgmt _ _).trans (hdev _ _)

/-- R281: a report to the driver or a COPY_FAULT pending touches no copy. -/
theorem getCopy_reportCopy {n : Nat} (hn : n < 1024) (s : State) (k : Nat) (v : W64) : getCopy (reportCopy s n k v) n k = getCopy s n k := by
  unfold reportCopy
  dsimp only
  have hevent := driverEvent_keeps (getCopy · n k) (fun _ _ => rfl) (fun _ _ => rfl) s
  split
  · exact hevent _ _ _ _ _ _
  · split
    · exact getCopy_modCtx hn k s _ _ _
    · exact hevent _ _ _ _ _ _

theorem reportCopy_cur (s : State) (n k : Nat) (v : W64) : (reportCopy s n k v).cur = s.cur := by
  unfold reportCopy
  dsimp only
  have hevent := driverEvent_keeps State.cur (fun _ _ => rfl) (fun _ _ => rfl) s
  split
  · exact hevent _ _ _ _ _ _
  · split
    · rfl
    · exact hevent _ _ _ _ _ _

/-- R281: a COPY_FAULT of a copy whose firing still runs is pending for its context. -/
theorem pending_reportCopy {s : State} {n k : Nat} (hn : n < 1024) (v : W64) (hfiring : copyFiring s (getCopy s n k) = true)
    (hsnap : (getCopy s n k).snap = none) :
    ∃ a ∈ (getCtx (reportCopy s n k v) (getCopy s n k).core (getCopy s n k).ctx).pending,
      a.cause = cCOPY ∧ a.inst = copyHandle (getCopy s n k) k := by
  unfold reportCopy
  dsimp only
  rw [if_neg (by omega), if_pos (by rw [hfiring, hsnap]; rfl), getCtx_modCtx]
  exact ⟨_, List.mem_append_right _ (List.mem_singleton_self _), rfl, rfl⟩

theorem getCopy_startCopy {n : Nat} (hn : n < 1024) (s : State) (k : Nat) (c : Copy) : getCopy (startCopy s n k c) n k = c := by
  rw [startCopy_eq hn]
  split
  · rw [getCopy_reportCopy hn, getCopy_copyAccepted hn]
  · exact getCopy_copyAccepted hn s k c

theorem startCopy_cur {n : Nat} (hn : n < 1024) (s : State) (k : Nat) (c : Copy) : (startCopy s n k c).cur = s.cur := by
  rw [startCopy_eq hn]
  split
  · rw [reportCopy_cur, copyAccepted_cur]
  · exact copyAccepted_cur s n k c

/-- R73: a copy whose descriptor holds a format code that is not accepted has COPY_FAULT pending. -/
theorem pending_startCopy {s : State} {n k : Nat} {c : Copy} (hn : n < 1024) (hfmt : copyFmt c.desc.sfmt = false ∨ copyFmt c.desc.dfmt = false)
    (hfiring : copyFiring s c = true) (hsnap : c.snap = none) :
    ∃ a ∈ (getCtx (startCopy s n k c) c.core c.ctx).pending, a.cause = cCOPY ∧ a.inst = copyHandle c k := by
  have hcopy := getCopy_copyAccepted hn s k c
  have hruns : copyFiring (copyAccepted s n k c) c = true := by
    unfold copyFiring
    rw [getCtx_copyAccepted]
    exact hfiring
  rw [startCopy_eq hn, if_pos (by rcases hfmt with h | h <;> simp [h])]
  have h := pending_reportCopy (s := copyAccepted s n k c) (k := k) hn 0 (by rw [hcopy]; exact hruns) (by rw [hcopy]; exact hsnap)
  rw [hcopy] at h
  exact h

/-! #### The new copy -/

/-- R271-R274, R278: a breach of the descriptor's rules fails the copy before its first sector. -/
theorem newCopy_of_breach {d : CopyDesc} (h : descBreach d = true) (s : State) (n k : Nat) (base : Copy) :
    (newCopy s n k d base).cause = 1 ∧ (newCopy s n k d base).failed = true ∧ (newCopy s n k d base).nsec = 0 := by
  unfold newCopy
  simp [h]

theorem newCopy_of_sound {d : CopyDesc} (h : descBreach d = false) (hch : d.ch = false) (s : State) {n : Nat} (hn : n < 1024) (k : Nat) (base : Copy) :
    (newCopy s n k d base).cause = 0 ∧ (newCopy s n k d base).failed = false ∧ (newCopy s n k d base).nsec = d.sectors := by
  have hcore : ¬ 1024 ≤ n := by omega
  unfold newCopy
  simp [h, hch, hcore]

/-- R278: a copy that the issuing firing starts is the firing's. -/
theorem copyFiring_of_issuer {s : State} {c : Copy} (hcore : c.core = s.cur.core) (hctx : c.ctx = s.cur.ctx) (hlaunch : c.launch = curLaunch s)
    (hslot : c.slot = curSlot s) (hfir : c.fir = curOrd s) (hfiring : (curCtx s).firing ≠ none) : copyFiring s c = true := by
  obtain ⟨fr, hfr⟩ := Option.ne_none_iff_exists'.mp hfiring
  unfold copyFiring
  rw [hcore, hctx, show getCtx s s.cur.core s.cur.ctx = curCtx s from rfl, hfr, hlaunch, hslot, hfir]
  unfold curLaunch curSlot curOrd
  simp [hfr]

theorem freeCopySlot_lt {s : State} {n k : Nat} (hn : n < 1024) (h : freeCopySlot s n = some k) : k < 128 := by
  unfold freeCopySlot copySlots at h
  rw [if_pos hn, upFrom_zero] at h
  exact List.mem_range.mp (List.mem_of_find?_eq_some h)

/-- R277: a handle holds the copy's generation above its slot. -/
theorem copyHandle_setWidth (c : Copy) {k : Nat} (hgen : c.gen < 2 ^ 32) (hk : k < 128) :
    (copyHandle c k).setWidth 2048 = BitVec.ofNat 2048 (c.gen * 256 + k) := by
  unfold copyHandle w64
  rw [BitVec.setWidth_ofNat_of_le_of_lt (by decide) (by omega)]

/-- R271: the sixteen words of a descriptor, as CPY takes them from what it reads. -/
theorem cpyDesc_eq (s : State) (segs : List Seg) : cpyDesc s segs = CopyDesc.ofWords ((List.range 16).map (fun j => BitVec.ofNat 64
    ((readPieces s { id := 0, agent := .stream s.cur, kind := .load, todo := segs } segs).1.data.toNat / 2 ^ (64 * j)))) := by
  have hdata : (cpyRead s segs).1.data = (readPieces s { id := 0, agent := .stream s.cur, kind := .load, todo := segs } segs).1.data :=
    readPieces_data (r := { atIssue s .load false false with todo := segs }) (q := { id := 0, agent := .stream s.cur, kind := .load, todo := segs }) rfl s segs
  have hword (x : Nat) : w64 (x % 2 ^ 64) = BitVec.ofNat 64 x := BitVec.eq_of_toNat_eq (by simp [w64])
  unfold cpyDesc
  rw [hdata, upFrom_zero]
  simp only [wbits, hword, Nat.shiftRight_eq_div_pow]

theorem pending_completed (i : Instr) (p : Plan) (t : State) (f : Flow) : (curCtx (completed i p t f)).pending = (curCtx t).pending := by
  obtain ⟨qs, ps, h⟩ := curCtx_completed i p t f
  rw [h]

/-- R163: an instruction that waits pops no queue. -/
theorem getCtx_completed_hold (i : Instr) (p : Plan) (t : State) (w : Wait) (n c : Nat) : getCtx (completed i p t (.hold w)) n c = getCtx t n c :=
  getCtx_modStream t _ _ n c

/-- R160: a delivery under way once its instruction has completed. -/
theorem ready_mem_deliverFrom (i : Instr) (p : Plan) (t : State) (unit : Nat) (d : Dest) (v : VReg) (f : Flow) :
    ∃ r ∈ (completed i p (deliverFrom t unit d v) f).reqs, r.kind = .ready ∧ r.dest = d ∧ r.data = v := by
  rw [completed_keeps State.reqs (fun _ _ _ _ => rfl) (fun _ _ _ => rfl)]
  exact ⟨_, List.mem_append_right _ (List.mem_singleton_self _), rfl, rfl, rfl⟩

/-! ### O26 -/

section
variable {s : State} {segs : List Seg} {k : Nat} (rd : BitVec 6) (hn : s.cur.core < 1024)
include hn

theorem getCopy_cpyStarted : getCopy (cpyStarted s rd segs k) s.cur.core k = cpyCopy s rd segs k := getCopy_startCopy hn _ _ _

theorem cpyStarted_cur : (cpyStarted s rd segs k).cur = s.cur := (startCopy_cur hn _ _ _).trans (cpyRead_keeps s segs).2.2.2

theorem cpyCopy_gen : (cpyCopy s rd segs k).gen = ((getCopy s s.cur.core k).gen + 1) % 2 ^ 32 := by
  have hcores : (getCore (cpyRead s segs).2 s.cur.core).copies = (getCore s s.cur.core).copies := by
    unfold getCore
    rw [(cpyRead_keeps s segs).1]
  show ((getCopy (emptied (cpyRead s segs).2 rd) s.cur.core k).gen + 1) % 2 ^ 32 = _
  rw [emptied, modCur, getCopy_modStream hn, getCopy_of_core hn hcores]

/-- R73: a format code that is not accepted leaves COPY_FAULT pending for the context that issued the copy. -/
theorem pending_cpyStarted (hfmt : copyFmt (cpyDesc s segs).sfmt = false ∨ copyFmt (cpyDesc s segs).dfmt = false)
    (hfiring : (curCtx s).firing ≠ none) :
    ∃ a ∈ (curCtx (cpyStarted s rd segs k)).pending, a.cause = cCOPY ∧ a.inst = copyHandle (cpyCopy s rd segs k) k := by
  have hctx : getCtx (emptied (cpyRead s segs).2 rd) s.cur.core s.cur.ctx = curCtx s :=
    (getCtx_modStream _ _ _ _ _).trans (getCtx_of_cores (cpyRead_keeps s segs).1 _ _)
  have hruns : copyFiring (emptied (cpyRead s segs).2 rd) (cpyCopy s rd segs k) = true := by
    rw [← copyFiring_of_issuer (s := s) (c := cpyCopy s rd segs k) rfl rfl rfl rfl rfl hfiring]
    unfold copyFiring
    rw [show getCtx _ (cpyCopy s rd segs k).core (cpyCopy s rd segs k).ctx = curCtx s from hctx]
    rfl
  unfold curCtx
  rw [cpyStarted_cur rd hn]
  exact pending_startCopy hn hfmt hruns rfl

end

/-- Settles O26: CPY's copy is the one its descriptor makes in the lowest free slot; CPYSTAT and CPYCANCEL go by the handle and the state
of the copy it names. -/
theorem copyMembers : Obligations.CopyMembers := by
  unfold Obligations.CopyMembers
  intro s f vs n hn
  refine ⟨?_, fun hready hfree => ⟨exec_cpystat_of_named hready hfree, exec_cpystat_of_unnamed hready⟩,
    fun hready => ⟨fun hgen hslot hended => ?_, fun hgen hslot hcur hlo hhi hissues => ?_, exec_cpycancel_of_unnamed hready⟩⟩
  · intro segs k hready halign hsegs hslot hissue hpoison hfree hroom r d hcb
    have hd : d = cpyDesc s segs := (cpyDesc_eq s segs).symm
    clear_value d
    subst hd
    have hexec := exec_cpy_of_ready hready halign hsegs hslot hissue hpoison hfree hroom hcb
    have hcopy := getCopy_cpyStarted (segs := segs) (k := k) f.rd hn
    have hgen : (cpyCopy s f.rd segs k).gen < 2 ^ 32 := Nat.mod_lt _ (by decide)
    have hhandle := copyHandle_setWidth (cpyCopy s f.rd segs k) hgen (freeCopySlot_lt hn hslot)
    rw [hcopy, hhandle] at hexec
    obtain ⟨h, hmem, hkind, hdest, hdata⟩ := ready_mem_deliverFrom (.cpy f) (planM [dstS f.rd, addrS 1 f.rs1 f.w]) (cpyStarted s f.rd segs k)
      copyUnit (scalarDest s f.rd) (BitVec.ofNat 2048 ((cpyCopy s f.rd segs k).gen * 256 + k)) .seq
    refine ⟨_, cpyCopy s f.rd segs k, h, hexec, (getCopy_completed hn k _ _ _ _).trans hcopy, cpyCopy_gen f.rd hn, rfl, rfl, rfl, rfl, rfl, rfl, rfl,
      fun h => newCopy_of_breach h _ _ _ _, fun h hch => newCopy_of_sound h hch _ hn _ _, fun hfmt hfiring => ?_, hmem, hkind, hdest, hdata,
      (memoryCanonical.2 s _ (.cpy f) rfl (fun _ => nofun) (fun _ => nofun) hexec).1⟩
    rw [pending_completed]
    exact pending_cpyStarted f.rd hn hfmt hfiring
  · refine exec_cpycancel_of_ended hready hgen hslot (hended.imp_right fun h => ?_)
    have hstate : (getCopy s s.cur.core ((sval vs 0).toNat % 256)).state = 0 ∨ 4 < (getCopy s s.cur.core ((sval vs 0).toNat % 256)).state := h
    unfold copyLive
    exact decide_eq_false (by omega)
  · have hexec := exec_cpycancel_of_live hready hgen hslot hcur (decide_eq_true ⟨hlo, hhi⟩) hissues
    have hstream := curStream_completed (.cpycancel f) (planM [srcS 1 f.rs1 f.w]) (cancelled s ((sval vs 0).toNat % 256)) (.hold .interlock)
    rw [curStream_cancelled hn] at hstream
    refine ⟨_, hexec, (getCopy_completed hn _ _ _ _ _).trans (getCopy_cancelled hn _), fun a ha => ?_, ?_, ?_,
      (memoryCanonical.2 s _ (.cpycancel f) rfl (fun _ => nofun) (fun _ => nofun) hexec).1⟩
    · rw [getCtx_completed_hold] at ha
      exact pending_cancelled hn _ a ha
    · rw [hstream]
      rfl
    · rw [hstream]
      rfl

end Sys2Proof.Machine


/-!
# O37: a full product whose A tile lies in the counters' view (R95, R107)

A product that issues first counts its rewrite in the matrix engine's counters, then reads A's elements of the state after that. The
statement does not hold A's address to memory: where A lies in the core's directory view, over these counters, the product taken is not
that of the state before.
-/

namespace Sys2Proof.Machine
open Sys2Proof.Claims

/-! ### A task's place in the table as it issues -/

@[simp] theorem useBuf_tasks (id : Nat) (c : Core) (w : RowBuf) : (useBuf id c w).tasks = c.tasks := by
  unfold useBuf
  split <;> rfl

theorem tasks_foldl_useBuf (id : Nat) (ws : List RowBuf) (c : Core) : (ws.foldl (useBuf id) c).tasks = c.tasks := by
  induction ws generalizing c with
  | nil => rfl
  | cons w ws ih => exact (ih _).trans (useBuf_tasks id c w)

theorem tasks_countMatrix (s : State) (n i m : Nat) : (getCore (countMatrix s n i) m).tasks = (getCore s m).tasks :=
  core_modCore_keeps (·.tasks) s n _ rfl m

theorem tasks_countProducts (s : State) (n : Nat) (t : Task) (m : Nat) : (getCore (countProducts s n t) m).tasks = (getCore s m).tasks := by
  unfold countProducts
  split
  · exact core_modCore_keeps (·.tasks) s n _ rfl m
  · rfl

theorem tasks_useRowBuf (s : State) (n : Nat) (t : Task) (m : Nat) : (getCore (useRowBuf s n t) m).tasks = (getCore s m).tasks := by
  unfold useRowBuf
  split
  · exact core_modCore_keeps (·.tasks) s n _ (tasks_foldl_useBuf _ _ _) m
  · rfl

theorem taskOf_of_tasks {s t : State} {n : Nat} (h : (getCore t n).tasks = (getCore s n).tasks) (id : Nat) : taskOf t n id = taskOf s n id :=
  congrArg (List.find? _) h

/-- A task put in the place of the one with its order number is found there. -/
theorem taskOf_setTask {s : State} {n : Nat} {t v : Task} (h : taskOf s n v.id = some t) : taskOf (setTask s n v) n v.id = some v := by
  have hid : t.id = v.id := by simpa using List.find?_some h
  have hsame : ((fun u : Task => u.id == v.id) ∘ fun u => if u.id = v.id then v else u) = fun u => u.id == v.id := by
    funext u
    by_cases hu : u.id = v.id <;> simp [hu]
  unfold taskOf at h ⊢
  rw [setTask, getCore_modCore, List.find?_map, hsame, h]
  simp [hid]

/-- The table after an issue holds the task as it was carried out. -/
theorem taskOf_issueTask {s : State} {n : Nat} {t : Task} (hfound : taskOf s n t.id = some t) (hissue : canIssueTask s n t = true)
    (hid : (runTask s n t).1.id = t.id) (hran : (getCore (runTask s n t).2 n).tasks = (getCore s n).tasks) :
    taskOf (issueTask s n t.id) n t.id = some (runTask s n t).1 := by
  have hset : taskOf (setTask (runTask s n t).2 n (runTask s n t).1) n t.id = some (runTask s n t).1 := by
    rw [← hid]
    exact taskOf_setTask ((taskOf_of_tasks hran _).trans (by rw [hid, hfound]))
  unfold issueTask
  rw [show (getCore s n).tasks.find? (fun u => u.id == t.id) = some t from hfound]
  dsimp only
  rw [if_pos hissue, ← hset]
  refine taskOf_of_tasks ?_ _
  rw [getCore, cores_addTraffic]
  exact (tasks_useRowBuf _ _ _ _).trans (tasks_countProducts _ _ _ _)

theorem exec_tileTaskIssue_of_awake {s : State} (h : Awake s) (n id : Nat) : exec (.tileTaskIssue n id) s = .next (issueTask s n id) :=
  (exec_tileTaskIssue s).trans (event_of_awake h _)

/-! ### What a full product takes -/

/-- The sums of a product of an A tile at `pa`, of a format without scales, with a slot. -/
def productSums (s : State) (n d k fmt pa len : Nat) : List (W32 × Flags) :=
  mmaTile (accData s n d)
    (fun i => (upFrom 0 32).map fun m => operand fmt (packedElem (physRead s pa len) (fmtWidth fmt) (i * 32 + m)) 0x7F)
    (fun j => (upFrom 0 32).map fun m => slotElem (slotData s n k) m j)

/-- Element (0, 0) is the product's as the statement writes it, of the same state. -/
theorem productSums_first (s : State) (n d k fmt pa : Nat) :
    (productSums s n d k fmt pa (128 * fmtWidth fmt))[0]? = some (productAt s n d k fmt pa 0 0) := by
  have hzip : ∀ f g : Nat → FVal, (((upFrom 0 32).map f).zip ((upFrom 0 32).map g)).map (fun q => mulVals q.1 q.2) =
      (List.range 32).map fun m => mulVals (f m) (g m) := fun _ _ => rfl
  have hfirst : (productSums s n d k fmt pa (128 * fmtWidth fmt))[0]? = some (mmaElem (w32 (packedElem (accData s n d) 32 0))
      ((((upFrom 0 32).map fun m => operand fmt (packedElem (physRead s pa (128 * fmtWidth fmt)) (fmtWidth fmt) (0 * 32 + m)) 0x7F).zip
        ((upFrom 0 32).map fun m => slotElem (slotData s n k) m 0)).map fun q => mulVals q.1 q.2)) := rfl
  have hword : w32 (packedElem (accData s n d) 32 0) = BitVec.ofNat 32 (accData s n d) :=
    BitVec.eq_of_toNat_eq (by simp [packedElem, w32])
  rw [hfirst, hzip, hword]
  simp [productAt, packedElem, Nat.shiftRight_eq_div_pow]

/-- A product run in full: its rewrite is counted, and its sums are those of the state after. -/
theorem runTask_full {s : State} {n d k fmt : Nat} {a : Seg} {t : Task} (hkind : t.kind = .mma d k fmt a none) (hfmt : isMx fmt = false)
    (hpoison : s.dev.poison = []) (hfull : rewriteOf s n d k fmt a.pa [] = .full) :
    runTask s n t =
      ({ t with
          issued := true, result := (productSums (countMatrix s n 0) n d k fmt a.pa a.len).map (·.1), rewrite := .full
          flags := (productSums (countMatrix s n 0) n d k fmt a.pa a.len).foldl (fun f x => f ||| x.2) 0 },
        countPieces (countMatrix s n 0) (missingTiles (getCore s n) a t.kind)) := by
  have hcodes : scaleCodes s fmt 32 none = ([], s) := by simp [scaleCodes, hfmt]
  have hclean : ∀ l, taskPoison (countMatrix s n 0) l = false := fun l => by
    rw [taskPoison, show (countMatrix s n 0).dev.poison = [] from hpoison]
    rfl
  simp only [runTask, hkind]
  simp [hcodes, hfull, hclean, rewriteCounter, productSums]

theorem runTask_full_first {s : State} {n d k fmt : Nat} {a : Seg} {t : Task} (hkind : t.kind = .mma d k fmt a none) (hfmt : isMx fmt = false)
    (hlen : a.len = 128 * fmtWidth fmt) (hpoison : s.dev.poison = []) (hfull : rewriteOf s n d k fmt a.pa [] = .full) :
    (runTask s n t).1.result[0]? = some (productAt (countMatrix s n 0) n d k fmt a.pa 0 0).1 := by
  rw [runTask_full hkind hfmt hpoison hfull, List.getElem?_map, hlen, productSums_first]
  rfl

theorem taskOf_issueTask_full {s : State} {n d k fmt : Nat} {a : Seg} {t : Task} (hkind : t.kind = .mma d k fmt a none)
    (hfmt : isMx fmt = false) (hpoison : s.dev.poison = []) (hfull : rewriteOf s n d k fmt a.pa [] = .full)
    (hfound : taskOf s n t.id = some t) (hissue : canIssueTask s n t = true) :
    taskOf (issueTask s n t.id) n t.id = some (runTask s n t).1 := by
  have hran := runTask_full hkind hfmt hpoison hfull
  refine taskOf_issueTask hfound hissue (by rw [hran]) ?_
  rw [hran, getCore, cores_countPieces]
  exact tasks_countMatrix s n 0 n

/-! ### The counterexample -/

/-- BF16 elements at the counters' place in core 0's directory view, by zeros into accumulator 0. -/
def counterTask : Task :=
  { id := 0, who := { core := 0, ctx := 0, ap := false }, reads := [], writes := []
    kind := .mma 0 0 1 { pa := coreBase 0 + 0xD3000, len := 2048, off := 0 } none }

/-- A device as it powers up but for the task, and for products run in full before it, `x` in number. -/
def counterState (x : Nat) : State := { cores := [(0, { tasks := [counterTask], meCount := [(0, x)] })] }

theorem memByte_counterState (x o : Nat) : memByte (counterState x) (coreBase 0 + o) = unlisted 0 (coreBase 0 + o) := by
  have hhome : homePa (counterState x) (coreBase 0 + o) = coreBase 0 + o := if_neg (by unfold coreBase coreWin hbmEnd; omega)
  rw [memByte, hhome]
  rfl

theorem memRead_counterState (x o len : Nat) (h : o + len ≤ 0xB0200) : memRead (counterState x) (coreBase 0 + o) len = 0 := by
  have hbyte : ∀ i, i < len → memByte (counterState x) (coreBase 0 + o + i) = BitVec.ofNat 8 (0 / 256 ^ i) := fun i hi => by
    have hwindow : coreBase 0 + (o + i) = 0xC000000000000 + (o + i) := rfl
    rw [Nat.add_assoc, memByte_counterState, hwindow, unlisted, if_neg (by omega), if_pos (by omega), Nat.zero_div]
    exact if_neg (by omega)
  rw [memRead_of_memByte _ _ _ 0 hbyte, Nat.zero_mod]

theorem slotFmt_counterState (x : Nat) : slotFmt (counterState x) 0 0 = 1 := by
  have htag : memByte (counterState x) (coreBase 0 + 0xB0200 + 0 * 0x40 + 0x20) = 1 :=
    (memByte_counterState x (0xB0200 + 0 * 0x40 + 0x20)).trans (unlisted_slotTag 0 0 0 0x20 (by decide) (by decide) (by decide))
  rw [slotFmt, slotTag, htag]
  rfl

theorem directoryWord_counterState (x i : Nat) :
    directoryWord (counterState x) 0 (0x3000 + i) = if i < 8 then x else 0 := by
  have hword : (0x3000 + i) / 8 = 0x600 + i / 8 := by omega
  have hcounts : (getCore (counterState x) 0).meCount = [(0, x)] := rfl
  unfold directoryWord
  dsimp only
  rw [hword, if_neg (by omega), if_neg (by omega), if_neg (by omega), hcounts, Nat.add_sub_cancel_left]
  by_cases hi : i < 8
  · rw [if_pos (by omega), if_pos hi, Nat.div_eq_of_lt hi]
    rfl
  · have hother : tget 0 [(0, x)] (i / 8) = 0 := if_neg (by omega)
    rw [if_neg hi, hother, ite_self]

theorem corePlace_directory (n : Nat) {o : Nat} (hlo : 0xD0000 ≤ o) (hhi : o < 0xE0000) : corePlace n o = .directory n (o - 0xD0000) := by
  unfold corePlace
  iterate 11 rw [if_neg (by omega)]
  exact if_pos hhi

theorem place_counters {i : Nat} (hi : i < 2048) : place (coreBase 0 + 0xD3000 + i) = .directory 0 (0x3000 + i) := by
  have hwindow : coreBase 0 + 0xD3000 + i = coreWin + (0xD3000 + i) := Nat.add_assoc _ _ _
  have hoff : (coreWin + (0xD3000 + i)) % 0x400000 = 0xD3000 + i := by unfold coreWin; omega
  have hcore : (coreWin + (0xD3000 + i) - coreWin) / 0x400000 = 0 := by rw [Nat.add_sub_cancel_left]; omega
  have hdir : 0xD3000 + i - 0xD0000 = 0x3000 + i := by omega
  unfold place
  rw [hwindow, if_neg (by unfold hbmEnd coreWin; omega), if_pos (by unfold coreWin; omega), hcore, hoff,
    corePlace_directory 0 (by omega) (by omega), hdir]

/-- Bytes that are a number's digits in base 256, lowest first, read as that number. -/
theorem physRead_of_physByte {s : State} {n : Nat} :
    ∀ {pa x : Nat}, (∀ i, i < n → physByte s (pa + i) = BitVec.ofNat 8 (x / 256 ^ i)) → physRead s pa n = x % 256 ^ n := by
  induction n with
  | zero => exact fun _ => (Nat.mod_one _).symm
  | succ k ih =>
    intro pa x h
    have hfirst : (physByte s pa).toNat = x % 256 := by simpa using congrArg BitVec.toNat (h 0 (Nat.succ_pos k))
    have hrest : physRead s (pa + 1) k = x / 256 % 256 ^ k := ih fun i hi => by
      rw [Nat.add_assoc, Nat.add_comm 1 i, h (i + 1) (Nat.succ_lt_succ hi), Nat.div_div_eq_div_mul, pow_succ']
    rw [physRead, hfirst, hrest, pow_succ', Nat.mod_mul]

/-- The tile is the counter's eight bytes, and zeros after them. -/
theorem physRead_counterState {x : Nat} (hx : x < 2 ^ 64) : physRead (counterState x) (coreBase 0 + 0xD3000) 2048 = x := by
  have hfits : ∀ i, 8 ≤ i → x < 256 ^ i := fun i hi => hx.trans_le (Nat.pow_le_pow_right (n := 256) (by decide) hi)
  have hbyte : ∀ i, i < 2048 → physByte (counterState x) (coreBase 0 + 0xD3000 + i) = BitVec.ofNat 8 (x / 256 ^ i) := fun i hi => by
    have hview : physByte (counterState x) (coreBase 0 + 0xD3000 + i) =
        BitVec.ofNat 8 (directoryWord (counterState x) 0 (0x3000 + i) >>> (8 * ((coreBase 0 + 0xD3000 + i) % 8))) := by
      rw [physByte, place_counters hi]
      rfl
    have hlane : (coreBase 0 + 0xD3000 + i) % 8 = i % 8 := by simp [coreBase, coreWin]; omega
    rw [hview, directoryWord_counterState, hlane, shiftRight_eight_mul]
    by_cases h : i < 8
    · rw [if_pos h, Nat.mod_eq_of_lt h]
    · rw [if_neg h, Nat.zero_div, Nat.div_eq_of_lt (hfits i (by omega))]
  exact (physRead_of_physByte hbyte).trans (Nat.mod_eq_of_lt (hfits _ (by decide)))

/-- The product of the counter as a BF16 value, and of 31 zeros, by the zeros of the slot; the accumulator holds zeros. -/
theorem productAt_counterState {x : Nat} (hx : x < 2 ^ 16) : productAt (counterState x) 0 0 0 1 (coreBase 0 + 0xD3000) 0 0 =
    mmaElem 0 ((List.range 32).map fun m => mulVals (readFloat 1 (if m = 0 then x else 0)) (readFloat 1 0)) := by
  have hacc : accData (counterState x) 0 0 = 0 := memRead_counterState x 0x80000 4096 (by decide)
  have hdata : (slotData (counterState x) 0 0).data = 0 := memRead_counterState x 0xA0000 2048 (by decide)
  have hfmt : (slotData (counterState x) 0 0).fmt = 1 := slotFmt_counterState x
  have hslot : ∀ m, slotElem (slotData (counterState x) 0 0) m 0 = readFloat 1 0 := fun m => by
    simp [slotElem, hdata, hfmt, packedElem, operand, isMx]
  have htile : physRead (counterState x) (coreBase 0 + 0xD3000) (128 * 16) = x := physRead_counterState (by omega)
  have helem : ∀ m, x / 2 ^ (16 * m) % 2 ^ 16 = if m = 0 then x else 0 := fun m => by
    by_cases hm : m = 0
    · rw [if_pos hm, hm, Nat.mul_zero, pow_zero, Nat.div_one, Nat.mod_eq_of_lt hx]
    · rw [if_neg hm, Nat.div_eq_of_lt (hx.trans_le (Nat.pow_le_pow_right (by decide) (by omega))), Nat.zero_mod]
  have hwidth : fmtWidth 1 = 16 := rfl
  simp only [productAt, hacc, hslot, hwidth, htile, operand, isMx, Nat.zero_mul, Nat.zero_add, helem]
  rfl

theorem product_before : (productAt (counterState 0x7F7F) 0 0 0 1 (coreBase 0 + 0xD3000) 0 0).1 = 0 := by
  rw [productAt_counterState (by decide)]
  decide

theorem product_after : (productAt (counterState 0x7F80) 0 0 0 1 (coreBase 0 + 0xD3000) 0 0).1 = 0x7FC00000 := by
  rw [productAt_counterState (by decide)]
  decide

/-- Refutes O37: its full MMA fails where the A tile is read from core 0's own counters (R107). `0x7F7F` products have been counted, the
greatest finite BF16 value, and the product by zeros is 0; the issue counts one more, `0x7F80`, and infinity by zero is a NaN. -/
theorem not_matrixTasks : ¬ Obligations.MatrixTasks := by
  unfold Obligations.MatrixTasks
  intro h
  have hawake : Awake (counterState 0x7F7F) := rfl
  have hissue : canIssueTask (counterState 0x7F7F) 0 counterTask = true := by decide
  have hfound : taskOf (counterState 0x7F7F) 0 counterTask.id = some counterTask := by decide
  have hfull : rewriteOf (counterState 0x7F7F) 0 0 0 1 (coreBase 0 + 0xD3000) [] = .full := by decide
  have hcounted : countMatrix (counterState 0x7F7F) 0 0 = counterState 0x7F80 := by decide
  obtain ⟨-, hmma⟩ := (h (counterState 0x7F7F) 0 counterTask hawake hfound).1 hissue
  obtain ⟨u, v, hexec, hv, -, -, -, hresult, -⟩ := hmma 0 0 1 _ rfl rfl rfl rfl hfull
  obtain rfl : issueTask (counterState 0x7F7F) 0 counterTask.id = u :=
    Host.Outcome.next.inj ((exec_tileTaskIssue_of_awake hawake 0 counterTask.id).symm.trans hexec)
  obtain rfl : (runTask (counterState 0x7F7F) 0 counterTask).1 = v :=
    Option.some_inj.mp ((taskOf_issueTask_full rfl rfl rfl hfull hfound hissue).symm.trans hv)
  have htaken := runTask_full_first (n := 0) (t := counterTask) rfl rfl rfl rfl hfull
  rw [hcounted] at htaken
  have hsame := htaken.symm.trans (hresult 0 0 (by decide) (by decide))
  rw [product_before, product_after] at hsame
  exact absurd hsame (by decide)

end Sys2Proof.Machine
